-- ==== Sys2Proof/Word.lean ====
section
/-!
DEFINITION. The words the PN9440's registers, links and memories are made of, and the plainest operations on them.
-/

namespace Sys2Proof

/-- A 32-bit state word, BAR0 register or mailbox word. -/
abbrev Word := BitVec 32

/-- One byte of the Granary, of a packet payload or of a driver-bus frame. -/
abbrev Byte := BitVec 8

/-- A sparse table: number and value pairs, in rising order of number, holding no entry that equals the value an
absent number stands for. -/
abbrev Tab (α : Type) := List (Nat × α)

/-- The value of a two's complement number of `w` bits. -/
def signed (w n : Nat) : Int := if n % 2 ^ w < 2 ^ (w - 1) then (n % 2 ^ w : Int) else (n % 2 ^ w : Int) - 2 ^ w

/-- The two's complement code of `i` in `w` bits. -/
def unsigned (w : Nat) (i : Int) : Nat := (i % 2 ^ w).toNat

/-- The quotient rounded up. -/
def ceilDiv (a b : Nat) : Nat := (a + b - 1) / b

/-- The quotient rounded to nearest, halves upwards. -/
def roundDiv (a b : Nat) : Nat := (2 * a + b) / (2 * b)

/-- `roundDiv` on integers. -/
def roundDivI (a : Int) (b : Nat) : Int := (2 * a + b) / (2 * b)

/-- `x` limited to the range `lo` to `hi`. -/
def clampI (x lo hi : Int) : Int := max lo (min x hi)

/-- Saturation to 32-bit two's complement (R222). -/
def sat32 (x : Int) : Int := clampI x (-2147483648) 2147483647

end Sys2Proof
end

