-- ==== Sys2Proof/Syntax.lean ====
section
/-!
DEFINITION. The commands that act on the PN9440 from outside: one constructor for each row of the table of operations
and events, in the table's order. Operands carry what the outside world brings: the interface and the value of a write,
the bits of a message, a sample, the unit that a condition has come about on. Numbers of heads, groups, banks and the
other units are bounded by their type.
-/

namespace Sys2Proof

/-- The interface a host access comes by (R294, MB_INFO.iface). -/
inductive Iface where
  | pcie | spi
  deriving DecidableEq, Repr

/-- What a start finds outside the die (R347, R352): whether SPIT_CS_N is held low, the channels that fail training,
the outputs' delay-line measurements that fail (R338), whether a root-cellar write fails, whether the firmware reaches
RUNNING, the ms from reset to RUNNING, and whether the write window of the non-volatile stores stays open (R329). -/
structure StartEnv where
  spiHeld : Bool
  dramFail : BitVec 8
  edgeFail : BitVec 37
  cellarWriteFails : Bool
  firmwareRuns : Bool
  startMs : Nat
  nvOpen : Bool
  deriving DecidableEq, Repr

/-- The four words of one flip-queue slot (R63). -/
inductive SlotReg where
  | baseLo | baseHi | stride | gen
  deriving DecidableEq, Repr

/-- One sample of the three inputs of a light sensor triad (R204, R208): its tick after the light-on of the MEASURE slot, and
the codes. -/
structure TriadSample where
  at0 : Nat
  code0 : BitVec 16
  code1 : BitVec 16
  code2 : BitVec 16
  deriving DecidableEq, Repr

/-- What one light sensor triad samples in a MEASURE slot (R208). -/
structure TriadReading where
  triad : Fin 4
  samples : List TriadSample
  deriving DecidableEq, Repr

/-- One attempt at a calibration instance (R334): the values of the two measurements. -/
structure CalMeasure where
  unit : Nat
  first : List Int
  second : List Int
  deriving DecidableEq, Repr

/-- What one step of a Gleaner task meets (R386, R390): the unit number, the kind (0 passed, 1 failure, 2 skipped,
3 preempted), the location and the measured value, whether it is the last step of the pass, and the codes converted: the zero, the
reference and its calibrated value (ADC_REF), or the three inputs of the triad (DARK_CHECK). -/
structure GleanerStep where
  unit : Nat
  kind : Nat
  location : Nat
  measured : Nat
  last : Bool
  codes : List Int
  deriving DecidableEq, Repr

/-- The commands. -/
inductive Instr where
  | por
  | rstN
  | resetRelease (env : StartEnv)
  | watchdogExpiry
  | startStable
  | devResetDelayExpiry
  | pciePerstRelease
  | d3hotEntry
  | functionLevelReset
  | hotReset
  | linkDown
  | replicaMeasurement (slowestPs : Nat)
  | avsbusTransactionFail
  | avsRetry (ok : Bool)
  | stateWordWrite (i : Iface) (size : Nat) (off : Nat) (v : Word)
  | clearCounts (i : Iface) (idx : BitVec 24) (v : Word)
  | blockEnable (i : Iface) (idx : BitVec 24) (v : Word)
  | headEnable (i : Iface) (h : Fin 4) (v : Word)
  | headDisable (i : Iface) (h : Fin 4) (v : Word)
  | ingestEnable (i : Iface) (p : Fin 2) (v : Word)
  | retrain (i : Iface) (port : Fin 6) (v : Word)
  | rasterEnable (i : Iface) (g : Fin 4) (v : Word)
  | monitorEnable (i : Iface) (v : Word)
  | laneBlockLock (port : Fin 6) (lane : Fin 42) (blocks : List (BitVec 132))
  | laneLossOfLock (port : Fin 6) (lane : Fin 42) (blocks : List (BitVec 132))
  | amColumn (port : Fin 6) (column : List (BitVec 132))
  | trainingTimeout (port : Fin 6)
  | tallyLockAcquired (h : Fin 4)
  | tallyLoss (h : Fin 4)
  | capsReceive (h : Fin 4) (chars : List (BitVec 9))
  | statusPacket (h : Fin 4) (chars : List (BitVec 9))
  | cmdStatusTimeout (h : Fin 4) (ctag : BitVec 16)
  | loadTimingTimeout (h : Fin 4)
  | eqReq (h : Fin 4) (arg : BitVec 48) (crc : Byte)
  | eqDone (h : Fin 4) (arg : BitVec 48) (crc : Byte)
  | deskewDone (h : Fin 4) (arg : BitVec 48) (crc : Byte)
  | laneLock (h : Fin 4) (arg : BitVec 48) (crc : Byte)
  | laneHealth (h : Fin 4) (arg : BitVec 48) (crc : Byte)
  | laneMapSwitch (h : Fin 4)
  | bandOk (h : Fin 4) (arg : BitVec 48) (crc : Byte)
  | bandErr (h : Fin 4) (arg : BitVec 48) (crc : Byte)
  | bandStale (h : Fin 4) (arg : BitVec 48) (crc : Byte)
  | lineErr (h : Fin 4) (arg : BitVec 48) (crc : Byte)
  | fault (h : Fin 4) (arg : BitVec 48) (crc : Byte)
  | bandTallyTimeout (h : Fin 4) (band : Fin 32)
  | receiveBadHeader (p : Fin 2) (lane : Fin 17) (column : List (BitVec 132))
  | videoLine (p : Fin 2) (header : BitVec 128) (payload : List Byte) (trailer : BitVec 128) (room : Bool)
  | packetBoundary (h : Fin 4)
  | resetColumn (h : Fin 4) (band : Fin 32) (gap : Fin 4096)
  | lineStartColumn (h : Fin 4)
  | frameBoundary (g : Fin 4)
  | fetchStart (g : Fin 4)
  | bandTagCheck (g : Fin 4) (band : Fin 32)
  | lineBoundary (g : Fin 4)
  | pixelDue (g : Fin 4) (x y : Nat) (supplied : BitVec 4)
  | lastActiveLineEnd (g : Fin 4)
  | crcLearn (i : Iface) (g : Fin 4) (v : Word)
  | fqSubmit (i : Iface) (q : Fin 16) (v : Word)
  | fqSlotWrite (i : Iface) (q : Fin 16) (slot : Fin 8) (reg : SlotReg) (v : Word)
  | fqSlotRegister (i : Iface) (q : Fin 16) (slot : Fin 8) (v : Word)
  | fqSlotUnregister (i : Iface) (q : Fin 16) (slot : Fin 8) (v : Word)
  | fqRetiredPop (i : Iface) (q : Fin 16)
  | colourPipelinePixel (h : Fin 4) (x y : Nat) (r g b : BitVec 16)
  | cellRowComplete (h : Fin 4) (m : Nat)
  | threshPixel (h : Fin 4) (x y : Nat)
  | bandCopyReady (h : Fin 4) (band : Fin 32)
  | decisionInstant (h : Fin 4) (band : Fin 32)
  | slotStart (h : Fin 4) (band : Fin 32)
  | edgeInstant (out : Fin 136)
  | diagnosisSample (n : Fin 64) (code : BitVec 12)
  | measureSlotEnd (h : Fin 4) (band : Fin 32) (readings : List TriadReading)
  | ccLearn (i : Iface) (g : Fin 4) (v : Word)
  | triadClearSuspect (i : Iface) (t : Fin 4) (v : Word)
  | sweepStart (h : Fin 4) (gap : Fin 4096) (am : Bool)
  | crossingMiss (h : Fin 4)
  | ilkNFall (lowNs : Option Nat)
  | lenArm (i : Iface) (h : Fin 4) (v : Word)
  | lenForceOff (i : Iface) (h : Fin 4) (v : Word)
  | loopSample (l : Fin 64) (raw : Word)
  | loopEvaluation (l : Fin 64)
  | outputInstant (l : Fin 64)
  | loopClearFault (i : Iface) (l : Fin 64) (v : Word)
  | pgTargetWrite (i : Iface) (g : Fin 8) (v : Word)
  | injectorStart (i : Iface) (k : Fin 4) (v : Word)
  | injectorStop (i : Iface) (k : Fin 4) (v : Word)
  | injectionEnd (k : Fin 4)
  | captureArm (i : Iface) (v : Word)
  | captureAbort (i : Iface) (v : Word)
  | captureFillEnd
  | latchAll (g : Fin 4)
  | telemPoll (p : Fin 8)
  | telem (p : Fin 8) (frame : List Byte) (phase : Fin 8)
  | pmbusTransactionFail (b : Fin 8)
  | ack (p : Fin 8) (frame : List Byte)
  | ident (p : Fin 8) (frame : List Byte) (phase : Fin 8)
  | zoneFaults (p : Fin 8) (frame : List Byte) (phase : Fin 8)
  | fwQuery (p : Fin 8) (frame : List Byte)
  | fwCheck (p : Fin 8) (frame : List Byte)
  | dbResponseTimeout (p : Fin 8)
  | driverVersionTimeout (p : Fin 8) (addr : BitVec 7)
  | stringClearFault (i : Iface) (n : Fin 64) (v : Word)
  | bankRearm (i : Iface) (b : Fin 8) (v : Word)
  | fadeIn (i : Iface) (b : Fin 8)
  | fadeOut (i : Iface) (b : Fin 8)
  | standby (i : Iface) (b : Fin 8)
  | breathe (i : Iface) (b : Fin 8)
  | zoneStep (z : Fin 4) (band : Fin 32) (row : Fin 16)
  | zoneSwap (z : Fin 4) (band : Fin 32)
  | zoneClearFault (i : Iface) (c : Fin 40960) (v : Word)
  | monitorRefresh
  | dsiTeEdge (falling : Bool)
  | teTimeout
  | granaryRequest (r : Fin 37) (addr : BitVec 40) (write : Bool) (fill : Fin 9) (data : List Byte)
  | subchannelCommandIssue (ch : Fin 8) (sub : Fin 2)
  | idleDrain (ch : Fin 8) (sub : Fin 2)
  | readDecode (r : Fin 37) (addr : BitVec 40) (symbols : List (BitVec 16))
  | alertN (ch : Fin 8) (rank : Fin 4) (addr : BitVec 40) (persists : Bool)
  | refreshTick (ch : Fin 8) (burst : Bool)
  | mr4Poll (ch : Fin 8) (op : List (BitVec 3)) (readbackBad : BitVec 4)
  | zqCalibration
  | rhWindowEnd (ch : Fin 8) (bank : Fin 64)
  | migrationLineCopy (ch : Fin 8) (symbols : List (BitVec 16))
  | bar2Read (i : Iface) (off : BitVec 30) (size : Nat)
  | bar2Write (i : Iface) (off : BitVec 30) (data : List Byte)
  | spiRead (addr : Word) (count : Byte) (early : Bool)
  | spiQuadRead (addr : Word) (count : Byte) (early : Bool)
  | spiWrite (addr : Word) (count : Byte) (data : List Byte) (crc : BitVec 16) (early : Bool)
  | spiQuadWrite (addr : Word) (count : Byte) (data : List Byte) (crc : BitVec 16) (early : Bool)
  | readStatus
  | readId
  | spiUnknownOpcode (op : Byte)
  | mailboxDoorbell (i : Iface) (m : Fin 8) (v : Word)
  | mailboxAck (i : Iface) (m : Fin 8) (v : Word)
  | mailboxAbort (i : Iface) (m : Fin 8) (v : Word)
  | mbStatusRead (i : Iface) (m : Fin 8)
  | mailboxCommandComplete (m : Fin 8)
  | devPing (m : Fin 8)
  | devInfo (m : Fin 8)
  | devReset (m : Fin 8)
  | devFence (m : Fin 8)
  | devStateWrite (m : Fin 8)
  | headCmd (m : Fin 8)
  | seqLoad (m : Fin 8)
  | tsLoadTable (m : Fin 8)
  | lmLoadTable (m : Fin 8)
  | monDcs (m : Fin 8)
  | lightFade (m : Fin 8)
  | lightClearFault (m : Fin 8)
  | lightRearm (m : Fin 8)
  | znClearFault (m : Fin 8)
  | ceMove (m : Fin 8)
  | ceCaptureRead (m : Fin 8)
  | memDma (m : Fin 8) (n : Nat) (host : List Byte) (hostOk : Bool)
  | memFill (m : Fin 8) (n : Nat)
  | memSpare (m : Fin 8)
  | memSelfRefresh (m : Fin 8)
  | memErrlog (m : Fin 8)
  | calRun (m : Fin 8) (measures : List CalMeasure)
  | calRead (m : Fin 8)
  | fwStage (m : Fin 8)
  | fwApply (m : Fin 8)
  | fwConfirm (m : Fin 8) (sectors : Nat) (flashOk : Bool)
  | fwRollback (m : Fin 8)
  | fwFlashErase (m : Fin 8)
  | fwFlashWrite (m : Fin 8)
  | setSave (m : Fin 8)
  | setExport (m : Fin 8)
  | setImport (m : Fin 8)
  | idRead (m : Fin 8)
  | idAttest (m : Fin 8)
  | idCert (m : Fin 8)
  | glRun (m : Fin 8)
  | glResults (m : Fin 8)
  | testEvent (m : Fin 8)
  | evLatchWrite (i : Iface) (g : Fin 8) (v : Word)
  | evEnableWrite (i : Iface) (g : Fin 8) (v : Word)
  | msixVectorUnmask (vec : Fin 32)
  | shAllocRead (i : Iface)
  | shValueWrite (i : Iface) (n : Fin 14) (v : Word)
  | sheafCommit (i : Iface) (n : Fin 14)
  | sheafValidate (n : Fin 16)
  | sheafAbort (i : Iface) (n : Fin 14)
  | sheafRelease (i : Iface) (n : Fin 14)
  | sheafApply (n : Fin 16)
  | sheafCompletion (n : Fin 16)
  | sfAcceptance (acceptUs : Nat)
  | handoverTimeout
  | sensorSample (s : Fin 36) (raw : Int) (convFault : Bool)
  | sensorAutoRestore (s : Fin 36)
  | sensorClearSuspect (i : Iface) (s : Fin 36) (v : Word)
  | offsetRecord (s : Fin 36)
  | trackedDwellExpiry (bank : Option (Fin 8))
  | budgetUpdate
  | throttleHoldEnd
  | nvWindowOpen
  | edgeTrack (unit : Fin 37) (measure : CalMeasure)
  | edgeTrackSwitch (unit : Fin 37)
  | gleanerStep (task : Fin 8) (s : GleanerStep)
  | gleanerResume (ch : Fin 8)
  | tapReset
  | extest (cells : List Bool)
  | idcode
  | samplePreload (cells : List Bool)
  | extestPulse
  | extestTrain
  | clamp
  | highz
  | bypass (code : Byte)
  | configurationSpaceWrite (memory master msix : Bool) (leaveD3 : Bool)
  | pcieLinkUp (gen : Fin 4) (width : Fin 3)
  | dcsReadResponse (dataType : Byte) (payload : List Byte)
  | dcsResponseTimeout
  | moveTimeout (m : Fin 8)
  deriving DecidableEq, Repr

end Sys2Proof
end

