-- ==== Sys2Proof/Decode.lean ====
section
/-!
DEFINITION. Reading a command from a word. No row of the table of operations gives a command bits (log 2).
-/

namespace Sys2Proof

/-- The command that a word spells by the table's bits: none. -/
def decodeTableWord (_nbits _w : Nat) : Option Instr := none

end Sys2Proof
end

