-- ==== Sys2Proof/Config.lean ====
section
/-!
DEFINITION. What the spec leaves to an implementation, or states by reference to another standard, as constants
without a body: nothing can be proved of their values. Each is named in the assumption log.
-/

namespace Sys2Proof.Config

/-- The SM3 digest (GB/T 32905) of a run of bytes, as 32 bytes; the spec names the standard only (R357). Log 10. -/
opaque sm3 : List Byte → List Byte

/-- Whether an SM2 signature (GB/T 32918.2) verifies: public key, message, signature (R357, R378). Log 10. -/
opaque sm2Verify : List Byte → List Byte → List Byte → Bool

/-- The signature that the device key makes of a message (R382). Log 10. -/
opaque sm2Sign : List Byte → List Byte

/-- The Umnath image key of an index (R357). Log 10. -/
opaque umnathKey : Nat → List Byte

/-- Whether the fuses revoke an Umnath image key (R357). Log 10. -/
opaque keyRevoked : Nat → Bool

/-- The customer-key digest in the fuses, where there is one (R357). Log 10. -/
opaque customerDigest : Option (List Byte)

/-- The device certificate and the production certificate, DER-encoded (R380). Log 10. -/
opaque certificates : List Byte × List Byte

/-- Whether the device key and its certificate belong together (R381). Log 10. -/
opaque keyMatches : Bool

/-- The settings that a PN6220 settings file gives, by index and value: none where its header or CRC is wrong. The spec
does not give that file's layout nor the counterparts of its settings (R374). Log 10. -/
opaque pn6220 : List Byte → Option (List (Nat × Nat))

/-- cos(2 pi a/b) in units of 2^-30; the spec states no rounding of the device's cosine (R169). Log 11. -/
opaque cosine : Nat → Nat → Int

/-- sin(2 pi a/b) in units of 2^-30 (R234). Log 11. -/
opaque sine : Nat → Nat → Int

/-- f_start * (f_stop/f_start)^(n/duration), in 0.01 Hz (R234). Log 11. -/
opaque logSweep : Nat → Nat → Nat → Nat → Nat

/-- The temperature in 0.125 degC of an NTC of resistance, ohm25 and beta (R318). Log 11. -/
opaque ntc : Nat → Nat → Nat → Int

/-- A value that the spec leaves open, drawn by a counter of State. Log 12. -/
opaque freeValue : Nat → Nat

end Sys2Proof.Config
end

