-- ==== Sys2Proof/Machine/FieldTypes.lean ====
section
/-!
DEFINITION. The kinds of access, range rule and block that the field tables of the spec give a field, and the rows of
the field map.
-/

namespace Sys2Proof.Machine

/-- A field's place: the number of its word, its lowest bit and its width. -/
structure Field where
  key : Nat
  lo : Nat
  width : Nat
  deriving DecidableEq, Repr

/-- The access codes of "Scope and conventions". -/
inductive Acc where
  | ro | rw | w1c | wo | so
  deriving DecidableEq, Repr

/-- The range rule of one field. -/
inductive Chk where
  /-- every value is taken -/
  | any
  /-- 0 is refused with E_ZERO -/
  | nonzero
  /-- 0 is refused with E_ZERO, other values outside with E_RANGE -/
  | nonzeroRange (lo hi : Nat)
  /-- values outside are refused with E_RANGE -/
  | range (lo hi : Nat)
  /-- values outside are refused with E_BAD_ARG -/
  | badOutside (lo hi : Nat)
  /-- 0 to 3 and 7 are taken, 4 to 6 are refused with E_RANGE (R14, R156) -/
  | group
  /-- the low bits must be 0, or E_BAD_ARG (R56, R95, R107) -/
  | aligned (bits : Nat)
  deriving DecidableEq, Repr

/-- The blocks whose words the chapters lay out. -/
inductive Blk where
  | topology | avs | ingest | rvh | layer | raster | crc | monitor | cpGroup | cpLut | cpHead | ts | sq | sqWin | lm
  | lmCode | string | bank | dbGlobal | dbPort | zoneCtx | matrix | triad | ccGroup | ccBank | loop | pg | lw | inj
  | cap | lane | granary | grChan | grReq | thermal | sensor | cal | calInst | fw | gl
  deriving DecidableEq, Repr

/-- One field of a word: name, place, access, reset value, range rule, whether clear_counts clears it, whether it is
one of the "OFF only" Granary fields (R264). -/
structure FieldRow where
  name : String
  lo : Nat
  width : Nat
  acc : Acc
  reset : Nat
  chk : Chk
  count : Bool
  offOnly : Bool
  deriving DecidableEq, Repr

/-- One word of the state map: its first index, the number and spacing of its repetitions, its block, the rule of its
table and its fields. -/
structure WordRow where
  name : String
  base : Nat
  dims : List (Nat × Nat)
  blk : Blk
  rule : Nat
  fields : List FieldRow
  deriving DecidableEq, Repr

end Sys2Proof.Machine
end

