-- ==== Sys2Proof/Machine/FieldMap.lean ====
section
/-!
DEFINITION. The field map: one row for each state word of the state map, with the access code, the reset value and
the range rule of each field, written from the field tables of the spec (the rule that introduces the table is the
last number of a row).
-/

namespace Sys2Proof.Machine

def rows_low : List WordRow := [
  ⟨"HD_TOPOLOGY", 0x40, [], .topology, 14,
    [⟨"head0_group", 0, 3, .so, 0x7, .group, false, false⟩,
     ⟨"head0_mode", 3, 1, .so, 0x0, .any, false, false⟩,
     ⟨"head1_group", 4, 3, .so, 0x7, .group, false, false⟩,
     ⟨"head1_mode", 7, 1, .so, 0x0, .any, false, false⟩,
     ⟨"head2_group", 8, 3, .so, 0x7, .group, false, false⟩,
     ⟨"head2_mode", 11, 1, .so, 0x0, .any, false, false⟩,
     ⟨"head3_group", 12, 3, .so, 0x7, .group, false, false⟩,
     ⟨"head3_mode", 15, 1, .so, 0x0, .any, false, false⟩]⟩,
  ⟨"HD_INGEST_CTRL", 0x100, [(2, 0x10)], .ingest, 52,
    [⟨"enable", 0, 1, .rw, 0x0, .any, false, false⟩,
     ⟨"parity_en", 1, 1, .so, 0x1, .any, false, false⟩,
     ⟨"lanes", 2, 5, .so, 0x10, .nonzeroRange 1 16, false, false⟩,
     ⟨"retrain", 7, 1, .wo, 0x0, .any, false, false⟩,
     ⟨"clear_counts", 8, 1, .wo, 0x0, .any, false, false⟩,
     ⟨"max_attempts", 9, 3, .rw, 0x3, .nonzero, false, false⟩]⟩,
  ⟨"HD_INGEST_STATUS", 0x101, [(2, 0x10)], .ingest, 52,
    [⟨"state", 0, 4, .ro, 0x0, .any, false, false⟩,
     ⟨"lane_lock", 4, 17, .ro, 0x0, .any, false, false⟩,
     ⟨"parity_in_use", 21, 1, .ro, 0x0, .any, false, false⟩,
     ⟨"rebuilt_lane", 22, 5, .ro, 0x0, .any, false, false⟩,
     ⟨"attempts", 27, 3, .ro, 0x0, .any, false, false⟩]⟩,
  ⟨"HD_INGEST_ERRS2", 0x102, [(2, 0x10)], .ingest, 52,
    [⟨"crc_lines", 0, 16, .ro, 0x0, .any, true, false⟩,
     ⟨"missing_lines", 16, 16, .ro, 0x0, .any, true, false⟩]⟩,
  ⟨"HD_INGEST_ERRS3", 0x103, [(2, 0x10)], .ingest, 52,
    [⟨"hdr_errors", 0, 16, .ro, 0x0, .any, true, false⟩,
     ⟨"order_errors", 16, 16, .ro, 0x0, .any, true, false⟩]⟩,
  ⟨"HD_MON0", 0x180, [], .monitor, 82,
    [⟨"enable", 0, 1, .rw, 0x0, .any, false, false⟩,
     ⟨"group", 1, 2, .so, 0x0, .any, false, false⟩,
     ⟨"cmd_mode", 3, 1, .so, 0x0, .any, false, false⟩,
     ⟨"decimate", 4, 2, .so, 0x2, .any, false, false⟩,
     ⟨"rgb10", 6, 1, .so, 0x0, .any, false, false⟩,
     ⟨"lanes", 7, 3, .so, 0x4, .nonzeroRange 1 4, false, false⟩,
     ⟨"refresh_div", 10, 8, .so, 0x2, .nonzero, false, false⟩,
     ⟨"still_div", 18, 8, .so, 0x3c, .nonzero, false, false⟩,
     ⟨"te_falling", 26, 1, .so, 0x0, .any, false, false⟩,
     ⟨"te_timeout", 27, 5, .so, 0x14, .any, false, false⟩]⟩,
  ⟨"HD_MON1", 0x181, [], .monitor, 82,
    [⟨"lane_mbps", 0, 12, .so, 0x9c4, .range 80 2500, false, false⟩]⟩,
  ⟨"HD_MON2", 0x182, [], .monitor, 82,
    [⟨"h_front", 0, 10, .so, 0x10, .any, false, false⟩,
     ⟨"h_sync", 10, 10, .so, 0x10, .any, false, false⟩,
     ⟨"h_back", 20, 10, .so, 0x20, .any, false, false⟩]⟩,
  ⟨"HD_MON3", 0x183, [], .monitor, 82,
    [⟨"v_front", 0, 10, .so, 0x4, .any, false, false⟩,
     ⟨"v_sync", 10, 10, .so, 0x2, .any, false, false⟩,
     ⟨"v_back", 20, 10, .so, 0x8, .any, false, false⟩]⟩,
  ⟨"HD_MON4", 0x184, [], .monitor, 82,
    [⟨"buf_lo", 0, 32, .so, 0x0, .aligned 12, false, false⟩]⟩,
  ⟨"HD_MON5", 0x185, [], .monitor, 82,
    [⟨"buf_hi", 0, 8, .so, 0x0, .any, false, false⟩]⟩,
  ⟨"HD_MON6", 0x186, [], .monitor, 82,
    [⟨"frames_sent", 0, 16, .ro, 0x0, .any, false, false⟩,
     ⟨"te_missed", 16, 16, .ro, 0x0, .any, false, false⟩]⟩,
  ⟨"FW_STAGE0", 0x300, [], .fw, 376,
    [⟨"stage_lo", 0, 32, .rw, 0x0, .aligned 12, false, false⟩]⟩,
  ⟨"FW_STAGE1", 0x301, [], .fw, 376,
    [⟨"stage_hi", 0, 8, .rw, 0x0, .any, false, false⟩]⟩,
  ⟨"FW_STATE", 0x302, [], .fw, 376,
    [⟨"phase", 0, 4, .ro, 0x0, .any, false, false⟩,
     ⟨"pending", 4, 8, .ro, 0x0, .any, false, false⟩,
     ⟨"applied", 12, 8, .ro, 0x0, .any, false, false⟩]⟩,
  ⟨"FW_ACCEPT", 0x303, [], .fw, 376,
    [⟨"accept_us", 0, 16, .ro, 0x0, .any, false, false⟩,
     ⟨"rollbacks", 16, 16, .ro, 0x0, .any, false, false⟩]⟩,
  ⟨"FW_VERSION", 0x304, [], .fw, 376,
    [⟨"staged_version", 0, 32, .ro, 0x0, .any, false, false⟩]⟩]

def rows_a7 : List WordRow := [
  ⟨"TH_AVS_CTRL", 0x70080, [], .avs, 20,
    [⟨"enable", 0, 1, .rw, 0x1, .any, false, false⟩,
     ⟨"target_ps", 4, 12, .rw, 0x4b0, .range 600 1400, false, false⟩,
     ⟨"step_mv", 16, 8, .rw, 0x5, .nonzeroRange 1 20, false, false⟩]⟩,
  ⟨"TH_AVS_LIMITS", 0x70081, [], .avs, 20,
    [⟨"vmin_mv", 0, 10, .rw, 0x2bc, .range 700 850, false, false⟩,
     ⟨"vmax_mv", 16, 10, .rw, 0x352, .range 700 850, false, false⟩]⟩,
  ⟨"TH_AVS_STATUS", 0x70082, [], .avs, 20,
    [⟨"vcore_mv", 0, 10, .ro, 0x302, .any, false, false⟩,
     ⟨"stage_ps", 12, 11, .ro, 0x0, .any, false, false⟩,
     ⟨"at_vmax", 24, 1, .ro, 0x0, .any, false, false⟩,
     ⟨"at_vmin", 25, 1, .ro, 0x0, .any, false, false⟩,
     ⟨"margin_class", 26, 2, .ro, 0x1, .any, false, false⟩,
     ⟨"bus_error", 28, 1, .w1c, 0x0, .any, false, false⟩]⟩,
  ⟨"TH_GLOBAL0", 0x70000, [], .thermal, 330,
    [⟨"knee_c", 0, 8, .rw, 0x5f, .range 0 150, false, false⟩,
     ⟨"slope_pm", 8, 10, .rw, 0x64, .range 0 1000, false, false⟩,
     ⟨"floor_pm", 18, 10, .rw, 0x190, .range 400 1000, false, false⟩]⟩,
  ⟨"TH_GLOBAL1", 0x70001, [], .thermal, 330,
    [⟨"hyst_c", 0, 5, .rw, 0x3, .any, false, false⟩,
     ⟨"dwell_ms", 5, 11, .rw, 0x1f4, .any, false, false⟩,
     ⟨"release_pm", 16, 10, .rw, 0x32, .nonzeroRange 1 1000, false, false⟩,
     ⟨"clear_counts", 26, 1, .wo, 0x0, .any, false, false⟩]⟩,
  ⟨"TH_GLOBAL2", 0x70002, [], .thermal, 330,
    [⟨"alarm_die_c", 0, 8, .rw, 0x64, .any, false, false⟩,
     ⟨"alarm_ext_c", 8, 8, .rw, 0x6e, .any, false, false⟩]⟩,
  ⟨"TH_GLOBAL3", 0x70003, [], .thermal, 330,
    [⟨"die_max", 0, 12, .ro, 0x0, .any, false, false⟩,
     ⟨"budget_pm", 12, 10, .ro, 0x3e8, .any, false, false⟩,
     ⟨"hold", 22, 1, .ro, 0x0, .any, false, false⟩,
     ⟨"nv_window", 23, 1, .ro, 0x0, .any, false, false⟩,
     ⟨"hottest", 24, 6, .ro, 0x0, .any, false, false⟩]⟩,
  ⟨"TH_GLOBAL4", 0x70004, [], .thermal, 330,
    [⟨"die_min", 0, 12, .ro, 0x0, .any, false, false⟩,
     ⟨"die_tracked", 12, 12, .ro, 0x0, .any, false, false⟩]⟩,
  ⟨"TH_GLOBAL5", 0x70005, [], .thermal, 330,
    [⟨"exclusions", 0, 16, .ro, 0x0, .any, true, false⟩,
     ⟨"nv_deferred", 16, 16, .ro, 0x0, .any, true, false⟩]⟩,
  ⟨"TH_SENSOR0", 0x70100, [(36, 0x4)], .sensor, 330,
    [⟨"nb0", 0, 6, .rw, 0x3f, .any, false, false⟩,
     ⟨"nb1", 6, 6, .rw, 0x3f, .any, false, false⟩,
     ⟨"nb2", 12, 6, .rw, 0x3f, .any, false, false⟩,
     ⟨"nb3", 18, 6, .rw, 0x3f, .any, false, false⟩,
     ⟨"enable", 24, 1, .rw, 0x0, .any, false, false⟩,
     ⟨"clear_suspect", 25, 1, .wo, 0x0, .any, false, false⟩,
     ⟨"auto_restore", 26, 1, .rw, 0x1, .any, false, false⟩]⟩,
  ⟨"TH_SENSOR1", 0x70101, [(36, 0x4)], .sensor, 330,
    [⟨"value", 0, 12, .ro, 0x0, .any, false, false⟩,
     ⟨"reading", 12, 12, .ro, 0x0, .any, false, false⟩]⟩,
  ⟨"TH_SENSOR2", 0x70102, [(36, 0x4)], .sensor, 330,
    [⟨"offset", 0, 12, .ro, 0x0, .any, false, false⟩,
     ⟨"trusted", 12, 1, .ro, 0x0, .any, false, false⟩,
     ⟨"cause", 13, 2, .ro, 0x0, .any, false, false⟩,
     ⟨"suspect_count", 16, 16, .ro, 0x0, .any, false, false⟩]⟩,
  ⟨"TH_SENSOR3", 0x70103, [(36, 0x4)], .sensor, 330,
    [⟨"type", 0, 1, .rw, 0x0, .any, false, false⟩,
     ⟨"beta_k", 1, 13, .rw, 0xf6e, .range 1000 8000, false, false⟩,
     ⟨"ohm25", 14, 18, .rw, 0x2710, .range 100 262143, false, false⟩]⟩]

def rows_head1 : List WordRow := [
  ⟨"HD_RVH_CTRL", 0x10100, [(4, 0x4000)], .rvh, 52,
    [⟨"enable", 0, 1, .rw, 0x0, .any, false, false⟩,
     ⟨"lanes", 1, 6, .so, 0x28, .nonzeroRange 1 40, false, false⟩,
     ⟨"start_preset", 7, 3, .rw, 0x4, .any, false, false⟩,
     ⟨"use_stored_eq", 10, 1, .rw, 0x1, .any, false, false⟩,
     ⟨"max_resend", 11, 2, .rw, 0x2, .any, false, false⟩,
     ⟨"spare_auto", 13, 1, .rw, 0x1, .any, false, false⟩,
     ⟨"retrain", 14, 1, .wo, 0x0, .any, false, false⟩,
     ⟨"clear_counts", 15, 1, .wo, 0x0, .any, false, false⟩,
     ⟨"health_thresh", 16, 8, .rw, 0x10, .nonzero, false, false⟩,
     ⟨"max_attempts", 24, 3, .rw, 0x3, .nonzero, false, false⟩]⟩,
  ⟨"HD_RVH_STATUS", 0x10101, [(4, 0x4000)], .rvh, 52,
    [⟨"state", 0, 4, .ro, 0x0, .any, false, false⟩,
     ⟨"spare0_for", 4, 6, .ro, 0x3f, .any, false, false⟩,
     ⟨"spare1_for", 10, 6, .ro, 0x3f, .any, false, false⟩,
     ⟨"attempts", 16, 3, .ro, 0x0, .any, false, false⟩,
     ⟨"caps_valid", 19, 1, .ro, 0x0, .any, false, false⟩,
     ⟨"last_retrain", 20, 12, .ro, 0x0, .any, false, false⟩]⟩,
  ⟨"HD_RVH_ERRS2", 0x10102, [(4, 0x4000)], .rvh, 52,
    [⟨"resends", 0, 16, .ro, 0x0, .any, true, false⟩,
     ⟨"band_stale", 16, 16, .ro, 0x0, .any, true, false⟩]⟩,
  ⟨"HD_RVH_ERRS3", 0x10103, [(4, 0x4000)], .rvh, 52,
    [⟨"line_errs", 0, 16, .ro, 0x0, .any, true, false⟩,
     ⟨"tally_errs", 16, 16, .ro, 0x0, .any, true, false⟩]⟩,
  ⟨"HD_RVH_RESULT", 0x10104, [(4, 0x4000)], .rvh, 52,
    [⟨"enable_result", 0, 16, .ro, 0x0, .any, false, false⟩,
     ⟨"last_fault", 16, 16, .ro, 0x0, .any, false, false⟩]⟩]

def rows_head3 : List WordRow := [
  ⟨"HD_LAYER_CTRL", 0x10300, [(4, 0x4000), (4, 0x10)], .layer, 59,
    [⟨"enable", 0, 1, .so, 0x0, .any, false, false⟩,
     ⟨"source", 1, 1, .so, 0x0, .any, false, false⟩,
     ⟨"format", 2, 4, .so, 0x5, .badOutside 1 8, false, false⟩,
     ⟨"alpha_mode", 6, 2, .so, 0x0, .badOutside 0 2, false, false⟩,
     ⟨"yc_matrix", 8, 2, .so, 0x0, .badOutside 0 2, false, false⟩,
     ⟨"yc_full", 10, 1, .so, 0x0, .any, false, false⟩,
     ⟨"ingest_port", 11, 1, .so, 0x0, .any, false, false⟩,
     ⟨"ingest_stream", 12, 2, .so, 0x0, .any, false, false⟩,
     ⟨"watermark", 14, 3, .rw, 0x3, .any, false, false⟩,
     ⟨"ring_count", 17, 4, .so, 0x3, .range 3 8, false, false⟩,
     ⟨"global_alpha", 21, 8, .so, 0xff, .any, false, false⟩,
     ⟨"clear_counts", 29, 1, .wo, 0x0, .any, false, false⟩]⟩,
  ⟨"HD_LAYER_POS", 0x10301, [(4, 0x4000), (4, 0x10)], .layer, 59,
    [⟨"x", 0, 15, .so, 0x0, .any, false, false⟩,
     ⟨"y", 16, 15, .so, 0x0, .any, false, false⟩]⟩,
  ⟨"HD_LAYER_SIZE", 0x10302, [(4, 0x4000), (4, 0x10)], .layer, 59,
    [⟨"width", 0, 14, .so, 0x1e00, .nonzeroRange 1 8192, false, false⟩,
     ⟨"height", 16, 14, .so, 0x10e0, .nonzero, false, false⟩]⟩,
  ⟨"HD_LAYER_RING3", 0x10303, [(4, 0x4000), (4, 0x10)], .layer, 59,
    [⟨"ring_base_lo", 0, 32, .so, 0x0, .aligned 12, false, false⟩]⟩,
  ⟨"HD_LAYER_RING4", 0x10304, [(4, 0x4000), (4, 0x10)], .layer, 59,
    [⟨"ring_base_hi", 0, 8, .so, 0x0, .any, false, false⟩,
     ⟨"ring_stride", 8, 24, .so, 0xb400, .any, false, false⟩]⟩,
  ⟨"HD_LAYER_CNT5", 0x10305, [(4, 0x4000), (4, 0x10)], .layer, 59,
    [⟨"underrun_pix", 0, 32, .ro, 0x0, .any, true, false⟩]⟩,
  ⟨"HD_LAYER_CNT6", 0x10306, [(4, 0x4000), (4, 0x10)], .layer, 59,
    [⟨"buf_gen_mismatch", 0, 16, .ro, 0x0, .any, true, false⟩,
     ⟨"frames_dropped", 16, 16, .ro, 0x0, .any, true, false⟩]⟩,
  ⟨"HD_LAYER_CNT7", 0x10307, [(4, 0x4000), (4, 0x10)], .layer, 59,
    [⟨"frames_repeated", 0, 16, .ro, 0x0, .any, true, false⟩]⟩,
  ⟨"HD_CRC_POS", 0x10380, [(4, 0x4000), (16, 0x4)], .crc, 79,
    [⟨"x", 0, 14, .rw, 0x0, .any, false, false⟩,
     ⟨"y", 16, 14, .rw, 0x0, .any, false, false⟩]⟩,
  ⟨"HD_CRC_SIZE", 0x10381, [(4, 0x4000), (16, 0x4)], .crc, 79,
    [⟨"width", 0, 14, .rw, 0x0, .any, false, false⟩,
     ⟨"height", 16, 14, .rw, 0x0, .any, false, false⟩]⟩,
  ⟨"HD_CRC_EXPECT", 0x10382, [(4, 0x4000), (16, 0x4)], .crc, 79,
    [⟨"expected", 0, 32, .rw, 0x0, .any, false, false⟩]⟩,
  ⟨"HD_CRC_RESULT", 0x10383, [(4, 0x4000), (16, 0x4)], .crc, 79,
    [⟨"result", 0, 32, .ro, 0x0, .any, false, false⟩]⟩,
  ⟨"HD_STILL_CTRL", 0x103c0, [(4, 0x4000)], .crc, 81,
    [⟨"still_frames", 0, 8, .rw, 0x0, .any, false, false⟩]⟩,
  ⟨"HD_STILL_STATUS", 0x103c1, [(4, 0x4000)], .crc, 81,
    [⟨"in_still", 0, 1, .ro, 0x0, .any, false, false⟩,
     ⟨"entries", 16, 16, .ro, 0x0, .any, false, false⟩]⟩,
  ⟨"HD_CRC_STATUS", 0x103c4, [(4, 0x4000)], .crc, 79,
    [⟨"mismatch", 0, 16, .w1c, 0x0, .any, false, false⟩]⟩,
  ⟨"HD_CRC_LEARN", 0x103c5, [(4, 0x4000)], .crc, 79,
    [⟨"learn", 0, 16, .wo, 0x0, .any, false, false⟩]⟩]

def rows_head2 : List WordRow := [
  ⟨"HD_RASTER0", 0x10200, [(4, 0x4000)], .raster, 73,
    [⟨"enable", 0, 1, .rw, 0x0, .any, false, false⟩,
     ⟨"timing_mode", 1, 1, .so, 0x0, .any, false, false⟩,
     ⟨"vrr_layer", 2, 2, .so, 0x0, .any, false, false⟩]⟩,
  ⟨"HD_RASTER1", 0x10201, [(4, 0x4000)], .raster, 73,
    [⟨"h_active", 0, 14, .so, 0x2000, .nonzeroRange 1 8192, false, false⟩]⟩,
  ⟨"HD_RASTER2", 0x10202, [(4, 0x4000)], .raster, 73,
    [⟨"h_front", 0, 10, .so, 0x10, .any, false, false⟩,
     ⟨"h_sync", 10, 10, .so, 0x20, .any, false, false⟩,
     ⟨"h_back", 20, 10, .so, 0x50, .any, false, false⟩]⟩,
  ⟨"HD_RASTER3", 0x10203, [(4, 0x4000)], .raster, 73,
    [⟨"v_active", 0, 14, .so, 0x10e0, .nonzero, false, false⟩]⟩,
  ⟨"HD_RASTER4", 0x10204, [(4, 0x4000)], .raster, 73,
    [⟨"v_front", 0, 10, .so, 0x8, .any, false, false⟩,
     ⟨"v_sync", 10, 10, .so, 0x4, .any, false, false⟩,
     ⟨"v_back", 20, 10, .so, 0x44, .any, false, false⟩]⟩,
  ⟨"HD_RASTER5", 0x10205, [(4, 0x4000)], .raster, 73,
    [⟨"pix_period", 0, 24, .so, 0x2e9f, .nonzeroRange 8738 16777215, false, false⟩]⟩,
  ⟨"HD_RASTER6", 0x10206, [(4, 0x4000)], .raster, 73,
    [⟨"min_lines", 0, 16, .so, 0x1130, .any, false, false⟩,
     ⟨"max_lines", 16, 16, .so, 0x14a0, .any, false, false⟩]⟩,
  ⟨"HD_RASTER_BG", 0x10207, [(4, 0x4000)], .raster, 73,
    [⟨"bg_r", 0, 10, .so, 0x0, .any, false, false⟩,
     ⟨"bg_g", 10, 10, .so, 0x0, .any, false, false⟩,
     ⟨"bg_b", 20, 10, .so, 0x0, .any, false, false⟩]⟩,
  ⟨"HD_RASTER_STATUS", 0x10208, [(4, 0x4000)], .raster, 73,
    [⟨"frame", 0, 16, .ro, 0x0, .any, false, false⟩,
     ⟨"vrr_repeats", 16, 16, .ro, 0x0, .any, false, false⟩]⟩]

def rows_a9 : List WordRow := [
  ⟨"CP_CTRL", 0x90000, [(4, 0x4000)], .cpGroup, 98,
    [⟨"lut_bypass", 0, 1, .so, 0x0, .any, false, false⟩,
     ⟨"lut_bank", 1, 1, .so, 0x0, .any, false, false⟩,
     ⟨"matrix_bypass", 2, 1, .so, 0x0, .any, false, false⟩,
     ⟨"clear_counts", 3, 1, .wo, 0x0, .any, false, false⟩]⟩,
  ⟨"CP_MATRIX", 0x90010, [(4, 0x4000), (9, 0x1)], .cpGroup, 98,
    [⟨"m", 0, 24, .so, 0x0, .any, false, false⟩]⟩,
  ⟨"CP_OFFSET", 0x90019, [(4, 0x4000), (3, 0x1)], .cpGroup, 98,
    [⟨"off", 0, 23, .so, 0x0, .any, false, false⟩]⟩,
  ⟨"CP_CNT20", 0x90020, [(4, 0x4000)], .cpGroup, 98,
    [⟨"clip_low", 0, 32, .ro, 0x0, .any, true, false⟩]⟩,
  ⟨"CP_CNT21", 0x90021, [(4, 0x4000)], .cpGroup, 98,
    [⟨"clip_high", 0, 32, .ro, 0x0, .any, true, false⟩]⟩,
  ⟨"CP_TILE", 0x90400, [(4, 0x4000), (1024, 0x1)], .cpGroup, 98,
    [⟨"entry0", 0, 8, .so, 0x0, .any, false, false⟩,
     ⟨"entry1", 8, 8, .so, 0x0, .any, false, false⟩,
     ⟨"entry2", 16, 8, .so, 0x0, .any, false, false⟩,
     ⟨"entry3", 24, 8, .so, 0x0, .any, false, false⟩]⟩,
  ⟨"CP_LUT", 0x90800, [(4, 0x4000), (3, 0x1100), (4097, 0x1)], .cpLut, 98,
    [⟨"e", 0, 22, .rw, 0x0, .any, false, false⟩]⟩]

def rows_head5 : List WordRow := [
  ⟨"CP_HEAD_CTRL", 0x10500, [(4, 0x4000)], .cpHead, 99,
    [⟨"comp_mask", 0, 3, .so, 0x1, .nonzero, false, false⟩,
     ⟨"split_en", 3, 1, .so, 0x0, .any, false, false⟩,
     ⟨"unif_en", 4, 1, .so, 0x0, .any, false, false⟩,
     ⟨"dither_mode", 5, 2, .so, 0x1, .badOutside 0 2, false, false⟩,
     ⟨"temporal", 7, 1, .so, 0x1, .any, false, false⟩,
     ⟨"dither_bits", 8, 5, .so, 0x10, .nonzeroRange 8 16, false, false⟩,
     ⟨"clear_counts", 13, 1, .wo, 0x0, .any, false, false⟩]⟩,
  ⟨"CP_HEAD_ZONE", 0x10501, [(4, 0x4000)], .cpHead, 99,
    [⟨"zone_w", 0, 10, .so, 0x20, .nonzeroRange 4 1023, false, false⟩,
     ⟨"zone_h", 10, 10, .so, 0x1b, .nonzeroRange 4 1023, false, false⟩,
     ⟨"floor", 20, 12, .so, 0x0, .any, false, false⟩]⟩,
  ⟨"CP_HEAD_SPLIT", 0x10502, [(4, 0x4000)], .cpHead, 99,
    [⟨"fall_max", 0, 12, .so, 0xfff, .nonzero, false, false⟩,
     ⟨"boost", 12, 16, .so, 0x4000, .nonzero, false, false⟩]⟩,
  ⟨"CP_HEAD_PEAK", 0x10503, [(4, 0x4000)], .cpHead, 99,
    [⟨"zone_peak", 0, 22, .so, 0x100000, .nonzero, false, false⟩]⟩,
  ⟨"CP_HEAD_STATUS", 0x10504, [(4, 0x4000)], .cpHead, 99,
    [⟨"lookahead", 0, 10, .ro, 0x0, .any, false, false⟩,
     ⟨"reach_v", 10, 3, .ro, 0x0, .any, false, false⟩,
     ⟨"level_clip", 16, 16, .ro, 0x0, .any, false, false⟩]⟩,
  ⟨"CP_HEAD_CNT", 0x10505, [(4, 0x4000)], .cpHead, 99,
    [⟨"clip_pix", 0, 32, .ro, 0x0, .any, true, false⟩]⟩,
  ⟨"CP_HEAD_UNIF6", 0x10506, [(4, 0x4000)], .cpHead, 99,
    [⟨"unif_lo", 0, 32, .so, 0x0, .aligned 12, false, false⟩]⟩,
  ⟨"CP_HEAD_UNIF7", 0x10507, [(4, 0x4000)], .cpHead, 99,
    [⟨"unif_hi", 0, 8, .so, 0x0, .any, false, false⟩]⟩,
  ⟨"CP_HEAD_KERNEL", 0x10510, [(4, 0x4000), (16, 0x1)], .cpHead, 99,
    [⟨"th", 0, 16, .so, 0x0, .any, false, false⟩,
     ⟨"tv", 16, 16, .so, 0x0, .any, false, false⟩]⟩]

def rows_head6 : List WordRow := [
  ⟨"TS_CTRL", 0x10600, [(4, 0x4000)], .ts, 116,
    [⟨"table_bank", 0, 1, .so, 0x0, .any, false, false⟩,
     ⟨"clear_counts", 1, 1, .wo, 0x0, .any, false, false⟩]⟩,
  ⟨"TS_COMP", 0x10601, [(4, 0x4000), (3, 0x1)], .ts, 116,
    [⟨"plane_base", 0, 6, .so, 0x0, .any, false, false⟩,
     ⟨"n_planes", 6, 5, .so, 0x8, .any, false, false⟩]⟩,
  ⟨"TS_LOFT_MASK4", 0x10604, [(4, 0x4000)], .ts, 116,
    [⟨"loft_lo", 0, 32, .so, 0x0, .any, false, false⟩]⟩,
  ⟨"TS_LOFT_MASK5", 0x10605, [(4, 0x4000)], .ts, 116,
    [⟨"loft_hi", 0, 32, .so, 0x0, .any, false, false⟩]⟩,
  ⟨"TS_STORE6", 0x10606, [(4, 0x4000)], .ts, 116,
    [⟨"store_lo", 0, 32, .so, 0x0, .aligned 12, false, false⟩]⟩,
  ⟨"TS_STORE7", 0x10607, [(4, 0x4000)], .ts, 116,
    [⟨"store_hi", 0, 8, .so, 0x0, .any, false, false⟩]⟩,
  ⟨"TS_LOFT_WIN", 0x10608, [(4, 0x4000)], .ts, 116,
    [⟨"win_base", 0, 11, .so, 0x0, .any, false, false⟩,
     ⟨"win_size", 12, 12, .so, 0x0, .range 0 2048, false, false⟩]⟩,
  ⟨"TS_STATUS", 0x10609, [(4, 0x4000)], .ts, 116,
    [⟨"loft_need", 0, 12, .ro, 0x0, .any, false, false⟩,
     ⟨"n_granary", 12, 7, .ro, 0x0, .any, false, false⟩,
     ⟨"n_loft", 19, 7, .ro, 0x0, .any, false, false⟩,
     ⟨"ew_measured", 26, 1, .ro, 0x0, .any, false, false⟩]⟩,
  ⟨"TS_STORE_SIZE", 0x1060a, [(4, 0x4000)], .ts, 116,
    [⟨"store_size", 0, 32, .ro, 0x0, .any, false, false⟩]⟩,
  ⟨"TS_LOFT_BW", 0x1060b, [(4, 0x4000)], .ts, 116,
    [⟨"loft_gbps", 0, 16, .ro, 0x0, .any, false, false⟩]⟩,
  ⟨"TS_CNTC", 0x1060c, [(4, 0x4000)], .ts, 116,
    [⟨"band_skips", 0, 16, .ro, 0x0, .any, true, false⟩,
     ⟨"dark_bands", 16, 16, .ro, 0x0, .any, true, false⟩]⟩,
  ⟨"TS_CNTD", 0x1060d, [(4, 0x4000)], .ts, 116,
    [⟨"poison_rows", 0, 16, .ro, 0x0, .any, true, false⟩,
     ⟨"layout_dark", 16, 16, .ro, 0x0, .any, true, false⟩]⟩,
  ⟨"TS_PLANE_EW", 0x10640, [(4, 0x4000), (64, 0x1)], .ts, 116,
    [⟨"ew", 0, 32, .ro, 0x0, .any, false, false⟩]⟩]

def rows_head7 : List WordRow := [
  ⟨"SQ_CTRL", 0x10700, [(4, 0x4000)], .sq, 141,
    [⟨"seq_bank", 0, 1, .so, 0x0, .any, false, false⟩,
     ⟨"clear_counts", 1, 1, .wo, 0x0, .any, false, false⟩,
     ⟨"phase_global", 2, 1, .so, 0x0, .any, false, false⟩,
     ⟨"offset_auto", 3, 1, .so, 0x1, .any, false, false⟩,
     ⟨"bands", 4, 6, .so, 0x8, .nonzeroRange 1 32, false, false⟩,
     ⟨"shift_positions", 10, 2, .so, 0x0, .badOutside 0 2, false, false⟩,
     ⟨"shift_pg", 12, 3, .so, 0x0, .any, false, false⟩]⟩,
  ⟨"SQ_OFFSET", 0x10701, [(4, 0x4000)], .sq, 141,
    [⟨"offset_ticks", 0, 24, .so, 0x0, .any, false, false⟩]⟩,
  ⟨"SQ_SETTLE", 0x10702, [(4, 0x4000)], .sq, 141,
    [⟨"settle_ticks", 0, 13, .so, 0xa00, .any, false, false⟩,
     ⟨"guard_ticks", 16, 13, .so, 0x640, .any, false, false⟩]⟩,
  ⟨"SQ_SHIFT_POS", 0x10704, [(4, 0x4000), (4, 0x1)], .sq, 141,
    [⟨"target", 0, 32, .so, 0x0, .any, false, false⟩]⟩,
  ⟨"SQ_STATUS10", 0x10710, [(4, 0x4000)], .sq, 141,
    [⟨"bank_playing", 0, 1, .ro, 0x0, .any, false, false⟩,
     ⟨"swap_pending", 1, 1, .ro, 0x0, .any, false, false⟩,
     ⟨"list_len", 2, 13, .ro, 0x0, .any, false, false⟩,
     ⟨"lead", 16, 16, .ro, 0x0, .any, false, false⟩]⟩,
  ⟨"SQ_STATUS11", 0x10711, [(4, 0x4000)], .sq, 141,
    [⟨"offset_used", 0, 24, .ro, 0x0, .any, false, false⟩]⟩,
  ⟨"SQ_STATUS12", 0x10712, [(4, 0x4000)], .sq, 141,
    [⟨"min_margin", 0, 16, .ro, 0x0, .any, false, false⟩,
     ⟨"loads", 16, 12, .ro, 0x0, .any, false, false⟩]⟩,
  ⟨"SQ_CNT13", 0x10713, [(4, 0x4000)], .sq, 141,
    [⟨"late_bands", 0, 16, .ro, 0x0, .any, true, false⟩,
     ⟨"shift_late", 16, 16, .ro, 0x0, .any, true, false⟩]⟩,
  ⟨"SQ_CNT14", 0x10714, [(4, 0x4000)], .sq, 141,
    [⟨"thinned", 0, 16, .ro, 0x0, .any, true, false⟩,
     ⟨"throttle_short", 16, 16, .ro, 0x0, .any, true, false⟩]⟩,
  ⟨"SQ_CNT15", 0x10715, [(4, 0x4000)], .sq, 141,
    [⟨"lost_ticks", 0, 32, .ro, 0x0, .any, true, false⟩]⟩,
  ⟨"SQ_TRIM", 0x10720, [(4, 0x4000), (8, 0x1)], .sq, 141,
    [⟨"on_trim", 0, 12, .so, 0x0, .any, false, false⟩,
     ⟨"off_trim", 16, 12, .so, 0x0, .any, false, false⟩]⟩]

def rows_sqWin : List WordRow := [
  ⟨"SQ_SLOT", 0x12000, [(4, 0x4000), (4096, 0x2)], .sqWin, 117,
    [⟨"slot", 0, 32, .rw, 0x0, .any, false, false⟩]⟩,
  ⟨"SQ_SLOTH", 0x12001, [(4, 0x4000), (4096, 0x2)], .sqWin, 117,
    [⟨"slot", 0, 9, .rw, 0x0, .any, false, false⟩]⟩]

def rows_head9 : List WordRow := [
  ⟨"LM_CTRL", 0x10900, [(4, 0x4000)], .lm, 156,
    [⟨"table_bank", 0, 1, .so, 0x0, .any, false, false⟩,
     ⟨"code_bank", 1, 1, .so, 0x0, .any, false, false⟩,
     ⟨"clear_counts", 2, 1, .wo, 0x0, .any, false, false⟩,
     ⟨"beams", 3, 3, .so, 0x1, .nonzeroRange 1 4, false, false⟩,
     ⟨"channels", 6, 4, .so, 0x3, .nonzeroRange 1 8, false, false⟩,
     ⟨"fast_loop", 10, 6, .so, 0x0, .any, false, false⟩,
     ⟨"slow_loop", 16, 6, .so, 0x1, .any, false, false⟩,
     ⟨"slow_pg", 22, 3, .so, 0x0, .any, false, false⟩]⟩,
  ⟨"LM_SCAN", 0x10901, [(4, 0x4000)], .lm, 156,
    [⟨"flyback_sweeps", 0, 10, .so, 0x2a, .nonzeroRange 2 1023, false, false⟩]⟩,
  ⟨"LM_CENTRE", 0x10902, [(4, 0x4000)], .lm, 156,
    [⟨"centre_fs", 0, 21, .so, 0x1e000, .nonzero, false, false⟩]⟩,
  ⟨"LM_FREQ", 0x10903, [(4, 0x4000)], .lm, 156,
    [⟨"f_min", 0, 16, .so, 0x1f40, .range 8000 64000, false, false⟩,
     ⟨"f_max", 16, 16, .so, 0xfa00, .range 8000 64000, false, false⟩]⟩,
  ⟨"LM_LOCK", 0x10904, [(4, 0x4000)], .lm, 156,
    [⟨"kp", 0, 4, .rw, 0x2, .any, false, false⟩,
     ⟨"kf", 4, 4, .rw, 0x6, .any, false, false⟩,
     ⟨"lock_tol", 8, 12, .rw, 0x8, .any, false, false⟩,
     ⟨"unlock_tol", 20, 12, .rw, 0x40, .any, false, false⟩]⟩,
  ⟨"LM_TRIM", 0x10905, [(4, 0x4000)], .lm, 156,
    [⟨"rev_trim", 0, 12, .so, 0x0, .any, false, false⟩]⟩,
  ⟨"LM_BEAM", 0x10906, [(4, 0x4000), (4, 0x1)], .lm, 156,
    [⟨"x_off", 16, 16, .so, 0x0, .any, false, false⟩]⟩,
  ⟨"LM_CHAN_MAP", 0x1090a, [(4, 0x4000)], .lm, 156,
    [⟨"comp_0", 0, 2, .so, 0x0, .badOutside 0 2, false, false⟩,
     ⟨"comp_1", 2, 2, .so, 0x1, .badOutside 0 2, false, false⟩,
     ⟨"comp_2", 4, 2, .so, 0x2, .badOutside 0 2, false, false⟩,
     ⟨"comp_3", 6, 2, .so, 0x0, .badOutside 0 2, false, false⟩,
     ⟨"comp_4", 8, 2, .so, 0x0, .badOutside 0 2, false, false⟩,
     ⟨"comp_5", 10, 2, .so, 0x0, .badOutside 0 2, false, false⟩,
     ⟨"comp_6", 12, 2, .so, 0x0, .badOutside 0 2, false, false⟩,
     ⟨"comp_7", 14, 2, .so, 0x0, .badOutside 0 2, false, false⟩]⟩,
  ⟨"LM_CHAN_GAIN", 0x1090b, [(4, 0x4000), (4, 0x1)], .lm, 156,
    [⟨"gain_even", 0, 16, .so, 0x4000, .any, false, false⟩,
     ⟨"gain_odd", 16, 16, .so, 0x4000, .any, false, false⟩]⟩,
  ⟨"LM_SLOW_TOP", 0x10910, [(4, 0x4000)], .lm, 156,
    [⟨"slow_top", 0, 32, .so, 0x0, .any, false, false⟩]⟩,
  ⟨"LM_SLOW_BOT", 0x10911, [(4, 0x4000)], .lm, 156,
    [⟨"slow_bot", 0, 32, .so, 0x0, .any, false, false⟩]⟩,
  ⟨"LM_AMP_MIN", 0x10912, [(4, 0x4000)], .lm, 156,
    [⟨"amp_min", 0, 32, .so, 0xffffffff, .nonzero, false, false⟩]⟩,
  ⟨"LM_LEN_MAP", 0x10914, [(4, 0x4000)], .lm, 156,
    [⟨"len_0_head", 0, 3, .rw, 0x7, .group, false, false⟩,
     ⟨"len_1_head", 4, 3, .rw, 0x7, .group, false, false⟩,
     ⟨"len_2_head", 8, 3, .rw, 0x7, .group, false, false⟩,
     ⟨"len_3_head", 12, 3, .rw, 0x7, .group, false, false⟩,
     ⟨"len_4_head", 16, 3, .rw, 0x7, .group, false, false⟩,
     ⟨"len_5_head", 20, 3, .rw, 0x7, .group, false, false⟩,
     ⟨"len_6_head", 24, 3, .rw, 0x7, .group, false, false⟩,
     ⟨"len_7_head", 28, 3, .rw, 0x7, .group, false, false⟩]⟩,
  ⟨"LM_LEN_CTRL", 0x10915, [(4, 0x4000)], .lm, 156,
    [⟨"arm", 0, 1, .wo, 0x0, .any, false, false⟩,
     ⟨"force_off", 1, 1, .rw, 0x0, .any, false, false⟩]⟩,
  ⟨"LM_STATUS", 0x10916, [(4, 0x4000)], .lm, 156,
    [⟨"locked", 0, 1, .ro, 0x0, .any, false, false⟩,
     ⟨"armed", 1, 1, .ro, 0x0, .any, false, false⟩,
     ⟨"conditions", 2, 6, .ro, 0x0, .any, false, false⟩,
     ⟨"trip_cause", 8, 6, .ro, 0x0, .any, false, false⟩,
     ⟨"phase_err", 16, 12, .ro, 0x0, .any, false, false⟩]⟩,
  ⟨"LM_HALF", 0x10917, [(4, 0x4000)], .lm, 156,
    [⟨"half_period", 0, 24, .ro, 0x0, .any, false, false⟩]⟩,
  ⟨"LM_CNT18", 0x10918, [(4, 0x4000)], .lm, 156,
    [⟨"late_lines", 0, 16, .ro, 0x0, .any, true, false⟩,
     ⟨"dark_lines", 16, 16, .ro, 0x0, .any, true, false⟩]⟩,
  ⟨"LM_CNT19", 0x10919, [(4, 0x4000)], .lm, 156,
    [⟨"unlocks", 0, 16, .ro, 0x0, .any, true, false⟩,
     ⟨"len_drops", 16, 16, .ro, 0x0, .any, true, false⟩]⟩,
  ⟨"LM_CNT1A", 0x1091a, [(4, 0x4000)], .lm, 156,
    [⟨"flyback_late", 0, 16, .ro, 0x0, .any, true, false⟩]⟩]

def rows_lmCode : List WordRow := [
  ⟨"LM_CODE", 0x11000, [(4, 0x4000), (8, 0x200), (257, 0x1)], .lmCode, 156,
    [⟨"e", 0, 14, .rw, 0x0, .any, false, false⟩]⟩]

def rows_str : List WordRow := [
  ⟨"LS_STRING0", 0x30000, [(64, 0x10)], .string, 157,
    [⟨"enable", 0, 1, .so, 0x0, .any, false, false⟩,
     ⟨"bank", 1, 3, .so, 0x0, .any, false, false⟩,
     ⟨"port", 4, 3, .so, 0x0, .any, false, false⟩,
     ⟨"addr", 7, 7, .so, 0x0, .range 0 126, false, false⟩,
     ⟨"chan", 14, 4, .so, 0x0, .any, false, false⟩,
     ⟨"tout", 18, 7, .so, 0x0, .any, false, false⟩]⟩,
  ⟨"LS_STRING1", 0x30001, [(64, 0x10)], .string, 157,
    [⟨"base_code", 0, 16, .so, 0x0, .any, false, false⟩]⟩,
  ⟨"LS_STRING2", 0x30002, [(64, 0x10)], .string, 157,
    [⟨"state", 0, 4, .ro, 0x7, .any, false, false⟩,
     ⟨"probed", 4, 1, .ro, 0x0, .any, false, false⟩,
     ⟨"substitute", 5, 1, .ro, 0x0, .any, false, false⟩,
     ⟨"last_sns", 8, 12, .ro, 0x0, .any, false, false⟩]⟩,
  ⟨"LS_STRING3", 0x30003, [(64, 0x10)], .string, 157,
    [⟨"headroom_mv", 0, 16, .ro, 0x0, .any, false, false⟩,
     ⟨"drv_temp", 16, 8, .ro, 0x0, .any, false, false⟩,
     ⟨"drv_fault", 24, 8, .ro, 0x0, .any, false, false⟩]⟩,
  ⟨"LS_STRING4", 0x30004, [(64, 0x10)], .string, 157,
    [⟨"code_active", 0, 16, .ro, 0x0, .any, false, false⟩]⟩,
  ⟨"LS_STRING5", 0x30005, [(64, 0x10)], .string, 157,
    [⟨"clear_fault", 0, 1, .wo, 0x0, .any, false, false⟩]⟩]

def rows_bank : List WordRow := [
  ⟨"LS_BANK0", 0x30400, [(8, 0x40)], .bank, 159,
    [⟨"enable", 0, 1, .rw, 0x0, .any, false, false⟩,
     ⟨"head", 1, 2, .so, 0x0, .any, false, false⟩,
     ⟨"prim", 3, 2, .so, 0x0, .any, false, false⟩,
     ⟨"policy", 5, 1, .so, 0x0, .any, false, false⟩,
     ⟨"probe_every", 6, 8, .so, 0x8, .nonzero, false, false⟩,
     ⟨"confirm", 14, 4, .so, 0x2, .nonzero, false, false⟩,
     ⟨"clear_counts", 18, 1, .wo, 0x0, .any, false, false⟩,
     ⟨"rearm", 19, 1, .wo, 0x0, .any, false, false⟩]⟩,
  ⟨"LS_BANK1", 0x30401, [(8, 0x40)], .bank, 159,
    [⟨"open_code", 0, 12, .so, 0xfa0, .any, false, false⟩,
     ⟨"short_code", 12, 12, .so, 0x64, .any, false, false⟩]⟩,
  ⟨"LS_BANK2", 0x30402, [(8, 0x40)], .bank, 159,
    [⟨"hr_target_mv", 0, 12, .so, 0x4b0, .nonzero, false, false⟩,
     ⟨"hr_band_mv", 12, 12, .so, 0x12c, .any, false, false⟩,
     ⟨"step_mv", 24, 8, .so, 0x32, .nonzero, false, false⟩]⟩,
  ⟨"LS_BANK3", 0x30403, [(8, 0x40)], .bank, 159,
    [⟨"vbus_min_mv", 0, 16, .so, 0x0, .any, false, false⟩,
     ⟨"vbus_max_mv", 16, 16, .so, 0x0, .any, false, false⟩]⟩,
  ⟨"LS_BANK4", 0x30404, [(8, 0x40)], .bank, 159,
    [⟨"pmb_addr", 0, 7, .so, 0x0, .any, false, false⟩]⟩,
  ⟨"LS_BANK5", 0x30405, [(8, 0x40)], .bank, 159,
    [⟨"knee_c", 0, 8, .so, 0x46, .range 0 150, false, false⟩,
     ⟨"derate", 8, 10, .so, 0x14, .any, false, false⟩,
     ⟨"floor", 18, 10, .so, 0x12c, .range 0 1000, false, false⟩]⟩,
  ⟨"LS_BANK6", 0x30406, [(8, 0x40)], .bank, 159,
    [⟨"xts_mask", 0, 16, .so, 0x0, .any, false, false⟩]⟩,
  ⟨"LS_BANK7", 0x30407, [(8, 0x40)], .bank, 159,
    [⟨"lw_group", 0, 4, .so, 0x0, .any, false, false⟩,
     ⟨"cc_member", 4, 1, .so, 0x1, .any, false, false⟩]⟩,
  ⟨"LS_BANK8", 0x30408, [(8, 0x40)], .bank, 159,
    [⟨"cap", 0, 16, .so, 0x8000, .range 0 32768, false, false⟩]⟩,
  ⟨"LS_BANK9", 0x30409, [(8, 0x40)], .bank, 159,
    [⟨"fade_cmd", 0, 3, .wo, 0x0, .any, false, false⟩]⟩,
  ⟨"LS_BANK10", 0x3040a, [(8, 0x40)], .bank, 159,
    [⟨"fade_ms", 0, 16, .rw, 0x7d0, .nonzero, false, false⟩,
     ⟨"breathe_ms", 16, 16, .rw, 0x1f40, .nonzero, false, false⟩]⟩,
  ⟨"LS_BANK11", 0x3040b, [(8, 0x40)], .bank, 159,
    [⟨"standby", 0, 16, .rw, 0xccd, .any, false, false⟩,
     ⟨"depth", 16, 16, .rw, 0x4000, .any, false, false⟩]⟩,
  ⟨"LS_BANK12", 0x3040c, [(8, 0x40)], .bank, 159,
    [⟨"fade_state", 0, 3, .ro, 0x0, .any, false, false⟩,
     ⟨"tripped", 3, 1, .ro, 0x0, .any, false, false⟩,
     ⟨"at_vbus_max", 4, 1, .ro, 0x0, .any, false, false⟩,
     ⟨"winner", 5, 2, .ro, 0x0, .any, false, false⟩,
     ⟨"pmb_error", 7, 1, .w1c, 0x0, .any, false, false⟩,
     ⟨"scale", 8, 16, .ro, 0x0, .any, false, false⟩]⟩,
  ⟨"LS_BANK13", 0x3040d, [(8, 0x40)], .bank, 159,
    [⟨"vbus_mv", 0, 16, .ro, 0x0, .any, false, false⟩,
     ⟨"hmin_mv", 16, 16, .ro, 0x0, .any, false, false⟩]⟩,
  ⟨"LS_BANK14", 0x3040e, [(8, 0x40)], .bank, 159,
    [⟨"faults", 0, 16, .ro, 0x0, .any, true, false⟩,
     ⟨"probes_late", 16, 16, .ro, 0x0, .any, true, false⟩]⟩,
  ⟨"LS_LEVEL", 0x30421, [(8, 0x40), (15, 0x1)], .bank, 159,
    [⟨"mask", 0, 16, .so, 0x0, .any, false, false⟩,
     ⟨"eff_mask", 16, 16, .ro, 0x0, .any, false, false⟩]⟩,
  ⟨"LS_LEVEL0", 0x30420, [(8, 0x40)], .bank, 159,
    []⟩]

def rows_lit3 : List WordRow := [
  ⟨"DB_GLOBAL", 0x30880, [], .dbGlobal, 164,
    [⟨"latch_us", 0, 16, .rw, 0x32, .nonzeroRange 5 1000, false, false⟩,
     ⟨"latch_late", 16, 16, .ro, 0x0, .any, false, false⟩]⟩,
  ⟨"DB_PORT0", 0x30800, [(8, 0x10)], .dbPort, 181,
    [⟨"enable", 0, 1, .rw, 0x0, .any, false, false⟩,
     ⟨"lanes4", 1, 1, .so, 0x0, .any, false, false⟩,
     ⟨"rate", 2, 2, .so, 0x0, .any, false, false⟩,
     ⟨"retries", 4, 4, .rw, 0x2, .any, false, false⟩,
     ⟨"resp_wait", 8, 8, .rw, 0x40, .nonzeroRange 8 255, false, false⟩,
     ⟨"telem_us", 16, 16, .rw, 0x3e8, .any, false, false⟩]⟩,
  ⟨"DB_PORT1", 0x30801, [(8, 0x10)], .dbPort, 181,
    [⟨"clear_counts", 0, 1, .wo, 0x0, .any, false, false⟩]⟩,
  ⟨"DB_PORT2", 0x30802, [(8, 0x10)], .dbPort, 181,
    [⟨"crc_errs", 0, 16, .ro, 0x0, .any, true, false⟩,
     ⟨"no_resp", 16, 16, .ro, 0x0, .any, true, false⟩]⟩,
  ⟨"DB_PORT3", 0x30803, [(8, 0x10)], .dbPort, 181,
    [⟨"latch_missed", 0, 16, .ro, 0x0, .any, true, false⟩,
     ⟨"resent", 16, 16, .ro, 0x0, .any, true, false⟩]⟩,
  ⟨"ZN_MAT0", 0x30c00, [(4, 0x20)], .matrix, 203,
    [⟨"enable", 0, 1, .rw, 0x0, .any, false, false⟩,
     ⟨"head", 1, 2, .so, 0x0, .any, false, false⟩,
     ⟨"supply_bank", 3, 3, .so, 0x0, .any, false, false⟩,
     ⟨"mux", 6, 3, .so, 0x2, .range 0 4, false, false⟩,
     ⟨"scan_mode", 9, 1, .so, 0x0, .any, false, false⟩,
     ⟨"auto_fallback", 10, 1, .rw, 0x1, .any, false, false⟩,
     ⟨"clear_counts", 11, 1, .wo, 0x0, .any, false, false⟩]⟩,
  ⟨"ZN_MAT1", 0x30c01, [(4, 0x20)], .matrix, 203,
    [⟨"cols", 0, 9, .so, 0x100, .nonzeroRange 1 256, false, false⟩,
     ⟨"rows", 9, 8, .so, 0xa0, .nonzeroRange 1 160, false, false⟩]⟩,
  ⟨"ZN_MAT2", 0x30c02, [(4, 0x20)], .matrix, 203,
    [⟨"ctx_base", 0, 16, .so, 0x0, .range 0 40959, false, false⟩]⟩,
  ⟨"ZN_MAT3", 0x30c03, [(4, 0x20)], .matrix, 203,
    [⟨"tout_base", 0, 7, .so, 0x40, .any, false, false⟩,
     ⟨"winnow_ticks", 7, 13, .so, 0xf0, .any, false, false⟩,
     ⟨"meas_code", 20, 12, .so, 0x800, .any, false, false⟩]⟩,
  ⟨"ZN_MAT4", 0x30c04, [(4, 0x20)], .matrix, 203,
    [⟨"first_port", 0, 3, .so, 0x0, .any, false, false⟩,
     ⟨"n_ports", 3, 4, .so, 0x8, .nonzeroRange 1 8, false, false⟩,
     ⟨"addr_base", 7, 7, .so, 0x10, .any, false, false⟩,
     ⟨"chans", 14, 7, .so, 0x40, .nonzeroRange 1 64, false, false⟩]⟩,
  ⟨"ZN_MAT5", 0x30c05, [(4, 0x20)], .matrix, 203,
    [⟨"step_ticks", 0, 16, .so, 0x640, .any, false, false⟩,
     ⟨"fb_frames", 16, 8, .rw, 0x3, .nonzero, false, false⟩]⟩,
  ⟨"ZN_MAT6", 0x30c06, [(4, 0x20)], .matrix, 203,
    [⟨"in_self_scan", 0, 1, .ro, 0x0, .any, false, false⟩,
     ⟨"n_drv", 1, 10, .ro, 0x0, .any, false, false⟩,
     ⟨"faulted_zones", 11, 16, .ro, 0x0, .any, false, false⟩]⟩,
  ⟨"ZN_MAT7", 0x30c07, [(4, 0x20)], .matrix, 203,
    [⟨"levels_stale", 0, 16, .ro, 0x0, .any, true, false⟩,
     ⟨"steps_missed", 16, 16, .ro, 0x0, .any, true, false⟩]⟩]

def rows_a4 : List WordRow := [
  ⟨"ZN_CTX0", 0x40000, [(40960, 0x2)], .zoneCtx, 195,
    [⟨"level", 0, 12, .rw, 0x0, .any, false, false⟩,
     ⟨"gain_trim", 12, 10, .rw, 0x200, .any, false, false⟩,
     ⟨"pre_trim", 22, 6, .rw, 0x20, .any, false, false⟩,
     ⟨"fault", 28, 4, .ro, 0x1, .any, false, false⟩]⟩,
  ⟨"ZN_CTX1", 0x40001, [(40960, 0x2)], .zoneCtx, 195,
    [⟨"age", 0, 8, .rw, 0x0, .any, false, false⟩,
     ⟨"temp", 8, 8, .ro, 0x0, .any, false, false⟩,
     ⟨"dark", 16, 1, .rw, 0x0, .any, false, false⟩,
     ⟨"clear_fault", 17, 1, .wo, 0x0, .any, false, false⟩,
     ⟨"clipped", 18, 1, .ro, 0x0, .any, false, false⟩,
     ⟨"stale", 19, 1, .ro, 0x0, .any, false, false⟩]⟩]

def rows_cc : List WordRow := [
  ⟨"CC_TRIAD0", 0x31000, [(4, 0x20)], .triad, 216,
    [⟨"enable", 0, 1, .rw, 0x0, .any, false, false⟩,
     ⟨"head", 1, 2, .so, 0x0, .any, false, false⟩,
     ⟨"band", 3, 5, .so, 0x0, .any, false, false⟩,
     ⟨"auto_range", 8, 1, .rw, 0x1, .any, false, false⟩,
     ⟨"fixed_range", 9, 2, .rw, 0x1, .any, false, false⟩,
     ⟨"clear_suspect", 11, 1, .wo, 0x0, .any, false, false⟩,
     ⟨"clear_counts", 12, 1, .wo, 0x0, .any, false, false⟩]⟩,
  ⟨"CC_TRIAD_MAT", 0x31001, [(4, 0x20), (9, 0x1)], .triad, 216,
    [⟨"mat", 0, 24, .so, 0x0, .any, false, false⟩]⟩,
  ⟨"CC_TRIADA", 0x3100a, [(4, 0x20)], .triad, 216,
    [⟨"ranges", 0, 6, .ro, 0x0, .any, false, false⟩,
     ⟨"suspect", 6, 1, .ro, 0x0, .any, false, false⟩]⟩,
  ⟨"CC_TRIAD_LAST", 0x3100b, [(4, 0x20), (3, 0x1)], .triad, 216,
    [⟨"last", 0, 32, .ro, 0x0, .any, false, false⟩]⟩,
  ⟨"CC_TRIADE", 0x3100e, [(4, 0x20)], .triad, 216,
    [⟨"clipped", 0, 16, .ro, 0x0, .any, true, false⟩,
     ⟨"implausible", 16, 16, .ro, 0x0, .any, true, false⟩]⟩,
  ⟨"CC_GROUP0", 0x31100, [(4, 0x20)], .ccGroup, 216,
    [⟨"enable", 0, 1, .rw, 0x0, .any, false, false⟩,
     ⟨"policy", 1, 1, .so, 0x0, .any, false, false⟩,
     ⟨"hold", 2, 1, .rw, 0x0, .any, false, false⟩,
     ⟨"learn", 3, 1, .wo, 0x0, .any, false, false⟩,
     ⟨"clear_counts", 4, 1, .wo, 0x0, .any, false, false⟩,
     ⟨"meas_frames", 5, 3, .so, 0x2, .nonzero, false, false⟩,
     ⟨"skip_us", 8, 8, .so, 0xa, .nonzero, false, false⟩,
     ⟨"tau_ms", 16, 16, .so, 0x1388, .range 500 30000, false, false⟩]⟩,
  ⟨"CC_TARGET", 0x31101, [(4, 0x20), (3, 0x1)], .ccGroup, 216,
    [⟨"target", 0, 32, .so, 0x0, .any, false, false⟩]⟩,
  ⟨"CC_GROUP4", 0x31104, [(4, 0x20)], .ccGroup, 216,
    [⟨"state", 0, 2, .ro, 0x0, .any, false, false⟩,
     ⟨"limited_comp", 2, 2, .ro, 0x0, .any, false, false⟩,
     ⟨"item_bank", 4, 3, .ro, 0x0, .any, false, false⟩,
     ⟨"item_entry", 7, 4, .ro, 0x0, .any, false, false⟩,
     ⟨"luma_ratio", 11, 16, .ro, 0x0, .any, false, false⟩]⟩,
  ⟨"CC_DEMAND", 0x31105, [(4, 0x20), (3, 0x1)], .ccGroup, 216,
    [⟨"demand", 0, 16, .ro, 0x8000, .any, false, false⟩]⟩,
  ⟨"CC_GROUP8", 0x31108, [(4, 0x20)], .ccGroup, 216,
    [⟨"item_skips", 0, 16, .ro, 0x0, .any, true, false⟩,
     ⟨"solve_fails", 16, 16, .ro, 0x0, .any, true, false⟩]⟩,
  ⟨"CC_BANK0", 0x31200, [(8, 0x10)], .ccBank, 216,
    [⟨"comp", 0, 2, .so, 0x0, .badOutside 0 2, false, false⟩]⟩,
  ⟨"CC_LIGHT", 0x31201, [(8, 0x10), (15, 0x1)], .ccBank, 216,
    [⟨"light", 0, 16, .ro, 0x0, .any, false, false⟩,
     ⟨"measured", 16, 1, .ro, 0x0, .any, false, false⟩]⟩,
  ⟨"CC_WHITE", 0x31280, [(8, 0x4), (3, 0x1)], .ccBank, 216,
    [⟨"white", 0, 32, .ro, 0x0, .any, false, false⟩]⟩]

def rows_a6 : List WordRow := [
  ⟨"CE_LOOP00", 0x60000, [(64, 0x40)], .loop, 236,
    [⟨"enable", 0, 1, .rw, 0x0, .any, false, false⟩,
     ⟨"order", 1, 1, .so, 0x0, .any, false, false⟩,
     ⟨"lane", 2, 1, .so, 0x0, .any, false, false⟩,
     ⟨"fb_sel", 3, 1, .so, 0x0, .any, false, false⟩,
     ⟨"sp_src", 4, 1, .so, 0x0, .any, false, false⟩,
     ⟨"out_kind", 5, 2, .so, 0x0, .badOutside 0 2, false, false⟩,
     ⟨"fe_action", 7, 1, .so, 0x0, .any, false, false⟩,
     ⟨"cross_en", 8, 1, .so, 0x0, .any, false, false⟩,
     ⟨"clear_fault", 9, 1, .wo, 0x0, .any, false, false⟩,
     ⟨"clear_counts", 10, 1, .wo, 0x0, .any, false, false⟩,
     ⟨"overrun_max", 11, 4, .so, 0x3, .nonzero, false, false⟩,
     ⟨"swap_k", 15, 4, .so, 0x8, .any, false, false⟩,
     ⟨"n_sets", 19, 3, .so, 0x1, .nonzeroRange 1 4, false, false⟩,
     ⟨"sched_src", 22, 2, .so, 0x0, .badOutside 0 2, false, false⟩,
     ⟨"sched_loop", 24, 6, .so, 0x0, .any, false, false⟩]⟩,
  ⟨"CE_LOOP01", 0x60001, [(64, 0x40)], .loop, 236,
    [⟨"period_ticks", 0, 24, .so, 0x320, .nonzeroRange 160 16777215, false, false⟩]⟩,
  ⟨"CE_LOOP02", 0x60002, [(64, 0x40)], .loop, 236,
    [⟨"offset_ticks", 0, 24, .so, 0x0, .any, false, false⟩]⟩,
  ⟨"CE_LOOP03", 0x60003, [(64, 0x40)], .loop, 236,
    [⟨"phase_ticks", 0, 12, .so, 0x1e0, .nonzeroRange 80 4095, false, false⟩]⟩,
  ⟨"CE_LOOP04", 0x60004, [(64, 0x40)], .loop, 236,
    [⟨"in_kind", 0, 2, .so, 0x0, .any, false, false⟩,
     ⟨"in_index", 2, 6, .so, 0x0, .any, false, false⟩,
     ⟨"in_gain", 16, 16, .so, 0x1, .any, false, false⟩]⟩,
  ⟨"CE_LOOP05", 0x60005, [(64, 0x40)], .loop, 236,
    [⟨"out_index", 0, 7, .so, 0x0, .any, false, false⟩,
     ⟨"out_shift", 8, 5, .so, 0x10, .any, false, false⟩]⟩,
  ⟨"CE_LOOP06", 0x60006, [(64, 0x40)], .loop, 236,
    [⟨"pwm_ticks", 0, 24, .so, 0x1f40, .any, false, false⟩]⟩,
  ⟨"CE_LOOP07", 0x60007, [(64, 0x40)], .loop, 236,
    [⟨"sp", 0, 32, .rw, 0x0, .any, false, false⟩]⟩,
  ⟨"CE_LOOP08", 0x60008, [(64, 0x40)], .loop, 236,
    [⟨"out_min", 0, 32, .so, 0x80000000, .any, false, false⟩]⟩,
  ⟨"CE_LOOP09", 0x60009, [(64, 0x40)], .loop, 236,
    [⟨"out_max", 0, 32, .so, 0x7fffffff, .any, false, false⟩]⟩,
  ⟨"CE_LOOP0A", 0x6000a, [(64, 0x40)], .loop, 236,
    [⟨"out_safe", 0, 32, .so, 0x0, .any, false, false⟩]⟩,
  ⟨"CE_LOOP_TH", 0x6000b, [(64, 0x40), (3, 0x1)], .loop, 236,
    [⟨"th", 0, 32, .so, 0x0, .any, false, false⟩]⟩,
  ⟨"CE_LOOP0E", 0x6000e, [(64, 0x40)], .loop, 236,
    [⟨"hyst", 0, 32, .so, 0x0, .any, false, false⟩]⟩,
  ⟨"CE_LOOP0F", 0x6000f, [(64, 0x40)], .loop, 236,
    [⟨"fe_limit", 0, 32, .so, 0x0, .any, false, false⟩]⟩,
  ⟨"CE_LOOP10", 0x60010, [(64, 0x40)], .loop, 236,
    [⟨"fe_time", 0, 16, .so, 0x10, .nonzero, false, false⟩,
     ⟨"amp_decay", 16, 5, .so, 0x8, .any, false, false⟩]⟩,
  ⟨"CE_LOOP11", 0x60011, [(64, 0x40)], .loop, 236,
    [⟨"cross_hyst", 0, 32, .so, 0x0, .any, false, false⟩]⟩,
  ⟨"CE_COEF", 0x60014, [(64, 0x40), (28, 0x1)], .loop, 236,
    [⟨"coef", 0, 24, .so, 0x0, .any, false, false⟩]⟩,
  ⟨"CE_LOOP30", 0x60030, [(64, 0x40)], .loop, 236,
    [⟨"state", 0, 2, .ro, 0x0, .any, false, false⟩,
     ⟨"set", 2, 2, .ro, 0x0, .any, false, false⟩,
     ⟨"fe_tripped", 4, 1, .ro, 0x0, .any, false, false⟩,
     ⟨"limited", 5, 1, .ro, 0x0, .any, false, false⟩,
     ⟨"lw_winner", 6, 2, .ro, 0x0, .any, false, false⟩]⟩,
  ⟨"CE_LOOP31", 0x60031, [(64, 0x40)], .loop, 236,
    [⟨"y", 0, 32, .ro, 0x0, .any, false, false⟩]⟩,
  ⟨"CE_LOOP32", 0x60032, [(64, 0x40)], .loop, 236,
    [⟨"r", 0, 32, .ro, 0x0, .any, false, false⟩]⟩,
  ⟨"CE_LOOP33", 0x60033, [(64, 0x40)], .loop, 236,
    [⟨"out", 0, 32, .ro, 0x0, .any, false, false⟩]⟩,
  ⟨"CE_LOOP34", 0x60034, [(64, 0x40)], .loop, 236,
    [⟨"amp", 0, 32, .ro, 0x0, .any, false, false⟩]⟩,
  ⟨"CE_LOOP35", 0x60035, [(64, 0x40)], .loop, 236,
    [⟨"c", 0, 32, .ro, 0x0, .any, false, false⟩]⟩,
  ⟨"CE_LOOP36", 0x60036, [(64, 0x40)], .loop, 236,
    [⟨"overruns", 0, 16, .ro, 0x0, .any, true, false⟩,
     ⟨"limit_steps", 16, 16, .ro, 0x0, .any, true, false⟩]⟩,
  ⟨"CE_LOOP37", 0x60037, [(64, 0x40)], .loop, 236,
    [⟨"fe_trips", 0, 16, .ro, 0x0, .any, true, false⟩,
     ⟨"swaps", 16, 16, .ro, 0x0, .any, true, false⟩]⟩,
  ⟨"CE_LOOP38", 0x60038, [(64, 0x40)], .loop, 236,
    [⟨"wcr", 0, 16, .ro, 0x0, .any, false, false⟩]⟩,
  ⟨"CE_LOOP39", 0x60039, [(64, 0x40)], .loop, 236,
    [⟨"last_cross", 0, 32, .ro, 0x0, .any, false, false⟩]⟩,
  ⟨"CE_PG0", 0x61000, [(8, 0x10)], .pg, 237,
    [⟨"loop", 0, 6, .so, 0x0, .any, false, false⟩,
     ⟨"enable", 6, 1, .rw, 0x0, .any, false, false⟩,
     ⟨"settle_n", 8, 12, .so, 0xa, .nonzero, false, false⟩]⟩,
  ⟨"CE_PG1", 0x61001, [(8, 0x10)], .pg, 237,
    [⟨"target", 0, 32, .rw, 0x0, .any, false, false⟩]⟩,
  ⟨"CE_PG2", 0x61002, [(8, 0x10)], .pg, 237,
    [⟨"vmax", 0, 32, .so, 0x1000000, .nonzero, false, false⟩]⟩,
  ⟨"CE_PG3", 0x61003, [(8, 0x10)], .pg, 237,
    [⟨"amax", 0, 32, .so, 0x10000, .nonzero, false, false⟩]⟩,
  ⟨"CE_PG4", 0x61004, [(8, 0x10)], .pg, 237,
    [⟨"jmax", 0, 32, .so, 0x100, .nonzero, false, false⟩]⟩,
  ⟨"CE_PG5", 0x61005, [(8, 0x10)], .pg, 237,
    [⟨"settle_tol", 0, 32, .so, 0x0, .any, false, false⟩]⟩,
  ⟨"CE_PG6", 0x61006, [(8, 0x10)], .pg, 237,
    [⟨"moving", 0, 1, .ro, 0x0, .any, false, false⟩,
     ⟨"done", 1, 1, .ro, 0x1, .any, false, false⟩,
     ⟨"settled", 2, 1, .ro, 0x0, .any, false, false⟩,
     ⟨"owned", 3, 1, .ro, 0x0, .any, false, false⟩]⟩,
  ⟨"CE_PG7", 0x61007, [(8, 0x10)], .pg, 237,
    [⟨"p", 0, 32, .ro, 0x0, .any, false, false⟩]⟩,
  ⟨"CE_PG8", 0x61008, [(8, 0x10)], .pg, 237,
    [⟨"v", 0, 32, .ro, 0x0, .any, false, false⟩]⟩,
  ⟨"CE_LW0", 0x61100, [(16, 0x4)], .lw, 237,
    [⟨"loop_0", 0, 6, .so, 0x0, .any, false, false⟩,
     ⟨"valid_0", 6, 1, .so, 0x0, .any, false, false⟩,
     ⟨"loop_1", 7, 6, .so, 0x0, .any, false, false⟩,
     ⟨"valid_1", 13, 1, .so, 0x0, .any, false, false⟩,
     ⟨"loop_2", 14, 6, .so, 0x0, .any, false, false⟩,
     ⟨"valid_2", 20, 1, .so, 0x0, .any, false, false⟩,
     ⟨"loop_3", 21, 6, .so, 0x0, .any, false, false⟩,
     ⟨"valid_3", 27, 1, .so, 0x0, .any, false, false⟩]⟩,
  ⟨"CE_LW1", 0x61101, [(16, 0x4)], .lw, 237,
    [⟨"winner", 0, 2, .ro, 0x0, .any, false, false⟩,
     ⟨"bank_owned", 2, 1, .ro, 0x0, .any, false, false⟩,
     ⟨"switches", 16, 16, .ro, 0x0, .any, false, false⟩]⟩,
  ⟨"CE_INJ0", 0x61200, [(4, 0x10)], .inj, 237,
    [⟨"start", 0, 1, .wo, 0x0, .any, false, false⟩,
     ⟨"stop", 1, 1, .wo, 0x0, .any, false, false⟩,
     ⟨"loop", 2, 6, .so, 0x0, .any, false, false⟩,
     ⟨"point", 8, 2, .so, 0x0, .badOutside 0 2, false, false⟩,
     ⟨"kind", 10, 2, .so, 0x0, .any, false, false⟩,
     ⟨"running", 12, 1, .ro, 0x0, .any, false, false⟩]⟩,
  ⟨"CE_INJ1", 0x61201, [(4, 0x10)], .inj, 237,
    [⟨"amp", 0, 32, .so, 0x0, .any, false, false⟩]⟩,
  ⟨"CE_INJ2", 0x61202, [(4, 0x10)], .inj, 237,
    [⟨"duration", 0, 32, .so, 0x0, .any, false, false⟩]⟩,
  ⟨"CE_INJ3", 0x61203, [(4, 0x10)], .inj, 237,
    [⟨"f_start", 0, 32, .so, 0x0, .any, false, false⟩]⟩,
  ⟨"CE_INJ4", 0x61204, [(4, 0x10)], .inj, 237,
    [⟨"f_stop", 0, 32, .so, 0x0, .any, false, false⟩]⟩,
  ⟨"CE_CAP0", 0x61300, [], .cap, 237,
    [⟨"arm", 0, 1, .wo, 0x0, .any, false, false⟩,
     ⟨"abort", 1, 1, .wo, 0x0, .any, false, false⟩,
     ⟨"cap_loop", 2, 6, .so, 0x0, .any, false, false⟩,
     ⟨"trigger", 8, 3, .so, 0x0, .badOutside 0 5, false, false⟩,
     ⟨"trig_inj", 11, 2, .so, 0x0, .any, false, false⟩,
     ⟨"decim", 13, 8, .so, 0x1, .nonzero, false, false⟩]⟩,
  ⟨"CE_CAP1", 0x61301, [], .cap, 237,
    [⟨"length", 0, 15, .so, 0x4000, .nonzeroRange 1 16384, false, false⟩,
     ⟨"pre", 16, 15, .so, 0x0, .any, false, false⟩]⟩,
  ⟨"CE_CAP2", 0x61302, [], .cap, 237,
    [⟨"loop_0", 0, 6, .so, 0x0, .any, false, false⟩,
     ⟨"qty_0", 6, 2, .so, 0x0, .any, false, false⟩,
     ⟨"loop_1", 8, 6, .so, 0x0, .any, false, false⟩,
     ⟨"qty_1", 14, 2, .so, 0x0, .any, false, false⟩,
     ⟨"loop_2", 16, 6, .so, 0x0, .any, false, false⟩,
     ⟨"qty_2", 22, 2, .so, 0x0, .any, false, false⟩,
     ⟨"loop_3", 24, 6, .so, 0x0, .any, false, false⟩,
     ⟨"qty_3", 30, 2, .so, 0x0, .any, false, false⟩]⟩,
  ⟨"CE_CAP3", 0x61303, [], .cap, 237,
    [⟨"threshold", 0, 32, .so, 0x0, .any, false, false⟩]⟩,
  ⟨"CE_CAP4", 0x61304, [], .cap, 237,
    [⟨"state", 0, 2, .ro, 0x0, .any, false, false⟩,
     ⟨"count", 2, 15, .ro, 0x0, .any, false, false⟩]⟩,
  ⟨"CE_LANE", 0x61380, [(2, 0x1)], .lane, 237,
    [⟨"load_pm", 0, 10, .ro, 0x0, .any, false, false⟩]⟩]

def rows_a8 : List WordRow := [
  ⟨"GR_CTRL", 0x80000, [], .granary, 264,
    [⟨"rate", 0, 2, .rw, 0x2, .badOutside 0 2, false, true⟩,
     ⟨"density", 2, 1, .rw, 0x0, .any, false, true⟩,
     ⟨"channels", 3, 2, .rw, 0x3, .any, false, true⟩,
     ⟨"il", 5, 5, .rw, 0xc, .range 8 16, false, true⟩,
     ⟨"hash", 10, 1, .rw, 0x1, .any, false, true⟩,
     ⟨"in_sr", 11, 1, .ro, 0x0, .any, false, false⟩,
     ⟨"clear_counts", 12, 1, .wo, 0x0, .any, false, false⟩]⟩,
  ⟨"GR_FIELDS", 0x80001, [], .granary, 264,
    [⟨"bg0", 0, 5, .rw, 0x6, .any, false, true⟩,
     ⟨"bg1", 5, 5, .rw, 0x7, .any, false, true⟩,
     ⟨"ba0", 10, 5, .rw, 0x8, .any, false, true⟩,
     ⟨"ba1", 15, 5, .rw, 0x9, .any, false, true⟩,
     ⟨"rk0", 20, 5, .rw, 0x1a, .any, false, true⟩,
     ⟨"rk1", 25, 5, .rw, 0x1b, .any, false, true⟩]⟩,
  ⟨"GR_SCHED", 0x80002, [], .granary, 264,
    [⟨"wq_high", 0, 7, .rw, 0x30, .any, false, false⟩,
     ⟨"wq_low", 7, 7, .rw, 0x10, .any, false, false⟩,
     ⟨"idle_drain", 14, 8, .rw, 0x40, .any, false, false⟩,
     ⟨"wait_us", 22, 8, .rw, 0xa, .nonzero, false, false⟩]⟩,
  ⟨"GR_REFRESH", 0x80003, [], .granary, 264,
    [⟨"trefi_ns", 0, 13, .rw, 0xf3c, .nonzeroRange 1000 3900, false, false⟩,
     ⟨"mr4_poll", 13, 5, .rw, 0x8, .nonzero, false, false⟩]⟩,
  ⟨"GR_ECC", 0x80004, [], .granary, 264,
    [⟨"ce_thresh", 0, 16, .rw, 0x100, .nonzero, false, false⟩,
     ⟨"ce_window_s", 16, 8, .rw, 0xa, .nonzero, false, false⟩,
     ⟨"auto_spare", 24, 1, .rw, 0x1, .any, false, false⟩]⟩,
  ⟨"GR_RH", 0x80005, [], .granary, 264,
    [⟨"rh_thresh", 0, 16, .rw, 0x1000, .nonzero, false, false⟩,
     ⟨"rh_window_ms", 16, 8, .rw, 0x20, .nonzero, false, false⟩,
     ⟨"rh_en", 24, 1, .rw, 0x1, .any, false, false⟩]⟩,
  ⟨"GR_MIG_CFG", 0x80006, [], .granary, 264,
    [⟨"mig_gbps", 0, 8, .rw, 0x8, .nonzero, false, false⟩]⟩,
  ⟨"GR_CAPACITY", 0x80007, [], .granary, 264,
    [⟨"capacity_gib", 0, 16, .ro, 0x40, .any, false, false⟩]⟩,
  ⟨"GR_TIMING8", 0x80008, [], .granary, 264,
    [⟨"tCL", 0, 8, .rw, 0x34, .nonzero, false, true⟩,
     ⟨"tCWL", 8, 8, .rw, 0x32, .nonzero, false, true⟩,
     ⟨"tRCD", 16, 8, .rw, 0x34, .nonzero, false, true⟩,
     ⟨"tRP", 24, 8, .rw, 0x34, .nonzero, false, true⟩]⟩,
  ⟨"GR_TIMING9", 0x80009, [], .granary, 264,
    [⟨"tRAS", 0, 8, .rw, 0x67, .nonzero, false, true⟩,
     ⟨"tRRD_S", 8, 8, .rw, 0x8, .nonzero, false, true⟩,
     ⟨"tRRD_L", 16, 8, .rw, 0x10, .nonzero, false, true⟩,
     ⟨"tCCD_L", 24, 8, .rw, 0x10, .nonzero, false, true⟩]⟩,
  ⟨"GR_TIMINGA", 0x8000a, [], .granary, 264,
    [⟨"tFAW", 0, 8, .rw, 0x28, .nonzero, false, true⟩,
     ⟨"tWR", 8, 8, .rw, 0x60, .nonzero, false, true⟩,
     ⟨"tWTR_S", 16, 8, .rw, 0x8, .nonzero, false, true⟩,
     ⟨"tWTR_L", 24, 8, .rw, 0x20, .nonzero, false, true⟩]⟩,
  ⟨"GR_TIMINGB", 0x8000b, [], .granary, 264,
    [⟨"tRFC", 0, 12, .rw, 0x3b0, .nonzero, false, true⟩,
     ⟨"tRTP", 12, 8, .rw, 0x18, .nonzero, false, true⟩]⟩,
  ⟨"GR_CHAN0", 0x80100, [(8, 0x20)], .grChan, 265,
    [⟨"ranks", 0, 3, .rw, 0x1, .nonzeroRange 1 4, false, true⟩,
     ⟨"spare_en", 3, 1, .rw, 0x0, .any, false, true⟩,
     ⟨"spare_cs", 4, 2, .rw, 0x3, .any, false, true⟩]⟩,
  ⟨"GR_CHAN1", 0x80101, [(8, 0x20)], .grChan, 265,
    [⟨"state", 0, 3, .ro, 0x0, .any, false, false⟩,
     ⟨"trefi_half", 3, 1, .ro, 0x0, .any, false, false⟩,
     ⟨"owed", 4, 4, .ro, 0x0, .any, false, false⟩,
     ⟨"spare_used", 8, 1, .ro, 0x0, .any, false, false⟩,
     ⟨"rank_map", 9, 8, .ro, 0xe4, .any, false, false⟩,
     ⟨"failed_cs", 17, 4, .ro, 0x0, .any, false, false⟩]⟩,
  ⟨"GR_CHAN2", 0x80102, [(8, 0x20)], .grChan, 265,
    [⟨"ptr", 0, 29, .ro, 0x0, .any, false, false⟩,
     ⟨"mig_rank", 29, 2, .ro, 0x0, .any, false, false⟩]⟩,
  ⟨"GR_CHAN3", 0x80103, [(8, 0x20)], .grChan, 265,
    [⟨"progress_pm", 0, 10, .ro, 0x0, .any, false, false⟩,
     ⟨"poisoned_lines", 10, 22, .ro, 0x0, .any, true, false⟩]⟩,
  ⟨"GR_CHAN_CE", 0x80104, [(8, 0x20), (4, 0x1)], .grChan, 265,
    [⟨"ce_count", 0, 16, .ro, 0x0, .any, true, false⟩,
     ⟨"ue_count", 16, 16, .ro, 0x0, .any, true, false⟩]⟩,
  ⟨"GR_CHAN8", 0x80108, [(8, 0x20)], .grChan, 265,
    [⟨"refresh_catchup", 0, 16, .ro, 0x0, .any, true, false⟩,
     ⟨"raw_waits", 16, 16, .ro, 0x0, .any, true, false⟩]⟩,
  ⟨"GR_CHAN9", 0x80109, [(8, 0x20)], .grChan, 265,
    [⟨"err_addr_lo", 0, 32, .ro, 0x0, .any, false, false⟩]⟩,
  ⟨"GR_CHAN10", 0x8010a, [(8, 0x20)], .grChan, 265,
    [⟨"err_addr_hi", 0, 8, .ro, 0x0, .any, false, false⟩,
     ⟨"err_kind", 8, 3, .ro, 0x0, .any, false, false⟩,
     ⟨"err_symbols", 11, 3, .ro, 0x0, .any, false, false⟩,
     ⟨"err_cs", 14, 2, .ro, 0x0, .any, false, false⟩]⟩,
  ⟨"GR_REQ0", 0x80400, [(37, 0x4)], .grReq, 266,
    [⟨"wait_count", 0, 32, .ro, 0x0, .any, true, false⟩]⟩,
  ⟨"GR_REQ1", 0x80401, [(37, 0x4)], .grReq, 266,
    [⟨"max_wait", 0, 32, .ro, 0x0, .any, true, false⟩]⟩,
  ⟨"GR_REQ2", 0x80402, [(37, 0x4)], .grReq, 266,
    [⟨"drops", 0, 16, .ro, 0x0, .any, true, false⟩,
     ⟨"poison_lines", 16, 16, .ro, 0x0, .any, true, false⟩]⟩,
  ⟨"GR_REQ3", 0x80403, [(37, 0x4)], .grReq, 266,
    [⟨"rh_throttles", 0, 16, .ro, 0x0, .any, true, false⟩]⟩]

def rows_aa : List WordRow := [
  ⟨"CL_STATUS", 0xa0000, [], .cal, 344,
    [⟨"wear_pm", 0, 10, .ro, 0x0, .any, false, false⟩,
     ⟨"records_lost", 10, 16, .ro, 0x0, .any, true, false⟩,
     ⟨"set_open", 26, 1, .ro, 0x0, .any, false, false⟩]⟩,
  ⟨"CL_AUTO", 0xa0001, [], .cal, 344,
    [⟨"edge_track", 0, 1, .rw, 0x1, .any, false, false⟩,
     ⟨"track_c", 1, 5, .rw, 0x4, .nonzero, false, false⟩,
     ⟨"clear_counts", 6, 1, .wo, 0x0, .any, false, false⟩]⟩,
  ⟨"CL_INST", 0xa0100, [(8, 0x40), (64, 0x1)], .calInst, 344,
    [⟨"state", 0, 2, .ro, 0x0, .any, false, false⟩,
     ⟨"stale", 2, 1, .ro, 0x0, .any, false, false⟩,
     ⟨"attempts", 3, 2, .ro, 0x0, .any, false, false⟩,
     ⟨"last_code", 16, 16, .ro, 0x0, .any, false, false⟩]⟩,
  ⟨"GL_CTRL", 0xa1000, [], .gl, 392,
    [⟨"bg_mask", 1, 7, .rw, 0x3, .any, false, false⟩,
     ⟨"clear_counts", 8, 1, .wo, 0x0, .any, false, false⟩]⟩,
  ⟨"GL_RATE", 0xa1001, [], .gl, 392,
    [⟨"patrol_mbps", 0, 16, .rw, 0x3c, .nonzeroRange 1 4000, false, false⟩]⟩,
  ⟨"GL_LIMITS", 0xa1002, [], .gl, 392,
    [⟨"eye_min_w", 0, 8, .rw, 0x14, .any, false, false⟩,
     ⟨"eye_min_h", 8, 12, .rw, 0x28, .any, false, false⟩,
     ⟨"edge_tol", 20, 8, .rw, 0x4, .nonzero, false, false⟩]⟩,
  ⟨"GL_TASK0", 0xa1010, [(8, 0x2)], .gl, 392,
    [⟨"state", 0, 2, .ro, 0x0, .any, false, false⟩,
     ⟨"progress_pm", 2, 10, .ro, 0x0, .any, false, false⟩,
     ⟨"passes", 16, 16, .ro, 0x0, .any, true, false⟩]⟩,
  ⟨"GL_TASK1", 0xa1011, [(8, 0x2)], .gl, 392,
    [⟨"failures", 0, 16, .ro, 0x0, .any, true, false⟩,
     ⟨"skipped", 16, 16, .ro, 0x0, .any, true, false⟩]⟩]

/-- The rows among which the word of index `k` lies, if it is assigned. -/
def rowsNear (k : Nat) : List WordRow :=
  if k < 0x10000 then rows_low
  else if k < 0x20000 then
    match k % 0x4000 / 0x100 with
    | 0x1 => rows_head1
    | 0x2 => rows_head2
    | 0x3 => rows_head3
    | 0x5 => rows_head5
    | 0x6 => rows_head6
    | 0x7 => rows_head7
    | 0x9 => rows_head9
    | q => if q < 0x10 then [] else if q < 0x20 then rows_lmCode else rows_sqWin
  else if k < 0x30400 then (if k < 0x30000 then [] else rows_str)
  else if k < 0x30800 then rows_bank
  else if k < 0x31000 then rows_lit3
  else if k < 0x40000 then rows_cc
  else match k / 0x10000 with
    | 4 | 5 => rows_a4
    | 0x6 => rows_a6
    | 0x7 => rows_a7
    | 0x8 => rows_a8
    | 9 => rows_a9
    | 0xa => rows_aa
    | _ => []

/-- Every state word of the state map. -/
def wordTable : List WordRow :=
  rows_low ++ rows_a7 ++ rows_head1 ++ rows_head3 ++ rows_head2 ++ rows_a9 ++
  rows_head5 ++ rows_head6 ++ rows_head7 ++ rows_sqWin ++ rows_head9 ++ rows_lmCode ++
  rows_str ++ rows_bank ++ rows_lit3 ++ rows_a4 ++ rows_cc ++ rows_a6 ++
  rows_a8 ++ rows_aa

end Sys2Proof.Machine
end

