-- ==== Sys2Proof/Machine/Flags.lean ====
section
/-!
DEFINITION. The status codes, the event sources and their severities and kinds, and the codes of the states that the
spec numbers.
-/

namespace Sys2Proof.Machine

/-! ## Status codes (R299) -/

def S_OK : Nat := 0x0000
def S_BUSY : Nat := 0x0001
def S_QUEUED : Nat := 0x0002
def S_RUNNING : Nat := 0x0003
def S_PARTIAL : Nat := 0x0004
def E_BAD_ARG : Nat := 0x0101
def E_ZERO : Nat := 0x0102
def E_RANGE : Nat := 0x0103
def E_COUPLED : Nat := 0x0104
def E_CONFLICT : Nat := 0x0105
def E_CAPACITY : Nat := 0x0106
def E_STATE : Nat := 0x0107
def E_TIMEOUT : Nat := 0x0108
def E_PRECOND : Nat := 0x0201
def E_MISMATCH : Nat := 0x0202
def E_TEMP_WINDOW : Nat := 0x0203
def E_SIG : Nat := 0x0301
def E_COMPAT : Nat := 0x0302
def E_POISON : Nat := 0x0401
def E_FALLOW : Nat := 0x0501

/-- The first code of a list that is not 0, or 0: the first failing check of a list of checks. -/
def firstCode : List Nat → Nat
  | [] => 0
  | c :: t => if c = 0 then firstCode t else c

/-! ## Event sources (R316): index = group * 32 + bit -/

def AVS_LIMIT : Nat := 0
def AVS_BUS_ERR : Nat := 1
def PCIE_LINK_RESET : Nat := 2
def STATE_WRITE_REFUSED : Nat := 3
def MB_BUSY : Nat := 4
def FW_ACCEPTED : Nat := 5
def FW_ROLLBACK : Nat := 6
def SF_WATCHDOG : Nat := 7
def CELLAR_ERR : Nat := 8
def MB_DONE (m : Nat) : Nat := 16 + m
def RV_TRAIN_FAIL : Nat := 32
def RV_RETRAIN : Nat := 33
def RV_LANE_SPARED : Nat := 34
def RV_PARITY_ACTIVE : Nat := 35
def RV_BAND_STALE : Nat := 36
def RV_INGEST_SUBST : Nat := 37
def RV_MOD_FAULT : Nat := 38
def RV_LINE_ERR : Nat := 39
def FLIP_REFUSED : Nat := 64
def BUFFER_RETIRED : Nat := 65
def BUF_GEN_MISMATCH : Nat := 66
def VRR_REPEAT : Nat := 67
def LAYER_UNDERRUN : Nat := 68
def CRC_RECT_MISMATCH : Nat := 69
def STILL_CHANGE : Nat := 70
def MON_TE_MISSED : Nat := 71
def COLOUR_CLIP : Nat := 72
def SPLIT_CLIP : Nat := 73
def HEAD_MODE_FAIL : Nat := 96
def BAND_SKIPPED : Nat := 97
def PLANE_POISON : Nat := 98
def SEQ_WINDOW_BUSY : Nat := 99
def BAND_LATE : Nat := 100
def SHIFT_LATE : Nat := 101
def THROTTLE_SHORT : Nat := 102
def LM_LOCK_EV : Nat := 103
def LM_UNLOCK_EV : Nat := 104
def LM_FLYBACK_LATE : Nat := 105
def LEN_DROP : Nat := 106
def LEN_ARM_REFUSED : Nat := 107
def LS_STRING_FAULT : Nat := 128
def LS_BANK_OFF : Nat := 129
def LS_HR_LIMIT : Nat := 130
def LS_PMBUS_ERR : Nat := 131
def LS_PROBE_MISSING : Nat := 132
def DB_NO_RESPONSE : Nat := 133
def DB_LATCH_MISSED : Nat := 134
def ZN_ZONE_FAULT : Nat := 135
def ZN_LEVELS_STALE : Nat := 136
def ZN_SELF_SCAN : Nat := 137
def CC_NO_MEASURE : Nat := 138
def CC_ITEM_SKIP : Nat := 139
def CC_IMPLAUSIBLE : Nat := 140
def CC_SOLVE_FAIL : Nat := 141
def CC_LIMITED : Nat := 142
def CE_OVERRUN : Nat := 160
def CE_LOOP_FAULT : Nat := 161
def LOOP_LIMIT_STEP : Nat := 162
def CE_FE_TRIP : Nat := 163
def CE_INJECT_DONE : Nat := 164
def CE_CAPTURE_DONE : Nat := 165
def GR_UE : Nat := 192
def GR_POISON : Nat := 193
def GR_RANGE : Nat := 194
def GR_INGEST_DROP : Nat := 195
def GR_REFRESH_CATCHUP : Nat := 196
def GR_MR4_HOT : Nat := 197
def GR_RH_THROTTLE : Nat := 198
def GR_RH_HOT_A : Nat := 199
def GR_NO_SPARE : Nat := 200
def GR_SPARE_START : Nat := 201
def GR_SPARE_DONE : Nat := 202
def SH_REFUSED : Nat := 224
def SH_ABORTED : Nat := 225
def SH_COMPLETE : Nat := 226
def SH_COUPLED_WRITE : Nat := 227
def TH_THROTTLE : Nat := 228
def TH_SENSOR_SUSPECT : Nat := 229
def TH_ALARM : Nat := 230
def CL_DONE : Nat := 231
def CL_REJECT : Nat := 232
def GL_FAIL : Nat := 233
def GL_DONE : Nat := 234

/-- The sources and their severities: 0 INFO, 1 WARNING, 2 ERROR, 3 FAULT (R316). -/
def eventSources : List (Nat × Nat) :=
  [(AVS_LIMIT, 1), (AVS_BUS_ERR, 2), (PCIE_LINK_RESET, 1), (STATE_WRITE_REFUSED, 1), (MB_BUSY, 0), (FW_ACCEPTED, 0),
   (FW_ROLLBACK, 2), (SF_WATCHDOG, 3), (CELLAR_ERR, 2), (MB_DONE 0, 0), (MB_DONE 1, 0), (MB_DONE 2, 0), (MB_DONE 3, 0),
   (MB_DONE 4, 0), (MB_DONE 5, 0), (MB_DONE 6, 0), (MB_DONE 7, 0), (RV_TRAIN_FAIL, 2), (RV_RETRAIN, 1),
   (RV_LANE_SPARED, 1), (RV_PARITY_ACTIVE, 1), (RV_BAND_STALE, 1), (RV_INGEST_SUBST, 1), (RV_MOD_FAULT, 2),
   (RV_LINE_ERR, 1), (FLIP_REFUSED, 1), (BUFFER_RETIRED, 0), (BUF_GEN_MISMATCH, 2), (VRR_REPEAT, 1),
   (LAYER_UNDERRUN, 1)] ++
  [(CRC_RECT_MISMATCH, 2), (STILL_CHANGE, 0), (MON_TE_MISSED, 1), (COLOUR_CLIP, 0), (SPLIT_CLIP, 0), (HEAD_MODE_FAIL, 2),
   (BAND_SKIPPED, 1), (PLANE_POISON, 2), (SEQ_WINDOW_BUSY, 1), (BAND_LATE, 1), (SHIFT_LATE, 1), (THROTTLE_SHORT, 1),
   (LM_LOCK_EV, 0), (LM_UNLOCK_EV, 2), (LM_FLYBACK_LATE, 1), (LEN_DROP, 3), (LEN_ARM_REFUSED, 1), (LS_STRING_FAULT, 2),
   (LS_BANK_OFF, 3), (LS_HR_LIMIT, 1), (LS_PMBUS_ERR, 2), (LS_PROBE_MISSING, 1), (DB_NO_RESPONSE, 2),
   (DB_LATCH_MISSED, 1), (ZN_ZONE_FAULT, 2), (ZN_LEVELS_STALE, 1), (ZN_SELF_SCAN, 1), (CC_NO_MEASURE, 1),
   (CC_ITEM_SKIP, 1), (CC_IMPLAUSIBLE, 1)] ++
  [(CC_SOLVE_FAIL, 2), (CC_LIMITED, 1), (CE_OVERRUN, 1), (CE_LOOP_FAULT, 3), (LOOP_LIMIT_STEP, 1), (CE_FE_TRIP, 2),
   (CE_INJECT_DONE, 0), (CE_CAPTURE_DONE, 0), (GR_UE, 2), (GR_POISON, 2), (GR_RANGE, 1), (GR_INGEST_DROP, 2),
   (GR_REFRESH_CATCHUP, 1), (GR_MR4_HOT, 1), (GR_RH_THROTTLE, 1), (GR_RH_HOT_A, 2), (GR_NO_SPARE, 2),
   (GR_SPARE_START, 2), (GR_SPARE_DONE, 0), (SH_REFUSED, 1), (SH_ABORTED, 1), (SH_COMPLETE, 0), (SH_COUPLED_WRITE, 1),
   (TH_THROTTLE, 1), (TH_SENSOR_SUSPECT, 1), (TH_ALARM, 2), (CL_DONE, 0), (CL_REJECT, 2), (GL_FAIL, 2), (GL_DONE, 0)]

/-- The severity of a source, where the tables list it. -/
def severity (i : Nat) : Option Nat := (eventSources.find? (fun e => e.1 == i)).map (·.2)

/-- Whether a bit is a source. -/
def isSource (i : Nat) : Bool := (severity i).isSome

/-- A route word at reset (R314): vector = group, or 8 + m for MB_DONE_m; irq and msix set; fault only for FAULT
sources; the severity. -/
def routeReset (i : Nat) : Word :=
  match severity i with
  | none => 0
  | some sv =>
    let vec := if 16 ≤ i ∧ i < 24 then i - 8 else i / 32
    BitVec.ofNat 32 (vec + 0x20 + (if sv = 3 then 0x40 else 0) + 0x80 + sv * 0x100)

/-- The enables at reset: 1 for FAULT sources (R314). -/
def enableReset : BitVec 256 := (1#256 <<< SF_WATCHDOG) ||| (1#256 <<< LEN_DROP) ||| (1#256 <<< LS_BANK_OFF) |||
  (1#256 <<< CE_LOOP_FAULT)

/-! ## State codes -/

/-- Training states (R34). -/
def DISABLED : Nat := 0
def TALLY_LOCK : Nat := 1
def CAPS_STATE : Nat := 2
def BLOCK_LOCK : Nat := 3
def EQ : Nat := 4
def DESKEW : Nat := 5
def ACTIVE : Nat := 6
def SPARING : Nat := 7
def RETRAIN : Nat := 8
def FAILED : Nat := 9

/-- Boot phases (R355). -/
def LOADER : Nat := 0
def FW_START : Nat := 1
def RUNNING : Nat := 2
def FALLOW : Nat := 3

/-- Failure reasons (R355). -/
def FR_IMAGE_SIG : Nat := 1
def FR_IMAGE_CRC : Nat := 2
def FR_DRAM_TRAIN : Nat := 3
def FR_WATCHDOG : Nat := 4
def FR_CELLAR : Nat := 5
def FR_HOST : Nat := 6

/-- Reset causes (R345). -/
def CAUSE_POR : Nat := 0
def CAUSE_RST_N : Nat := 1
def CAUSE_DEV_RESET : Nat := 2
def CAUSE_WATCHDOG : Nat := 3
def CAUSE_RETRY : Nat := 4

/-- Sheaf states (R268). -/
def SH_FREE : Nat := 0
def SH_OPEN : Nat := 1
def SH_VALIDATING : Nat := 2
def SH_PENDING : Nat := 3
def SH_APPLIED : Nat := 4
def SH_DONE : Nat := 5
def SH_REFUSED_ST : Nat := 6
def SH_ABORTED_ST : Nat := 7

/-- Mailbox states (R302). -/
def MB_IDLE : Nat := 0
def MB_QUEUED : Nat := 1
def MB_RUNNING : Nat := 2
def MB_DONE_ST : Nat := 3
def MB_FAILED : Nat := 4

end Sys2Proof.Machine
end

