-- ==== Sys2Proof/Machine/Operands.lean ====
section
/-!
DEFINITION. The operand forms: bits and bytes, byte order, and the CRCs that messages, packets and records carry.
-/

namespace Sys2Proof.Machine

/-- Bits `lo` up, `width` of them, of a number. -/
def bits (n lo width : Nat) : Nat := n / 2 ^ lo % 2 ^ width

/-- Bit `i` of a number. -/
def bitOf (n i : Nat) : Bool := n.testBit i

/-- The value of bytes, the first the least significant (R30: fields are little-endian). -/
def leNat : List Byte → Nat
  | [] => 0
  | b :: t => b.toNat + 256 * leNat t

/-- The value of bytes, the first the most significant (SPI, R297). -/
def beNat (l : List Byte) : Nat := leNat l.reverse

/-- `n` as `k` bytes, least significant first. -/
def natLe : Nat → Nat → List Byte
  | 0, _ => []
  | k + 1, n => BitVec.ofNat 8 n :: natLe k (n / 256)

/-- `n` as `k` bytes, most significant first. -/
def natBe (k n : Nat) : List Byte := (natLe k n).reverse

/-- A word as its four bytes, byte 0 first. -/
def wordBytes (w : Word) : List Byte := natLe 4 w.toNat

/-- The words that bytes spell, four bytes a word, byte 0 first. -/
def bytesWords : List Byte → List Word
  | a :: b :: c :: d :: t => BitVec.ofNat 32 (leNat [a, b, c, d]) :: bytesWords t
  | [] => []
  | l => [BitVec.ofNat 32 (leNat l)]

/-- The bytes of words. -/
def wordsBytes (l : List Word) : List Byte := l.flatMap wordBytes

/-- The bits of a byte, most significant first. -/
def byteBitsMsb (b : Byte) : List Bool := [7, 6, 5, 4, 3, 2, 1, 0].map (fun i => b.getLsbD i)

/-- The bits of a byte, least significant first. -/
def byteBitsLsb (b : Byte) : List Bool := [0, 1, 2, 3, 4, 5, 6, 7].map (fun i => b.getLsbD i)

/-- A CRC that takes the next bit at the top end: width, polynomial, register, bits. -/
def crcStep (w poly : Nat) (reg : Nat) (b : Bool) : Nat :=
  let r := reg * 2 % 2 ^ w
  if (b != reg.testBit (w - 1)) then r ^^^ poly else r

def crcBits (w poly init : Nat) (l : List Bool) : Nat := l.foldl (crcStep w poly) init

/-- The CRC-8 of a tally message: polynomial 0x07, initial value 0 (R42). -/
def crcTally (l : List Byte) : Nat := crcBits 8 0x07 0 (l.flatMap byteBitsMsb)

/-- The CRC-8 of the driver bus: polynomial 0x2F, initial value and final XOR 0xFF (R173). -/
def crcDriver (l : List Byte) : Nat := crcBits 8 0x2F 0xFF (l.flatMap byteBitsMsb) ^^^ 0xFF

/-- The CRC-16 of R424 over bits. -/
def crc16Bits (l : List Bool) : Nat := crcBits 16 0x1021 0xFFFF l

/-- The CRC-16 of an SPI transaction: bytes in order, most significant bit first (R424). -/
def crcSpi (l : List Byte) : Nat := crc16Bits (l.flatMap byteBitsMsb)

/-- One bit of the reflected IEEE 802.3 CRC-32. -/
def crc32Step (reg : Nat) (b : Bool) : Nat :=
  if (b != reg.testBit 0) then (reg / 2) ^^^ 0xEDB88320 else reg / 2

/-- The register of the CRC-32 after bytes. -/
def crc32Reg (reg : Nat) (l : List Byte) : Nat := (l.flatMap byteBitsLsb).foldl crc32Step reg

/-- The CRC-32 of R80. -/
def crc32 (l : List Byte) : Nat := crc32Reg 0xFFFFFFFF l ^^^ 0xFFFFFFFF

/-- Bits of a 16-bit number in the reverse order. -/
def reverse16 (n : Nat) : Nat := ((List.range 16).map (fun i => if n.testBit i then 2 ^ (15 - i) else 0)).sum

/-- Whether the hcrc of a packet header is good: the CRC-16 over bits 0 to 111, stored most significant bit first
(R39, R424). -/
def hcrcGood (h : BitVec 128) : Bool :=
  crc16Bits ((List.range 112).map (fun i => h.getLsbD i)) == reverse16 (bits h.toNat 112 16)

/-- An address of two words: low, and bits [7:0] of high (catalogue of "Host interface, mailboxes and commands"). -/
def addr40 (lo hi : Word) : Nat := lo.toNat + hi.toNat % 256 * 2 ^ 32

/-- One word changed in the bits of a mask. -/
def maskWord (old mask value : Word) : Word := (old &&& ~~~mask) ||| (value &&& mask)

/-- The mask of `width` bits from `lo`. -/
def fieldMask (lo width : Nat) : Word := BitVec.ofNat 32 ((2 ^ width - 1) * 2 ^ lo)

/-- The field of a word. -/
def getBits (w : Word) (lo width : Nat) : Nat := bits w.toNat lo width

/-- A word with a field changed. -/
def putBits (w : Word) (lo width v : Nat) : Word := maskWord w (fieldMask lo width) (BitVec.ofNat 32 (v * 2 ^ lo))

/-- The numbers of the bits set in a mask of `w` bits. -/
def maskBits (n w : Nat) : List Nat := (List.range w).filter (fun i => bitOf n i)

/-- Strings named by two mask words. -/
def maskStrings (lo hi : Nat) : List Nat := maskBits lo 32 ++ (maskBits hi 32).map (· + 32)

end Sys2Proof.Machine
end

