-- ==== Sys2Proof/Machine/State.lean ====
section
/-!
DEFINITION. The state of the PN9440 as plain data: the words of the state map, the BAR0 blocks, the memories, the pins,
and what each block holds between its steps; the reasons a step can stop; and the state after reset.
-/

namespace Sys2Proof.Machine

/-- What leaves the device: link columns and packets, bus frames, host messages. Newest first in `State.out`. -/
inductive Out where
  /-- an MSI-X message on a vector (R313) -/
  | msix (vec : Nat)
  /-- a CMD packet to the modulator of a head: opcode, ctag, arg0, payload (R41, R148, R306) -/
  | cmd (head opcode ctag arg0 : Nat) (payload : List Word)
  /-- a PLANE_BAND row: head, band, tag, plane (0 with zeros for all off: R118), row, resend, payload (R39, R129) -/
  | planeRow (head band tag plane row : Nat) (resend : Bool) (data : List Byte)
  /-- a FILL block of a head port (R39) -/
  | fill (head : Nat)
  /-- a RESET column: head, band, tag, global (R45, R128) -/
  | resetColumn (head band tag : Nat) (glob : Bool)
  /-- a LINE_START column: head, line of beam 0, reverse (R149) -/
  | lineStart (head line : Nat) (reverse : Bool)
  /-- a LINE_CODES packet: head, beam, scan line, reverse (R152) -/
  | lineCodes (head beam line : Nat) (reverse : Bool) (codes : List Nat)
  /-- a LANE_MAP column: head, lanes carried by the spares, marker count (R37) -/
  | laneMap (head spare0 spare1 marker : Nat)
  /-- an exact copy of a lane starts on a spare at the next AM column (R37) -/
  | spareCopy (head lane spare : Nat)
  /-- a transmit preset is applied on a lane, 63 for all (R35) -/
  | preset (head lane preset : Nat)
  /-- a driver-bus frame: port, bytes, and the levels of its four data lanes bit time by bit time (R171, R172) -/
  | dbFrame (port : Nat) (bytes : List Byte) (lanes : List (List Bool))
  /-- LATCH_ALL ends on the ports of a group in one tick (R177) -/
  | latch (tag : Nat) (ports : List Nat)
  /-- a PMBus transaction: bank, and the bytes on the wire from the address byte on (R168) -/
  | pmbus (bank : Nat) (bytes : List Byte)
  /-- an AVSBus request in mV (R19) -/
  | avs (mv : Nat)
  /-- a monitor frame: its number, and its packets, each a DSI data type and a payload (R84) -/
  | monitorFrame (number : Nat) (packets : List (Nat × List Byte))
  /-- a DSI command of MON.DCS -/
  | dsi (dataType : Nat) (payload : List Word) (read : Bool)
  /-- data written to host memory by MEM.DMA -/
  | hostData (addr : Nat) (data : List Byte)
  /-- a code written to a DAC (R223) -/
  | dac (n : Nat) (code : Int)
  /-- a PWM high time in fine steps, and the tick of the period it applies from (R223) -/
  | pwm (n : Nat) (fine : Int) (at0 : Nat)
  /-- a Granary command: channel, subchannel, kind (0 refresh, 3 ZQ, 4 MR4, 5 self-refresh entry, 6 self-refresh exit,
  7 DQS-oscillator tracking), chip select -/
  | dram (ch sub kind cs : Nat)
  /-- a burst of a line (R240, R243): channel, subchannel, whether it writes, chip select, bank group and bank, row, columns C[9:4],
  line, and for a write the 16 beats on the 32 DQ pins and the 8 CB pins -/
  | burst (ch sub : Nat) (write : Bool) (cs bank row column line : Nat) (beats : List (BitVec 40))
  /-- what a read of a line brings its requester (R244): requester, line, data; none where it is E_POISON -/
  | lineData (r line : Nat) (data : Option (List Byte))
  deriving DecidableEq, Repr

/-- The events of "Events": the latches, enables, data words and route words (R309 to R315). -/
structure Events where
  latch : BitVec 256
  enable : BitVec 256
  data : Tab Word
  route : Tab Word
  deriving DecidableEq, Repr

/-- The boot words and what the resident loader keeps (R345 to R355). -/
structure Boot where
  phase : Nat
  stable : Bool
  reason : Nat
  deferred : Bool
  shadow : Nat
  lastReset : Nat
  granaryOk : Bool
  forceFallow : Bool
  loaderStep : Nat
  wdogMs : Nat
  expiries : Nat
  startMs : Nat
  detail : Nat
  starts : Nat
  cellarOk : Bool
  porLow : Bool
  rstLow : Bool
  /-- a DEV.RESET waits for its 1 ms -/
  resetPending : Bool
  /-- an expiry whose failure the next start records (R350) -/
  wdogFailed : Bool
  /-- the outputs are high impedance until loader step 1 (R402) -/
  highZ : Bool
  deriving DecidableEq, Repr

/-- The fuses (R377): part (true = PN9440), margin class, grade, lot, wafer, position and test program. -/
structure Fuses where
  pn9440 : Bool
  marginClass : Nat
  gradeE : Bool
  lot : List Byte
  wafer : Nat
  dieX : Byte
  dieY : Byte
  testProg : Nat
  deriving DecidableEq, Repr

/-- The PCIe endpoint (R289, R290, R313). -/
structure Pcie where
  perstLow : Bool
  training : Bool
  gen : Nat
  width : Nat
  memDecode : Bool
  busMaster : Bool
  msixEnable : Bool
  d3hot : Bool
  masked : BitVec 32
  pending : BitVec 32
  table : Tab Word
  subVendor : Nat
  subDevice : Nat
  deriving DecidableEq, Repr

/-- The host-interface registers (R294) and what the SPI target reports (R297). -/
structure HostIf where
  apertureGib : BitVec 10
  spiSeen : Bool
  werrIndex : Nat
  werrIface : Nat
  werrCode : Nat
  werrCount : Nat
  sizeErrs : Nat
  spiCrcErrs : Nat
  spiStatus : Nat
  /-- what the device returned to the last host read or SPI transaction -/
  response : List Byte
  /-- what the SPI target has driven in the last transaction, clock by clock: which of SPIT_IO3 to SPIT_IO0, and their levels (R296) -/
  pins : List (BitVec 4 × BitVec 4)
  deriving DecidableEq, Repr

/-- One command held by a mailbox (R300 to R305). `state` has the codes of MB_STATUS.state. -/
structure MbCmd where
  id : Nat
  code : Nat
  nArgs : Nat
  kind : Nat
  target : Nat
  band : Nat
  tag : Nat
  args : List Word
  spi : Bool
  state : Nat
  result : Nat
  /-- the end of the work: status and results, not yet written to the reply (R302) -/
  outcome : Option (Nat × List Word)
  progress : Nat
  partials : Nat
  newPartial : Bool
  /-- the sheaf the command has built (R280) -/
  sheaf : Option Nat
  /-- the reply is discarded (R290) -/
  orphan : Bool
  /-- the work has been set going and its end is awaited -/
  begun : Bool
  /-- how much of the work is done, in the command's own unit (R305) -/
  done : Nat
  /-- when the command became head, in order -/
  since : Nat
  deriving DecidableEq, Repr

/-- One mailbox. -/
structure Mailbox where
  request : Tab Word
  reply : Tab Word
  cmds : List MbCmd
  lastSubmit : Nat
  busy : Nat
  completed : Nat
  deriving DecidableEq, Repr

/-- One staged state write (R267). -/
structure Entry where
  index : Nat
  mask : Word
  value : Word
  deriving DecidableEq, Repr

/-- One sheaf handle (R268, R281). -/
structure Sheaf where
  state : Nat
  index : Nat
  mask : Word
  /-- SH_BOUNDARY; a commit takes kind, target, band and mailbox from it -/
  bnd : Word
  kind : Nat
  target : Nat
  band : Nat
  mailbox : Nat
  broken : Bool
  brokenCode : Nat
  entries : List Entry
  staged : Nat
  result : Nat
  failEntry : Nat
  abortResult : Nat
  stamp : Nat
  /-- the commands and sheaves that validation and a fence wait for -/
  waits : List Nat
  after : List Nat
  /-- commit order and PENDING order -/
  order : Nat
  admission : Bool
  /-- allocated over SPI (R290) -/
  spi : Bool
  deriving DecidableEq, Repr

/-- One buffer slot of a flip queue (R63). -/
structure FqSlot where
  base : BitVec 40
  stride : BitVec 24
  gen : Word
  valid : Bool
  deriving DecidableEq, Repr

/-- One retirement (R67). -/
structure Retired where
  slot : Nat
  mismatch : Bool
  unshown : Bool
  deriving DecidableEq, Repr

/-- One flip queue (R63 to R72). -/
structure FlipQueue where
  slots : Tab FqSlot
  waiting : List Nat
  current : Option Nat
  held : Option Nat
  lastResult : Nat
  fifo : List Retired
  retiring : List Retired
  presented : Nat
  presentedFrame : Nat
  /-- the current slot has had a band or a frame shown -/
  shown : Bool
  /-- a whole frame of the current slot has been shown with every check matching -/
  checked : Bool
  /-- the held slot is shown in place of the current one -/
  fallback : Bool
  /-- valid = 0 was written to the current slot (R68) -/
  leaving : Bool
  /-- the current slot failed a tag check, so the held slot may be shown (R71) -/
  failed : Bool
  deriving DecidableEq, Repr

/-- One source frame in the ring of an ingest-fed layer (R60, R61). -/
structure SrcFrame where
  number : Nat
  buf : Nat
  line0 : Bool
  closed : Bool
  shown : Bool
  /-- composition reads this frame's buffer -/
  reading : Bool
  /-- its buffer holds a later frame; it is still to be counted as skipped if it was never shown (R60) -/
  gone : Bool
  deriving DecidableEq, Repr

/-- One VIDEO_LINE stream of an ingest port (R51). Line marks: 1 written, 2 failed its crc. -/
structure Stream where
  frame : Option Nat
  luma : Tab Nat
  chroma : Tab Nat
  prevSum : Tab Word
  sum : Tab Word
  /-- the numbers of the frames closed since the port's enable, the last one first -/
  closed : List Nat
  dropping : Bool
  changed : Bool
  /-- the lines of the open frame on their way into the pipeline of the direct line path (R16), chroma lines from 65536 on -/
  held : Tab (List Byte)
  deriving DecidableEq, Repr

/-- A column on the lanes of a head port (R29, R32): each lane and its 132 bits. -/
structure Column where
  head : Nat
  blocks : List (Nat × BitVec 132)
  deriving DecidableEq, Repr

/-- A lane as received (R30, R31): the run of valid headers up to 64, which of the last 64 headers were not valid, newest in bit 0,
and the descrambler's register. -/
structure RxLane where
  run : Nat
  invalid : BitVec 64
  scr : BitVec 58
  deriving DecidableEq, Repr

/-- One Ramvos port: 0 and 1 ingest, 2 to 5 heads 0 to 3 (R31 to R41). -/
structure Port where
  locks : BitVec 42
  markers : BitVec 16
  goodAms : Nat
  /-- the lane being replaced and the spare taken for it (R37) -/
  sparing : Option (Nat × Nat)
  /-- the spare carries its copy, from the AM column after it was taken -/
  copying : Bool
  mapAt : Option (BitVec 16)
  lossTick : Option Nat
  fromRetrain : Bool
  /-- the stored equalisation by lane, as its SERDES records hold it: preset, and receiver settings from bit 8 on (R331) -/
  stored : Option (List Nat)
  presets : Tab Nat
  /-- lanes as received -/
  rx : Tab RxLane
  /-- what the transmitter holds: scramblers by lane, columns since the last AM column, seq of the last packet, and blocks that
  do not fill a column yet (R30, R33, R39) -/
  scr : Tab (BitVec 58)
  col : Nat
  seqOut : BitVec 16
  stream : List (BitVec 128)
  /-- the boundaries that timed columns have been given, in 1/25 fine step (R45) -/
  timedAt : List Nat
  lastSeq : Option (BitVec 16)
  hunting : Bool
  caps : BitVec 128
  /-- ACTIVE has been reached since the last write of enable = 1 -/
  everActive : Bool
  /-- MODE, and in line mode LOAD_TIMING, have succeeded -/
  modeOk : Bool
  timingOk : Bool
  /-- MODE or LOAD_TIMING fell due while the port was down, and is sent once it is ACTIVE (R76, R148) -/
  modeDue : Bool
  timingDue : Bool
  /-- the head is dark until the first whole frame after ACTIVE (R36) -/
  darkUntilFrame : Bool
  parked : Bool
  ctag : BitVec 16
  /-- answers awaited: ctag and what for (0 MODE, 1 LOAD_TIMING, 2 + m mailbox m), and the CMD's opcode and arg0 -/
  awaited : List (Nat × Nat × Nat × Nat)
  deriving DecidableEq, Repr

/-- A load of a plane into a band (R44 to R47, R129). `plane` 64 is the all-off plane; `copy` is the copy of the band that the
rows are read from. -/
structure Load where
  tag : Nat
  plane : Nat
  copy : Nat
  nextRow : Nat
  lastRow : Nat
  resend : List (Nat × Nat)
  resends : Nat
  first : Bool
  deadline : Nat
  acked : Bool
  deriving DecidableEq, Repr

/-- One band of a head (R109, R121 to R132). -/
structure Band where
  tag : Nat
  load : Option Load
  /-- copies 0 and 1 lie in the layout that a commit has replaced (R113) -/
  old0 : Bool
  old1 : Bool
  /-- the current copy, and whether the other is ready -/
  cur : Bool
  ready : Bool
  readyOnce : Bool
  /-- the current copy holds a whole frame, and the other one the frame before it, untouched by the Thresher (R111) -/
  curOk : Bool
  otherOk : Bool
  failed : Bool
  writing : Bool
  /-- the slot that starts next, and its nominal start -/
  slot : Nat
  start : Nat
  offsetFine : Nat
  shown : Option Nat
  dumped : Bool
  dark : Bool
  playBank : Bool
  /-- the tag of the last RESET column, and whether that reset has been counted stale (R47) -/
  lastTag : Nat
  staleDone : Bool
  /-- loads whose reset has passed with rows still to send, oldest first (R25, R129) -/
  tails : List Load
  /-- the frame of the last replay, and how many thin slots it drops (R137, R139) -/
  frameNo : Option Nat
  thinX : Nat
  /-- row groups stepped in the window of the slot last started, and whether row group 0 of the next slot has been
  stepped ahead (R198) -/
  steps : Nat
  preStep : Bool
  /-- the tag of the levels that the band's replay shows (R197) -/
  levelTag : Nat
  deriving DecidableEq, Repr

/-- An edge placed ahead in an edge generator (R18, R124, R201): output 0 to 127 TOUT, 128 to 135 DBP_0_SYNC to
DBP_7_SYNC. -/
structure Edge where
  out : Nat
  fine : Nat
  level : Bool
  deriving DecidableEq, Repr

/-- A lit window held for a pixel shift (R135): output, the trims of its edges, light-on and light-off in fine steps, whether the
light-off has an edge of its own (R124), the number of the SHIFT slot that holds it, and the matrix, band and row group whose
zones it ages. -/
structure HeldWindow where
  out : Nat
  onTrim : Int
  offTrim : Int
  on : Nat
  off : Nat
  offEdge : Bool
  shift : Nat
  zones : Option (Nat × Nat × Nat)
  deriving DecidableEq, Repr

/-- What a head holds beside its words. -/
structure Head where
  /-- the dither frame count (R96) -/
  dither : Nat
  /-- light is dark for whole frames (R15, R76, R113) -/
  darkFrames : Nat
  frame : Nat
  swapPending : Bool
  /-- the frame from which the new sequence bank governs (R137) -/
  swapAt : Nat
  /-- the plane-load budget taken at the frame boundary, in per mille, and that of the frame before (R139, R324) -/
  beta : Nat
  betaPrev : Nat
  heldWindows : List HeldWindow
  /-- the split has no previous frame (R91) -/
  splitFresh : Bool
  /-- a pixel shift has not settled, and the number of the last SHIFT slot (R135) -/
  shiftWaiting : Bool
  shiftNo : Nat
  need : Tab Nat
  linear : Tab Nat
  index : Tab Nat
  clipRow : Nat
  /-- regions of layouts that are still in use, and the layout words of the bands' older copies (R113) -/
  oldRegions : List (Nat × Nat × Nat × Nat)
  oldWords : List (Nat × Word)
  deriving DecidableEq, Repr

/-- What a group holds beside its words. -/
structure Group where
  line : Nat
  fetching : Bool
  stillRun : Nat
  stillBroken : Bool
  crcSum : Tab Word
  crcLive : BitVec 16
  learn : BitVec 16
  /-- the last pixel each layer supplied: red, green, blue, alpha (R78) -/
  lastPixel : Tab (Option (Nat × Nat × Nat × Nat))
  composed : Nat × Nat × Nat
  crcRects : Tab Word
  sheafHit : Bool
  latchPending : Option Nat
  awaitLock : Bool
  deriving DecidableEq, Repr

/-- What the line mode of a head holds beside its words (R142 to R155). Times in fine steps with 8 fractional bits. -/
structure Line where
  crossings : Nat
  half : Int
  zhat : Int
  lastZ : Int
  lastRising : Bool
  inTol : Nat
  outTol : Nat
  misses : Nat
  sweep : Nat
  drawing : Bool
  flybackWait : Bool
  skipFrame : Bool
  /-- LINE_START columns that have been fixed and not yet sent: line of beam 0, reverse, request instant q, and the boundary b that
  the column stands at (R45, R149) -/
  starts : List (Nat × Bool × Int × Int)
  timingSwap : Bool
  /-- the half period held at the frame boundary, and the start of active sweep 0 (R146) -/
  heldHalf : Int
  rampStart : Option Int
  /-- LINE_CODES packets to send (R152) -/
  queue : List Out
  deriving DecidableEq, Repr

/-- What a string holds beside its words (R182 to R188). -/
structure Str where
  /-- consecutive samples bad for open, for short and for headroom (R183) -/
  openRun : Nat
  shortRun : Nat
  hrRun : Nat
  due : Bool
  sampled : Bool
  silentFrames : Nat
  clearing : Bool
  deriving DecidableEq, Repr

/-- What a bank holds beside its words. -/
structure Bank where
  x : Rat
  fadeCmd : Nat
  breatheFrames : Nat
  member1 : Rat
  member2 : Rat
  kneeTracked : Int
  below : Bool
  answered : List Nat
  highRun : Nat
  pmbRetry : Bool
  /-- a white item has been taken since enable (R211) -/
  hasWhite : Bool
  deriving DecidableEq, Repr

/-- A driver on the driver bus as the device knows it (R175 to R179, R364 to R370). -/
structure Driver where
  kind : Nat
  chans : Nat
  delay : Nat
  level : Nat
  type : Nat
  comms : Bool
  /-- tag of the last latch of its channels (R179) -/
  latchedTag : Option Nat
  /-- its set-points and enables go out again for the next latch (R179) -/
  resend : Bool
  /-- by channel: the code sent last, the tag of the shadow set-point + 1 (0 none), and the active code (R177) -/
  codes : Tab Nat
  shadow : Tab Nat
  active : Tab Nat
  /-- the tag of the shadow enables, and the active enables (R177) -/
  maskTag : Option Nat
  activeMask : Nat
  /-- the sampling phase found at IDENT and refreshed with each poll (R407) -/
  phase : Nat
  version : Nat
  otherVersion : Nat
  /-- the channel mask last sent with ENABLE, the level tag last judged at a ZONE_STEP, and how many levels of which tag
  the driver has taken (R197) -/
  mask : Nat
  seenTag : Option Nat
  levelTag : Nat
  levels : Nat
  /-- the tag of the FW_ACTIVATE or FW_REVERT that waits for its latch (R366) -/
  fwTag : Option Nat
  deriving DecidableEq, Repr

/-- One driver-bus port: frames waiting, and the exchange in flight with its tries so far. -/
structure DbPort where
  queue : List (Nat × List Byte)
  inFlight : Option (Nat × List Byte)
  tries : Nat
  tag : Nat
  deriving DecidableEq, Repr

/-- What a zone matrix holds beside its words. -/
structure Matrix where
  /-- the tag of the levels of the frame, and of the frame before (R197) -/
  tag : Nat
  lastTag : Nat
  missed : Bool
  missedRun : Nat
  /-- the interface of the last write of the matrix's enable word: 0 PCIe, 1 SPI (R193, R294) -/
  iface : Nat
  deriving DecidableEq, Repr

/-- What colour constancy holds for a group (R206 to R214). Exact fractions. -/
structure CcGroup where
  white : List Nat
  level : List (Nat × Nat)
  takeLevel : Bool
  whiteAt : Nat
  levelAt : Nat
  item : Option (Nat × Nat)
  /-- the item that the MEASURE slots of the present frame light (R207) -/
  named : Option (Nat × Nat)
  good : Nat
  tried : Nat
  sum : Rat × Rat × Rat
  /-- the valid readings of the present frame, and whether the frame has been taken into the item (R210) -/
  frameSum : Rat × Rat × Rat
  frameN : Nat
  taken : Bool
  /-- the demand of each component without the rounding of its word (R212) -/
  demand : Rat × Rat × Rat
  /-- a sheaf has changed the group's sequences or banks: the loop is held for the frame, and from the boundary to come
  (R214) -/
  holdFrame : Bool
  holdNext : Bool
  /-- the group is limited (R213) -/
  limited : Bool
  lastUpdate : Nat
  deriving DecidableEq, Repr

/-- One sample of a loop on its way from the sample instant to the output instant (R217): its number, the tick and the raw value, the
position of the loop's generator and the injections at set-point, error and output as they stood then, whether it has been
evaluated and its output instant has come, and the v of its evaluation. -/
structure LoopSample where
  n : Nat
  tick : Nat
  raw : Word
  pos : Option Int
  injSp : Int
  injErr : Int
  injOut : Int
  done : Bool
  out : Bool
  v : Option Int
  deriving DecidableEq, Repr

/-- What a loop holds beside its words (R222 to R232). `samples`: oldest first. -/
structure Loop where
  samples : List LoopSample
  taken : Nat
  prevTick : Nat
  prevY : Int
  swing : Int
  e1 : Int
  e2 : Int
  e3 : Int
  u1 : Int
  u2 : Int
  u3 : Int
  outPrev : Int
  newSet : Bool
  overrunRun : Nat
  feRun : Nat
  /-- a sample has been evaluated since the loop was enabled -/
  seen : Bool
  /-- the next sample is the first since an enable or a FAULT (R225) -/
  first : Bool
  /-- clear_fault waits for the next sample (R225) -/
  clear : Bool
  /-- limits that exclude out_prev wait for the next sample (R227) -/
  limStep : Bool
  /-- what the laser gates see of the loop, as of its last output instant (R153, R220): AMP, fe_tripped, FAULT -/
  gateAmp : Nat
  gateTrip : Bool
  gateFault : Bool
  /-- the run of following errors above the limit has tripped the loop (R231) -/
  feDone : Bool
  /-- e and v of the last evaluation -/
  lastE : Int
  lastV : Int
  deriving DecidableEq, Repr

/-- A PWM output (R223): the high time in use, and one that waits for its first period. -/
structure Pwm where
  high : Int
  next : Option (Int × Nat)
  deriving DecidableEq, Repr

/-- A profile generator (R229): position, velocity and acceleration with 32 fractional bits. -/
structure Gen where
  p : Int
  v : Int
  a : Int
  okRun : Nat
  deriving DecidableEq, Repr

/-- A test injector (R234). -/
structure Inj where
  n : Nat
  lfsr : Nat
  phase : Nat
  held : Nat
  sign : Bool
  value : Int
  deriving DecidableEq, Repr

/-- The capture buffer (R235): samples newest first. -/
structure Capture where
  buf : List (List Int)
  skip : Nat
  triggered : Bool
  after : Nat
  lastCh0 : Int
  trigNow : Bool
  deriving DecidableEq, Repr

/-- One request of a line (R246). `after`: the writes that a read waits for (R247). -/
structure Req where
  id : Nat
  r : Nat
  addr : Nat
  urgent : Bool
  write : Bool
  data : List Byte
  tick : Nat
  after : List Nat
  deriving DecidableEq, Repr

/-- One subchannel: its queues, the requests at their entry point (R248), and why it drains: 0 not, 1 wq_high, 2 a read
waits on a write, 3 idle. -/
structure SubCh where
  reads : List Req
  writes : List Req
  entry : List Req
  drain : Nat
  deriving DecidableEq, Repr

/-- What a Granary channel holds beside its words. -/
structure Chan where
  /-- the error log, newest first: address, kind, symbols, chip select, tick -/
  log : List (Nat × Nat × Nat × Nat × Nat)
  /-- ticks of corrected errors of a chip select, newest first (R259) -/
  ceTimes : Tab (List Nat)
  /-- refreshes due at a burst boundary (R254) -/
  refreshNow : Nat
  /-- open row + 1 of a bank -/
  openRows : Tab Nat
  /-- activations in the window: (bank * 2^17 + row) * 64 + requester -/
  acts : Tab Nat
  /-- the requester throttled for a hot row, + 1 -/
  hot : Tab Nat
  /-- by bank * 64 + requester: requests in the window, tick of the last, halvings and least spacing in ticks -/
  reqs : Tab Nat
  lastAt : Tab Nat
  halvings : Tab Nat
  spacing : Tab Nat
  /-- start of a bank's window -/
  windowAt : Tab Nat
  gleanerHeld : Bool
  /-- ZQ calibration and DQS tracking wait for the next refresh (R239) -/
  zqDue : Bool
  /-- the state that a wake from self-refresh returns to -/
  resume : Nat
  deriving DecidableEq, Repr

/-- An instance that a CAL.RUN names, as far as it has come: the attempts made, the values accepted or none, and the first stored
value as measured (R334, R336). It has ended with values accepted or at the third attempt. -/
structure CalEnd where
  unit : Nat
  attempts : Nat
  values : Option (List Int)
  shown : Int
  deriving DecidableEq, Repr

/-- What a temperature sensor holds beside its words (R319 to R322). A run in ms is 0 while it does not run, else its
length + 1. The medians are in units of 1/16 degC; the low one is above the high one while the run has met none. -/
structure Sensor where
  converted : Bool
  rangeRun : Nat
  stuckMs : Nat
  stuckLow : Int
  stuckHigh : Int
  /-- runs of a difference of more than 8 degC and of more than 4 degC -/
  diffMs : Nat
  nearMs : Nat
  passMs : Nat
  records : List Int
  /-- the last value before exclusion -/
  last : Int
  alarmMs : Nat
  clearMs : Nat
  alarm : Bool
  deriving DecidableEq, Repr

/-- What the thermal block holds beside its words. -/
structure Thermal where
  /-- T_die has stayed below Tt - hyst_c since the last sample at which it was not (R323) -/
  below : Bool
  /-- thousandths of a per mille of the budget -/
  fraction : Nat
  /-- the tick since which T_die - T_min has been at most 1.5 degC (R331) -/
  soak : Option Nat
  deriving DecidableEq, Repr

/-- One slot of the root cellar (R340): valid means its crc is correct. -/
structure CellarSlot where
  payload : List Word
  seq : Nat
  setId : Nat
  good : Bool
  deriving DecidableEq, Repr

/-- One component of the firmware (R356, R384). -/
structure Comp where
  level : Nat
  version : Nat
  digest : List Byte
  deriving DecidableEq, Repr

/-- One body of driver firmware of an image: class, type, level, version, place in the image, digest (R356). -/
structure DrvBody where
  cls : Nat
  type : Nat
  level : Nat
  version : Nat
  offset : Nat
  size : Nat
  digest : List Byte
  deriving DecidableEq, Repr

/-- The firmware in use, in the idle copies and staged (R356 to R372). Components are numbered as the bits of the
pending mask: 0 GL, 1 CE, 2 DB, 3 to 6 SQ of heads 0 to 3, 7 SF. -/
structure Firmware where
  run : Tab Comp
  idle : Tab Comp
  staged : Tab Comp
  /-- driver bodies of the running set, of the set before, of the staged image, and of the image in boot flash -/
  drv : List DrvBody
  idleDrv : List DrvBody
  stagedDrv : List DrvBody
  booted : List DrvBody
  stagedBytes : Nat
  /-- mailbox whose switch of SF waits for acceptance (R367) -/
  handover : Option Nat
  /-- mailbox whose switch of another component is under way, and the component (R363) -/
  applying : Option (Nat × Nat)
  /-- the head's new microcode governs from the last frame boundary (R363) -/
  switched : Bool
  /-- components that FW.ROLLBACK has still to switch back, in order (R369) -/
  rolling : List Nat
  /-- drivers, with the version that each will report: being loaded, loaded and not yet activated, activated (R364, R366) -/
  loading : List (Nat × Nat)
  checked : List (Nat × Nat)
  awaitVersion : List (Nat × Nat)
  /-- drivers switched by the command under way, and drivers that get FW_REVERT for the next latch, with the version that
  each will report (R366, R369, R370) -/
  activated : List Nat
  reverting : List (Nat × Nat)
  settingsLevel : Nat
  area : Nat
  attic : Option (Nat × Nat)
  reports : Nat
  deriving DecidableEq, Repr

/-- The TAP (R393 to R395): instruction, boundary cells, what was last shifted out, and whether pins are under test. -/
structure Jtag where
  ir : Byte
  cells : List Bool
  captured : List Bool
  tdo : Word
  blocked : Bool
  driving : Bool
  highz : Bool
  deriving DecidableEq, Repr

/-- What a Gleaner task holds beside its words. -/
structure GlTask where
  /-- steps and failures of the pass under way, and the tick at which it began -/
  steps : Nat
  passFails : Nat
  started : Nat
  /-- since reset (R390) -/
  allFails : Nat
  allPasses : Nat
  lastMs : Nat
  lastFailTick : Nat
  /-- the background pass that a demand pass has suspended (R389) -/
  bgSteps : Nat
  bgFails : Nat
  bgStarted : Nat
  deriving DecidableEq, Repr

/-- The monitor output (R84). -/
structure Monitor where
  waiting : Bool
  /-- frames of the group since the last refresh (R82), and the tick at which the frame being sent ends (R84) -/
  since : Nat
  sendEnd : Nat
  /-- which half of the double buffer holds the last complete picture (R82) -/
  half : Bool
  frames : Nat
  /-- sums of the boxes of the frame being composed, and the last complete decimated picture -/
  sums : Tab (Nat × Nat × Nat)
  picture : List (Nat × Nat × Nat)
  dcs : Option Nat
  deriving DecidableEq, Repr

/-- The speed-margin governor (R19): 10 us intervals since the last raise, and of lowering margin without a break. -/
structure Governor where
  sinceRaise : Nat
  lowRun : Nat
  retry : Bool
  deriving DecidableEq, Repr

/-- The machine. -/
structure State where
  /-- commands that wait, first in, first out -/
  pending : List Instr
  /-- the tick counter (R217) -/
  tick : Nat
  /-- the next free value (Config.freeValue); the model's own -/
  free : Nat
  /-- next number for commands and sheaves; the model's own -/
  serial : Nat
  out : List Out
  /-- columns of the head ports, newest first (R32) -/
  wire : List Column
  regs : Tab Word
  mem : Tab Byte
  poisoned : List Nat
  /-- lines whose patrol read has issued and that nothing has written since (R387) -/
  patrol : List Nat
  loft : Tab Byte
  planeCode : Tab Word
  resample : Tab (BitVec 64)
  /-- entries loaded into a resampling-table bank, by 2 * head + bank (R147) -/
  resampleLen : Tab Nat
  flash : Tab Byte
  cellar : Tab CellarSlot
  /-- root-cellar writes that wait for the write window, in the order first deferred (R329) -/
  deferred : List (Nat × List Word)
  ev : Events
  once : Tab Bool
  boot : Boot
  fuses : Fuses
  pcie : Pcie
  hi : HostIf
  mb : Tab Mailbox
  sheaves : Tab Sheaf
  allocFails : Nat
  shRefused : Nat
  fq : Tab FlipQueue
  rings : Tab (List SrcFrame)
  streams : Tab Stream
  ports : Tab Port
  bands : Tab Band
  heads : Tab Head
  groups : Tab Group
  edges : List Edge
  tout : BitVec 128
  len : BitVec 8
  sync : BitVec 8
  ilkHigh : Bool
  csHeld : Bool
  lines : Tab Line
  strings : Tab Str
  banks : Tab Bank
  drivers : Tab Driver
  dbPorts : Tab DbPort
  dbTag : Nat
  matrices : Tab Matrix
  /-- consecutive polls that named a zone open, and 256 times those that named it short (R200) -/
  zoneRun : Tab Nat
  /-- contexts to be cleared at the next frame boundary, and those whose fault takes effect there (R200) -/
  zoneClear : List Nat
  zoneFresh : List Nat
  /-- light of a zone since its age last advanced, in ticks at code 1 (R195) -/
  zoneAge : Tab Nat
  /-- the VOUT_MODE byte that the bus converter of a bank reports (R168) -/
  converters : Tab Byte
  ccGroups : Tab CcGroup
  ranges : Tab Nat
  triadBad : Tab Nat
  loops : Tab Loop
  /-- PWM outputs (R223) -/
  pwms : Tab Pwm
  gens : Tab Gen
  injs : Tab Inj
  cap : Capture
  subs : Tab SubCh
  chans : Tab Chan
  /-- by event * 64 + requester: the frame of the requester in which the event was raised last, + 1 (R242) -/
  reqRaised : Tab Nat
  thermal : Thermal
  sensors : Tab Sensor
  calUse : Tab (List Int)
  calTrack : Tab (List Int)
  /-- tracking results that wait for their switch (R338) -/
  calPend : Tab (List Int)
  /-- the CAL.RUN of an item under way: its instances (R333 to R337) -/
  calRuns : Tab (List CalEnd)
  /-- slots of the root cellar whose read-back fails (R340) -/
  badSlots : List Nat
  fw : Firmware
  jtag : Jtag
  gleaner : Tab GlTask
  /-- the task of the last background step (R389) -/
  glTurn : Nat
  mon : Monitor
  gov : Governor
  deriving DecidableEq, Repr

/-- No meaning of this model ends in a fault: every command has an effect of its own or is turned away with the status
code the spec gives. The one constructor is raised by nothing. -/
inductive Fault where
  /-- raised by no command; safe -/
  | none
  deriving DecidableEq, Repr

/-- The reasons a command has no meaning. -/
inductive Refusal where
  /-- raised by an arm of exec whose command has no meaning yet; safe -/
  | notModelled (mnemonic : String)
  deriving DecidableEq, Repr

/-- What a command answers. -/
abbrev Result := Host.Outcome State Fault Refusal

/-! ## What an unlisted number of a table stands for -/

/-- The enables of the FAULT sources are 1 (R314). -/
def Events.reset : Events := { latch := 0, enable := enableReset, data := [], route := [] }

def Boot.reset : Boot :=
  { phase := 0, stable := false, reason := 0, deferred := false, shadow := 0, lastReset := 0, granaryOk := false,
    forceFallow := false, loaderStep := 0, wdogMs := 2000, expiries := 0, startMs := 0, detail := 0, starts := 0,
    cellarOk := true, porLow := true, rstLow := false, resetPending := false, wdogFailed := false, highZ := true }

/-- The part of the example of R385: PN9440-C, margin class B, lot K4T82QA, wafer 7, die (-3, 12). Log 3. -/
def Fuses.reset : Fuses :=
  { pn9440 := true, marginClass := 1, gradeE := false,
    lot := [0x4B, 0x34, 0x54, 0x38, 0x32, 0x51, 0x41], wafer := 7, dieX := 0xFD, dieY := 0x0C, testProg := 0x0213 }

def Pcie.reset : Pcie :=
  { perstLow := true, training := false, gen := 0, width := 0, memDecode := false, busMaster := false,
    msixEnable := false, d3hot := false, masked := 0xFFFFFFFF, pending := 0, table := [], subVendor := 0x1F6E,
    subDevice := 0 }

def HostIf.reset : HostIf :=
  { apertureGib := 0, spiSeen := false, werrIndex := 0, werrIface := 0, werrCode := 0, werrCount := 0, sizeErrs := 0,
    spiCrcErrs := 0, spiStatus := 0, response := [], pins := [] }

def Mailbox.reset : Mailbox :=
  { request := [], reply := [], cmds := [], lastSubmit := 0, busy := 0, completed := 0 }

def Sheaf.reset : Sheaf :=
  { state := 0, index := 0, mask := 0xFFFFFFFF, bnd := 0, kind := 0, target := 0, band := 0, mailbox := 0, broken := false,
    brokenCode := 0, entries := [], staged := 0, result := 0, failEntry := 0xFFF, abortResult := 0, stamp := 0,
    waits := [], after := [], order := 0, admission := false, spi := false }

def FqSlot.reset : FqSlot := { base := 0, stride := 0, gen := 0, valid := false }

def FlipQueue.reset : FlipQueue :=
  { slots := [], waiting := [], current := none, held := none, lastResult := 0, fifo := [], retiring := [],
    presented := 0, presentedFrame := 0, shown := false, checked := false, fallback := false, leaving := false, failed := false }

def Stream.reset : Stream :=
  { frame := none, luma := [], chroma := [], prevSum := [], sum := [], closed := [], dropping := false,
    changed := false, held := [] }

def RxLane.reset : RxLane := { run := 0, invalid := 0, scr := 0 }

def Port.reset : Port :=
  { locks := 0, markers := 0, goodAms := 0, sparing := none, copying := false, mapAt := none, lossTick := none, fromRetrain := false,
    stored := none, presets := [], rx := [], scr := [], col := 0, seqOut := 0, stream := [], timedAt := [], lastSeq := none, hunting := false, caps := 0, everActive := false, modeOk := false,
    timingOk := false, modeDue := false, timingDue := false, darkUntilFrame := true, parked := false, ctag := 0, awaited := [] }

def Band.reset : Band :=
  { tag := 0, load := none, old0 := false, old1 := false, cur := false, ready := false, readyOnce := false, curOk := false, otherOk := false,
    failed := false, writing := false, slot := 0, start := 0, offsetFine := 0, shown := none, dumped := false, dark := false, playBank := false,
    lastTag := 0, staleDone := true, tails := [], frameNo := none, thinX := 0, steps := 0, preStep := false,
    levelTag := 0 }

def Head.reset : Head :=
  { dither := 0, darkFrames := 0, frame := 0, swapPending := false, swapAt := 0, beta := 1000, betaPrev := 1000, heldWindows := [], splitFresh := true, shiftWaiting := false, shiftNo := 0,
    need := [], linear := [], index := [], clipRow := 0, oldRegions := [], oldWords := [] }

def Group.reset : Group :=
  { line := 0, fetching := false, stillRun := 0, stillBroken := false, crcSum := [], crcLive := 0,
    learn := 0, lastPixel := [], composed := (0, 0, 0), crcRects := [], sheafHit := false, latchPending := none,
    awaitLock := false }

def Line.reset : Line :=
  { crossings := 0, half := 0, zhat := 0, lastZ := 0, lastRising := false, inTol := 0, outTol := 0, misses := 0,
    sweep := 0, drawing := false, flybackWait := false, skipFrame := false, starts := [], timingSwap := false,
    heldHalf := 0, rampStart := none, queue := [] }

def Str.reset : Str :=
  { openRun := 0, shortRun := 0, hrRun := 0, due := false, sampled := false, silentFrames := 0, clearing := false }

def Bank.reset : Bank :=
  { x := 0, fadeCmd := 0, breatheFrames := 0, member1 := 1, member2 := 1, kneeTracked := 0, below := false,
    answered := [], highRun := 0, pmbRetry := false,
    hasWhite := false }

def Driver.reset : Driver :=
  { kind := 0, chans := 0, delay := 0, level := 0, type := 0, comms := false, latchedTag := none,
    resend := false, codes := [], shadow := [], active := [], maskTag := none, activeMask := 0, phase := 0,
    version := 0, otherVersion := 0, mask := 0, seenTag := none,
    levelTag := 0, levels := 0, fwTag := none }

def DbPort.reset : DbPort := { queue := [], inFlight := none, tries := 0, tag := 0 }

def Matrix.reset : Matrix := { tag := 0, lastTag := 0, missed := false, missedRun := 0, iface := 0 }

def CcGroup.reset : CcGroup :=
  { white := [], level := [], takeLevel := false, whiteAt := 0, levelAt := 0, item := none, named := none, good := 0, tried := 0,
    sum := (0, 0, 0), frameSum := (0, 0, 0), frameN := 0, taken := false, demand := (1, 1, 1), holdFrame := false, holdNext := false,
    limited := false, lastUpdate := 0 }

def Loop.reset : Loop :=
  { samples := [], taken := 0, prevTick := 0, prevY := 0, swing := 0, e1 := 0, e2 := 0, e3 := 0,
    u1 := 0, u2 := 0, u3 := 0, outPrev := 0, newSet := false, overrunRun := 0,
    feRun := 0, seen := false, first := true, clear := false, limStep := false, gateAmp := 0, gateTrip := false, gateFault := false, feDone := false,
    lastE := 0, lastV := 0 }

def Pwm.reset : Pwm := { high := 0, next := none }

def Gen.reset : Gen := { p := 0, v := 0, a := 0, okRun := 0 }

def Inj.reset : Inj := { n := 0, lfsr := 0x7FFF, phase := 0, held := 0, sign := true, value := 0 }

def Capture.reset : Capture := { buf := [], skip := 0, triggered := false, after := 0, lastCh0 := 0, trigNow := false }

def SubCh.reset : SubCh := { reads := [], writes := [], entry := [], drain := 0 }

def Chan.reset : Chan :=
  { log := [], ceTimes := [], refreshNow := 0, openRows := [], acts := [], hot := [], reqs := [], lastAt := [],
    halvings := [], spacing := [], windowAt := [], gleanerHeld := false, zqDue := false, resume := 2 }

def Sensor.reset : Sensor :=
  { converted := false, rangeRun := 0, stuckMs := 0, stuckLow := 1, stuckHigh := 0, diffMs := 0, nearMs := 0, passMs := 0,
    records := [], last := 0, alarmMs := 0, clearMs := 0, alarm := false }

def CellarSlot.reset : CellarSlot := { payload := [], seq := 0, setId := 0, good := false }

def Comp.reset : Comp := { level := 0, version := 0, digest := [] }

def Firmware.reset : Firmware :=
  { run := [], idle := [], staged := [], drv := [], idleDrv := [], stagedDrv := [], booted := [], stagedBytes := 0,
    handover := none, applying := none, switched := false, rolling := [], loading := [], checked := [],
    awaitVersion := [], activated := [], reverting := [], settingsLevel := 0, area := 0x1000, attic := none,
    reports := 0 }

def Jtag.reset : Jtag :=
  { ir := 0x01, cells := [], captured := [], tdo := 0x19440FFD, blocked := false, driving := false, highz := false }

def GlTask.reset : GlTask :=
  { steps := 0, passFails := 0, started := 0, allFails := 0, allPasses := 0, lastMs := 0, lastFailTick := 0,
    bgSteps := 0, bgFails := 0, bgStarted := 0 }

/-- The records that production writes (R378, log 4): the format header, an empty set commit, and the boot counter. -/
def cellarReset : Tab CellarSlot :=
  [(0, { payload := [0x00010001], seq := 1, setId := 0, good := true }),
   (2, { payload := [0, 0], seq := 1, setId := 0, good := true }),
   (4, { payload := [0, 0, 0, 0], seq := 1, setId := 0, good := true }),
   (512, { payload := [0x1B1F9440, 0x3854344B, 0x07415132, 0x02130CFD], seq := 1, setId := 0, good := true })]

/-- The machine right after POR_N has fallen (R345, R346). -/
def State.reset : State :=
  { pending := [], tick := 0, free := 0, serial := 1, out := [], wire := [],
    regs := [], mem := [], poisoned := [], patrol := [], loft := [], planeCode := [], resample := [], resampleLen := [], flash := [], cellar := cellarReset,
    deferred := [],
    ev := Events.reset,
    once := [], boot := Boot.reset, fuses := Fuses.reset, pcie := Pcie.reset, hi := HostIf.reset, mb := [],
    sheaves := [], allocFails := 0, shRefused := 0, fq := [], rings := [], streams := [], ports := [], bands := [],
    heads := [], groups := [], edges := [], tout := 0, len := 0, sync := 0, ilkHigh := true, csHeld := false,
    lines := [], strings := [], banks := [], drivers := [], dbPorts := [], dbTag := 1, matrices := [], zoneRun := [],
    zoneClear := [], zoneFresh := [], zoneAge := [], converters := [], ccGroups := [], ranges := [], triadBad := [], loops := [], pwms := [], gens := [], injs := [],
    cap := Capture.reset, subs := [], chans := [], reqRaised := [], thermal := { below := false, fraction := 0, soak := none },
    sensors := [], calUse := [], calTrack := [], calPend := [], calRuns := [], badSlots := [], fw := Firmware.reset, jtag := Jtag.reset, gleaner := [], glTurn := 0,
    mon := { waiting := false, since := 0, sendEnd := 0, half := false, frames := 0, sums := [], picture := [], dcs := none },
    gov := { sinceRaise := 5, lowRun := 0, retry := false } }

end Sys2Proof.Machine
end

