-- ==== Sys2Proof/Machine/Registers.lean ====
section
/-!
DEFINITION. The state-map index of every state word and the place of every field in it, as the field tables of
the spec lay them out (rule numbers in the comments). A word of a repeated block takes the block number(s) as
arguments. `Field.key` is the state-map index, `Field.lo` the lowest bit, `Field.width` the number of bits.
-/

namespace Sys2Proof.Machine

/-- HD_TOPOLOGY: R14. -/
def HD_TOPOLOGY : Nat := 0x40
def HD_TOPOLOGY_head0_group : Field := ⟨HD_TOPOLOGY, 0, 3⟩
def HD_TOPOLOGY_head0_mode : Field := ⟨HD_TOPOLOGY, 3, 1⟩
def HD_TOPOLOGY_head1_group : Field := ⟨HD_TOPOLOGY, 4, 3⟩
def HD_TOPOLOGY_head1_mode : Field := ⟨HD_TOPOLOGY, 7, 1⟩
def HD_TOPOLOGY_head2_group : Field := ⟨HD_TOPOLOGY, 8, 3⟩
def HD_TOPOLOGY_head2_mode : Field := ⟨HD_TOPOLOGY, 11, 1⟩
def HD_TOPOLOGY_head3_group : Field := ⟨HD_TOPOLOGY, 12, 3⟩
def HD_TOPOLOGY_head3_mode : Field := ⟨HD_TOPOLOGY, 15, 1⟩
/-- TH_AVS_CTRL: R20. -/
def TH_AVS_CTRL : Nat := 0x70080
def TH_AVS_CTRL_enable : Field := ⟨TH_AVS_CTRL, 0, 1⟩
def TH_AVS_CTRL_target_ps : Field := ⟨TH_AVS_CTRL, 4, 12⟩
def TH_AVS_CTRL_step_mv : Field := ⟨TH_AVS_CTRL, 16, 8⟩
/-- TH_AVS_LIMITS: R20. -/
def TH_AVS_LIMITS : Nat := 0x70081
def TH_AVS_LIMITS_vmin_mv : Field := ⟨TH_AVS_LIMITS, 0, 10⟩
def TH_AVS_LIMITS_vmax_mv : Field := ⟨TH_AVS_LIMITS, 16, 10⟩
/-- TH_AVS_STATUS: R20. -/
def TH_AVS_STATUS : Nat := 0x70082
def TH_AVS_STATUS_vcore_mv : Field := ⟨TH_AVS_STATUS, 0, 10⟩
def TH_AVS_STATUS_stage_ps : Field := ⟨TH_AVS_STATUS, 12, 11⟩
def TH_AVS_STATUS_at_vmax : Field := ⟨TH_AVS_STATUS, 24, 1⟩
def TH_AVS_STATUS_at_vmin : Field := ⟨TH_AVS_STATUS, 25, 1⟩
def TH_AVS_STATUS_margin_class : Field := ⟨TH_AVS_STATUS, 26, 2⟩
def TH_AVS_STATUS_bus_error : Field := ⟨TH_AVS_STATUS, 28, 1⟩
/-- HD_INGEST_CTRL: R52. -/
def HD_INGEST_CTRL (a : Nat) : Nat := 0x100 + a * 0x10
def HD_INGEST_CTRL_enable (a : Nat) : Field := ⟨HD_INGEST_CTRL a, 0, 1⟩
def HD_INGEST_CTRL_parity_en (a : Nat) : Field := ⟨HD_INGEST_CTRL a, 1, 1⟩
def HD_INGEST_CTRL_lanes (a : Nat) : Field := ⟨HD_INGEST_CTRL a, 2, 5⟩
def HD_INGEST_CTRL_retrain (a : Nat) : Field := ⟨HD_INGEST_CTRL a, 7, 1⟩
def HD_INGEST_CTRL_clear_counts (a : Nat) : Field := ⟨HD_INGEST_CTRL a, 8, 1⟩
def HD_INGEST_CTRL_max_attempts (a : Nat) : Field := ⟨HD_INGEST_CTRL a, 9, 3⟩
/-- HD_INGEST_STATUS: R52. -/
def HD_INGEST_STATUS (a : Nat) : Nat := 0x101 + a * 0x10
def HD_INGEST_STATUS_state (a : Nat) : Field := ⟨HD_INGEST_STATUS a, 0, 4⟩
def HD_INGEST_STATUS_lane_lock (a : Nat) : Field := ⟨HD_INGEST_STATUS a, 4, 17⟩
def HD_INGEST_STATUS_parity_in_use (a : Nat) : Field := ⟨HD_INGEST_STATUS a, 21, 1⟩
def HD_INGEST_STATUS_rebuilt_lane (a : Nat) : Field := ⟨HD_INGEST_STATUS a, 22, 5⟩
def HD_INGEST_STATUS_attempts (a : Nat) : Field := ⟨HD_INGEST_STATUS a, 27, 3⟩
/-- HD_INGEST_ERRS2: R52. -/
def HD_INGEST_ERRS2 (a : Nat) : Nat := 0x102 + a * 0x10
def HD_INGEST_ERRS2_crc_lines (a : Nat) : Field := ⟨HD_INGEST_ERRS2 a, 0, 16⟩
def HD_INGEST_ERRS2_missing_lines (a : Nat) : Field := ⟨HD_INGEST_ERRS2 a, 16, 16⟩
/-- HD_INGEST_ERRS3: R52. -/
def HD_INGEST_ERRS3 (a : Nat) : Nat := 0x103 + a * 0x10
def HD_INGEST_ERRS3_hdr_errors (a : Nat) : Field := ⟨HD_INGEST_ERRS3 a, 0, 16⟩
def HD_INGEST_ERRS3_order_errors (a : Nat) : Field := ⟨HD_INGEST_ERRS3 a, 16, 16⟩
/-- HD_RVH_CTRL: R52. -/
def HD_RVH_CTRL (a : Nat) : Nat := 0x10100 + a * 0x4000
def HD_RVH_CTRL_enable (a : Nat) : Field := ⟨HD_RVH_CTRL a, 0, 1⟩
def HD_RVH_CTRL_lanes (a : Nat) : Field := ⟨HD_RVH_CTRL a, 1, 6⟩
def HD_RVH_CTRL_start_preset (a : Nat) : Field := ⟨HD_RVH_CTRL a, 7, 3⟩
def HD_RVH_CTRL_use_stored_eq (a : Nat) : Field := ⟨HD_RVH_CTRL a, 10, 1⟩
def HD_RVH_CTRL_max_resend (a : Nat) : Field := ⟨HD_RVH_CTRL a, 11, 2⟩
def HD_RVH_CTRL_spare_auto (a : Nat) : Field := ⟨HD_RVH_CTRL a, 13, 1⟩
def HD_RVH_CTRL_retrain (a : Nat) : Field := ⟨HD_RVH_CTRL a, 14, 1⟩
def HD_RVH_CTRL_clear_counts (a : Nat) : Field := ⟨HD_RVH_CTRL a, 15, 1⟩
def HD_RVH_CTRL_health_thresh (a : Nat) : Field := ⟨HD_RVH_CTRL a, 16, 8⟩
def HD_RVH_CTRL_max_attempts (a : Nat) : Field := ⟨HD_RVH_CTRL a, 24, 3⟩
/-- HD_RVH_STATUS: R52. -/
def HD_RVH_STATUS (a : Nat) : Nat := 0x10101 + a * 0x4000
def HD_RVH_STATUS_state (a : Nat) : Field := ⟨HD_RVH_STATUS a, 0, 4⟩
def HD_RVH_STATUS_spare0_for (a : Nat) : Field := ⟨HD_RVH_STATUS a, 4, 6⟩
def HD_RVH_STATUS_spare1_for (a : Nat) : Field := ⟨HD_RVH_STATUS a, 10, 6⟩
def HD_RVH_STATUS_attempts (a : Nat) : Field := ⟨HD_RVH_STATUS a, 16, 3⟩
def HD_RVH_STATUS_caps_valid (a : Nat) : Field := ⟨HD_RVH_STATUS a, 19, 1⟩
def HD_RVH_STATUS_last_retrain (a : Nat) : Field := ⟨HD_RVH_STATUS a, 20, 12⟩
/-- HD_RVH_ERRS2: R52. -/
def HD_RVH_ERRS2 (a : Nat) : Nat := 0x10102 + a * 0x4000
def HD_RVH_ERRS2_resends (a : Nat) : Field := ⟨HD_RVH_ERRS2 a, 0, 16⟩
def HD_RVH_ERRS2_band_stale (a : Nat) : Field := ⟨HD_RVH_ERRS2 a, 16, 16⟩
/-- HD_RVH_ERRS3: R52. -/
def HD_RVH_ERRS3 (a : Nat) : Nat := 0x10103 + a * 0x4000
def HD_RVH_ERRS3_line_errs (a : Nat) : Field := ⟨HD_RVH_ERRS3 a, 0, 16⟩
def HD_RVH_ERRS3_tally_errs (a : Nat) : Field := ⟨HD_RVH_ERRS3 a, 16, 16⟩
/-- HD_RVH_RESULT: R52. -/
def HD_RVH_RESULT (a : Nat) : Nat := 0x10104 + a * 0x4000
def HD_RVH_RESULT_enable_result (a : Nat) : Field := ⟨HD_RVH_RESULT a, 0, 16⟩
def HD_RVH_RESULT_last_fault (a : Nat) : Field := ⟨HD_RVH_RESULT a, 16, 16⟩
/-- HD_LAYER_CTRL: R59. -/
def HD_LAYER_CTRL (a b : Nat) : Nat := 0x10300 + a * 0x4000 + b * 0x10
def HD_LAYER_CTRL_enable (a b : Nat) : Field := ⟨HD_LAYER_CTRL a b, 0, 1⟩
def HD_LAYER_CTRL_source (a b : Nat) : Field := ⟨HD_LAYER_CTRL a b, 1, 1⟩
def HD_LAYER_CTRL_format (a b : Nat) : Field := ⟨HD_LAYER_CTRL a b, 2, 4⟩
def HD_LAYER_CTRL_alpha_mode (a b : Nat) : Field := ⟨HD_LAYER_CTRL a b, 6, 2⟩
def HD_LAYER_CTRL_yc_matrix (a b : Nat) : Field := ⟨HD_LAYER_CTRL a b, 8, 2⟩
def HD_LAYER_CTRL_yc_full (a b : Nat) : Field := ⟨HD_LAYER_CTRL a b, 10, 1⟩
def HD_LAYER_CTRL_ingest_port (a b : Nat) : Field := ⟨HD_LAYER_CTRL a b, 11, 1⟩
def HD_LAYER_CTRL_ingest_stream (a b : Nat) : Field := ⟨HD_LAYER_CTRL a b, 12, 2⟩
def HD_LAYER_CTRL_watermark (a b : Nat) : Field := ⟨HD_LAYER_CTRL a b, 14, 3⟩
def HD_LAYER_CTRL_ring_count (a b : Nat) : Field := ⟨HD_LAYER_CTRL a b, 17, 4⟩
def HD_LAYER_CTRL_global_alpha (a b : Nat) : Field := ⟨HD_LAYER_CTRL a b, 21, 8⟩
def HD_LAYER_CTRL_clear_counts (a b : Nat) : Field := ⟨HD_LAYER_CTRL a b, 29, 1⟩
/-- HD_LAYER_POS: R59. -/
def HD_LAYER_POS (a b : Nat) : Nat := 0x10301 + a * 0x4000 + b * 0x10
def HD_LAYER_POS_x (a b : Nat) : Field := ⟨HD_LAYER_POS a b, 0, 15⟩
def HD_LAYER_POS_y (a b : Nat) : Field := ⟨HD_LAYER_POS a b, 16, 15⟩
/-- HD_LAYER_SIZE: R59. -/
def HD_LAYER_SIZE (a b : Nat) : Nat := 0x10302 + a * 0x4000 + b * 0x10
def HD_LAYER_SIZE_width (a b : Nat) : Field := ⟨HD_LAYER_SIZE a b, 0, 14⟩
def HD_LAYER_SIZE_height (a b : Nat) : Field := ⟨HD_LAYER_SIZE a b, 16, 14⟩
/-- HD_LAYER_RING3: R59. -/
def HD_LAYER_RING3 (a b : Nat) : Nat := 0x10303 + a * 0x4000 + b * 0x10
def HD_LAYER_RING3_ring_base_lo (a b : Nat) : Field := ⟨HD_LAYER_RING3 a b, 0, 32⟩
/-- HD_LAYER_RING4: R59. -/
def HD_LAYER_RING4 (a b : Nat) : Nat := 0x10304 + a * 0x4000 + b * 0x10
def HD_LAYER_RING4_ring_base_hi (a b : Nat) : Field := ⟨HD_LAYER_RING4 a b, 0, 8⟩
def HD_LAYER_RING4_ring_stride (a b : Nat) : Field := ⟨HD_LAYER_RING4 a b, 8, 24⟩
/-- HD_LAYER_CNT5: R59. -/
def HD_LAYER_CNT5 (a b : Nat) : Nat := 0x10305 + a * 0x4000 + b * 0x10
def HD_LAYER_CNT5_underrun_pix (a b : Nat) : Field := ⟨HD_LAYER_CNT5 a b, 0, 32⟩
/-- HD_LAYER_CNT6: R59. -/
def HD_LAYER_CNT6 (a b : Nat) : Nat := 0x10306 + a * 0x4000 + b * 0x10
def HD_LAYER_CNT6_buf_gen_mismatch (a b : Nat) : Field := ⟨HD_LAYER_CNT6 a b, 0, 16⟩
def HD_LAYER_CNT6_frames_dropped (a b : Nat) : Field := ⟨HD_LAYER_CNT6 a b, 16, 16⟩
/-- HD_LAYER_CNT7: R59. -/
def HD_LAYER_CNT7 (a b : Nat) : Nat := 0x10307 + a * 0x4000 + b * 0x10
def HD_LAYER_CNT7_frames_repeated (a b : Nat) : Field := ⟨HD_LAYER_CNT7 a b, 0, 16⟩
/-- HD_RASTER0: R73. -/
def HD_RASTER0 (a : Nat) : Nat := 0x10200 + a * 0x4000
def HD_RASTER0_enable (a : Nat) : Field := ⟨HD_RASTER0 a, 0, 1⟩
def HD_RASTER0_timing_mode (a : Nat) : Field := ⟨HD_RASTER0 a, 1, 1⟩
def HD_RASTER0_vrr_layer (a : Nat) : Field := ⟨HD_RASTER0 a, 2, 2⟩
/-- HD_RASTER1: R73. -/
def HD_RASTER1 (a : Nat) : Nat := 0x10201 + a * 0x4000
def HD_RASTER1_h_active (a : Nat) : Field := ⟨HD_RASTER1 a, 0, 14⟩
/-- HD_RASTER2: R73. -/
def HD_RASTER2 (a : Nat) : Nat := 0x10202 + a * 0x4000
def HD_RASTER2_h_front (a : Nat) : Field := ⟨HD_RASTER2 a, 0, 10⟩
def HD_RASTER2_h_sync (a : Nat) : Field := ⟨HD_RASTER2 a, 10, 10⟩
def HD_RASTER2_h_back (a : Nat) : Field := ⟨HD_RASTER2 a, 20, 10⟩
/-- HD_RASTER3: R73. -/
def HD_RASTER3 (a : Nat) : Nat := 0x10203 + a * 0x4000
def HD_RASTER3_v_active (a : Nat) : Field := ⟨HD_RASTER3 a, 0, 14⟩
/-- HD_RASTER4: R73. -/
def HD_RASTER4 (a : Nat) : Nat := 0x10204 + a * 0x4000
def HD_RASTER4_v_front (a : Nat) : Field := ⟨HD_RASTER4 a, 0, 10⟩
def HD_RASTER4_v_sync (a : Nat) : Field := ⟨HD_RASTER4 a, 10, 10⟩
def HD_RASTER4_v_back (a : Nat) : Field := ⟨HD_RASTER4 a, 20, 10⟩
/-- HD_RASTER5: R73. -/
def HD_RASTER5 (a : Nat) : Nat := 0x10205 + a * 0x4000
def HD_RASTER5_pix_period (a : Nat) : Field := ⟨HD_RASTER5 a, 0, 24⟩
/-- HD_RASTER6: R73. -/
def HD_RASTER6 (a : Nat) : Nat := 0x10206 + a * 0x4000
def HD_RASTER6_min_lines (a : Nat) : Field := ⟨HD_RASTER6 a, 0, 16⟩
def HD_RASTER6_max_lines (a : Nat) : Field := ⟨HD_RASTER6 a, 16, 16⟩
/-- HD_RASTER_BG: R73. -/
def HD_RASTER_BG (a : Nat) : Nat := 0x10207 + a * 0x4000
def HD_RASTER_BG_bg_r (a : Nat) : Field := ⟨HD_RASTER_BG a, 0, 10⟩
def HD_RASTER_BG_bg_g (a : Nat) : Field := ⟨HD_RASTER_BG a, 10, 10⟩
def HD_RASTER_BG_bg_b (a : Nat) : Field := ⟨HD_RASTER_BG a, 20, 10⟩
/-- HD_RASTER_STATUS: R73. -/
def HD_RASTER_STATUS (a : Nat) : Nat := 0x10208 + a * 0x4000
def HD_RASTER_STATUS_frame (a : Nat) : Field := ⟨HD_RASTER_STATUS a, 0, 16⟩
def HD_RASTER_STATUS_vrr_repeats (a : Nat) : Field := ⟨HD_RASTER_STATUS a, 16, 16⟩
/-- HD_CRC_POS: R79. -/
def HD_CRC_POS (a b : Nat) : Nat := 0x10380 + a * 0x4000 + b * 4
def HD_CRC_POS_x (a b : Nat) : Field := ⟨HD_CRC_POS a b, 0, 14⟩
def HD_CRC_POS_y (a b : Nat) : Field := ⟨HD_CRC_POS a b, 16, 14⟩
/-- HD_CRC_SIZE: R79. -/
def HD_CRC_SIZE (a b : Nat) : Nat := 0x10381 + a * 0x4000 + b * 4
def HD_CRC_SIZE_width (a b : Nat) : Field := ⟨HD_CRC_SIZE a b, 0, 14⟩
def HD_CRC_SIZE_height (a b : Nat) : Field := ⟨HD_CRC_SIZE a b, 16, 14⟩
/-- HD_CRC_EXPECT: R79. -/
def HD_CRC_EXPECT (a b : Nat) : Nat := 0x10382 + a * 0x4000 + b * 4
def HD_CRC_EXPECT_expected (a b : Nat) : Field := ⟨HD_CRC_EXPECT a b, 0, 32⟩
/-- HD_CRC_RESULT: R79. -/
def HD_CRC_RESULT (a b : Nat) : Nat := 0x10383 + a * 0x4000 + b * 4
def HD_CRC_RESULT_result (a b : Nat) : Field := ⟨HD_CRC_RESULT a b, 0, 32⟩
/-- HD_STILL_CTRL: R81. -/
def HD_STILL_CTRL (a : Nat) : Nat := 0x103c0 + a * 0x4000
def HD_STILL_CTRL_still_frames (a : Nat) : Field := ⟨HD_STILL_CTRL a, 0, 8⟩
/-- HD_STILL_STATUS: R81. -/
def HD_STILL_STATUS (a : Nat) : Nat := 0x103c1 + a * 0x4000
def HD_STILL_STATUS_in_still (a : Nat) : Field := ⟨HD_STILL_STATUS a, 0, 1⟩
def HD_STILL_STATUS_entries (a : Nat) : Field := ⟨HD_STILL_STATUS a, 16, 16⟩
/-- HD_CRC_STATUS: R79. -/
def HD_CRC_STATUS (a : Nat) : Nat := 0x103c4 + a * 0x4000
def HD_CRC_STATUS_mismatch (a : Nat) : Field := ⟨HD_CRC_STATUS a, 0, 16⟩
/-- HD_CRC_LEARN: R79. -/
def HD_CRC_LEARN (a : Nat) : Nat := 0x103c5 + a * 0x4000
def HD_CRC_LEARN_learn (a : Nat) : Field := ⟨HD_CRC_LEARN a, 0, 16⟩
/-- HD_MON0: R82. -/
def HD_MON0 : Nat := 0x180
def HD_MON0_enable : Field := ⟨HD_MON0, 0, 1⟩
def HD_MON0_group : Field := ⟨HD_MON0, 1, 2⟩
def HD_MON0_cmd_mode : Field := ⟨HD_MON0, 3, 1⟩
def HD_MON0_decimate : Field := ⟨HD_MON0, 4, 2⟩
def HD_MON0_rgb10 : Field := ⟨HD_MON0, 6, 1⟩
def HD_MON0_lanes : Field := ⟨HD_MON0, 7, 3⟩
def HD_MON0_refresh_div : Field := ⟨HD_MON0, 10, 8⟩
def HD_MON0_still_div : Field := ⟨HD_MON0, 18, 8⟩
def HD_MON0_te_falling : Field := ⟨HD_MON0, 26, 1⟩
def HD_MON0_te_timeout : Field := ⟨HD_MON0, 27, 5⟩
/-- HD_MON1: R82. -/
def HD_MON1 : Nat := 0x181
def HD_MON1_lane_mbps : Field := ⟨HD_MON1, 0, 12⟩
/-- HD_MON2: R82. -/
def HD_MON2 : Nat := 0x182
def HD_MON2_h_front : Field := ⟨HD_MON2, 0, 10⟩
def HD_MON2_h_sync : Field := ⟨HD_MON2, 10, 10⟩
def HD_MON2_h_back : Field := ⟨HD_MON2, 20, 10⟩
/-- HD_MON3: R82. -/
def HD_MON3 : Nat := 0x183
def HD_MON3_v_front : Field := ⟨HD_MON3, 0, 10⟩
def HD_MON3_v_sync : Field := ⟨HD_MON3, 10, 10⟩
def HD_MON3_v_back : Field := ⟨HD_MON3, 20, 10⟩
/-- HD_MON4: R82. -/
def HD_MON4 : Nat := 0x184
def HD_MON4_buf_lo : Field := ⟨HD_MON4, 0, 32⟩
/-- HD_MON5: R82. -/
def HD_MON5 : Nat := 0x185
def HD_MON5_buf_hi : Field := ⟨HD_MON5, 0, 8⟩
/-- HD_MON6: R82. -/
def HD_MON6 : Nat := 0x186
def HD_MON6_frames_sent : Field := ⟨HD_MON6, 0, 16⟩
def HD_MON6_te_missed : Field := ⟨HD_MON6, 16, 16⟩
/-- CP_CTRL: R98. -/
def CP_CTRL (a : Nat) : Nat := 0x90000 + a * 0x4000
def CP_CTRL_lut_bypass (a : Nat) : Field := ⟨CP_CTRL a, 0, 1⟩
def CP_CTRL_lut_bank (a : Nat) : Field := ⟨CP_CTRL a, 1, 1⟩
def CP_CTRL_matrix_bypass (a : Nat) : Field := ⟨CP_CTRL a, 2, 1⟩
def CP_CTRL_clear_counts (a : Nat) : Field := ⟨CP_CTRL a, 3, 1⟩
/-- CP_MATRIX: R98. -/
def CP_MATRIX (a b : Nat) : Nat := 0x90010 + a * 0x4000 + b * 1
def CP_MATRIX_m (a b : Nat) : Field := ⟨CP_MATRIX a b, 0, 24⟩
/-- CP_OFFSET: R98. -/
def CP_OFFSET (a b : Nat) : Nat := 0x90019 + a * 0x4000 + b * 1
def CP_OFFSET_off (a b : Nat) : Field := ⟨CP_OFFSET a b, 0, 23⟩
/-- CP_CNT20: R98. -/
def CP_CNT20 (a : Nat) : Nat := 0x90020 + a * 0x4000
def CP_CNT20_clip_low (a : Nat) : Field := ⟨CP_CNT20 a, 0, 32⟩
/-- CP_CNT21: R98. -/
def CP_CNT21 (a : Nat) : Nat := 0x90021 + a * 0x4000
def CP_CNT21_clip_high (a : Nat) : Field := ⟨CP_CNT21 a, 0, 32⟩
/-- CP_TILE: R98. -/
def CP_TILE (a b : Nat) : Nat := 0x90400 + a * 0x4000 + b * 1
def CP_TILE_entry0 (a b : Nat) : Field := ⟨CP_TILE a b, 0, 8⟩
def CP_TILE_entry1 (a b : Nat) : Field := ⟨CP_TILE a b, 8, 8⟩
def CP_TILE_entry2 (a b : Nat) : Field := ⟨CP_TILE a b, 16, 8⟩
def CP_TILE_entry3 (a b : Nat) : Field := ⟨CP_TILE a b, 24, 8⟩
/-- CP_LUT: R98. -/
def CP_LUT (a b c : Nat) : Nat := 0x90800 + a * 0x4000 + b * 0x1100 + c * 1
def CP_LUT_e (a b c : Nat) : Field := ⟨CP_LUT a b c, 0, 22⟩
/-- CP_HEAD_CTRL: R99. -/
def CP_HEAD_CTRL (a : Nat) : Nat := 0x10500 + a * 0x4000
def CP_HEAD_CTRL_comp_mask (a : Nat) : Field := ⟨CP_HEAD_CTRL a, 0, 3⟩
def CP_HEAD_CTRL_split_en (a : Nat) : Field := ⟨CP_HEAD_CTRL a, 3, 1⟩
def CP_HEAD_CTRL_unif_en (a : Nat) : Field := ⟨CP_HEAD_CTRL a, 4, 1⟩
def CP_HEAD_CTRL_dither_mode (a : Nat) : Field := ⟨CP_HEAD_CTRL a, 5, 2⟩
def CP_HEAD_CTRL_temporal (a : Nat) : Field := ⟨CP_HEAD_CTRL a, 7, 1⟩
def CP_HEAD_CTRL_dither_bits (a : Nat) : Field := ⟨CP_HEAD_CTRL a, 8, 5⟩
def CP_HEAD_CTRL_clear_counts (a : Nat) : Field := ⟨CP_HEAD_CTRL a, 13, 1⟩
/-- CP_HEAD_ZONE: R99. -/
def CP_HEAD_ZONE (a : Nat) : Nat := 0x10501 + a * 0x4000
def CP_HEAD_ZONE_zone_w (a : Nat) : Field := ⟨CP_HEAD_ZONE a, 0, 10⟩
def CP_HEAD_ZONE_zone_h (a : Nat) : Field := ⟨CP_HEAD_ZONE a, 10, 10⟩
def CP_HEAD_ZONE_floor (a : Nat) : Field := ⟨CP_HEAD_ZONE a, 20, 12⟩
/-- CP_HEAD_SPLIT: R99. -/
def CP_HEAD_SPLIT (a : Nat) : Nat := 0x10502 + a * 0x4000
def CP_HEAD_SPLIT_fall_max (a : Nat) : Field := ⟨CP_HEAD_SPLIT a, 0, 12⟩
def CP_HEAD_SPLIT_boost (a : Nat) : Field := ⟨CP_HEAD_SPLIT a, 12, 16⟩
/-- CP_HEAD_PEAK: R99. -/
def CP_HEAD_PEAK (a : Nat) : Nat := 0x10503 + a * 0x4000
def CP_HEAD_PEAK_zone_peak (a : Nat) : Field := ⟨CP_HEAD_PEAK a, 0, 22⟩
/-- CP_HEAD_STATUS: R99. -/
def CP_HEAD_STATUS (a : Nat) : Nat := 0x10504 + a * 0x4000
def CP_HEAD_STATUS_lookahead (a : Nat) : Field := ⟨CP_HEAD_STATUS a, 0, 10⟩
def CP_HEAD_STATUS_reach_v (a : Nat) : Field := ⟨CP_HEAD_STATUS a, 10, 3⟩
def CP_HEAD_STATUS_level_clip (a : Nat) : Field := ⟨CP_HEAD_STATUS a, 16, 16⟩
/-- CP_HEAD_CNT: R99. -/
def CP_HEAD_CNT (a : Nat) : Nat := 0x10505 + a * 0x4000
def CP_HEAD_CNT_clip_pix (a : Nat) : Field := ⟨CP_HEAD_CNT a, 0, 32⟩
/-- CP_HEAD_UNIF6: R99. -/
def CP_HEAD_UNIF6 (a : Nat) : Nat := 0x10506 + a * 0x4000
def CP_HEAD_UNIF6_unif_lo (a : Nat) : Field := ⟨CP_HEAD_UNIF6 a, 0, 32⟩
/-- CP_HEAD_UNIF7: R99. -/
def CP_HEAD_UNIF7 (a : Nat) : Nat := 0x10507 + a * 0x4000
def CP_HEAD_UNIF7_unif_hi (a : Nat) : Field := ⟨CP_HEAD_UNIF7 a, 0, 8⟩
/-- CP_HEAD_KERNEL: R99. -/
def CP_HEAD_KERNEL (a b : Nat) : Nat := 0x10510 + a * 0x4000 + b * 1
def CP_HEAD_KERNEL_th (a b : Nat) : Field := ⟨CP_HEAD_KERNEL a b, 0, 16⟩
def CP_HEAD_KERNEL_tv (a b : Nat) : Field := ⟨CP_HEAD_KERNEL a b, 16, 16⟩
/-- TS_CTRL: R116. -/
def TS_CTRL (a : Nat) : Nat := 0x10600 + a * 0x4000
def TS_CTRL_table_bank (a : Nat) : Field := ⟨TS_CTRL a, 0, 1⟩
def TS_CTRL_clear_counts (a : Nat) : Field := ⟨TS_CTRL a, 1, 1⟩
/-- TS_COMP: R116. -/
def TS_COMP (a b : Nat) : Nat := 0x10601 + a * 0x4000 + b * 1
def TS_COMP_plane_base (a b : Nat) : Field := ⟨TS_COMP a b, 0, 6⟩
def TS_COMP_n_planes (a b : Nat) : Field := ⟨TS_COMP a b, 6, 5⟩
/-- TS_LOFT_MASK4: R116. -/
def TS_LOFT_MASK4 (a : Nat) : Nat := 0x10604 + a * 0x4000
def TS_LOFT_MASK4_loft_lo (a : Nat) : Field := ⟨TS_LOFT_MASK4 a, 0, 32⟩
/-- TS_LOFT_MASK5: R116. -/
def TS_LOFT_MASK5 (a : Nat) : Nat := 0x10605 + a * 0x4000
def TS_LOFT_MASK5_loft_hi (a : Nat) : Field := ⟨TS_LOFT_MASK5 a, 0, 32⟩
/-- TS_STORE6: R116. -/
def TS_STORE6 (a : Nat) : Nat := 0x10606 + a * 0x4000
def TS_STORE6_store_lo (a : Nat) : Field := ⟨TS_STORE6 a, 0, 32⟩
/-- TS_STORE7: R116. -/
def TS_STORE7 (a : Nat) : Nat := 0x10607 + a * 0x4000
def TS_STORE7_store_hi (a : Nat) : Field := ⟨TS_STORE7 a, 0, 8⟩
/-- TS_LOFT_WIN: R116. -/
def TS_LOFT_WIN (a : Nat) : Nat := 0x10608 + a * 0x4000
def TS_LOFT_WIN_win_base (a : Nat) : Field := ⟨TS_LOFT_WIN a, 0, 11⟩
def TS_LOFT_WIN_win_size (a : Nat) : Field := ⟨TS_LOFT_WIN a, 12, 12⟩
/-- TS_STATUS: R116. -/
def TS_STATUS (a : Nat) : Nat := 0x10609 + a * 0x4000
def TS_STATUS_loft_need (a : Nat) : Field := ⟨TS_STATUS a, 0, 12⟩
def TS_STATUS_n_granary (a : Nat) : Field := ⟨TS_STATUS a, 12, 7⟩
def TS_STATUS_n_loft (a : Nat) : Field := ⟨TS_STATUS a, 19, 7⟩
def TS_STATUS_ew_measured (a : Nat) : Field := ⟨TS_STATUS a, 26, 1⟩
/-- TS_STORE_SIZE: R116. -/
def TS_STORE_SIZE (a : Nat) : Nat := 0x1060a + a * 0x4000
def TS_STORE_SIZE_store_size (a : Nat) : Field := ⟨TS_STORE_SIZE a, 0, 32⟩
/-- TS_LOFT_BW: R116. -/
def TS_LOFT_BW (a : Nat) : Nat := 0x1060b + a * 0x4000
def TS_LOFT_BW_loft_gbps (a : Nat) : Field := ⟨TS_LOFT_BW a, 0, 16⟩
/-- TS_CNTC: R116. -/
def TS_CNTC (a : Nat) : Nat := 0x1060c + a * 0x4000
def TS_CNTC_band_skips (a : Nat) : Field := ⟨TS_CNTC a, 0, 16⟩
def TS_CNTC_dark_bands (a : Nat) : Field := ⟨TS_CNTC a, 16, 16⟩
/-- TS_CNTD: R116. -/
def TS_CNTD (a : Nat) : Nat := 0x1060d + a * 0x4000
def TS_CNTD_poison_rows (a : Nat) : Field := ⟨TS_CNTD a, 0, 16⟩
def TS_CNTD_layout_dark (a : Nat) : Field := ⟨TS_CNTD a, 16, 16⟩
/-- TS_PLANE_EW: R116. -/
def TS_PLANE_EW (a b : Nat) : Nat := 0x10640 + a * 0x4000 + b * 1
def TS_PLANE_EW_ew (a b : Nat) : Field := ⟨TS_PLANE_EW a b, 0, 32⟩
/-- SQ_CTRL: R141. -/
def SQ_CTRL (a : Nat) : Nat := 0x10700 + a * 0x4000
def SQ_CTRL_seq_bank (a : Nat) : Field := ⟨SQ_CTRL a, 0, 1⟩
def SQ_CTRL_clear_counts (a : Nat) : Field := ⟨SQ_CTRL a, 1, 1⟩
def SQ_CTRL_phase_global (a : Nat) : Field := ⟨SQ_CTRL a, 2, 1⟩
def SQ_CTRL_offset_auto (a : Nat) : Field := ⟨SQ_CTRL a, 3, 1⟩
def SQ_CTRL_bands (a : Nat) : Field := ⟨SQ_CTRL a, 4, 6⟩
def SQ_CTRL_shift_positions (a : Nat) : Field := ⟨SQ_CTRL a, 10, 2⟩
def SQ_CTRL_shift_pg (a : Nat) : Field := ⟨SQ_CTRL a, 12, 3⟩
/-- SQ_OFFSET: R141. -/
def SQ_OFFSET (a : Nat) : Nat := 0x10701 + a * 0x4000
def SQ_OFFSET_offset_ticks (a : Nat) : Field := ⟨SQ_OFFSET a, 0, 24⟩
/-- SQ_SETTLE: R141. -/
def SQ_SETTLE (a : Nat) : Nat := 0x10702 + a * 0x4000
def SQ_SETTLE_settle_ticks (a : Nat) : Field := ⟨SQ_SETTLE a, 0, 13⟩
def SQ_SETTLE_guard_ticks (a : Nat) : Field := ⟨SQ_SETTLE a, 16, 13⟩
/-- SQ_SHIFT_POS: R141. -/
def SQ_SHIFT_POS (a b : Nat) : Nat := 0x10704 + a * 0x4000 + b * 1
def SQ_SHIFT_POS_target (a b : Nat) : Field := ⟨SQ_SHIFT_POS a b, 0, 32⟩
/-- SQ_STATUS10: R141. -/
def SQ_STATUS10 (a : Nat) : Nat := 0x10710 + a * 0x4000
def SQ_STATUS10_bank_playing (a : Nat) : Field := ⟨SQ_STATUS10 a, 0, 1⟩
def SQ_STATUS10_swap_pending (a : Nat) : Field := ⟨SQ_STATUS10 a, 1, 1⟩
def SQ_STATUS10_list_len (a : Nat) : Field := ⟨SQ_STATUS10 a, 2, 13⟩
def SQ_STATUS10_lead (a : Nat) : Field := ⟨SQ_STATUS10 a, 16, 16⟩
/-- SQ_STATUS11: R141. -/
def SQ_STATUS11 (a : Nat) : Nat := 0x10711 + a * 0x4000
def SQ_STATUS11_offset_used (a : Nat) : Field := ⟨SQ_STATUS11 a, 0, 24⟩
/-- SQ_STATUS12: R141. -/
def SQ_STATUS12 (a : Nat) : Nat := 0x10712 + a * 0x4000
def SQ_STATUS12_min_margin (a : Nat) : Field := ⟨SQ_STATUS12 a, 0, 16⟩
def SQ_STATUS12_loads (a : Nat) : Field := ⟨SQ_STATUS12 a, 16, 12⟩
/-- SQ_CNT13: R141. -/
def SQ_CNT13 (a : Nat) : Nat := 0x10713 + a * 0x4000
def SQ_CNT13_late_bands (a : Nat) : Field := ⟨SQ_CNT13 a, 0, 16⟩
def SQ_CNT13_shift_late (a : Nat) : Field := ⟨SQ_CNT13 a, 16, 16⟩
/-- SQ_CNT14: R141. -/
def SQ_CNT14 (a : Nat) : Nat := 0x10714 + a * 0x4000
def SQ_CNT14_thinned (a : Nat) : Field := ⟨SQ_CNT14 a, 0, 16⟩
def SQ_CNT14_throttle_short (a : Nat) : Field := ⟨SQ_CNT14 a, 16, 16⟩
/-- SQ_CNT15: R141. -/
def SQ_CNT15 (a : Nat) : Nat := 0x10715 + a * 0x4000
def SQ_CNT15_lost_ticks (a : Nat) : Field := ⟨SQ_CNT15 a, 0, 32⟩
/-- SQ_TRIM: R141. -/
def SQ_TRIM (a b : Nat) : Nat := 0x10720 + a * 0x4000 + b * 1
def SQ_TRIM_on_trim (a b : Nat) : Field := ⟨SQ_TRIM a b, 0, 12⟩
def SQ_TRIM_off_trim (a b : Nat) : Field := ⟨SQ_TRIM a b, 16, 12⟩
/-- SQ_SLOT: R117. -/
def SQ_SLOT (a b : Nat) : Nat := 0x12000 + a * 0x4000 + b * 2
def SQ_SLOT_slot (a b : Nat) : Field := ⟨SQ_SLOT a b, 0, 32⟩
/-- SQ_SLOTH: R117. -/
def SQ_SLOTH (a b : Nat) : Nat := 0x12001 + a * 0x4000 + b * 2
def SQ_SLOTH_slot (a b : Nat) : Field := ⟨SQ_SLOTH a b, 0, 9⟩
/-- LM_CTRL: R156. -/
def LM_CTRL (a : Nat) : Nat := 0x10900 + a * 0x4000
def LM_CTRL_table_bank (a : Nat) : Field := ⟨LM_CTRL a, 0, 1⟩
def LM_CTRL_code_bank (a : Nat) : Field := ⟨LM_CTRL a, 1, 1⟩
def LM_CTRL_clear_counts (a : Nat) : Field := ⟨LM_CTRL a, 2, 1⟩
def LM_CTRL_beams (a : Nat) : Field := ⟨LM_CTRL a, 3, 3⟩
def LM_CTRL_channels (a : Nat) : Field := ⟨LM_CTRL a, 6, 4⟩
def LM_CTRL_fast_loop (a : Nat) : Field := ⟨LM_CTRL a, 10, 6⟩
def LM_CTRL_slow_loop (a : Nat) : Field := ⟨LM_CTRL a, 16, 6⟩
def LM_CTRL_slow_pg (a : Nat) : Field := ⟨LM_CTRL a, 22, 3⟩
/-- LM_SCAN: R156. -/
def LM_SCAN (a : Nat) : Nat := 0x10901 + a * 0x4000
def LM_SCAN_flyback_sweeps (a : Nat) : Field := ⟨LM_SCAN a, 0, 10⟩
/-- LM_CENTRE: R156. -/
def LM_CENTRE (a : Nat) : Nat := 0x10902 + a * 0x4000
def LM_CENTRE_centre_fs (a : Nat) : Field := ⟨LM_CENTRE a, 0, 21⟩
/-- LM_FREQ: R156. -/
def LM_FREQ (a : Nat) : Nat := 0x10903 + a * 0x4000
def LM_FREQ_f_min (a : Nat) : Field := ⟨LM_FREQ a, 0, 16⟩
def LM_FREQ_f_max (a : Nat) : Field := ⟨LM_FREQ a, 16, 16⟩
/-- LM_LOCK: R156. -/
def LM_LOCK (a : Nat) : Nat := 0x10904 + a * 0x4000
def LM_LOCK_kp (a : Nat) : Field := ⟨LM_LOCK a, 0, 4⟩
def LM_LOCK_kf (a : Nat) : Field := ⟨LM_LOCK a, 4, 4⟩
def LM_LOCK_lock_tol (a : Nat) : Field := ⟨LM_LOCK a, 8, 12⟩
def LM_LOCK_unlock_tol (a : Nat) : Field := ⟨LM_LOCK a, 20, 12⟩
/-- LM_TRIM: R156. -/
def LM_TRIM (a : Nat) : Nat := 0x10905 + a * 0x4000
def LM_TRIM_rev_trim (a : Nat) : Field := ⟨LM_TRIM a, 0, 12⟩
/-- LM_BEAM: R156. -/
def LM_BEAM (a b : Nat) : Nat := 0x10906 + a * 0x4000 + b * 1
def LM_BEAM_x_off (a b : Nat) : Field := ⟨LM_BEAM a b, 16, 16⟩
/-- LM_CHAN_MAP: R156. -/
def LM_CHAN_MAP (a : Nat) : Nat := 0x1090a + a * 0x4000
def LM_CHAN_MAP_comp_0 (a : Nat) : Field := ⟨LM_CHAN_MAP a, 0, 2⟩
def LM_CHAN_MAP_comp_1 (a : Nat) : Field := ⟨LM_CHAN_MAP a, 2, 2⟩
def LM_CHAN_MAP_comp_2 (a : Nat) : Field := ⟨LM_CHAN_MAP a, 4, 2⟩
def LM_CHAN_MAP_comp_3 (a : Nat) : Field := ⟨LM_CHAN_MAP a, 6, 2⟩
def LM_CHAN_MAP_comp_4 (a : Nat) : Field := ⟨LM_CHAN_MAP a, 8, 2⟩
def LM_CHAN_MAP_comp_5 (a : Nat) : Field := ⟨LM_CHAN_MAP a, 10, 2⟩
def LM_CHAN_MAP_comp_6 (a : Nat) : Field := ⟨LM_CHAN_MAP a, 12, 2⟩
def LM_CHAN_MAP_comp_7 (a : Nat) : Field := ⟨LM_CHAN_MAP a, 14, 2⟩
/-- LM_CHAN_GAIN: R156. -/
def LM_CHAN_GAIN (a b : Nat) : Nat := 0x1090b + a * 0x4000 + b * 1
def LM_CHAN_GAIN_gain_even (a b : Nat) : Field := ⟨LM_CHAN_GAIN a b, 0, 16⟩
def LM_CHAN_GAIN_gain_odd (a b : Nat) : Field := ⟨LM_CHAN_GAIN a b, 16, 16⟩
/-- LM_SLOW_TOP: R156. -/
def LM_SLOW_TOP (a : Nat) : Nat := 0x10910 + a * 0x4000
def LM_SLOW_TOP_slow_top (a : Nat) : Field := ⟨LM_SLOW_TOP a, 0, 32⟩
/-- LM_SLOW_BOT: R156. -/
def LM_SLOW_BOT (a : Nat) : Nat := 0x10911 + a * 0x4000
def LM_SLOW_BOT_slow_bot (a : Nat) : Field := ⟨LM_SLOW_BOT a, 0, 32⟩
/-- LM_AMP_MIN: R156. -/
def LM_AMP_MIN (a : Nat) : Nat := 0x10912 + a * 0x4000
def LM_AMP_MIN_amp_min (a : Nat) : Field := ⟨LM_AMP_MIN a, 0, 32⟩
/-- LM_LEN_MAP: R156. -/
def LM_LEN_MAP (a : Nat) : Nat := 0x10914 + a * 0x4000
def LM_LEN_MAP_len_0_head (a : Nat) : Field := ⟨LM_LEN_MAP a, 0, 3⟩
def LM_LEN_MAP_len_1_head (a : Nat) : Field := ⟨LM_LEN_MAP a, 4, 3⟩
def LM_LEN_MAP_len_2_head (a : Nat) : Field := ⟨LM_LEN_MAP a, 8, 3⟩
def LM_LEN_MAP_len_3_head (a : Nat) : Field := ⟨LM_LEN_MAP a, 12, 3⟩
def LM_LEN_MAP_len_4_head (a : Nat) : Field := ⟨LM_LEN_MAP a, 16, 3⟩
def LM_LEN_MAP_len_5_head (a : Nat) : Field := ⟨LM_LEN_MAP a, 20, 3⟩
def LM_LEN_MAP_len_6_head (a : Nat) : Field := ⟨LM_LEN_MAP a, 24, 3⟩
def LM_LEN_MAP_len_7_head (a : Nat) : Field := ⟨LM_LEN_MAP a, 28, 3⟩
/-- LM_LEN_CTRL: R156. -/
def LM_LEN_CTRL (a : Nat) : Nat := 0x10915 + a * 0x4000
def LM_LEN_CTRL_arm (a : Nat) : Field := ⟨LM_LEN_CTRL a, 0, 1⟩
def LM_LEN_CTRL_force_off (a : Nat) : Field := ⟨LM_LEN_CTRL a, 1, 1⟩
/-- LM_STATUS: R156. -/
def LM_STATUS (a : Nat) : Nat := 0x10916 + a * 0x4000
def LM_STATUS_locked (a : Nat) : Field := ⟨LM_STATUS a, 0, 1⟩
def LM_STATUS_armed (a : Nat) : Field := ⟨LM_STATUS a, 1, 1⟩
def LM_STATUS_conditions (a : Nat) : Field := ⟨LM_STATUS a, 2, 6⟩
def LM_STATUS_trip_cause (a : Nat) : Field := ⟨LM_STATUS a, 8, 6⟩
def LM_STATUS_phase_err (a : Nat) : Field := ⟨LM_STATUS a, 16, 12⟩
/-- LM_HALF: R156. -/
def LM_HALF (a : Nat) : Nat := 0x10917 + a * 0x4000
def LM_HALF_half_period (a : Nat) : Field := ⟨LM_HALF a, 0, 24⟩
/-- LM_CNT18: R156. -/
def LM_CNT18 (a : Nat) : Nat := 0x10918 + a * 0x4000
def LM_CNT18_late_lines (a : Nat) : Field := ⟨LM_CNT18 a, 0, 16⟩
def LM_CNT18_dark_lines (a : Nat) : Field := ⟨LM_CNT18 a, 16, 16⟩
/-- LM_CNT19: R156. -/
def LM_CNT19 (a : Nat) : Nat := 0x10919 + a * 0x4000
def LM_CNT19_unlocks (a : Nat) : Field := ⟨LM_CNT19 a, 0, 16⟩
def LM_CNT19_len_drops (a : Nat) : Field := ⟨LM_CNT19 a, 16, 16⟩
/-- LM_CNT1A: R156. -/
def LM_CNT1A (a : Nat) : Nat := 0x1091a + a * 0x4000
def LM_CNT1A_flyback_late (a : Nat) : Field := ⟨LM_CNT1A a, 0, 16⟩
/-- LM_CODE: R156. -/
def LM_CODE (a b c : Nat) : Nat := 0x11000 + a * 0x4000 + b * 0x200 + c * 1
def LM_CODE_e (a b c : Nat) : Field := ⟨LM_CODE a b c, 0, 14⟩
/-- LS_STRING0: R157. -/
def LS_STRING0 (a : Nat) : Nat := 0x30000 + a * 0x10
def LS_STRING0_enable (a : Nat) : Field := ⟨LS_STRING0 a, 0, 1⟩
def LS_STRING0_bank (a : Nat) : Field := ⟨LS_STRING0 a, 1, 3⟩
def LS_STRING0_port (a : Nat) : Field := ⟨LS_STRING0 a, 4, 3⟩
def LS_STRING0_addr (a : Nat) : Field := ⟨LS_STRING0 a, 7, 7⟩
def LS_STRING0_chan (a : Nat) : Field := ⟨LS_STRING0 a, 14, 4⟩
def LS_STRING0_tout (a : Nat) : Field := ⟨LS_STRING0 a, 18, 7⟩
/-- LS_STRING1: R157. -/
def LS_STRING1 (a : Nat) : Nat := 0x30001 + a * 0x10
def LS_STRING1_base_code (a : Nat) : Field := ⟨LS_STRING1 a, 0, 16⟩
/-- LS_STRING2: R157. -/
def LS_STRING2 (a : Nat) : Nat := 0x30002 + a * 0x10
def LS_STRING2_state (a : Nat) : Field := ⟨LS_STRING2 a, 0, 4⟩
def LS_STRING2_probed (a : Nat) : Field := ⟨LS_STRING2 a, 4, 1⟩
def LS_STRING2_substitute (a : Nat) : Field := ⟨LS_STRING2 a, 5, 1⟩
def LS_STRING2_last_sns (a : Nat) : Field := ⟨LS_STRING2 a, 8, 12⟩
/-- LS_STRING3: R157. -/
def LS_STRING3 (a : Nat) : Nat := 0x30003 + a * 0x10
def LS_STRING3_headroom_mv (a : Nat) : Field := ⟨LS_STRING3 a, 0, 16⟩
def LS_STRING3_drv_temp (a : Nat) : Field := ⟨LS_STRING3 a, 16, 8⟩
def LS_STRING3_drv_fault (a : Nat) : Field := ⟨LS_STRING3 a, 24, 8⟩
/-- LS_STRING4: R157. -/
def LS_STRING4 (a : Nat) : Nat := 0x30004 + a * 0x10
def LS_STRING4_code_active (a : Nat) : Field := ⟨LS_STRING4 a, 0, 16⟩
/-- LS_STRING5: R157. -/
def LS_STRING5 (a : Nat) : Nat := 0x30005 + a * 0x10
def LS_STRING5_clear_fault (a : Nat) : Field := ⟨LS_STRING5 a, 0, 1⟩
/-- LS_BANK0: R159. -/
def LS_BANK0 (a : Nat) : Nat := 0x30400 + a * 0x40
def LS_BANK0_enable (a : Nat) : Field := ⟨LS_BANK0 a, 0, 1⟩
def LS_BANK0_head (a : Nat) : Field := ⟨LS_BANK0 a, 1, 2⟩
def LS_BANK0_prim (a : Nat) : Field := ⟨LS_BANK0 a, 3, 2⟩
def LS_BANK0_policy (a : Nat) : Field := ⟨LS_BANK0 a, 5, 1⟩
def LS_BANK0_probe_every (a : Nat) : Field := ⟨LS_BANK0 a, 6, 8⟩
def LS_BANK0_confirm (a : Nat) : Field := ⟨LS_BANK0 a, 14, 4⟩
def LS_BANK0_clear_counts (a : Nat) : Field := ⟨LS_BANK0 a, 18, 1⟩
def LS_BANK0_rearm (a : Nat) : Field := ⟨LS_BANK0 a, 19, 1⟩
/-- LS_BANK1: R159. -/
def LS_BANK1 (a : Nat) : Nat := 0x30401 + a * 0x40
def LS_BANK1_open_code (a : Nat) : Field := ⟨LS_BANK1 a, 0, 12⟩
def LS_BANK1_short_code (a : Nat) : Field := ⟨LS_BANK1 a, 12, 12⟩
/-- LS_BANK2: R159. -/
def LS_BANK2 (a : Nat) : Nat := 0x30402 + a * 0x40
def LS_BANK2_hr_target_mv (a : Nat) : Field := ⟨LS_BANK2 a, 0, 12⟩
def LS_BANK2_hr_band_mv (a : Nat) : Field := ⟨LS_BANK2 a, 12, 12⟩
def LS_BANK2_step_mv (a : Nat) : Field := ⟨LS_BANK2 a, 24, 8⟩
/-- LS_BANK3: R159. -/
def LS_BANK3 (a : Nat) : Nat := 0x30403 + a * 0x40
def LS_BANK3_vbus_min_mv (a : Nat) : Field := ⟨LS_BANK3 a, 0, 16⟩
def LS_BANK3_vbus_max_mv (a : Nat) : Field := ⟨LS_BANK3 a, 16, 16⟩
/-- LS_BANK4: R159. -/
def LS_BANK4 (a : Nat) : Nat := 0x30404 + a * 0x40
def LS_BANK4_pmb_addr (a : Nat) : Field := ⟨LS_BANK4 a, 0, 7⟩
/-- LS_BANK5: R159. -/
def LS_BANK5 (a : Nat) : Nat := 0x30405 + a * 0x40
def LS_BANK5_knee_c (a : Nat) : Field := ⟨LS_BANK5 a, 0, 8⟩
def LS_BANK5_derate (a : Nat) : Field := ⟨LS_BANK5 a, 8, 10⟩
def LS_BANK5_floor (a : Nat) : Field := ⟨LS_BANK5 a, 18, 10⟩
/-- LS_BANK6: R159. -/
def LS_BANK6 (a : Nat) : Nat := 0x30406 + a * 0x40
def LS_BANK6_xts_mask (a : Nat) : Field := ⟨LS_BANK6 a, 0, 16⟩
/-- LS_BANK7: R159. -/
def LS_BANK7 (a : Nat) : Nat := 0x30407 + a * 0x40
def LS_BANK7_lw_group (a : Nat) : Field := ⟨LS_BANK7 a, 0, 4⟩
def LS_BANK7_cc_member (a : Nat) : Field := ⟨LS_BANK7 a, 4, 1⟩
/-- LS_BANK8: R159. -/
def LS_BANK8 (a : Nat) : Nat := 0x30408 + a * 0x40
def LS_BANK8_cap (a : Nat) : Field := ⟨LS_BANK8 a, 0, 16⟩
/-- LS_BANK9: R159. -/
def LS_BANK9 (a : Nat) : Nat := 0x30409 + a * 0x40
def LS_BANK9_fade_cmd (a : Nat) : Field := ⟨LS_BANK9 a, 0, 3⟩
/-- LS_BANK10: R159. -/
def LS_BANK10 (a : Nat) : Nat := 0x3040a + a * 0x40
def LS_BANK10_fade_ms (a : Nat) : Field := ⟨LS_BANK10 a, 0, 16⟩
def LS_BANK10_breathe_ms (a : Nat) : Field := ⟨LS_BANK10 a, 16, 16⟩
/-- LS_BANK11: R159. -/
def LS_BANK11 (a : Nat) : Nat := 0x3040b + a * 0x40
def LS_BANK11_standby (a : Nat) : Field := ⟨LS_BANK11 a, 0, 16⟩
def LS_BANK11_depth (a : Nat) : Field := ⟨LS_BANK11 a, 16, 16⟩
/-- LS_BANK12: R159. -/
def LS_BANK12 (a : Nat) : Nat := 0x3040c + a * 0x40
def LS_BANK12_fade_state (a : Nat) : Field := ⟨LS_BANK12 a, 0, 3⟩
def LS_BANK12_tripped (a : Nat) : Field := ⟨LS_BANK12 a, 3, 1⟩
def LS_BANK12_at_vbus_max (a : Nat) : Field := ⟨LS_BANK12 a, 4, 1⟩
def LS_BANK12_winner (a : Nat) : Field := ⟨LS_BANK12 a, 5, 2⟩
def LS_BANK12_pmb_error (a : Nat) : Field := ⟨LS_BANK12 a, 7, 1⟩
def LS_BANK12_scale (a : Nat) : Field := ⟨LS_BANK12 a, 8, 16⟩
/-- LS_BANK13: R159. -/
def LS_BANK13 (a : Nat) : Nat := 0x3040d + a * 0x40
def LS_BANK13_vbus_mv (a : Nat) : Field := ⟨LS_BANK13 a, 0, 16⟩
def LS_BANK13_hmin_mv (a : Nat) : Field := ⟨LS_BANK13 a, 16, 16⟩
/-- LS_BANK14: R159. -/
def LS_BANK14 (a : Nat) : Nat := 0x3040e + a * 0x40
def LS_BANK14_faults (a : Nat) : Field := ⟨LS_BANK14 a, 0, 16⟩
def LS_BANK14_probes_late (a : Nat) : Field := ⟨LS_BANK14 a, 16, 16⟩
/-- LS_LEVEL: R159. -/
def LS_LEVEL (a b : Nat) : Nat := 0x30421 + a * 0x40 + b * 1
def LS_LEVEL_mask (a b : Nat) : Field := ⟨LS_LEVEL a b, 0, 16⟩
def LS_LEVEL_eff_mask (a b : Nat) : Field := ⟨LS_LEVEL a b, 16, 16⟩
/-- DB_GLOBAL: R164. -/
def DB_GLOBAL : Nat := 0x30880
def DB_GLOBAL_latch_us : Field := ⟨DB_GLOBAL, 0, 16⟩
def DB_GLOBAL_latch_late : Field := ⟨DB_GLOBAL, 16, 16⟩
/-- DB_PORT0: R181. -/
def DB_PORT0 (a : Nat) : Nat := 0x30800 + a * 0x10
def DB_PORT0_enable (a : Nat) : Field := ⟨DB_PORT0 a, 0, 1⟩
def DB_PORT0_lanes4 (a : Nat) : Field := ⟨DB_PORT0 a, 1, 1⟩
def DB_PORT0_rate (a : Nat) : Field := ⟨DB_PORT0 a, 2, 2⟩
def DB_PORT0_retries (a : Nat) : Field := ⟨DB_PORT0 a, 4, 4⟩
def DB_PORT0_resp_wait (a : Nat) : Field := ⟨DB_PORT0 a, 8, 8⟩
def DB_PORT0_telem_us (a : Nat) : Field := ⟨DB_PORT0 a, 16, 16⟩
/-- DB_PORT1: R181. -/
def DB_PORT1 (a : Nat) : Nat := 0x30801 + a * 0x10
def DB_PORT1_clear_counts (a : Nat) : Field := ⟨DB_PORT1 a, 0, 1⟩
/-- DB_PORT2: R181. -/
def DB_PORT2 (a : Nat) : Nat := 0x30802 + a * 0x10
def DB_PORT2_crc_errs (a : Nat) : Field := ⟨DB_PORT2 a, 0, 16⟩
def DB_PORT2_no_resp (a : Nat) : Field := ⟨DB_PORT2 a, 16, 16⟩
/-- DB_PORT3: R181. -/
def DB_PORT3 (a : Nat) : Nat := 0x30803 + a * 0x10
def DB_PORT3_latch_missed (a : Nat) : Field := ⟨DB_PORT3 a, 0, 16⟩
def DB_PORT3_resent (a : Nat) : Field := ⟨DB_PORT3 a, 16, 16⟩
/-- ZN_CTX0: R195. -/
def ZN_CTX0 (a : Nat) : Nat := 0x40000 + a * 2
def ZN_CTX0_level (a : Nat) : Field := ⟨ZN_CTX0 a, 0, 12⟩
def ZN_CTX0_gain_trim (a : Nat) : Field := ⟨ZN_CTX0 a, 12, 10⟩
def ZN_CTX0_pre_trim (a : Nat) : Field := ⟨ZN_CTX0 a, 22, 6⟩
def ZN_CTX0_fault (a : Nat) : Field := ⟨ZN_CTX0 a, 28, 4⟩
/-- ZN_CTX1: R195. -/
def ZN_CTX1 (a : Nat) : Nat := 0x40001 + a * 2
def ZN_CTX1_age (a : Nat) : Field := ⟨ZN_CTX1 a, 0, 8⟩
def ZN_CTX1_temp (a : Nat) : Field := ⟨ZN_CTX1 a, 8, 8⟩
def ZN_CTX1_dark (a : Nat) : Field := ⟨ZN_CTX1 a, 16, 1⟩
def ZN_CTX1_clear_fault (a : Nat) : Field := ⟨ZN_CTX1 a, 17, 1⟩
def ZN_CTX1_clipped (a : Nat) : Field := ⟨ZN_CTX1 a, 18, 1⟩
def ZN_CTX1_stale (a : Nat) : Field := ⟨ZN_CTX1 a, 19, 1⟩
/-- ZN_MAT0: R203. -/
def ZN_MAT0 (a : Nat) : Nat := 0x30c00 + a * 0x20
def ZN_MAT0_enable (a : Nat) : Field := ⟨ZN_MAT0 a, 0, 1⟩
def ZN_MAT0_head (a : Nat) : Field := ⟨ZN_MAT0 a, 1, 2⟩
def ZN_MAT0_supply_bank (a : Nat) : Field := ⟨ZN_MAT0 a, 3, 3⟩
def ZN_MAT0_mux (a : Nat) : Field := ⟨ZN_MAT0 a, 6, 3⟩
def ZN_MAT0_scan_mode (a : Nat) : Field := ⟨ZN_MAT0 a, 9, 1⟩
def ZN_MAT0_auto_fallback (a : Nat) : Field := ⟨ZN_MAT0 a, 10, 1⟩
def ZN_MAT0_clear_counts (a : Nat) : Field := ⟨ZN_MAT0 a, 11, 1⟩
/-- ZN_MAT1: R203. -/
def ZN_MAT1 (a : Nat) : Nat := 0x30c01 + a * 0x20
def ZN_MAT1_cols (a : Nat) : Field := ⟨ZN_MAT1 a, 0, 9⟩
def ZN_MAT1_rows (a : Nat) : Field := ⟨ZN_MAT1 a, 9, 8⟩
/-- ZN_MAT2: R203. -/
def ZN_MAT2 (a : Nat) : Nat := 0x30c02 + a * 0x20
def ZN_MAT2_ctx_base (a : Nat) : Field := ⟨ZN_MAT2 a, 0, 16⟩
/-- ZN_MAT3: R203. -/
def ZN_MAT3 (a : Nat) : Nat := 0x30c03 + a * 0x20
def ZN_MAT3_tout_base (a : Nat) : Field := ⟨ZN_MAT3 a, 0, 7⟩
def ZN_MAT3_winnow_ticks (a : Nat) : Field := ⟨ZN_MAT3 a, 7, 13⟩
def ZN_MAT3_meas_code (a : Nat) : Field := ⟨ZN_MAT3 a, 20, 12⟩
/-- ZN_MAT4: R203. -/
def ZN_MAT4 (a : Nat) : Nat := 0x30c04 + a * 0x20
def ZN_MAT4_first_port (a : Nat) : Field := ⟨ZN_MAT4 a, 0, 3⟩
def ZN_MAT4_n_ports (a : Nat) : Field := ⟨ZN_MAT4 a, 3, 4⟩
def ZN_MAT4_addr_base (a : Nat) : Field := ⟨ZN_MAT4 a, 7, 7⟩
def ZN_MAT4_chans (a : Nat) : Field := ⟨ZN_MAT4 a, 14, 7⟩
/-- ZN_MAT5: R203. -/
def ZN_MAT5 (a : Nat) : Nat := 0x30c05 + a * 0x20
def ZN_MAT5_step_ticks (a : Nat) : Field := ⟨ZN_MAT5 a, 0, 16⟩
def ZN_MAT5_fb_frames (a : Nat) : Field := ⟨ZN_MAT5 a, 16, 8⟩
/-- ZN_MAT6: R203. -/
def ZN_MAT6 (a : Nat) : Nat := 0x30c06 + a * 0x20
def ZN_MAT6_in_self_scan (a : Nat) : Field := ⟨ZN_MAT6 a, 0, 1⟩
def ZN_MAT6_n_drv (a : Nat) : Field := ⟨ZN_MAT6 a, 1, 10⟩
def ZN_MAT6_faulted_zones (a : Nat) : Field := ⟨ZN_MAT6 a, 11, 16⟩
/-- ZN_MAT7: R203. -/
def ZN_MAT7 (a : Nat) : Nat := 0x30c07 + a * 0x20
def ZN_MAT7_levels_stale (a : Nat) : Field := ⟨ZN_MAT7 a, 0, 16⟩
def ZN_MAT7_steps_missed (a : Nat) : Field := ⟨ZN_MAT7 a, 16, 16⟩
/-- CC_TRIAD0: R216. -/
def CC_TRIAD0 (a : Nat) : Nat := 0x31000 + a * 0x20
def CC_TRIAD0_enable (a : Nat) : Field := ⟨CC_TRIAD0 a, 0, 1⟩
def CC_TRIAD0_head (a : Nat) : Field := ⟨CC_TRIAD0 a, 1, 2⟩
def CC_TRIAD0_band (a : Nat) : Field := ⟨CC_TRIAD0 a, 3, 5⟩
def CC_TRIAD0_auto_range (a : Nat) : Field := ⟨CC_TRIAD0 a, 8, 1⟩
def CC_TRIAD0_fixed_range (a : Nat) : Field := ⟨CC_TRIAD0 a, 9, 2⟩
def CC_TRIAD0_clear_suspect (a : Nat) : Field := ⟨CC_TRIAD0 a, 11, 1⟩
def CC_TRIAD0_clear_counts (a : Nat) : Field := ⟨CC_TRIAD0 a, 12, 1⟩
/-- CC_TRIAD_MAT: R216. -/
def CC_TRIAD_MAT (a b : Nat) : Nat := 0x31001 + a * 0x20 + b * 1
def CC_TRIAD_MAT_mat (a b : Nat) : Field := ⟨CC_TRIAD_MAT a b, 0, 24⟩
/-- CC_TRIADA: R216. -/
def CC_TRIADA (a : Nat) : Nat := 0x3100a + a * 0x20
def CC_TRIADA_ranges (a : Nat) : Field := ⟨CC_TRIADA a, 0, 6⟩
def CC_TRIADA_suspect (a : Nat) : Field := ⟨CC_TRIADA a, 6, 1⟩
/-- CC_TRIAD_LAST: R216. -/
def CC_TRIAD_LAST (a b : Nat) : Nat := 0x3100b + a * 0x20 + b * 1
def CC_TRIAD_LAST_last (a b : Nat) : Field := ⟨CC_TRIAD_LAST a b, 0, 32⟩
/-- CC_TRIADE: R216. -/
def CC_TRIADE (a : Nat) : Nat := 0x3100e + a * 0x20
def CC_TRIADE_clipped (a : Nat) : Field := ⟨CC_TRIADE a, 0, 16⟩
def CC_TRIADE_implausible (a : Nat) : Field := ⟨CC_TRIADE a, 16, 16⟩
/-- CC_GROUP0: R216. -/
def CC_GROUP0 (a : Nat) : Nat := 0x31100 + a * 0x20
def CC_GROUP0_enable (a : Nat) : Field := ⟨CC_GROUP0 a, 0, 1⟩
def CC_GROUP0_policy (a : Nat) : Field := ⟨CC_GROUP0 a, 1, 1⟩
def CC_GROUP0_hold (a : Nat) : Field := ⟨CC_GROUP0 a, 2, 1⟩
def CC_GROUP0_learn (a : Nat) : Field := ⟨CC_GROUP0 a, 3, 1⟩
def CC_GROUP0_clear_counts (a : Nat) : Field := ⟨CC_GROUP0 a, 4, 1⟩
def CC_GROUP0_meas_frames (a : Nat) : Field := ⟨CC_GROUP0 a, 5, 3⟩
def CC_GROUP0_skip_us (a : Nat) : Field := ⟨CC_GROUP0 a, 8, 8⟩
def CC_GROUP0_tau_ms (a : Nat) : Field := ⟨CC_GROUP0 a, 16, 16⟩
/-- CC_TARGET: R216. -/
def CC_TARGET (a b : Nat) : Nat := 0x31101 + a * 0x20 + b * 1
def CC_TARGET_target (a b : Nat) : Field := ⟨CC_TARGET a b, 0, 32⟩
/-- CC_GROUP4: R216. -/
def CC_GROUP4 (a : Nat) : Nat := 0x31104 + a * 0x20
def CC_GROUP4_state (a : Nat) : Field := ⟨CC_GROUP4 a, 0, 2⟩
def CC_GROUP4_limited_comp (a : Nat) : Field := ⟨CC_GROUP4 a, 2, 2⟩
def CC_GROUP4_item_bank (a : Nat) : Field := ⟨CC_GROUP4 a, 4, 3⟩
def CC_GROUP4_item_entry (a : Nat) : Field := ⟨CC_GROUP4 a, 7, 4⟩
def CC_GROUP4_luma_ratio (a : Nat) : Field := ⟨CC_GROUP4 a, 11, 16⟩
/-- CC_DEMAND: R216. -/
def CC_DEMAND (a b : Nat) : Nat := 0x31105 + a * 0x20 + b * 1
def CC_DEMAND_demand (a b : Nat) : Field := ⟨CC_DEMAND a b, 0, 16⟩
/-- CC_GROUP8: R216. -/
def CC_GROUP8 (a : Nat) : Nat := 0x31108 + a * 0x20
def CC_GROUP8_item_skips (a : Nat) : Field := ⟨CC_GROUP8 a, 0, 16⟩
def CC_GROUP8_solve_fails (a : Nat) : Field := ⟨CC_GROUP8 a, 16, 16⟩
/-- CC_BANK0: R216. -/
def CC_BANK0 (a : Nat) : Nat := 0x31200 + a * 0x10
def CC_BANK0_comp (a : Nat) : Field := ⟨CC_BANK0 a, 0, 2⟩
/-- CC_LIGHT: R216. -/
def CC_LIGHT (a b : Nat) : Nat := 0x31201 + a * 0x10 + b * 1
def CC_LIGHT_light (a b : Nat) : Field := ⟨CC_LIGHT a b, 0, 16⟩
def CC_LIGHT_measured (a b : Nat) : Field := ⟨CC_LIGHT a b, 16, 1⟩
/-- CC_WHITE: R216. -/
def CC_WHITE (a b : Nat) : Nat := 0x31280 + a * 4 + b * 1
def CC_WHITE_white (a b : Nat) : Field := ⟨CC_WHITE a b, 0, 32⟩
/-- CE_LOOP00: R236. -/
def CE_LOOP00 (a : Nat) : Nat := 0x60000 + a * 0x40
def CE_LOOP00_enable (a : Nat) : Field := ⟨CE_LOOP00 a, 0, 1⟩
def CE_LOOP00_order (a : Nat) : Field := ⟨CE_LOOP00 a, 1, 1⟩
def CE_LOOP00_lane (a : Nat) : Field := ⟨CE_LOOP00 a, 2, 1⟩
def CE_LOOP00_fb_sel (a : Nat) : Field := ⟨CE_LOOP00 a, 3, 1⟩
def CE_LOOP00_sp_src (a : Nat) : Field := ⟨CE_LOOP00 a, 4, 1⟩
def CE_LOOP00_out_kind (a : Nat) : Field := ⟨CE_LOOP00 a, 5, 2⟩
def CE_LOOP00_fe_action (a : Nat) : Field := ⟨CE_LOOP00 a, 7, 1⟩
def CE_LOOP00_cross_en (a : Nat) : Field := ⟨CE_LOOP00 a, 8, 1⟩
def CE_LOOP00_clear_fault (a : Nat) : Field := ⟨CE_LOOP00 a, 9, 1⟩
def CE_LOOP00_clear_counts (a : Nat) : Field := ⟨CE_LOOP00 a, 10, 1⟩
def CE_LOOP00_overrun_max (a : Nat) : Field := ⟨CE_LOOP00 a, 11, 4⟩
def CE_LOOP00_swap_k (a : Nat) : Field := ⟨CE_LOOP00 a, 15, 4⟩
def CE_LOOP00_n_sets (a : Nat) : Field := ⟨CE_LOOP00 a, 19, 3⟩
def CE_LOOP00_sched_src (a : Nat) : Field := ⟨CE_LOOP00 a, 22, 2⟩
def CE_LOOP00_sched_loop (a : Nat) : Field := ⟨CE_LOOP00 a, 24, 6⟩
/-- CE_LOOP01: R236. -/
def CE_LOOP01 (a : Nat) : Nat := 0x60001 + a * 0x40
def CE_LOOP01_period_ticks (a : Nat) : Field := ⟨CE_LOOP01 a, 0, 24⟩
/-- CE_LOOP02: R236. -/
def CE_LOOP02 (a : Nat) : Nat := 0x60002 + a * 0x40
def CE_LOOP02_offset_ticks (a : Nat) : Field := ⟨CE_LOOP02 a, 0, 24⟩
/-- CE_LOOP03: R236. -/
def CE_LOOP03 (a : Nat) : Nat := 0x60003 + a * 0x40
def CE_LOOP03_phase_ticks (a : Nat) : Field := ⟨CE_LOOP03 a, 0, 12⟩
/-- CE_LOOP04: R236. -/
def CE_LOOP04 (a : Nat) : Nat := 0x60004 + a * 0x40
def CE_LOOP04_in_kind (a : Nat) : Field := ⟨CE_LOOP04 a, 0, 2⟩
def CE_LOOP04_in_index (a : Nat) : Field := ⟨CE_LOOP04 a, 2, 6⟩
def CE_LOOP04_in_gain (a : Nat) : Field := ⟨CE_LOOP04 a, 16, 16⟩
/-- CE_LOOP05: R236. -/
def CE_LOOP05 (a : Nat) : Nat := 0x60005 + a * 0x40
def CE_LOOP05_out_index (a : Nat) : Field := ⟨CE_LOOP05 a, 0, 7⟩
def CE_LOOP05_out_shift (a : Nat) : Field := ⟨CE_LOOP05 a, 8, 5⟩
/-- CE_LOOP06: R236. -/
def CE_LOOP06 (a : Nat) : Nat := 0x60006 + a * 0x40
def CE_LOOP06_pwm_ticks (a : Nat) : Field := ⟨CE_LOOP06 a, 0, 24⟩
/-- CE_LOOP07: R236. -/
def CE_LOOP07 (a : Nat) : Nat := 0x60007 + a * 0x40
def CE_LOOP07_sp (a : Nat) : Field := ⟨CE_LOOP07 a, 0, 32⟩
/-- CE_LOOP08: R236. -/
def CE_LOOP08 (a : Nat) : Nat := 0x60008 + a * 0x40
def CE_LOOP08_out_min (a : Nat) : Field := ⟨CE_LOOP08 a, 0, 32⟩
/-- CE_LOOP09: R236. -/
def CE_LOOP09 (a : Nat) : Nat := 0x60009 + a * 0x40
def CE_LOOP09_out_max (a : Nat) : Field := ⟨CE_LOOP09 a, 0, 32⟩
/-- CE_LOOP0A: R236. -/
def CE_LOOP0A (a : Nat) : Nat := 0x6000a + a * 0x40
def CE_LOOP0A_out_safe (a : Nat) : Field := ⟨CE_LOOP0A a, 0, 32⟩
/-- CE_LOOP_TH: R236. -/
def CE_LOOP_TH (a b : Nat) : Nat := 0x6000b + a * 0x40 + b * 1
def CE_LOOP_TH_th (a b : Nat) : Field := ⟨CE_LOOP_TH a b, 0, 32⟩
/-- CE_LOOP0E: R236. -/
def CE_LOOP0E (a : Nat) : Nat := 0x6000e + a * 0x40
def CE_LOOP0E_hyst (a : Nat) : Field := ⟨CE_LOOP0E a, 0, 32⟩
/-- CE_LOOP0F: R236. -/
def CE_LOOP0F (a : Nat) : Nat := 0x6000f + a * 0x40
def CE_LOOP0F_fe_limit (a : Nat) : Field := ⟨CE_LOOP0F a, 0, 32⟩
/-- CE_LOOP10: R236. -/
def CE_LOOP10 (a : Nat) : Nat := 0x60010 + a * 0x40
def CE_LOOP10_fe_time (a : Nat) : Field := ⟨CE_LOOP10 a, 0, 16⟩
def CE_LOOP10_amp_decay (a : Nat) : Field := ⟨CE_LOOP10 a, 16, 5⟩
/-- CE_LOOP11: R236. -/
def CE_LOOP11 (a : Nat) : Nat := 0x60011 + a * 0x40
def CE_LOOP11_cross_hyst (a : Nat) : Field := ⟨CE_LOOP11 a, 0, 32⟩
/-- CE_COEF: R236. -/
def CE_COEF (a b : Nat) : Nat := 0x60014 + a * 0x40 + b * 1
def CE_COEF_coef (a b : Nat) : Field := ⟨CE_COEF a b, 0, 24⟩
/-- CE_LOOP30: R236. -/
def CE_LOOP30 (a : Nat) : Nat := 0x60030 + a * 0x40
def CE_LOOP30_state (a : Nat) : Field := ⟨CE_LOOP30 a, 0, 2⟩
def CE_LOOP30_set (a : Nat) : Field := ⟨CE_LOOP30 a, 2, 2⟩
def CE_LOOP30_fe_tripped (a : Nat) : Field := ⟨CE_LOOP30 a, 4, 1⟩
def CE_LOOP30_limited (a : Nat) : Field := ⟨CE_LOOP30 a, 5, 1⟩
def CE_LOOP30_lw_winner (a : Nat) : Field := ⟨CE_LOOP30 a, 6, 2⟩
/-- CE_LOOP31: R236. -/
def CE_LOOP31 (a : Nat) : Nat := 0x60031 + a * 0x40
def CE_LOOP31_y (a : Nat) : Field := ⟨CE_LOOP31 a, 0, 32⟩
/-- CE_LOOP32: R236. -/
def CE_LOOP32 (a : Nat) : Nat := 0x60032 + a * 0x40
def CE_LOOP32_r (a : Nat) : Field := ⟨CE_LOOP32 a, 0, 32⟩
/-- CE_LOOP33: R236. -/
def CE_LOOP33 (a : Nat) : Nat := 0x60033 + a * 0x40
def CE_LOOP33_out (a : Nat) : Field := ⟨CE_LOOP33 a, 0, 32⟩
/-- CE_LOOP34: R236. -/
def CE_LOOP34 (a : Nat) : Nat := 0x60034 + a * 0x40
def CE_LOOP34_amp (a : Nat) : Field := ⟨CE_LOOP34 a, 0, 32⟩
/-- CE_LOOP35: R236. -/
def CE_LOOP35 (a : Nat) : Nat := 0x60035 + a * 0x40
def CE_LOOP35_c (a : Nat) : Field := ⟨CE_LOOP35 a, 0, 32⟩
/-- CE_LOOP36: R236. -/
def CE_LOOP36 (a : Nat) : Nat := 0x60036 + a * 0x40
def CE_LOOP36_overruns (a : Nat) : Field := ⟨CE_LOOP36 a, 0, 16⟩
def CE_LOOP36_limit_steps (a : Nat) : Field := ⟨CE_LOOP36 a, 16, 16⟩
/-- CE_LOOP37: R236. -/
def CE_LOOP37 (a : Nat) : Nat := 0x60037 + a * 0x40
def CE_LOOP37_fe_trips (a : Nat) : Field := ⟨CE_LOOP37 a, 0, 16⟩
def CE_LOOP37_swaps (a : Nat) : Field := ⟨CE_LOOP37 a, 16, 16⟩
/-- CE_LOOP38: R236. -/
def CE_LOOP38 (a : Nat) : Nat := 0x60038 + a * 0x40
def CE_LOOP38_wcr (a : Nat) : Field := ⟨CE_LOOP38 a, 0, 16⟩
/-- CE_LOOP39: R236. -/
def CE_LOOP39 (a : Nat) : Nat := 0x60039 + a * 0x40
def CE_LOOP39_last_cross (a : Nat) : Field := ⟨CE_LOOP39 a, 0, 32⟩
/-- CE_PG0: R237. -/
def CE_PG0 (a : Nat) : Nat := 0x61000 + a * 0x10
def CE_PG0_loop (a : Nat) : Field := ⟨CE_PG0 a, 0, 6⟩
def CE_PG0_enable (a : Nat) : Field := ⟨CE_PG0 a, 6, 1⟩
def CE_PG0_settle_n (a : Nat) : Field := ⟨CE_PG0 a, 8, 12⟩
/-- CE_PG1: R237. -/
def CE_PG1 (a : Nat) : Nat := 0x61001 + a * 0x10
def CE_PG1_target (a : Nat) : Field := ⟨CE_PG1 a, 0, 32⟩
/-- CE_PG2: R237. -/
def CE_PG2 (a : Nat) : Nat := 0x61002 + a * 0x10
def CE_PG2_vmax (a : Nat) : Field := ⟨CE_PG2 a, 0, 32⟩
/-- CE_PG3: R237. -/
def CE_PG3 (a : Nat) : Nat := 0x61003 + a * 0x10
def CE_PG3_amax (a : Nat) : Field := ⟨CE_PG3 a, 0, 32⟩
/-- CE_PG4: R237. -/
def CE_PG4 (a : Nat) : Nat := 0x61004 + a * 0x10
def CE_PG4_jmax (a : Nat) : Field := ⟨CE_PG4 a, 0, 32⟩
/-- CE_PG5: R237. -/
def CE_PG5 (a : Nat) : Nat := 0x61005 + a * 0x10
def CE_PG5_settle_tol (a : Nat) : Field := ⟨CE_PG5 a, 0, 32⟩
/-- CE_PG6: R237. -/
def CE_PG6 (a : Nat) : Nat := 0x61006 + a * 0x10
def CE_PG6_moving (a : Nat) : Field := ⟨CE_PG6 a, 0, 1⟩
def CE_PG6_done (a : Nat) : Field := ⟨CE_PG6 a, 1, 1⟩
def CE_PG6_settled (a : Nat) : Field := ⟨CE_PG6 a, 2, 1⟩
def CE_PG6_owned (a : Nat) : Field := ⟨CE_PG6 a, 3, 1⟩
/-- CE_PG7: R237. -/
def CE_PG7 (a : Nat) : Nat := 0x61007 + a * 0x10
def CE_PG7_p (a : Nat) : Field := ⟨CE_PG7 a, 0, 32⟩
/-- CE_PG8: R237. -/
def CE_PG8 (a : Nat) : Nat := 0x61008 + a * 0x10
def CE_PG8_v (a : Nat) : Field := ⟨CE_PG8 a, 0, 32⟩
/-- CE_LW0: R237. -/
def CE_LW0 (a : Nat) : Nat := 0x61100 + a * 4
def CE_LW0_loop_0 (a : Nat) : Field := ⟨CE_LW0 a, 0, 6⟩
def CE_LW0_valid_0 (a : Nat) : Field := ⟨CE_LW0 a, 6, 1⟩
def CE_LW0_loop_1 (a : Nat) : Field := ⟨CE_LW0 a, 7, 6⟩
def CE_LW0_valid_1 (a : Nat) : Field := ⟨CE_LW0 a, 13, 1⟩
def CE_LW0_loop_2 (a : Nat) : Field := ⟨CE_LW0 a, 14, 6⟩
def CE_LW0_valid_2 (a : Nat) : Field := ⟨CE_LW0 a, 20, 1⟩
def CE_LW0_loop_3 (a : Nat) : Field := ⟨CE_LW0 a, 21, 6⟩
def CE_LW0_valid_3 (a : Nat) : Field := ⟨CE_LW0 a, 27, 1⟩
/-- CE_LW1: R237. -/
def CE_LW1 (a : Nat) : Nat := 0x61101 + a * 4
def CE_LW1_winner (a : Nat) : Field := ⟨CE_LW1 a, 0, 2⟩
def CE_LW1_bank_owned (a : Nat) : Field := ⟨CE_LW1 a, 2, 1⟩
def CE_LW1_switches (a : Nat) : Field := ⟨CE_LW1 a, 16, 16⟩
/-- CE_INJ0: R237. -/
def CE_INJ0 (a : Nat) : Nat := 0x61200 + a * 0x10
def CE_INJ0_start (a : Nat) : Field := ⟨CE_INJ0 a, 0, 1⟩
def CE_INJ0_stop (a : Nat) : Field := ⟨CE_INJ0 a, 1, 1⟩
def CE_INJ0_loop (a : Nat) : Field := ⟨CE_INJ0 a, 2, 6⟩
def CE_INJ0_point (a : Nat) : Field := ⟨CE_INJ0 a, 8, 2⟩
def CE_INJ0_kind (a : Nat) : Field := ⟨CE_INJ0 a, 10, 2⟩
def CE_INJ0_running (a : Nat) : Field := ⟨CE_INJ0 a, 12, 1⟩
/-- CE_INJ1: R237. -/
def CE_INJ1 (a : Nat) : Nat := 0x61201 + a * 0x10
def CE_INJ1_amp (a : Nat) : Field := ⟨CE_INJ1 a, 0, 32⟩
/-- CE_INJ2: R237. -/
def CE_INJ2 (a : Nat) : Nat := 0x61202 + a * 0x10
def CE_INJ2_duration (a : Nat) : Field := ⟨CE_INJ2 a, 0, 32⟩
/-- CE_INJ3: R237. -/
def CE_INJ3 (a : Nat) : Nat := 0x61203 + a * 0x10
def CE_INJ3_f_start (a : Nat) : Field := ⟨CE_INJ3 a, 0, 32⟩
/-- CE_INJ4: R237. -/
def CE_INJ4 (a : Nat) : Nat := 0x61204 + a * 0x10
def CE_INJ4_f_stop (a : Nat) : Field := ⟨CE_INJ4 a, 0, 32⟩
/-- CE_CAP0: R237. -/
def CE_CAP0 : Nat := 0x61300
def CE_CAP0_arm : Field := ⟨CE_CAP0, 0, 1⟩
def CE_CAP0_abort : Field := ⟨CE_CAP0, 1, 1⟩
def CE_CAP0_cap_loop : Field := ⟨CE_CAP0, 2, 6⟩
def CE_CAP0_trigger : Field := ⟨CE_CAP0, 8, 3⟩
def CE_CAP0_trig_inj : Field := ⟨CE_CAP0, 11, 2⟩
def CE_CAP0_decim : Field := ⟨CE_CAP0, 13, 8⟩
/-- CE_CAP1: R237. -/
def CE_CAP1 : Nat := 0x61301
def CE_CAP1_length : Field := ⟨CE_CAP1, 0, 15⟩
def CE_CAP1_pre : Field := ⟨CE_CAP1, 16, 15⟩
/-- CE_CAP2: R237. -/
def CE_CAP2 : Nat := 0x61302
def CE_CAP2_loop_0 : Field := ⟨CE_CAP2, 0, 6⟩
def CE_CAP2_qty_0 : Field := ⟨CE_CAP2, 6, 2⟩
def CE_CAP2_loop_1 : Field := ⟨CE_CAP2, 8, 6⟩
def CE_CAP2_qty_1 : Field := ⟨CE_CAP2, 14, 2⟩
def CE_CAP2_loop_2 : Field := ⟨CE_CAP2, 16, 6⟩
def CE_CAP2_qty_2 : Field := ⟨CE_CAP2, 22, 2⟩
def CE_CAP2_loop_3 : Field := ⟨CE_CAP2, 24, 6⟩
def CE_CAP2_qty_3 : Field := ⟨CE_CAP2, 30, 2⟩
/-- CE_CAP3: R237. -/
def CE_CAP3 : Nat := 0x61303
def CE_CAP3_threshold : Field := ⟨CE_CAP3, 0, 32⟩
/-- CE_CAP4: R237. -/
def CE_CAP4 : Nat := 0x61304
def CE_CAP4_state : Field := ⟨CE_CAP4, 0, 2⟩
def CE_CAP4_count : Field := ⟨CE_CAP4, 2, 15⟩
/-- CE_LANE: R237. -/
def CE_LANE (a : Nat) : Nat := 0x61380 + a * 1
def CE_LANE_load_pm (a : Nat) : Field := ⟨CE_LANE a, 0, 10⟩
/-- GR_CTRL: R264. -/
def GR_CTRL : Nat := 0x80000
def GR_CTRL_rate : Field := ⟨GR_CTRL, 0, 2⟩
def GR_CTRL_density : Field := ⟨GR_CTRL, 2, 1⟩
def GR_CTRL_channels : Field := ⟨GR_CTRL, 3, 2⟩
def GR_CTRL_il : Field := ⟨GR_CTRL, 5, 5⟩
def GR_CTRL_hash : Field := ⟨GR_CTRL, 10, 1⟩
def GR_CTRL_in_sr : Field := ⟨GR_CTRL, 11, 1⟩
def GR_CTRL_clear_counts : Field := ⟨GR_CTRL, 12, 1⟩
/-- GR_FIELDS: R264. -/
def GR_FIELDS : Nat := 0x80001
def GR_FIELDS_bg0 : Field := ⟨GR_FIELDS, 0, 5⟩
def GR_FIELDS_bg1 : Field := ⟨GR_FIELDS, 5, 5⟩
def GR_FIELDS_ba0 : Field := ⟨GR_FIELDS, 10, 5⟩
def GR_FIELDS_ba1 : Field := ⟨GR_FIELDS, 15, 5⟩
def GR_FIELDS_rk0 : Field := ⟨GR_FIELDS, 20, 5⟩
def GR_FIELDS_rk1 : Field := ⟨GR_FIELDS, 25, 5⟩
/-- GR_SCHED: R264. -/
def GR_SCHED : Nat := 0x80002
def GR_SCHED_wq_high : Field := ⟨GR_SCHED, 0, 7⟩
def GR_SCHED_wq_low : Field := ⟨GR_SCHED, 7, 7⟩
def GR_SCHED_idle_drain : Field := ⟨GR_SCHED, 14, 8⟩
def GR_SCHED_wait_us : Field := ⟨GR_SCHED, 22, 8⟩
/-- GR_REFRESH: R264. -/
def GR_REFRESH : Nat := 0x80003
def GR_REFRESH_trefi_ns : Field := ⟨GR_REFRESH, 0, 13⟩
def GR_REFRESH_mr4_poll : Field := ⟨GR_REFRESH, 13, 5⟩
/-- GR_ECC: R264. -/
def GR_ECC : Nat := 0x80004
def GR_ECC_ce_thresh : Field := ⟨GR_ECC, 0, 16⟩
def GR_ECC_ce_window_s : Field := ⟨GR_ECC, 16, 8⟩
def GR_ECC_auto_spare : Field := ⟨GR_ECC, 24, 1⟩
/-- GR_RH: R264. -/
def GR_RH : Nat := 0x80005
def GR_RH_rh_thresh : Field := ⟨GR_RH, 0, 16⟩
def GR_RH_rh_window_ms : Field := ⟨GR_RH, 16, 8⟩
def GR_RH_rh_en : Field := ⟨GR_RH, 24, 1⟩
/-- GR_MIG_CFG: R264. -/
def GR_MIG_CFG : Nat := 0x80006
def GR_MIG_CFG_mig_gbps : Field := ⟨GR_MIG_CFG, 0, 8⟩
/-- GR_CAPACITY: R264. -/
def GR_CAPACITY : Nat := 0x80007
def GR_CAPACITY_capacity_gib : Field := ⟨GR_CAPACITY, 0, 16⟩
/-- GR_TIMING8: R264. -/
def GR_TIMING8 : Nat := 0x80008
def GR_TIMING8_tCL : Field := ⟨GR_TIMING8, 0, 8⟩
def GR_TIMING8_tCWL : Field := ⟨GR_TIMING8, 8, 8⟩
def GR_TIMING8_tRCD : Field := ⟨GR_TIMING8, 16, 8⟩
def GR_TIMING8_tRP : Field := ⟨GR_TIMING8, 24, 8⟩
/-- GR_TIMING9: R264. -/
def GR_TIMING9 : Nat := 0x80009
def GR_TIMING9_tRAS : Field := ⟨GR_TIMING9, 0, 8⟩
def GR_TIMING9_tRRD_S : Field := ⟨GR_TIMING9, 8, 8⟩
def GR_TIMING9_tRRD_L : Field := ⟨GR_TIMING9, 16, 8⟩
def GR_TIMING9_tCCD_L : Field := ⟨GR_TIMING9, 24, 8⟩
/-- GR_TIMINGA: R264. -/
def GR_TIMINGA : Nat := 0x8000a
def GR_TIMINGA_tFAW : Field := ⟨GR_TIMINGA, 0, 8⟩
def GR_TIMINGA_tWR : Field := ⟨GR_TIMINGA, 8, 8⟩
def GR_TIMINGA_tWTR_S : Field := ⟨GR_TIMINGA, 16, 8⟩
def GR_TIMINGA_tWTR_L : Field := ⟨GR_TIMINGA, 24, 8⟩
/-- GR_TIMINGB: R264. -/
def GR_TIMINGB : Nat := 0x8000b
def GR_TIMINGB_tRFC : Field := ⟨GR_TIMINGB, 0, 12⟩
def GR_TIMINGB_tRTP : Field := ⟨GR_TIMINGB, 12, 8⟩
/-- GR_CHAN0: R265. -/
def GR_CHAN0 (a : Nat) : Nat := 0x80100 + a * 0x20
def GR_CHAN0_ranks (a : Nat) : Field := ⟨GR_CHAN0 a, 0, 3⟩
def GR_CHAN0_spare_en (a : Nat) : Field := ⟨GR_CHAN0 a, 3, 1⟩
def GR_CHAN0_spare_cs (a : Nat) : Field := ⟨GR_CHAN0 a, 4, 2⟩
/-- GR_CHAN1: R265. -/
def GR_CHAN1 (a : Nat) : Nat := 0x80101 + a * 0x20
def GR_CHAN1_state (a : Nat) : Field := ⟨GR_CHAN1 a, 0, 3⟩
def GR_CHAN1_trefi_half (a : Nat) : Field := ⟨GR_CHAN1 a, 3, 1⟩
def GR_CHAN1_owed (a : Nat) : Field := ⟨GR_CHAN1 a, 4, 4⟩
def GR_CHAN1_spare_used (a : Nat) : Field := ⟨GR_CHAN1 a, 8, 1⟩
def GR_CHAN1_rank_map (a : Nat) : Field := ⟨GR_CHAN1 a, 9, 8⟩
def GR_CHAN1_failed_cs (a : Nat) : Field := ⟨GR_CHAN1 a, 17, 4⟩
/-- GR_CHAN2: R265. -/
def GR_CHAN2 (a : Nat) : Nat := 0x80102 + a * 0x20
def GR_CHAN2_ptr (a : Nat) : Field := ⟨GR_CHAN2 a, 0, 29⟩
def GR_CHAN2_mig_rank (a : Nat) : Field := ⟨GR_CHAN2 a, 29, 2⟩
/-- GR_CHAN3: R265. -/
def GR_CHAN3 (a : Nat) : Nat := 0x80103 + a * 0x20
def GR_CHAN3_progress_pm (a : Nat) : Field := ⟨GR_CHAN3 a, 0, 10⟩
def GR_CHAN3_poisoned_lines (a : Nat) : Field := ⟨GR_CHAN3 a, 10, 22⟩
/-- GR_CHAN_CE: R265. -/
def GR_CHAN_CE (a b : Nat) : Nat := 0x80104 + a * 0x20 + b * 1
def GR_CHAN_CE_ce_count (a b : Nat) : Field := ⟨GR_CHAN_CE a b, 0, 16⟩
def GR_CHAN_CE_ue_count (a b : Nat) : Field := ⟨GR_CHAN_CE a b, 16, 16⟩
/-- GR_CHAN8: R265. -/
def GR_CHAN8 (a : Nat) : Nat := 0x80108 + a * 0x20
def GR_CHAN8_refresh_catchup (a : Nat) : Field := ⟨GR_CHAN8 a, 0, 16⟩
def GR_CHAN8_raw_waits (a : Nat) : Field := ⟨GR_CHAN8 a, 16, 16⟩
/-- GR_CHAN9: R265. -/
def GR_CHAN9 (a : Nat) : Nat := 0x80109 + a * 0x20
def GR_CHAN9_err_addr_lo (a : Nat) : Field := ⟨GR_CHAN9 a, 0, 32⟩
/-- GR_CHAN10: R265. -/
def GR_CHAN10 (a : Nat) : Nat := 0x8010a + a * 0x20
def GR_CHAN10_err_addr_hi (a : Nat) : Field := ⟨GR_CHAN10 a, 0, 8⟩
def GR_CHAN10_err_kind (a : Nat) : Field := ⟨GR_CHAN10 a, 8, 3⟩
def GR_CHAN10_err_symbols (a : Nat) : Field := ⟨GR_CHAN10 a, 11, 3⟩
def GR_CHAN10_err_cs (a : Nat) : Field := ⟨GR_CHAN10 a, 14, 2⟩
/-- GR_REQ0: R266. -/
def GR_REQ0 (a : Nat) : Nat := 0x80400 + a * 4
def GR_REQ0_wait_count (a : Nat) : Field := ⟨GR_REQ0 a, 0, 32⟩
/-- GR_REQ1: R266. -/
def GR_REQ1 (a : Nat) : Nat := 0x80401 + a * 4
def GR_REQ1_max_wait (a : Nat) : Field := ⟨GR_REQ1 a, 0, 32⟩
/-- GR_REQ2: R266. -/
def GR_REQ2 (a : Nat) : Nat := 0x80402 + a * 4
def GR_REQ2_drops (a : Nat) : Field := ⟨GR_REQ2 a, 0, 16⟩
def GR_REQ2_poison_lines (a : Nat) : Field := ⟨GR_REQ2 a, 16, 16⟩
/-- GR_REQ3: R266. -/
def GR_REQ3 (a : Nat) : Nat := 0x80403 + a * 4
def GR_REQ3_rh_throttles (a : Nat) : Field := ⟨GR_REQ3 a, 0, 16⟩
/-- TH_GLOBAL0: R330. -/
def TH_GLOBAL0 : Nat := 0x70000
def TH_GLOBAL0_knee_c : Field := ⟨TH_GLOBAL0, 0, 8⟩
def TH_GLOBAL0_slope_pm : Field := ⟨TH_GLOBAL0, 8, 10⟩
def TH_GLOBAL0_floor_pm : Field := ⟨TH_GLOBAL0, 18, 10⟩
/-- TH_GLOBAL1: R330. -/
def TH_GLOBAL1 : Nat := 0x70001
def TH_GLOBAL1_hyst_c : Field := ⟨TH_GLOBAL1, 0, 5⟩
def TH_GLOBAL1_dwell_ms : Field := ⟨TH_GLOBAL1, 5, 11⟩
def TH_GLOBAL1_release_pm : Field := ⟨TH_GLOBAL1, 16, 10⟩
def TH_GLOBAL1_clear_counts : Field := ⟨TH_GLOBAL1, 26, 1⟩
/-- TH_GLOBAL2: R330. -/
def TH_GLOBAL2 : Nat := 0x70002
def TH_GLOBAL2_alarm_die_c : Field := ⟨TH_GLOBAL2, 0, 8⟩
def TH_GLOBAL2_alarm_ext_c : Field := ⟨TH_GLOBAL2, 8, 8⟩
/-- TH_GLOBAL3: R330. -/
def TH_GLOBAL3 : Nat := 0x70003
def TH_GLOBAL3_die_max : Field := ⟨TH_GLOBAL3, 0, 12⟩
def TH_GLOBAL3_budget_pm : Field := ⟨TH_GLOBAL3, 12, 10⟩
def TH_GLOBAL3_hold : Field := ⟨TH_GLOBAL3, 22, 1⟩
def TH_GLOBAL3_nv_window : Field := ⟨TH_GLOBAL3, 23, 1⟩
def TH_GLOBAL3_hottest : Field := ⟨TH_GLOBAL3, 24, 6⟩
/-- TH_GLOBAL4: R330. -/
def TH_GLOBAL4 : Nat := 0x70004
def TH_GLOBAL4_die_min : Field := ⟨TH_GLOBAL4, 0, 12⟩
def TH_GLOBAL4_die_tracked : Field := ⟨TH_GLOBAL4, 12, 12⟩
/-- TH_GLOBAL5: R330. -/
def TH_GLOBAL5 : Nat := 0x70005
def TH_GLOBAL5_exclusions : Field := ⟨TH_GLOBAL5, 0, 16⟩
def TH_GLOBAL5_nv_deferred : Field := ⟨TH_GLOBAL5, 16, 16⟩
/-- TH_SENSOR0: R330. -/
def TH_SENSOR0 (a : Nat) : Nat := 0x70100 + a * 4
def TH_SENSOR0_nb0 (a : Nat) : Field := ⟨TH_SENSOR0 a, 0, 6⟩
def TH_SENSOR0_nb1 (a : Nat) : Field := ⟨TH_SENSOR0 a, 6, 6⟩
def TH_SENSOR0_nb2 (a : Nat) : Field := ⟨TH_SENSOR0 a, 12, 6⟩
def TH_SENSOR0_nb3 (a : Nat) : Field := ⟨TH_SENSOR0 a, 18, 6⟩
def TH_SENSOR0_enable (a : Nat) : Field := ⟨TH_SENSOR0 a, 24, 1⟩
def TH_SENSOR0_clear_suspect (a : Nat) : Field := ⟨TH_SENSOR0 a, 25, 1⟩
def TH_SENSOR0_auto_restore (a : Nat) : Field := ⟨TH_SENSOR0 a, 26, 1⟩
/-- TH_SENSOR1: R330. -/
def TH_SENSOR1 (a : Nat) : Nat := 0x70101 + a * 4
def TH_SENSOR1_value (a : Nat) : Field := ⟨TH_SENSOR1 a, 0, 12⟩
def TH_SENSOR1_reading (a : Nat) : Field := ⟨TH_SENSOR1 a, 12, 12⟩
/-- TH_SENSOR2: R330. -/
def TH_SENSOR2 (a : Nat) : Nat := 0x70102 + a * 4
def TH_SENSOR2_offset (a : Nat) : Field := ⟨TH_SENSOR2 a, 0, 12⟩
def TH_SENSOR2_trusted (a : Nat) : Field := ⟨TH_SENSOR2 a, 12, 1⟩
def TH_SENSOR2_cause (a : Nat) : Field := ⟨TH_SENSOR2 a, 13, 2⟩
def TH_SENSOR2_suspect_count (a : Nat) : Field := ⟨TH_SENSOR2 a, 16, 16⟩
/-- TH_SENSOR3: R330. -/
def TH_SENSOR3 (a : Nat) : Nat := 0x70103 + a * 4
def TH_SENSOR3_type (a : Nat) : Field := ⟨TH_SENSOR3 a, 0, 1⟩
def TH_SENSOR3_beta_k (a : Nat) : Field := ⟨TH_SENSOR3 a, 1, 13⟩
def TH_SENSOR3_ohm25 (a : Nat) : Field := ⟨TH_SENSOR3 a, 14, 18⟩
/-- CL_STATUS: R344. -/
def CL_STATUS : Nat := 0xa0000
def CL_STATUS_wear_pm : Field := ⟨CL_STATUS, 0, 10⟩
def CL_STATUS_records_lost : Field := ⟨CL_STATUS, 10, 16⟩
def CL_STATUS_set_open : Field := ⟨CL_STATUS, 26, 1⟩
/-- CL_AUTO: R344. -/
def CL_AUTO : Nat := 0xa0001
def CL_AUTO_edge_track : Field := ⟨CL_AUTO, 0, 1⟩
def CL_AUTO_track_c : Field := ⟨CL_AUTO, 1, 5⟩
def CL_AUTO_clear_counts : Field := ⟨CL_AUTO, 6, 1⟩
/-- CL_INST: R344. -/
def CL_INST (a b : Nat) : Nat := 0xa0100 + a * 0x40 + b * 1
def CL_INST_state (a b : Nat) : Field := ⟨CL_INST a b, 0, 2⟩
def CL_INST_stale (a b : Nat) : Field := ⟨CL_INST a b, 2, 1⟩
def CL_INST_attempts (a b : Nat) : Field := ⟨CL_INST a b, 3, 2⟩
def CL_INST_last_code (a b : Nat) : Field := ⟨CL_INST a b, 16, 16⟩
/-- FW_STAGE0: R376. -/
def FW_STAGE0 : Nat := 0x300
def FW_STAGE0_stage_lo : Field := ⟨FW_STAGE0, 0, 32⟩
/-- FW_STAGE1: R376. -/
def FW_STAGE1 : Nat := 0x301
def FW_STAGE1_stage_hi : Field := ⟨FW_STAGE1, 0, 8⟩
/-- FW_STATE: R376. -/
def FW_STATE : Nat := 0x302
def FW_STATE_phase : Field := ⟨FW_STATE, 0, 4⟩
def FW_STATE_pending : Field := ⟨FW_STATE, 4, 8⟩
def FW_STATE_applied : Field := ⟨FW_STATE, 12, 8⟩
/-- FW_ACCEPT: R376. -/
def FW_ACCEPT : Nat := 0x303
def FW_ACCEPT_accept_us : Field := ⟨FW_ACCEPT, 0, 16⟩
def FW_ACCEPT_rollbacks : Field := ⟨FW_ACCEPT, 16, 16⟩
/-- FW_VERSION: R376. -/
def FW_VERSION : Nat := 0x304
def FW_VERSION_staged_version : Field := ⟨FW_VERSION, 0, 32⟩
/-- GL_CTRL: R392. -/
def GL_CTRL : Nat := 0xa1000
def GL_CTRL_bg_mask : Field := ⟨GL_CTRL, 1, 7⟩
def GL_CTRL_clear_counts : Field := ⟨GL_CTRL, 8, 1⟩
/-- GL_RATE: R392. -/
def GL_RATE : Nat := 0xa1001
def GL_RATE_patrol_mbps : Field := ⟨GL_RATE, 0, 16⟩
/-- GL_LIMITS: R392. -/
def GL_LIMITS : Nat := 0xa1002
def GL_LIMITS_eye_min_w : Field := ⟨GL_LIMITS, 0, 8⟩
def GL_LIMITS_eye_min_h : Field := ⟨GL_LIMITS, 8, 12⟩
def GL_LIMITS_edge_tol : Field := ⟨GL_LIMITS, 20, 8⟩
/-- GL_TASK0: R392. -/
def GL_TASK0 (a : Nat) : Nat := 0xa1010 + a * 2
def GL_TASK0_state (a : Nat) : Field := ⟨GL_TASK0 a, 0, 2⟩
def GL_TASK0_progress_pm (a : Nat) : Field := ⟨GL_TASK0 a, 2, 10⟩
def GL_TASK0_passes (a : Nat) : Field := ⟨GL_TASK0 a, 16, 16⟩
/-- GL_TASK1: R392. -/
def GL_TASK1 (a : Nat) : Nat := 0xa1011 + a * 2
def GL_TASK1_failures (a : Nat) : Field := ⟨GL_TASK1 a, 0, 16⟩
def GL_TASK1_skipped (a : Nat) : Field := ⟨GL_TASK1 a, 16, 16⟩
/-- LS_LEVEL0: R159. -/
def LS_LEVEL0 (a : Nat) : Nat := 0x30420 + a * 0x40

end Sys2Proof.Machine
end

