-- ==== Sys2Proof/Machine/Tab.lean ====
section
/-!
DEFINITION. Reading and writing a sparse table. A number that the table does not list stands for the value of the
default function `d`. A write keeps the table in rising order and removes an entry that equals its default.
-/

namespace Sys2Proof.Machine

/-- The value at number `k`. -/
def tabGet {α : Type} (d : Nat → α) : Tab α → Nat → α
  | [], k => d k
  | (j, v) :: t, k => if k = j then v else tabGet d t k

/-- Puts the pair in its place in rising order. -/
def tabInsert {α : Type} (k : Nat) (v : α) : Tab α → Tab α
  | [] => [(k, v)]
  | (j, w) :: t => if k < j then (k, v) :: (j, w) :: t else (j, w) :: tabInsert k v t

/-- Takes every entry of number `k` out. -/
def tabErase {α : Type} (k : Nat) : Tab α → Tab α
  | [] => []
  | (j, w) :: t => if j = k then tabErase k t else (j, w) :: tabErase k t

/-- Writes `v` at number `k`. -/
def tabSet {α : Type} [DecidableEq α] (d : Nat → α) (t : Tab α) (k : Nat) (v : α) : Tab α :=
  if v = d k then tabErase k t else tabInsert k v (tabErase k t)

/-- Writes a list of values at the numbers from `lo` on. -/
def tabPut {α : Type} [DecidableEq α] (d : Nat → α) (t : Tab α) (lo : Nat) (l : List α) : Tab α :=
  t.filter (fun e => decide (e.1 < lo)) ++
    (l.zipIdx lo).filterMap (fun e => if e.1 = d e.2 then none else some (e.2, e.1)) ++
    t.filter (fun e => decide (lo + l.length ≤ e.1))

/-- Every number of the table lies above `n`, and the numbers rise. -/
def tabAbove {α : Type} : Nat → Tab α → Bool
  | _, [] => true
  | n, (j, _) :: t => decide (n < j) && tabAbove j t

/-- The numbers of the table rise. -/
def tabSorted {α : Type} : Tab α → Bool
  | [] => true
  | (j, _) :: t => tabAbove j t

/-- No entry equals its default. -/
def tabTight {α : Type} [DecidableEq α] (d : Nat → α) : Tab α → Bool
  | [] => true
  | (j, v) :: t => decide (v ≠ d j) && tabTight d t

/-- The canonical form of a table. -/
def tabWf {α : Type} [DecidableEq α] (d : Nat → α) (t : Tab α) : Bool := tabSorted t && tabTight d t

end Sys2Proof.Machine
end

