-- ==== Sys2Proof/Machine/Units.lean ====
section
/-!
DEFINITION. Reading and writing what the machine holds for one unit: `s.<unit> n` reads, `s.set<Unit> n v` writes,
`s.mod<Unit> n f` changes.
-/

namespace Sys2Proof.Machine

/-- What is held for Ramvos port `n`: 0 and 1 ingest, 2 to 5 heads 0 to 3. -/
def State.port (s : State) (n : Nat) : Port := tabGet (fun _ => Port.reset) s.ports n
def State.setPort (s : State) (n : Nat) (v : Port) : State :=
  { s with ports := tabSet (fun _ => Port.reset) s.ports n v }
def State.modPort (s : State) (n : Nat) (g : Port → Port) : State := s.setPort n (g (s.port n))

/-- What is held for band `n % 32` of head `n / 32`. -/
def State.bandOf (s : State) (n : Nat) : Band := tabGet (fun _ => Band.reset) s.bands n
def State.setBandOf (s : State) (n : Nat) (v : Band) : State :=
  { s with bands := tabSet (fun _ => Band.reset) s.bands n v }
def State.modBandOf (s : State) (n : Nat) (g : Band → Band) : State := s.setBandOf n (g (s.bandOf n))

/-- What is held for head `n`. -/
def State.headOf (s : State) (n : Nat) : Head := tabGet (fun _ => Head.reset) s.heads n
def State.setHeadOf (s : State) (n : Nat) (v : Head) : State :=
  { s with heads := tabSet (fun _ => Head.reset) s.heads n v }
def State.modHeadOf (s : State) (n : Nat) (g : Head → Head) : State := s.setHeadOf n (g (s.headOf n))

/-- What is held for group `n`. -/
def State.group (s : State) (n : Nat) : Group := tabGet (fun _ => Group.reset) s.groups n
def State.setGroup (s : State) (n : Nat) (v : Group) : State :=
  { s with groups := tabSet (fun _ => Group.reset) s.groups n v }
def State.modGroup (s : State) (n : Nat) (g : Group → Group) : State := s.setGroup n (g (s.group n))

/-- What is held for the line mode of head `n`. -/
def State.line (s : State) (n : Nat) : Line := tabGet (fun _ => Line.reset) s.lines n
def State.setLine (s : State) (n : Nat) (v : Line) : State :=
  { s with lines := tabSet (fun _ => Line.reset) s.lines n v }
def State.modLine (s : State) (n : Nat) (g : Line → Line) : State := s.setLine n (g (s.line n))

/-- What is held for string `n`. -/
def State.str (s : State) (n : Nat) : Str := tabGet (fun _ => Str.reset) s.strings n
def State.setStr (s : State) (n : Nat) (v : Str) : State :=
  { s with strings := tabSet (fun _ => Str.reset) s.strings n v }
def State.modStr (s : State) (n : Nat) (g : Str → Str) : State := s.setStr n (g (s.str n))

/-- What is held for bank `n`. -/
def State.bank (s : State) (n : Nat) : Bank := tabGet (fun _ => Bank.reset) s.banks n
def State.setBank (s : State) (n : Nat) (v : Bank) : State :=
  { s with banks := tabSet (fun _ => Bank.reset) s.banks n v }
def State.modBank (s : State) (n : Nat) (g : Bank → Bank) : State := s.setBank n (g (s.bank n))

/-- What is held for the driver of address `n % 128` on port `n / 128`. -/
def State.driver (s : State) (n : Nat) : Driver := tabGet (fun _ => Driver.reset) s.drivers n
def State.setDriver (s : State) (n : Nat) (v : Driver) : State :=
  { s with drivers := tabSet (fun _ => Driver.reset) s.drivers n v }
def State.modDriver (s : State) (n : Nat) (g : Driver → Driver) : State := s.setDriver n (g (s.driver n))

/-- What is held for driver-bus port `n`. -/
def State.dbPort (s : State) (n : Nat) : DbPort := tabGet (fun _ => DbPort.reset) s.dbPorts n
def State.setDbPort (s : State) (n : Nat) (v : DbPort) : State :=
  { s with dbPorts := tabSet (fun _ => DbPort.reset) s.dbPorts n v }
def State.modDbPort (s : State) (n : Nat) (g : DbPort → DbPort) : State := s.setDbPort n (g (s.dbPort n))

/-- What is held for matrix `n`. -/
def State.matrix (s : State) (n : Nat) : Matrix := tabGet (fun _ => Matrix.reset) s.matrices n
def State.setMatrix (s : State) (n : Nat) (v : Matrix) : State :=
  { s with matrices := tabSet (fun _ => Matrix.reset) s.matrices n v }
def State.modMatrix (s : State) (n : Nat) (g : Matrix → Matrix) : State := s.setMatrix n (g (s.matrix n))

/-- What is held for the colour constancy of group `n`. -/
def State.ccGroup (s : State) (n : Nat) : CcGroup := tabGet (fun _ => CcGroup.reset) s.ccGroups n
def State.setCcGroup (s : State) (n : Nat) (v : CcGroup) : State :=
  { s with ccGroups := tabSet (fun _ => CcGroup.reset) s.ccGroups n v }
def State.modCcGroup (s : State) (n : Nat) (g : CcGroup → CcGroup) : State := s.setCcGroup n (g (s.ccGroup n))

/-- What is held for loop `n`. -/
def State.loop (s : State) (n : Nat) : Loop := tabGet (fun _ => Loop.reset) s.loops n
def State.setLoop (s : State) (n : Nat) (v : Loop) : State :=
  { s with loops := tabSet (fun _ => Loop.reset) s.loops n v }
def State.modLoop (s : State) (n : Nat) (g : Loop → Loop) : State := s.setLoop n (g (s.loop n))

/-- What is held for PWM output `n`. -/
def State.pwm (s : State) (n : Nat) : Pwm := tabGet (fun _ => Pwm.reset) s.pwms n
def State.setPwm (s : State) (n : Nat) (v : Pwm) : State :=
  { s with pwms := tabSet (fun _ => Pwm.reset) s.pwms n v }
def State.modPwm (s : State) (n : Nat) (g : Pwm → Pwm) : State := s.setPwm n (g (s.pwm n))

/-- What is held for profile generator `n`. -/
def State.gen (s : State) (n : Nat) : Gen := tabGet (fun _ => Gen.reset) s.gens n
def State.setGen (s : State) (n : Nat) (v : Gen) : State :=
  { s with gens := tabSet (fun _ => Gen.reset) s.gens n v }
def State.modGen (s : State) (n : Nat) (g : Gen → Gen) : State := s.setGen n (g (s.gen n))

/-- What is held for injector `n`. -/
def State.inj (s : State) (n : Nat) : Inj := tabGet (fun _ => Inj.reset) s.injs n
def State.setInj (s : State) (n : Nat) (v : Inj) : State :=
  { s with injs := tabSet (fun _ => Inj.reset) s.injs n v }
def State.modInj (s : State) (n : Nat) (g : Inj → Inj) : State := s.setInj n (g (s.inj n))

/-- What is held for subchannel `n % 2` of channel `n / 2`. -/
def State.sub (s : State) (n : Nat) : SubCh := tabGet (fun _ => SubCh.reset) s.subs n
def State.setSub (s : State) (n : Nat) (v : SubCh) : State :=
  { s with subs := tabSet (fun _ => SubCh.reset) s.subs n v }
def State.modSub (s : State) (n : Nat) (g : SubCh → SubCh) : State := s.setSub n (g (s.sub n))

/-- What is held for Granary channel `n`. -/
def State.chan (s : State) (n : Nat) : Chan := tabGet (fun _ => Chan.reset) s.chans n
def State.setChan (s : State) (n : Nat) (v : Chan) : State :=
  { s with chans := tabSet (fun _ => Chan.reset) s.chans n v }
def State.modChan (s : State) (n : Nat) (g : Chan → Chan) : State := s.setChan n (g (s.chan n))

/-- What is held for temperature sensor `n`. -/
def State.sensor (s : State) (n : Nat) : Sensor := tabGet (fun _ => Sensor.reset) s.sensors n
def State.setSensor (s : State) (n : Nat) (v : Sensor) : State :=
  { s with sensors := tabSet (fun _ => Sensor.reset) s.sensors n v }
def State.modSensor (s : State) (n : Nat) (g : Sensor → Sensor) : State := s.setSensor n (g (s.sensor n))

/-- What is held for Gleaner task `n`. -/
def State.task (s : State) (n : Nat) : GlTask := tabGet (fun _ => GlTask.reset) s.gleaner n
def State.setTask (s : State) (n : Nat) (v : GlTask) : State :=
  { s with gleaner := tabSet (fun _ => GlTask.reset) s.gleaner n v }
def State.modTask (s : State) (n : Nat) (g : GlTask → GlTask) : State := s.setTask n (g (s.task n))

/-- What is held for mailbox `n`. -/
def State.mbox (s : State) (n : Nat) : Mailbox := tabGet (fun _ => Mailbox.reset) s.mb n
def State.setMbox (s : State) (n : Nat) (v : Mailbox) : State :=
  { s with mb := tabSet (fun _ => Mailbox.reset) s.mb n v }
def State.modMbox (s : State) (n : Nat) (g : Mailbox → Mailbox) : State := s.setMbox n (g (s.mbox n))

/-- What is held for sheaf handle `n`. -/
def State.sheaf (s : State) (n : Nat) : Sheaf := tabGet (fun _ => Sheaf.reset) s.sheaves n
def State.setSheaf (s : State) (n : Nat) (v : Sheaf) : State :=
  { s with sheaves := tabSet (fun _ => Sheaf.reset) s.sheaves n v }
def State.modSheaf (s : State) (n : Nat) (g : Sheaf → Sheaf) : State := s.setSheaf n (g (s.sheaf n))

/-- What is held for flip queue `n`. -/
def State.fqueue (s : State) (n : Nat) : FlipQueue := tabGet (fun _ => FlipQueue.reset) s.fq n
def State.setFqueue (s : State) (n : Nat) (v : FlipQueue) : State :=
  { s with fq := tabSet (fun _ => FlipQueue.reset) s.fq n v }
def State.modFqueue (s : State) (n : Nat) (g : FlipQueue → FlipQueue) : State := s.setFqueue n (g (s.fqueue n))

/-- What is held for the ring of layer `n % 4` of group `n / 4`. -/
def State.ring (s : State) (n : Nat) : List SrcFrame := tabGet (fun _ => []) s.rings n
def State.setRing (s : State) (n : Nat) (v : List SrcFrame) : State :=
  { s with rings := tabSet (fun _ => []) s.rings n v }
def State.modRing (s : State) (n : Nat) (g : List SrcFrame → List SrcFrame) : State := s.setRing n (g (s.ring n))

/-- What is held for stream `n % 4` of ingest port `n / 4`. -/
def State.stream (s : State) (n : Nat) : Stream := tabGet (fun _ => Stream.reset) s.streams n
def State.setStream (s : State) (n : Nat) (v : Stream) : State :=
  { s with streams := tabSet (fun _ => Stream.reset) s.streams n v }
def State.modStream (s : State) (n : Nat) (g : Stream → Stream) : State := s.setStream n (g (s.stream n))

/-- What is held for root-cellar slot `n % 2` of record `n / 2`. -/
def State.slotOf (s : State) (n : Nat) : CellarSlot := tabGet (fun _ => CellarSlot.reset) s.cellar n
def State.setSlotOf (s : State) (n : Nat) (v : CellarSlot) : State :=
  { s with cellar := tabSet (fun _ => CellarSlot.reset) s.cellar n v }
def State.modSlotOf (s : State) (n : Nat) (g : CellarSlot → CellarSlot) : State := s.setSlotOf n (g (s.slotOf n))

end Sys2Proof.Machine
end

