-- ==== Sys2Proof/Machine/Ops.lean ====
section
/-!
DEFINITION. The named operations over the machine: state words and fields, counters, events and their routing (this
block's counterpart of taking an exception: a condition sets latches and drives messages and pins), the Granary, and
what leaves the device.
-/

namespace Sys2Proof.Machine

/-! ## State words -/

/-- The numbers of a repetition: where offset `d` lies among repetitions of the given counts and spacings. -/
def locateDims : List (Nat × Nat) → Nat → Option (List Nat)
  | [], d => if d = 0 then some [] else none
  | (n, st) :: t, d => if d / st < n then (locateDims t (d % st)).map (d / st :: ·) else none

/-- The row of the field map for an index, and the numbers of the repetition (R9). -/
def locateRow : List WordRow → Nat → Option (WordRow × List Nat)
  | [], _ => none
  | r :: t, k =>
    match (if r.base ≤ k then locateDims r.dims (k - r.base) else none) with
    | some ns => some (r, ns)
    | none => locateRow t k

def locate (k : Nat) : Option (WordRow × List Nat) := locateRow (rowsNear k) k

/-- The sum of the fields' reset values at their places. -/
def fieldsReset (l : List FieldRow) : Nat := (l.map (fun f => f.reset * 2 ^ f.lo)).sum

/-- The reset neighbours of the on-die sensors; 63 = none (table of R319). -/
def nbReset (s : Nat) : Nat × Nat × Nat × Nat :=
  if s < 16 then (63, 63, 63, 63)
  else if s < 20 then (28 + (s - 16), 20 + 2 * (s - 16), 21 + 2 * (s - 16), 35)
  else if s < 28 then (20 + ((s - 20) ^^^ 1), 16 + (s - 20) / 2, 28 + (s - 20) / 2, 63)
  else if s < 32 then (35, 32 + (s - 28) / 2, 16 + (s - 28), 28 + ((s - 28) ^^^ 1))
  else if s < 34 then (32 + ((s - 32) ^^^ 1), 35, 28 + 2 * (s - 32), 29 + 2 * (s - 32))
  else if s = 34 then (35, 28, 29, 63)
  else (28, 29, 30, 31)

/-- The reset word where it depends on the number of the unit. -/
def unitReset (r : WordRow) (ns : List Nat) : Nat :=
  match r.name, ns with
  | "LS_STRING0", [n] => n * 2 ^ 18
  | "LS_BANK7", [b] => b + 16
  | "CP_MATRIX", [_, i] => if i % 4 = 0 then 0x100000 else 0
  | "CC_TRIAD_MAT", [_, i] => if i % 4 = 0 then 0x100000 else 0
  | "CP_HEAD_KERNEL", [_, n] => if n ≤ 1 then 0x80008000 else 0
  | "TS_COMP", [_, c] => 16 * c + (if c = 0 then 16 else 8) * 2 ^ 6
  | "CP_LUT", [_, _, i] => min 0x3FFFFF (i * 256)
  | "LM_CODE", [_, _, i] => min 16383 (64 * i)
  | "TH_SENSOR0", [n] =>
    let (a, b, c, d) := nbReset n
    a + b * 2 ^ 6 + c * 2 ^ 12 + d * 2 ^ 18 + (if n < 16 then 0 else 2 ^ 24) + 2 ^ 26
  | "TH_SENSOR2", [n] => if n < 16 then 0 else 2 ^ 12
  | "TH_SENSOR3", [n] => if n < 16 then fieldsReset r.fields else 0
  | _, _ => fieldsReset r.fields

/-- Keys at and above this one hold the two banks of a table behind a window: `winBase + bank * winBank + index`. -/
def winBase : Nat := 0x2000000
def winBank : Nat := 0x1000000

/-- The value of a state word at reset. -/
def resetWord (k : Nat) : Word :=
  match locate (k % winBank) with
  | some (r, ns) => BitVec.ofNat 32 (unitReset r ns)
  | none => 0

/-- A state word. -/
def State.word (s : State) (k : Nat) : Word := tabGet resetWord s.regs k

/-- A state word written. -/
def State.setWord (s : State) (k : Nat) (v : Word) : State := { s with regs := tabSet resetWord s.regs k v }

/-- A field. -/
def State.fld (s : State) (f : Field) : Nat := getBits (s.word f.key) f.lo f.width

/-- A field as a two's complement number. -/
def State.sfld (s : State) (f : Field) : Int := signed f.width (s.fld f)

/-- A one-bit field. -/
def State.flag (s : State) (f : Field) : Bool := s.fld f == 1

/-- A field written; the value is taken modulo the field's width. -/
def State.setFld (s : State) (f : Field) (v : Nat) : State := s.setWord f.key (putBits (s.word f.key) f.lo f.width v)

/-- A one-bit field written. -/
def State.setFlag (s : State) (f : Field) (b : Bool) : State := s.setFld f b.toNat

/-- A field written with a number, in two's complement. -/
def State.setInt (s : State) (f : Field) (i : Int) : State := s.setFld f (unsigned f.width i)

/-- A counter advanced by `n`, saturating at all ones (R52 and the counters of the other chapters). -/
def State.count (s : State) (f : Field) (n : Nat) : State := s.setFld f (min (2 ^ f.width - 1) (s.fld f + n))

/-- A counter advanced by `n`, wrapping. -/
def State.countWrap (s : State) (f : Field) (n : Nat) : State := s.setFld f (s.fld f + n)

/-- A condition, and the state it holds for. -/
def State.doIf (s : State) (c : Bool) (g : State → State) : State := if c then g s else s

/-- `g` done for each member of a list, in order. -/
def State.doAll {α : Type} (s : State) (l : List α) (g : State → α → State) : State := l.foldl g s

/-! ## What leaves the device, and free values -/

def State.emit (s : State) (o : Out) : State := { s with out := o :: s.out }

/-- The next free value, and the counter moved on. -/
def State.draw (s : State) : Nat × State := (Config.freeValue s.free, { s with free := s.free + 1 })

/-! ## Heads and groups (R1, R11 to R14) -/

/-- The number of heads of the part. -/
def State.nHeads (s : State) : Nat := if s.fuses.pn9440 then 4 else 2

/-- The heads of the part. -/
def State.heads' (s : State) : List Nat := List.range s.nHeads

def topoGroup (h : Nat) : Field := ⟨HD_TOPOLOGY, 4 * h, 3⟩
def topoMode (h : Nat) : Field := ⟨HD_TOPOLOGY, 4 * h + 3, 1⟩

/-- The group of a head; 7 = none. -/
def State.groupOf (s : State) (h : Nat) : Nat := s.fld (topoGroup h)

/-- Whether a head is in line mode. -/
def State.lineMode (s : State) (h : Nat) : Bool := s.flag (topoMode h)

/-- The heads of a group. -/
def State.headsOf (s : State) (g : Nat) : List Nat := s.heads'.filter (fun h => s.groupOf h == g)

/-- Whether a head is enabled (R12). -/
def State.headOn (s : State) (h : Nat) : Bool := s.flag (HD_RVH_CTRL_enable h)

/-- Whether a group's raster is enabled. -/
def State.rasterOn (s : State) (g : Nat) : Bool := decide (g < 4) && s.flag (HD_RASTER0_enable g)

/-- Whether a group is in line mode. -/
def State.groupLine (s : State) (g : Nat) : Bool := (s.headsOf g).any s.lineMode

/-- Whether the firmware runs. -/
def State.running (s : State) : Bool := s.boot.phase == RUNNING

/-! ## Events (R309 to R315) -/

/-- The mask of one source. -/
def evBit (i : Nat) : BitVec 256 := 1#256 <<< i

def State.latched (s : State) (i : Nat) : Bool := s.ev.latch.getLsbD i
def State.evEnabled (s : State) (i : Nat) : Bool := s.ev.enable.getLsbD i
def State.route (s : State) (i : Nat) : Word := tabGet routeReset s.ev.route i
def State.evData (s : State) (i : Nat) : Word := tabGet (fun _ => 0) s.ev.data i

/-- A source is asserted while both its latch and its enable are 1 (R312). -/
def State.asserted (s : State) (i : Nat) : Bool := s.latched i && s.evEnabled i

def routeVector (w : Word) : Nat := getBits w 0 5
def routeIrq (w : Word) : Bool := w.getLsbD 5
def routeFault (w : Word) : Bool := w.getLsbD 6
def routeMsix (w : Word) : Bool := w.getLsbD 7

/-- Whether a source is a member of a vector's set (R313). -/
def State.inSet (s : State) (vec i : Nat) : Bool :=
  s.asserted i && routeMsix (s.route i) && routeVector (s.route i) == vec

/-- Whether a vector's set has a member. -/
def State.setNonEmpty (s : State) (vec : Nat) : Bool := eventSources.any (fun e => s.inSet vec e.1)

/-- Whether MSI-X messages can be sent on a vector now (R313). -/
def State.msixReady (s : State) (vec : Nat) : Bool :=
  s.pcie.msixEnable && !s.pcie.masked.getLsbD vec && s.pcie.memDecode && s.pcie.busMaster && !s.pcie.d3hot

/-- A message sent on a vector, or its pending bit set (R313). -/
def State.message (s : State) (vec : Nat) : State :=
  if s.msixReady vec then s.emit (.msix vec)
  else { s with pcie := { s.pcie with pending := s.pcie.pending ||| (1#32 <<< vec) } }

/-- Messages on the vectors whose set goes from empty in `old` to non-empty in `s` (R313). -/
def State.messagesFrom (old s : State) : State :=
  s.doAll (List.range 32) (fun t vec => t.doIf (!old.setNonEmpty vec && s.setNonEmpty vec) (·.message vec))

/-- The latch of a source set and its data word written, with `again` (R310). -/
def State.setLatch (s : State) (i d : Nat) : State :=
  let again := if s.latched i then 2 ^ 31 else 0
  { s with ev := { s.ev with
    latch := s.ev.latch ||| evBit i
    data := tabSet (fun _ => 0) s.ev.data i (BitVec.ofNat 32 (d % 2 ^ 31 + again)) } }

/-- A raise with the whole of data[30:0] (R310), and the message of a set that it makes non-empty (R313). -/
def State.raiseData (s : State) (i d : Nat) : State :=
  let vec := routeVector (s.route i)
  if !isSource i then s
  else if !s.setNonEmpty vec && (s.setLatch i d).inSet vec i then (s.setLatch i d).message vec
  else s.setLatch i d

/-- A raise with an instance and a second item, of which data has room for 15 bits: a wider one, as a fault code of R43, loses its top
bits (DESIGN CHOICE, log 154). -/
def State.raise2 (s : State) (i a b : Nat) : State := s.raiseData i (a % 2 ^ 16 + b % 2 ^ 15 * 2 ^ 16)

/-- A raise with an instance. -/
def State.raise (s : State) (i a : Nat) : State := s.raise2 i a 0

/-- A raise at most once for a unit until its mark is cleared (at the unit's frame boundary). -/
def State.raiseOnce (s : State) (i unit a b : Nat) : State :=
  if tabGet (fun _ => false) s.once (i * 0x10000 + unit) then s
  else { (s.raise2 i a b) with once := tabSet (fun _ => false) s.once (i * 0x10000 + unit) true }

/-- The mark of `raiseOnce` cleared. -/
def State.clearOnce (s : State) (i unit : Nat) : State :=
  { s with once := tabSet (fun _ => false) s.once (i * 0x10000 + unit) false }

/-- The status of a source: the condition of a C source, for any instance (R309). -/
def State.evStatus (s : State) (i : Nat) : Bool :=
  if i = AVS_LIMIT then s.flag TH_AVS_STATUS_at_vmax
  else if i = RV_PARITY_ACTIVE then (List.range 2).any (fun p => s.flag (HD_INGEST_STATUS_parity_in_use p))
  else if i = LM_LOCK_EV then s.heads'.any (fun h => s.flag (LM_STATUS_locked h))
  else if i = LS_BANK_OFF then (List.range 8).any (fun b => s.flag (LS_BANK12_tripped b))
  else if i = LS_HR_LIMIT then (List.range 8).any (fun b => s.flag (LS_BANK12_at_vbus_max b))
  else if i = ZN_SELF_SCAN then (List.range 4).any (fun z => s.flag (ZN_MAT6_in_self_scan z))
  else if i = CC_LIMITED then (List.range 4).any (fun g => s.fld (CC_GROUP4_state g) == 3)
  else if i = CE_LOOP_FAULT then (List.range 64).any (fun l => s.fld (CE_LOOP30_state l) == 3)
  else if i = GR_MR4_HOT then (List.range 8).any (fun c => s.flag (GR_CHAN1_trefi_half c))
  else if i = TH_THROTTLE then decide (s.fld TH_GLOBAL3_budget_pm < 1000)
  else if i = TH_ALARM then (List.range 36).any (fun n => (s.sensor n).alarm)
  else false

/-- Whether a write of `v` to the latches of group `g` clears source `i`: a C source whose status is 1 stays (R311). -/
def State.clears (s : State) (g : Nat) (v : Word) (i : Nat) : Bool :=
  decide (i / 32 = g) && v.getLsbD (i % 32) && s.latched i && !s.evStatus i

/-- The latches of a group cleared by a write of 1s (R311), with the messages that follow (R313). -/
def State.clearLatches (s : State) (g : Nat) (v : Word) : State :=
  let gone := eventSources.foldl (fun (m : BitVec 256) e => if s.clears g v e.1 then m ||| evBit e.1 else m) 0
  let t := { s with ev := { s.ev with latch := s.ev.latch &&& ~~~gone } }
  t.doAll (List.range 32) (fun u vec =>
    u.doIf (eventSources.any (fun e => s.clears g v e.1 && s.inSet vec e.1) && t.setNonEmpty vec) (·.message vec))

/-- The enables of a group written; bits that are no source ignore writes (R316). -/
def State.writeEnables (s : State) (g : Nat) (v : Word) : State :=
  let on := eventSources.foldl (fun (m : BitVec 256) e => if e.1 / 32 = g then
      (if v.getLsbD (e.1 % 32) then m ||| evBit e.1 else m &&& ~~~(evBit e.1)) else m) s.ev.enable
  State.messagesFrom s { s with ev := { s.ev with enable := on } }

/-- A route word written: vector, irq, fault and msix are RW (R315). -/
def State.writeRoute (s : State) (i : Nat) (v : Word) : State :=
  if isSource i then
    let t := { s with ev := { s.ev with
      route := tabSet routeReset s.ev.route i (maskWord (s.route i) 0xFF v) } }
    State.messagesFrom s t
  else s

/-- IRQ_N low by routing. -/
def State.irqLow (s : State) : Bool := eventSources.any (fun e => s.asserted e.1 && routeIrq (s.route e.1))

/-- FAULT_N low by routing. -/
def State.faultRouted (s : State) : Bool := eventSources.any (fun e => s.asserted e.1 && routeFault (s.route e.1))

/-- FAULT_N low: by routing, while POR_N or RST_N is low, and throughout fallow mode (R312). -/
def State.faultLow (s : State) : Bool :=
  s.faultRouted || s.boot.porLow || s.boot.rstLow || s.boot.phase == FALLOW

/-- EV_SUMMARY (R315). -/
def State.evSummary (s : State) : Word :=
  let on := eventSources.filter (fun e => s.asserted e.1)
  let groups := (List.range 8).map (fun g => if on.any (fun e => e.1 / 32 == g) then 2 ^ g else 0)
  let top := on.foldl (fun m e => max m e.2) 0
  let idx := (on.find? (fun e => e.2 == top)).map (·.1)
  BitVec.ofNat 32 (groups.sum + s.irqLow.toNat * 2 ^ 8 + s.faultRouted.toNat * 2 ^ 9 + top * 2 ^ 10 +
    (idx.getD 0) * 2 ^ 12 + (!on.isEmpty).toNat * 2 ^ 20)

/-! ## The Granary's bytes (R240, R245) -/

/-- What a byte that nothing has written reads as. The spec gives no contents after power-on: DESIGN CHOICE, log 6;
unsafe. -/
def memDefault (_ : Nat) : Byte := 0

/-- The canonical form of a memory: addresses strictly rising, and no entry equal to what an unlisted address reads as. -/
def Memory.wf (d : Nat → Byte) (m : Tab Byte) : Bool := tabWf d m

/-- The capacity in bytes (R241, R242). -/
def State.capacity (s : State) : Nat := s.fld GR_CAPACITY_capacity_gib * 2 ^ 30

/-- A byte as a device reads it: above the capacity reads are zero and writes are discarded (R242). -/
def State.byte (s : State) (a : Nat) : Byte := if a < s.capacity then tabGet memDefault s.mem a else 0
def State.setByte (s : State) (a : Nat) (b : Byte) : State :=
  if a < s.capacity then
    { s with mem := tabSet memDefault s.mem a b, patrol := s.patrol.filter (fun l => l != a / 64) }
  else s
def State.bytes (s : State) (a n : Nat) : List Byte := (List.range n).map (fun i => s.byte (a + i))

/-- Bytes written from address `a` on; those above the capacity are discarded. -/
def State.setBytes (s : State) (a : Nat) (l : List Byte) : State :=
  let w := l.take (s.capacity - a)
  if w.isEmpty then s
  else { s with mem := tabPut memDefault s.mem a w
                patrol := s.patrol.filter (fun n => !(decide (a / 64 ≤ n) && decide (n ≤ (a + w.length - 1) / 64))) }

/-- The word at an address, least significant byte first. -/
def State.memWord (s : State) (a : Nat) : Nat := leNat (s.bytes a 4)

/-- Whether a 64-byte line is poisoned. -/
def State.isPoisoned (s : State) (line : Nat) : Bool := s.poisoned.contains line

/-- Whether any line of a range is poisoned. -/
def State.rangePoisoned (s : State) (a n : Nat) : Bool :=
  s.poisoned.any (fun l => decide (0 < n) && decide (a / 64 ≤ l) && decide (l ≤ (a + n - 1) / 64))

/-- The first poisoned line of a range, as an address. -/
def State.firstPoison (s : State) (a n : Nat) : Option Nat :=
  if n = 0 then none
  else (s.poisoned.filter (fun l => decide (a / 64 ≤ l) && decide (l ≤ (a + n - 1) / 64))).min?.map (· * 64)

/-- A line's poison mark set, once. -/
def State.poison (s : State) (line : Nat) : State :=
  if s.isPoisoned line then s else { s with poisoned := line :: s.poisoned }

/-- A line's poison mark cleared. -/
def State.unpoison (s : State) (line : Nat) : State := { s with poisoned := s.poisoned.filter (· != line) }

/-! ## Host interfaces -/

/-- Whether accesses of an interface reach the device: the SPI target whenever no reset holds the device; PCIe while the
link is up, outside fallow mode, with memory decoding on (R289, R290, R296, R353). -/
def State.hostUp (s : State) (i : Iface) : Bool :=
  !s.boot.porLow && !s.boot.rstLow &&
  match i with
  | .spi => true
  | .pcie => s.boot.phase != FALLOW && !s.pcie.perstLow && s.pcie.gen != 0 && s.pcie.memDecode && !s.pcie.d3hot

/-- What a host access does: nothing where it does not reach the device. -/
def State.host (s : State) (i : Iface) (g : State → State) : Result := if s.hostUp i then .next (g s) else .next s

/-! ## Mailbox heads -/

/-- The end of the work of the command that is head of mailbox `m`: a status and results, which
MAILBOX_COMMAND_COMPLETE writes to the reply (R302). -/
def State.setOutcome (s : State) (m code : Nat) (results : List Word) : State :=
  s.modMbox m (fun b =>
    match b.cmds with
    | c :: t => { b with cmds := { c with outcome := some (code, results), progress := if code < 0x100 then 1000 else c.progress } :: t }
    | [] => b)

/-- The status code of an outcome, with one result word or none. -/
def State.outcome0 (s : State) (m code : Nat) : State := s.setOutcome m code []

/-! ## The boot flash -/

/-- What a byte of flash that nothing has written reads as: the erased value. DESIGN CHOICE, log 6; unsafe. -/
def flashDefault (_ : Nat) : Byte := 0xFF

def State.flashByte (s : State) (a : Nat) : Byte := tabGet flashDefault s.flash a
def State.flashBytes (s : State) (a n : Nat) : List Byte := (List.range n).map (fun i => s.flashByte (a + i))
def State.setFlash (s : State) (a : Nat) (l : List Byte) : State :=
  { s with flash := (l.zipIdx).foldl (fun t p => tabSet flashDefault t (a + p.2) p.1) s.flash }

end Sys2Proof.Machine
end

