-- ==== Sys2Proof/Machine/Avs.lean ====
section
/-!
DEFINITION. The speed-margin governor (R19 to R22).
-/

namespace Sys2Proof.Machine

/-- A request on AVSBus (R19). -/
def State.avsRequest (s : State) (mv : Nat) : State := (s.setFld TH_AVS_STATUS_vcore_mv mv).emit (.avs mv)

/-- The starting voltage of a speed-margin class (R19). -/
def avsStart (cls : Nat) : Nat := if cls = 0 then 740 else if cls = 1 then 770 else 800

/-- The governor raises its request; one that is clamped sets at_vmax and raises AVS_LIMIT (R19), one that is not clears
both limits (R20). -/
def State.avsRaise (s : State) : State :=
  let want := s.fld TH_AVS_STATUS_vcore_mv + s.fld TH_AVS_CTRL_step_mv
  let vmax := s.fld TH_AVS_LIMITS_vmax_mv
  let clamped := decide (vmax < want)
  let t := s.avsRequest (max (s.fld TH_AVS_LIMITS_vmin_mv) (min want vmax))
  let t := (t.setFld TH_AVS_STATUS_at_vmin 0).setFlag TH_AVS_STATUS_at_vmax clamped
  let t := t.doIf clamped (·.raise AVS_LIMIT vmax)
  { t with gov := { t.gov with sinceRaise := 0, lowRun := 0 } }

/-- The governor lowers its request (R19). -/
def State.avsLower (s : State) : State :=
  let v := s.fld TH_AVS_STATUS_vcore_mv
  let step := s.fld TH_AVS_CTRL_step_mv
  let vmin := s.fld TH_AVS_LIMITS_vmin_mv
  let t := s.avsRequest (min (s.fld TH_AVS_LIMITS_vmax_mv) (max (v - step) vmin))
  let t := t.setFlag TH_AVS_STATUS_at_vmin (decide (v < vmin + step))
  { t with gov := { t.gov with lowRun := 0 } }

/-- REPLICA_MEASUREMENT, R19: every 10 us the slowest replica's stage time. Until RUNNING, with enable = 0, or while a
failed transaction is being retried (R22), the request is held. at_vmin returns to 0 at the first measurement that is not more
than 100 ps below target, or at an unclamped request (DESIGN CHOICE, log 123). -/
def execReplicaMeasurement (ps : Nat) (s : State) : Result :=
  let target := s.fld TH_AVS_CTRL_target_ps
  let t := s.setFld TH_AVS_STATUS_stage_ps (min ps 2047)
  let t := t.doIf (decide (ps ≤ target)) (·.setFld TH_AVS_STATUS_at_vmax 0)
  let t := t.doIf (decide (target ≤ ps + 100)) (·.setFld TH_AVS_STATUS_at_vmin 0)
  let low := ps + 100 < target
  let t := { t with gov := { t.gov with sinceRaise := t.gov.sinceRaise + 1
                                        lowRun := if low then t.gov.lowRun + 1 else 0 } }
  if !s.running || s.fld TH_AVS_CTRL_enable == 0 || s.gov.retry then .next t
  else if target + 50 < ps ∧ 5 ≤ t.gov.sinceRaise then .next t.avsRaise
  else if 1000 ≤ t.gov.lowRun then .next t.avsLower
  else .next t

/-- AVSBUS_TRANSACTION_FAIL, R22: bus_error, AVS_BUS_ERR, and a retry every 1 ms. -/
def execAvsbusTransactionFail (s : State) : Result :=
  let t := (s.setFld TH_AVS_STATUS_bus_error 1).raise AVS_BUS_ERR 0
  .next { t with gov := { t.gov with retry := true } }

/-- AVS_RETRY, R22: the same request again. A failure is reported as the first one was. -/
def execAvsRetry (ok : Bool) (s : State) : Result :=
  if s.gov.retry then
    let t := s.emit (.avs (s.fld TH_AVS_STATUS_vcore_mv))
    if ok then .next { t with gov := { t.gov with retry := false } }
    else .next ((t.setFld TH_AVS_STATUS_bus_error 1).raise AVS_BUS_ERR 0)
  else .next s

end Sys2Proof.Machine
end

