-- ==== Sys2Proof/Machine/Image.lean ====
section
/-!
DEFINITION. Firmware images and boot settings (R356 to R358): their layout and their verification, over the bytes of a
store.
-/

namespace Sys2Proof.Machine

/-- `k` bytes at an offset of a run of bytes, as a number, least significant byte first. -/
def numAt (l : List Byte) (off k : Nat) : Nat := leNat ((l.drop off).take k)

/-- Whether `k` bytes at an offset are 0. -/
def zerosAt (l : List Byte) (off k : Nat) : Bool := ((l.drop off).take k).all (· == 0)

/-- A directory entry (R356). -/
structure ImgEntry where
  type : Nat
  level : Nat
  version : Nat
  drvType : Nat
  drvClass : Nat
  offset : Nat
  size : Nat
  digest : List Byte
  deriving DecidableEq, Repr

def IMG_MAGIC : Nat := 0x57464E50
def GL_TYPE : Nat := 0
def CE_TYPE : Nat := 1
def DB_TYPE : Nat := 2
def SQ_TYPE : Nat := 3
def SF_TYPE : Nat := 4

def imgCount (l : List Byte) : Nat := numAt l 6 2
def imgBytes (l : List Byte) : Nat := numAt l 8 4
def imgSig (l : List Byte) : Nat := numAt l 12 4
def imgVersion (l : List Byte) : Nat := numAt l 16 4

def imgEntry (l : List Byte) (e : Nat) : ImgEntry :=
  let b := 64 + 64 * e
  { type := numAt l b 1, level := numAt l (b + 1) 1, version := numAt l (b + 2) 2, drvType := numAt l (b + 4) 2,
    drvClass := numAt l (b + 6) 1, offset := numAt l (b + 8) 4, size := numAt l (b + 12) 4,
    digest := (l.drop (b + 16)).take 32 }

def imgEntries (l : List Byte) : List ImgEntry := (List.range (imgCount l)).map (imgEntry l)

/-- The body of an entry. -/
def imgBody (l : List Byte) (e : ImgEntry) : List Byte := (l.drop e.offset).take e.size

/-- The excluded pairs: type and level, type and level (R356, R360). -/
def imgExcluded (l : List Byte) : List ((Nat × Nat) × (Nat × Nat)) :=
  if numAt l 20 4 = 0 then []
  else (List.range (numAt l 24 2)).map (fun i =>
    let b := numAt l 20 4 + 8 * i
    ((numAt l b 1, numAt l (b + 1) 1), (numAt l (b + 2) 1, numAt l (b + 3) 1)))

/-- Whether no two members of a list are related. -/
def pairwiseNot {α : Type} (f : α → α → Bool) : List α → Bool
  | [] => true
  | a :: t => t.all (fun b => !f a b) && pairwiseNot f t

/-- The header and the directory are well formed, and reserved fields are 0 (R356, R357). -/
def imgFormat (l : List Byte) : Bool :=
  let n := imgCount l
  let sig := imgSig l
  let es := imgEntries l
  let compat := numAt l 20 4
  let cn := numAt l 24 2
  numAt l 0 4 == IMG_MAGIC && numAt l 4 2 == 1 && decide (4 ≤ n) && decide (n ≤ 16) &&
  decide (imgBytes l ≤ 2 ^ 24) && decide (imgBytes l ≤ l.length) && decide (sig % 64 = 0) &&
  decide (sig + 256 ≤ imgBytes l) && decide (64 + 64 * n ≤ sig) && zerosAt l 26 38 && decide (cn ≤ 256) &&
  (compat == 0 || decide (compat + 8 * cn ≤ sig) &&
    (List.range cn).all (fun i => zerosAt l (compat + 8 * i + 4) 4)) &&
  (List.range n).all (fun e => zerosAt l (64 + 64 * e + 7) 1 && zerosAt l (64 + 64 * e + 48) 16) &&
  [GL_TYPE, CE_TYPE, SQ_TYPE, SF_TYPE].all (fun t => es.countP (fun e => e.type == t) == 1) &&
  es.all (fun e => decide (e.type ≤ 4) && decide (e.offset % 64 = 0) && decide (0 < e.size) &&
    decide (e.offset + e.size ≤ sig) &&
    (if e.type = DB_TYPE then e.drvClass == 1 || e.drvClass == 2 else e.drvClass == 0 && e.drvType == 0)) &&
  pairwiseNot (fun a b => decide (a.offset < b.offset + b.size) && decide (b.offset < a.offset + a.size)) es &&
  pairwiseNot (fun a b => a.drvClass == b.drvClass && a.drvType == b.drvType) (es.filter (·.type == DB_TYPE)) &&
  decide (numAt l (sig + 4) 4 ≤ 3) && decide (numAt l (sig + 72) 4 ≤ 1) && zerosAt l (sig + 76) 4 &&
  zerosAt l (sig + 208) 48

/-- How a verification ends (R357). -/
inductive ImgFault where
  | format | crc | umnath | counter | body
  deriving DecidableEq, Repr

def imgCrcOk (l : List Byte) : Bool := crc32 (l.take (imgSig l)) == numAt l (imgSig l) 4

/-- The Umnath signature (R357, 3). -/
def imgUmnath (l : List Byte) : Bool :=
  let sig := imgSig l
  let key := numAt l (sig + 4) 4
  !Config.keyRevoked key && Config.sm2Verify (Config.umnathKey key) (l.take sig) ((l.drop (sig + 8)).take 64)

/-- The countersignature, on parts with a customer-key digest (R357, 4). -/
def imgCounter (l : List Byte) : Bool :=
  let sig := imgSig l
  let key := (l.drop (sig + 80)).take 64
  match Config.customerDigest with
  | none => true
  | some d => numAt l (sig + 72) 4 == 1 && Config.sm3 key == d &&
      Config.sm2Verify key (l.take (sig + 72)) ((l.drop (sig + 144)).take 64)

/-- The digests of the bodies (R357, 5). -/
def imgBodies (l : List Byte) : Bool := (imgEntries l).all (fun e => Config.sm3 (imgBody l e) == e.digest)

/-- Verification: the first failure, if any (R357). -/
def imgVerify (l : List Byte) : Option ImgFault :=
  if !imgFormat l then some .format
  else if !imgCrcOk l then some .crc
  else if !imgUmnath l then some .umnath
  else if !imgCounter l then some .counter
  else if !imgBodies l then some .body
  else none

/-- The status code of a failed verification (R357). -/
def ImgFault.code : ImgFault → Nat
  | .format => E_BAD_ARG
  | .crc => E_BAD_ARG
  | .umnath => E_SIG
  | .counter => E_SIG
  | .body => E_SIG

/-- The reason and the detail of a start that fails so (R347, R355, R357). -/
def ImgFault.reason : ImgFault → Nat × Nat
  | .format => (FR_IMAGE_CRC, 0)
  | .crc => (FR_IMAGE_CRC, 0)
  | .umnath => (FR_IMAGE_SIG, 0)
  | .counter => (FR_IMAGE_SIG, 1)
  | .body => (FR_IMAGE_SIG, 0)

/-- What the image holds for a component, measured: the digest is that of the body as loaded (R384). -/
def ImgEntry.comp (l : List Byte) (e : ImgEntry) : Comp :=
  { level := e.level, version := e.version, digest := Config.sm3 (imgBody l e) }

def ImgEntry.drv (l : List Byte) (e : ImgEntry) : DrvBody :=
  { cls := e.drvClass, type := e.drvType, level := e.level, version := e.version, offset := e.offset, size := e.size,
    digest := Config.sm3 (imgBody l e) }

/-- The type of a component of the pending mask (R359). -/
def compType (c : Nat) : Nat := if c = 7 then SF_TYPE else if 3 ≤ c then SQ_TYPE else c

/-- The components of an image by number: GL, CE, SQ of each head, SF (R356, R359). -/
def imgComps (l : List Byte) (heads : Nat) : Tab Comp :=
  (([0, 1] ++ (List.range heads).map (· + 3) ++ [7]).filterMap (fun c =>
    ((imgEntries l).find? (fun (e : ImgEntry) => e.type == compType c)).map (fun (e : ImgEntry) => (c, e.comp l))))

def drvBefore (a b : DrvBody) : Bool := decide (a.cls < b.cls) || (a.cls == b.cls && decide (a.type ≤ b.type))

/-- The driver bodies of an image in ascending class and type. -/
def imgDrvs (l : List Byte) : List DrvBody :=
  (((imgEntries l).filter (·.type == DB_TYPE)).map (fun e => e.drv l)).insertionSort (fun a b => drvBefore a b = true)

/-! ## Boot settings (R358) -/

def BOOT_SETTINGS : Nat := 0x01000000
def BOOT_MAGIC : Nat := 0x53424E50

/-- The boot settings are good: magic, number of pairs and crc. -/
def bootGood (l : List Byte) : Bool :=
  let n := numAt l 4 2
  numAt l 0 4 == BOOT_MAGIC && decide (n ≤ 500) && crc32 (l.take (12 + 8 * n)) == numAt l (12 + 8 * n) 4

def bootPairs (l : List Byte) : List (Nat × Word) :=
  (List.range (numAt l 4 2)).map (fun j => (numAt l (12 + 8 * j) 3, BitVec.ofNat 32 (numAt l (16 + 8 * j) 4)))

/-- The image region of the boot flash, and its boot settings. -/
def State.flashImage (s : State) : List Byte := s.flashBytes 0 (2 ^ 24)
def State.bootSettings (s : State) : List Byte := s.flashBytes BOOT_SETTINGS 4096

/-! ## The words of an update (R359, R376) -/

def PH_IDLE : Nat := 0
def PH_STAGED : Nat := 1
def PH_APPLYING : Nat := 2
def PH_APPLIED : Nat := 3
def PH_CONFIRMING : Nat := 4
def PH_ROLLING_BACK : Nat := 5

def State.pendingMask (s : State) : Nat := s.fld FW_STATE_pending
def State.appliedMask (s : State) : Nat := s.fld FW_STATE_applied

/-- The phase between commands (log 42): STAGED while a component is pending, APPLIED while an update waits for its end. -/
def State.restPhase (s : State) : State :=
  s.setFld FW_STATE_phase (if s.pendingMask ≠ 0 then PH_STAGED else if s.appliedMask ≠ 0 then PH_APPLIED else PH_IDLE)

/-- Nothing is staged. -/
def State.unstage (s : State) : State :=
  (({ s with fw := { s.fw with staged := [], stagedDrv := [], stagedBytes := 0 } }.setFld FW_STATE_pending 0).setFld
    FW_VERSION_staged_version 0).restPhase

end Sys2Proof.Machine
end

