-- ==== Sys2Proof/Machine/Light.lean ====
section
/-!
DEFINITION. Strings, banks and matrices as the other blocks see them: members (R158), level entries (R160, R187), the
outputs they drive (R161, R192), and what makes an output stay low.
-/

namespace Sys2Proof.Machine

/-! ## Strings and banks -/

def State.bankOn (s : State) (b : Nat) : Bool := s.flag (LS_BANK0_enable b)
def State.tripped (s : State) (b : Nat) : Bool := s.flag (LS_BANK12_tripped b)

/-- The members of a bank: its enabled strings, in ascending number (R158). -/
def State.members (s : State) (b : Nat) : List Nat :=
  (List.range 64).filter (fun n => s.flag (LS_STRING0_enable n) && s.fld (LS_STRING0_bank n) == b)

/-- States 2 to 6 are faulted (R182). -/
def State.strFaulted (s : State) (n : Nat) : Bool :=
  decide (2 ≤ s.fld (LS_STRING2_state n)) && decide (s.fld (LS_STRING2_state n) ≤ 6)

/-- The banks of a head and primary (R118). -/
def State.banksOf (s : State) (h prim : Nat) : List Nat :=
  (List.range 8).filter (fun b => s.bankOn b && s.fld (LS_BANK0_head b) == h && s.fld (LS_BANK0_prim b) == prim)

/-- The enabled banks of a head. -/
def State.banksOfHead (s : State) (h : Nat) : List Nat :=
  (List.range 8).filter (fun b => s.bankOn b && s.fld (LS_BANK0_head b) == h)

/-- The enabled banks of a group. -/
def State.banksOfGroup (s : State) (g : Nat) : List Nat :=
  (List.range 8).filter (fun b => s.bankOn b && decide (s.fld (LS_BANK0_head b) < s.nHeads) &&
    s.groupOf (s.fld (LS_BANK0_head b)) == g)

/-- The level entry `w` of a bank in use; entry 0 is always dark (R159, R160). -/
def State.effMask (s : State) (b w : Nat) : Nat := if w = 0 then 0 else s.fld (LS_LEVEL_eff_mask b (w - 1))
def State.levelMask (s : State) (b w : Nat) : Nat := if w = 0 then 0 else s.fld (LS_LEVEL_mask b (w - 1))

/-- The strings that a level entry lights. -/
def State.entryStrings (s : State) (b w : Nat) : List Nat :=
  ((s.members b).zipIdx.filter (fun e => bitOf (s.effMask b w) e.2)).map (·.1)

/-- The strings of a white item: every member that is not faulted. -/
def State.whiteStrings (s : State) (b : Nat) : List Nat := (s.members b).filter (fun n => !s.strFaulted n)

/-- The lowest-numbered member index that is not faulted and not in a mask. -/
def freeMember (faulted : List Bool) (mask : Nat) : Option Nat :=
  (List.range faulted.length).find? (fun i => !(faulted.getD i true) && !bitOf mask i)

/-- A level entry with each faulted member replaced, or lost where none is left (R187). -/
def substMask (faulted : List Bool) (mask : Nat) : Nat :=
  (List.range faulted.length).foldl (fun m i =>
    if faulted.getD i false && bitOf m i then
      let m' := m - 2 ^ i
      match freeMember faulted m' with
      | some j => m' + 2 ^ j
      | none => m'
    else m) mask

/-- The mask in use of entry `w`: substitution under DEGRADE only (R187). -/
def State.newEff (s : State) (b w : Nat) : Nat :=
  let faulted := (s.members b).map (fun n => s.strFaulted n)
  if s.flag (LS_BANK0_policy b) then substMask faulted (s.levelMask b w) else s.levelMask b w

/-- Entries 1 to 15. -/
def levelEntries : List Nat := (List.range 15).map (· + 1)

/-- The mask in use of entry `w` of a bank made anew; it counts as not yet measured where it changes, or where its own mask
has (`masked`; R160, R187). -/
def State.rebuildEntry (s : State) (b w : Nat) (masked : Bool) : State :=
  let m := s.newEff b w
  if m = s.effMask b w ∧ !masked then s
  else (s.setFld (LS_LEVEL_eff_mask b (w - 1)) m).setFld (CC_LIGHT_measured b (w - 1)) 0

/-- The entries of a bank rebuilt for which `which` holds, those of `masked` with a mask of their own that has changed, and
the substitute bits of its members. -/
def State.rebuildEff (s : State) (b : Nat) (which masked : Nat → Bool) : State :=
  let t := s.doAll (levelEntries.filter which) (fun u w => u.rebuildEntry b w (masked w))
  t.doAll (t.members b).zipIdx (fun u e =>
    u.setFlag (LS_STRING2_substitute e.1) (levelEntries.any (fun w =>
      bitOf (u.effMask b w) e.2 && !bitOf (u.levelMask b w) e.2)))

/-! ## Matrices -/

def State.matrixOn (s : State) (z : Nat) : Bool := s.flag (ZN_MAT0_enable z)

/-- The enabled matrix of a head (R189). -/
def State.matrixOf (s : State) (h : Nat) : Option Nat :=
  (List.range 4).find? (fun z => s.matrixOn z && s.fld (ZN_MAT0_head z) == h)

def State.zoneLit (s : State) (h : Nat) : Bool := (s.matrixOf h).isSome

def State.mux (s : State) (z : Nat) : Nat := 2 ^ s.fld (ZN_MAT0_mux z)

/-- The select output of row group `r` of band `b` (R192). -/
def State.selectOut (s : State) (z b r : Nat) : Nat := s.fld (ZN_MAT3_tout_base z) + b * s.mux z + r

/-- The select outputs of a matrix. -/
def State.selects (s : State) (z : Nat) : List Nat :=
  (List.range (s.fld (SQ_CTRL_bands (s.fld (ZN_MAT0_head z))) * s.mux z)).map (s.fld (ZN_MAT3_tout_base z) + ·)

/-! ## Outputs (R161, R192) -/

/-- The level of a timed output. -/
def State.setTout (s : State) (o : Nat) (b : Bool) : State :=
  let bit : BitVec 128 := 1#128 <<< o
  { s with tout := if b then s.tout ||| bit else s.tout &&& ~~~bit }

/-- Outputs driven low, and their programmed edges dropped. -/
def State.lowOuts (s : State) (l : List Nat) : State :=
  let t := s.doAll l (fun u o => u.setTout o false)
  { t with edges := t.edges.filter (fun e => !l.contains e.out) }

/-- The timed output of a string. -/
def State.strOut (s : State) (n : Nat) : Nat := s.fld (LS_STRING0_tout n)

/-- Whether a string may be lit: enabled, its bank enabled and not tripped, not faulted (R161). -/
def State.strUsable (s : State) (n : Nat) : Bool :=
  let b := s.fld (LS_STRING0_bank n)
  s.flag (LS_STRING0_enable n) && s.bankOn b && !s.tripped b && !s.strFaulted n

/-- Whether a bank may give light: enabled, not tripped and not faded out (R190, R192). -/
def State.bankLit (s : State) (b : Nat) : Bool := s.bankOn b && !s.tripped b && s.fld (LS_BANK12_fade_state b) != 0

/-- Whether a timed output belongs to a matrix that is lit: enabled, with a supply bank that is not dark (R192). -/
def State.selectUsable (s : State) (o : Nat) : Bool :=
  (List.range 4).any (fun z => s.matrixOn z && (s.selects z).contains o && s.bankLit (s.fld (ZN_MAT0_supply_bank z)))

/-- The selects of the enabled matrices that a bank supplies. -/
def State.bankSelects (s : State) (b : Nat) : List Nat :=
  (List.range 4).flatMap (fun z => if s.matrixOn z && s.fld (ZN_MAT0_supply_bank z) == b then s.selects z else [])

/-- Whether a timed output may go high for light. -/
def State.outUsable (s : State) (o : Nat) : Bool :=
  (List.range 64).any (fun n => s.strOut n == o && s.strUsable n) || s.selectUsable o

/-- The outputs that light head `h`: its strings, and its matrix's selects. -/
def State.headOuts (s : State) (h : Nat) : List Nat :=
  (s.banksOfHead h).flatMap (fun b => (s.members b).map s.strOut) ++
  (match s.matrixOf h with
   | some z => s.selects z
   | none => [])

/-- Whether the strings of a supply bank are lit: enabled, not tripped, not faded out, and the head port up (R190). -/
def State.supplyHigh (s : State) (b : Nat) : Bool :=
  let st := s.fld (HD_RVH_STATUS_state (s.fld (LS_BANK0_head b)))
  s.bankLit b && (st == ACTIVE || st == SPARING)

/-- The strings of a zone-lit head's supply bank follow R190: they do not switch at edges, and the selects are low while the
bank is dark (R192). -/
def State.supplySync (s : State) (h : Nat) : State :=
  match s.matrixOf h with
  | none => s
  | some z =>
    let b := s.fld (ZN_MAT0_supply_bank z)
    let t := s.lowOuts ((s.members b).map s.strOut)
    let t := t.doIf (!s.bankLit b) (·.doAll (s.selects z) (fun u o => u.setTout o false))
    t.doAll (s.members b) (fun u n => u.setTout (u.strOut n) (s.supplyHigh b && s.strUsable n))

/-- The head goes dark at once. -/
def State.darkHead (s : State) (h : Nat) : State := s.lowOuts (s.headOuts h)

end Sys2Proof.Machine
end

