-- ==== Sys2Proof/Machine/Cellar.lean ====
section
/-!
DEFINITION. The root cellar (R340 to R343): slots, current copies, writes under the write window, and sets.
-/

namespace Sys2Proof.Machine

/-- The slot number of slot `i` of record `n` in `State.cellar`. -/
def slotKeyOf (n i : Nat) : Nat := 2 * n + i

/-- A slot that a set id `limit` lets count. -/
def CellarSlot.valid (c : CellarSlot) (limit : Nat) : Bool := c.good && decide (c.setId ≤ limit)

/-- The current copy among the slots of a record: the valid one with the larger seq, and its number. -/
def State.copyUnder (s : State) (limit n : Nat) : Option (CellarSlot × Nat) :=
  let a := s.slotOf (slotKeyOf n 0)
  let b := s.slotOf (slotKeyOf n 1)
  match a.valid limit, b.valid limit with
  | true, true => if a.seq < b.seq then some (b, 1) else some (a, 0)
  | true, false => some (a, 0)
  | false, true => some (b, 1)
  | false, false => none

/-- The committed set id: the first payload word of record 1's current copy. -/
def State.committed (s : State) : Nat :=
  match s.copyUnder 0 1 with
  | some (c, _) => (c.payload.getD 0 0).toNat
  | none => 0

/-- The current copy of a record (R341). -/
def State.record (s : State) (n : Nat) : Option CellarSlot := (s.copyUnder s.committed n).map (·.1)

/-- Whether a record has slots written, none of them valid (R339). -/
def State.recordBad (s : State) (n : Nat) : Bool :=
  (s.record n).isNone && (s.slotOf (slotKeyOf n 0) != CellarSlot.reset || s.slotOf (slotKeyOf n 1) != CellarSlot.reset)

/-- wear_pm: the largest seq/2 of any record, in per mille of 10^8 (R343). -/
def State.wear (s : State) : Nat := (s.cellar.map (fun e => e.2.seq / 2 * 1000 / 100000000)).foldl max 0

/-- Where a write of a record goes: its seq, and the slot that does not hold the current copy (R340). -/
def State.writeTarget (s : State) (n : Nat) : Nat × Nat :=
  match s.copyUnder s.committed n with
  | some (c, i) => (c.seq + 1, 1 - i)
  | none => (1, 0)

/-- Whether a write of a record fails: its slot reads back wrong, also after it has been written again (R340). -/
def State.writeFails (s : State) (n : Nat) : Bool := s.badSlots.contains (slotKeyOf n (s.writeTarget n).2)

/-- A record written (R340). A write that fails leaves its slot without a valid copy and raises CELLAR_ERR; the current copy stays. -/
def State.cellarWrite (s : State) (n setId : Nat) (payload : List Word) : State :=
  let g := s.writeTarget n
  let t := s.setSlotOf (slotKeyOf n g.2) { payload := payload, seq := g.1, setId := setId, good := !s.writeFails n }
  (t.setFld CL_STATUS_wear_pm (min 1000 t.wear)).doIf (s.writeFails n) (·.raise CELLAR_ERR n)

/-- Whether the write window is open (R328). -/
def State.nvOpen (s : State) : Bool := s.flag TH_GLOBAL3_nv_window

/-- A list of deferred writes with a newest content: a record keeps the place of its first deferral. -/
def deferIn (n : Nat) (payload : List Word) : List (Nat × List Word) → List (Nat × List Word)
  | [] => [(n, payload)]
  | e :: t => if e.1 = n then (n, payload) :: t else e :: deferIn n payload t

/-- A write that the device makes on its own: made at once in an open window, deferred in a closed one (R329). The
deferral of record 0x0002 is held with the attempt shadow (R345). -/
def State.ownWrite (s : State) (n : Nat) (payload : List Word) : State :=
  let later := if n = 2 then !s.nvOpen else s.boot.deferred
  let t := { s with boot := { s.boot with deferred := later } }
  if s.nvOpen then ({ t with deferred := s.deferred.filter (fun e => e.1 != n) }).cellarWrite n 0 payload
  else { t with deferred := deferIn n payload s.deferred }.count TH_GLOBAL5_nv_deferred 1

/-- The deferred writes made, in order (R329). -/
def State.undefer (s : State) : State :=
  ({ s with deferred := [], boot := { s.boot with deferred := false } }).doAll s.deferred (fun t e => t.cellarWrite e.1 0 e.2)

/-- Slots of a set above the committed one are invalidated (R342). -/
def State.dropUncommitted (s : State) : State :=
  { s with cellar := s.cellar.foldl (fun t e =>
      let c := s.slotOf e.1
      if s.committed < c.setId then tabSet (fun _ => CellarSlot.reset) t e.1 { c with good := false, setId := 0, seq := 0 }
      else t) s.cellar }

/-- The records of a set written one after another, up to one whose write fails; whether one has failed (R341). -/
def State.writeRecords (s : State) (id : Nat) (l : List (Nat × List Word)) : Bool × State :=
  l.foldl (fun (p : Bool × State) e => if p.1 then p else (p.2.writeFails e.1, p.2.cellarWrite e.1 id e.2)) (false, s)

/-- A set written under R341: each record with the next set id, then the set commit. After a write that fails the set is abandoned
(R342). -/
def State.writeSet (s : State) (l : List (Nat × List Word)) : State :=
  let t := s.dropUncommitted
  let id := t.committed + 1
  let p := t.writeRecords id l
  if p.1 then p.2 else p.2.cellarWrite 1 0 [BitVec.ofNat 32 id, BitVec.ofNat 32 l.length]

end Sys2Proof.Machine
end

