-- ==== Sys2Proof/Machine/Layout.lean ====
section
/-!
DEFINITION. What follows from the configuration words alone: raster periods, bands, the plane store and the loft, slot
words and sequences (R73, R104 to R131). Times are in units of 1/20000 tick (1/16 ps): a tick is 20000, a fine step 625,
a column of 6.4 ns 102400.
-/

namespace Sys2Proof.Machine

def tuTick : Nat := 20000
def tuFine : Nat := 625
def tuColumn : Nat := 102400
def tuNs : Nat := 16000

/-! ## Rasters (R73) -/

def State.hActive (s : State) (g : Nat) : Nat := s.fld (HD_RASTER1_h_active g)
def State.vActive (s : State) (g : Nat) : Nat := s.fld (HD_RASTER3_v_active g)
def State.hBlank (s : State) (g : Nat) : Nat :=
  s.fld (HD_RASTER2_h_front g) + s.fld (HD_RASTER2_h_sync g) + s.fld (HD_RASTER2_h_back g)
def State.vBlank (s : State) (g : Nat) : Nat :=
  s.fld (HD_RASTER4_v_front g) + s.fld (HD_RASTER4_v_sync g) + s.fld (HD_RASTER4_v_back g)
def State.hTotal (s : State) (g : Nat) : Nat := s.hActive g + s.hBlank g
def State.vTotal (s : State) (g : Nat) : Nat := s.vActive g + s.vBlank g

/-- `n` line periods in units of 1/65,536 tick, exact: a pixel takes pix_period of them. -/
def State.linesExact (s : State) (g n : Nat) : Nat := n * s.hTotal g * s.fld (HD_RASTER5_pix_period g)

/-- `n` line periods in tu, rounded down. -/
def State.linesTu (s : State) (g n : Nat) : Nat := s.linesExact g n * tuTick / 65536

/-- Whether the group runs under variable blanking. -/
def State.vrr (s : State) (g : Nat) : Bool := s.flag (HD_RASTER0_timing_mode g)

/-- The lines of the shortest frame: v_total, or min_lines under variable blanking (R130). -/
def State.frameLines (s : State) (g : Nat) : Nat :=
  if s.vrr g then s.fld (HD_RASTER6_min_lines g) else s.vTotal g

/-- The shortest frame of a plane-mode group, in tu. -/
def State.frameTu (s : State) (g : Nat) : Nat := s.linesTu g (s.frameLines g)

/-- The lines of a frame of a line-mode group in half periods: active sweeps and flyback (R142). -/
def State.sweepsPerFrame (s : State) (h : Nat) : Nat :=
  ceilDiv (s.vActive (s.groupOf h)) (s.fld (LM_CTRL_beams h)) + s.fld (LM_SCAN_flyback_sweeps h)

/-- The frame of a group in tu: of its raster, or in line mode of its sweeps at the half period in use, which
LM_HALF gives with 3 fractional bits of a fine step (R142, R144). -/
def State.groupFrameTu (s : State) (g : Nat) : Nat :=
  if s.groupLine g then
    match s.headsOf g with
    | h :: _ => s.sweepsPerFrame h * s.fld (LM_HALF_half_period h) * tuFine / 8
    | [] => 0
  else s.frameTu g

/-! ## Bands (R106, R126) -/

def State.nBands (s : State) (h : Nat) : Nat := s.fld (SQ_CTRL_bands h)

/-- Rows of a band. -/
def State.bandRows (s : State) (h : Nat) : Nat := ceilDiv (s.vActive (s.groupOf h)) (s.nBands h)

/-- The first row of band `b`, and the row after its last. -/
def State.bandFirst (s : State) (h b : Nat) : Nat := b * s.bandRows h
def State.bandEnd (s : State) (h b : Nat) : Nat := min (s.vActive (s.groupOf h)) ((b + 1) * s.bandRows h)

/-- The band of a row. -/
def State.bandOfRow (s : State) (h y : Nat) : Nat := y / s.bandRows h

/-! ## The plane maps and the plane store (R101, R107, R114) -/

/-- Components that a head shows (R99), lowest first. -/
def State.comps (s : State) (h : Nat) : List Nat :=
  (List.range 3).filter (fun c => bitOf (s.fld (CP_HEAD_CTRL_comp_mask h)) c)

def State.planeBase (s : State) (h c : Nat) : Nat := s.fld (TS_COMP_plane_base h c)
def State.nPlanes (s : State) (h c : Nat) : Nat := s.fld (TS_COMP_n_planes h c)

/-- Planes of the head in rising order. -/
def State.planes (s : State) (h : Nat) : List Nat :=
  (List.range 64).filter (fun p => (s.comps h).any (fun c =>
    decide (s.planeBase h c ≤ p) && decide (p < s.planeBase h c + s.nPlanes h c)))

def State.loftMask (s : State) (h : Nat) : Nat :=
  s.fld (TS_LOFT_MASK4_loft_lo h) + s.fld (TS_LOFT_MASK5_loft_hi h) * 2 ^ 32

def State.lofted (s : State) (h p : Nat) : Bool := bitOf (s.loftMask h) p

/-- NG and NL. -/
def State.nGranary (s : State) (h : Nat) : Nat := ((s.planes h).filter (fun p => !s.lofted h p)).length
def State.nLoft (s : State) (h : Nat) : Nat := ((s.planes h).filter (fun p => s.lofted h p)).length

def State.rowBytes (s : State) (h : Nat) : Nat := 16 * ceilDiv (s.hActive (s.groupOf h)) 128
def State.chunk (s : State) (h : Nat) : Nat := 4096 * ceilDiv (s.bandRows h * s.rowBytes h) 4096
def State.storeBase (s : State) (h : Nat) : Nat := s.fld (TS_STORE6_store_lo h) + s.fld (TS_STORE7_store_hi h) * 2 ^ 32
def State.storeSize (s : State) (h : Nat) : Nat := 2 * s.nBands h * s.nGranary h * s.chunk h

/-- The split look-ahead in rows (R92), kept in its status field. -/
def State.lookahead (s : State) (h : Nat) : Nat :=
  if s.flag (CP_HEAD_CTRL_split_en h) then s.fld (CP_HEAD_STATUS_lookahead h) else 0

def State.delayBytes (s : State) (h : Nat) : Nat :=
  65536 * ceilDiv (s.lookahead h * s.hActive (s.groupOf h) * 4) 65536

/-- loft_need in 64 KiB units (R114). -/
def State.loftNeed (s : State) (h : Nat) : Nat :=
  ceilDiv (s.delayBytes h + 2 * s.nBands h * s.nLoft h * s.chunk h) 65536

/-- The address of a row of a plane: in the Granary, or in the loft for a lofted plane (R107, R114). -/
def State.rowAddr (s : State) (h b copy p r : Nat) : Nat :=
  if s.lofted h p then
    let l := ((s.planes h).filter (fun q => s.lofted h q && decide (q < p))).length
    65536 * s.fld (TS_LOFT_WIN_win_base h) + s.delayBytes h + ((2 * b + copy) * s.nLoft h + l) * s.chunk h +
      r * s.rowBytes h
  else
    let g := ((s.planes h).filter (fun q => !s.lofted h q && decide (q < p))).length
    s.storeBase h + ((2 * b + copy) * s.nGranary h + g) * s.chunk h + r * s.rowBytes h

/-- What a loft byte that nothing has written reads as; log 6. -/
def loftDefault (_ : Nat) : Byte := 0

def State.loftByte (s : State) (a : Nat) : Byte := tabGet loftDefault s.loft a
def State.setLoftByte (s : State) (a : Nat) (b : Byte) : State := { s with loft := tabSet loftDefault s.loft a b }

/-- The bytes of a row of a plane copy. -/
def State.planeRow (s : State) (h b copy p r : Nat) : List Byte :=
  let a := s.rowAddr h b copy p r
  (List.range (s.rowBytes h)).map (fun i => if s.lofted h p then s.loftByte (a + i) else s.byte (a + i))

/-- One bit of a row of a plane copy written. -/
def State.setPlaneBit (s : State) (h b copy p r x : Nat) (v : Bool) : State :=
  let a := s.rowAddr h b copy p r + x / 8
  let old := if s.lofted h p then s.loftByte a else s.byte a
  let bit : Byte := 1#8 <<< (x % 8)
  let new := if v then old ||| bit else old &&& ~~~bit
  if s.lofted h p then s.setLoftByte a new else s.setByte a new

/-! ## The plane code table (R101, R104) -/

/-- An entry at reset: its index without the low 8 bits (R104). -/
def codeReset (k : Nat) : Word := BitVec.ofNat 32 (k % 65536 / 256)

def codeKey (h bank i : Nat) : Nat := (h * 2 + bank) * 65536 + i
def State.code (s : State) (h bank i : Nat) : Nat := (tabGet codeReset s.planeCode (codeKey h bank i)).toNat

/-! ## Slot words (R117, R118) -/

/-- A slot word, field by field. -/
structure Slot where
  op : Nat
  plane : Nat
  w : Nat
  duration : Nat
  prim : Nat
  hold : Bool
  dump : Bool
  thin : Bool
  reserved : Nat
  deriving DecidableEq, Repr

def opEnd : Nat := 0
def opLight : Nat := 1
def opDark : Nat := 2
def opProbe : Nat := 3
def opShift : Nat := 4
def opMeasure : Nat := 5
def opSync : Nat := 6

def decodeSlot (n : Nat) : Slot :=
  { op := bits n 0 4, plane := bits n 4 6, w := bits n 10 4, duration := bits n 14 22, prim := bits n 36 2,
    hold := bitOf n 38, dump := bitOf n 39, thin := bitOf n 40, reserved := bits n 41 23 }

/-- A loading slot (R118). -/
def Slot.loads (k : Slot) : Bool := (k.op == opLight && !k.hold) || (k.op == opDark && k.dump)

/-- Whether the slot lights anything. -/
def Slot.lights (k : Slot) : Bool := k.op == opLight || k.op == opProbe || k.op == opMeasure

/-- The key of a slot's low word in a bank. -/
def slotKey (h bank k : Nat) : Nat := winBase + bank * winBank + (0x12000 + h * 0x4000 + 2 * k)

/-- The 64-bit slot word of a bank. -/
def State.slotWord (s : State) (h bank k : Nat) : Nat :=
  (s.word (slotKey h bank k)).toNat + (s.word (slotKey h bank k + 1)).toNat * 2 ^ 32

/-- The slots before the first END, and whether there is one within `fuel` slots. -/
def slotsFrom (f : Nat → Nat) : Nat → Nat → List Slot × Bool
  | 0, _ => ([], false)
  | fuel + 1, k =>
    let sl := decodeSlot (f k)
    if sl.op = opEnd then ([], true) else ((fun r => (sl :: r.1, r.2)) (slotsFrom f fuel (k + 1)))

/-- The slots of a bank up to, and without, END. -/
def State.slots (s : State) (h bank : Nat) : List Slot := (slotsFrom (s.slotWord h bank) 4096 0).1

/-- Slots up to and including END (R141). -/
def State.listLen (s : State) (h bank : Nat) : Nat := (s.slots h bank).length + 1

/-- What the check of a list carries from slot to slot: the plane that a held slot may keep, whether the band is dumped,
and whether a SYNC has been met. -/
structure SlotCtx where
  base : Option Nat
  dumped : Bool
  sync : Bool
  deriving DecidableEq, Repr

/-- The code of one slot (R119), 0 when it is good. -/
def slotCode (c : SlotCtx) (k : Slot) : Nat :=
  if 6 < k.op ∨ k.reserved ≠ 0 ∨ (k.op = opShift ∧ 3 < k.plane) ∨ c.sync then E_BAD_ARG
  else if (k.hold ∧ k.op ≠ opLight) ∨ (k.dump ∧ k.op ≠ opDark) ∨ (k.thin ∧ k.op ≠ opLight) then E_BAD_ARG
  else if k.op = opLight ∧ k.w = 0 then E_BAD_ARG
  else if k.hold ∧ c.base ≠ some k.plane then E_BAD_ARG
  else if (k.op = opProbe ∨ k.op = opMeasure) ∧ !c.dumped then E_BAD_ARG
  else if k.duration = 0 then E_ZERO
  else if k.op = opProbe ∧ k.duration < 640 then E_RANGE
  else 0

def SlotCtx.next (c : SlotCtx) (k : Slot) : SlotCtx :=
  { base := if k.op = opLight then some k.plane else none
    dumped := if k.op = opDark ∧ k.dump then true else if k.op = opLight ∧ !k.hold then false else c.dumped
    sync := k.op == opSync }

/-- The first failing slot of a list and its code (R119). The END must hold nothing else and follow the one SYNC. -/
def seqCheck (f : Nat → Nat) : Nat → Nat → SlotCtx → Nat × Nat
  | 0, k, _ => (E_BAD_ARG, k)
  | fuel + 1, k, c =>
    let sl := decodeSlot (f k)
    if sl.op = opEnd then (if f k = 0 ∧ c.sync then (0, 0) else (E_BAD_ARG, k))
    else
      let e := slotCode c sl
      if e ≠ 0 then (e, k) else seqCheck f fuel (k + 1) (c.next sl)

def slotCtx0 : SlotCtx := { base := none, dumped := false, sync := false }

/-- R119 on a bank: code and first failing slot. -/
def State.seqRefusal (s : State) (h bank : Nat) : Nat × Nat := seqCheck (s.slotWord h bank) 4096 0 slotCtx0

/-! ## Phases, lead and offset (R126, R127) -/

def State.globalPhase (s : State) (h : Nat) : Bool := s.flag (SQ_CTRL_phase_global h)

/-- The blocks of `rows` PLANE_BAND packets: header, payload and trailer (R39). -/
def State.rowBlocks (s : State) (h rows : Nat) : Nat := rows * (2 + ceilDiv (s.hActive (s.groupOf h)) 128)

/-- The link time of blocks on the port's lanes, in tu: whole columns of 6.4 ns, with markers included at one column in
16,384 (R33, R127, R143; rounding up: log 124). -/
def State.linkTu (s : State) (h blocks : Nat) : Nat :=
  ceilDiv (ceilDiv blocks (s.fld (HD_RVH_CTRL_lanes h)) * tuColumn * 16384) 16383

def State.bandLinkTu (s : State) (h : Nat) : Nat := s.linkTu h (s.rowBlocks h (s.bandRows h))
def State.planeLinkTu (s : State) (h : Nat) : Nat := s.linkTu h (s.rowBlocks h (s.vActive (s.groupOf h)))

/-- lead in ticks (R127). -/
def State.leadTicks (s : State) (h : Nat) : Nat :=
  if !s.globalPhase h ∧ 2 ≤ s.nBands h then ceilDiv (2 * s.bandLinkTu h) tuTick else ceilDiv (s.planeLinkTu h) tuTick

/-- offset in ticks (R126, R127). -/
def State.offsetTicks (s : State) (h : Nat) : Nat :=
  if s.flag (SQ_CTRL_offset_auto h) then
    ceilDiv (s.linesExact (s.groupOf h) (s.bandRows h + s.lookahead h)) 65536 + 2560 + s.leadTicks h
  else s.fld (SQ_OFFSET_offset_ticks h)

/-- The start of band `b` after the instant of active line 0, in ticks, to the nearest tick (R126). -/
def State.bandStart (s : State) (h b : Nat) : Nat :=
  s.offsetTicks h +
    (if s.globalPhase h then 0 else roundDiv (s.linesExact (s.groupOf h) (b * s.bandRows h)) 65536)

/-- t_act of the modulator in fine steps (R41). -/
def State.tAct (s : State) (h : Nat) : Nat := bits (s.port (h + 2)).caps.toNat 64 16

/-- Loading slots of a list (N of R139). -/
def nLoads (l : List Slot) : Nat := (l.filter (·.loads)).length

/-! ## The schedule of loads (R129, R130) -/

/-- A load of the schedule: release and deadline in tu from A_n of the first frame played, band, whether it is the first
of its frame, and the link time it still needs. -/
structure Job where
  release : Int
  deadline : Int
  band : Nat
  first : Bool
  left : Nat
  deriving DecidableEq, Repr

/-- The jobs of one band replay whose next slot starts at `start` (tu): each load is released at the action of the loading
slot before it, `prev`, which for the first load is the decision instant; its deadline is the request instant of its RESET
less the guard. -/
def bandJobs (act guard dur band : Nat) : List Slot → Int → Int → Bool → List Job
  | [], _, _, _ => []
  | k :: t, start, prev, first =>
    let nextStart := start + (k.duration * tuTick : Nat)
    if k.loads then
      { release := prev, deadline := start - (act + tuColumn + guard : Nat), band := band, first := first
        left := dur } :: bandJobs act guard dur band t nextStart start false
    else bandJobs act guard dur band t nextStart prev first

/-- Which of two released jobs the port sends: first loads of a frame, then the earliest deadline, then the lower band
(R129). -/
def Job.before (a b : Job) : Bool :=
  if a.first != b.first then a.first
  else if a.deadline ≠ b.deadline then decide (a.deadline < b.deadline) else decide (a.band ≤ b.band)

def bestJob : List Job → Option Job
  | [] => none
  | j :: t =>
    match bestJob t with
    | none => some j
    | some k => if j.before k then some j else some k

/-- Takes one job out of a list. -/
def dropJob (j : Job) : List Job → List Job
  | [] => []
  | k :: t => if k = j then t else k :: dropJob j t

/-- The schedule played from instant `now`: the smallest slack of any load against its deadline. The port changes to a
job of higher precedence as soon as it is released (log 21). -/
def playJobs : Nat → Int → List Job → Int → Int
  | 0, _, _, slack => slack
  | fuel + 1, now, jobs, slack =>
    match bestJob (jobs.filter (fun j => decide (j.release ≤ now))) with
    | none =>
      match (jobs.map (·.release)).min? with
      | none => slack
      | some r => playJobs fuel r jobs slack
    | some j =>
      let next := ((jobs.filter (fun k => decide (now < k.release))).map (·.release)).min?
      let run := match next with
        | some r => min j.left (r - now).toNat
        | none => j.left
      let rest := dropJob j jobs
      if run < j.left then playJobs fuel (now + run) ({ j with left := j.left - run } :: rest) slack
      else playJobs fuel (now + run) rest (min slack (j.deadline - (now + run)))

/-- The jobs of all bands of one frame, `base` tu after A_n of the first frame played: the replay of band b starts at S_n(b),
and its first load is released at D_n(b) = S_n(b) - lead (R127). In global phase the bands share their instants. -/
def State.frameJobs (s : State) (h : Nat) (l : List Slot) (base : Nat) : List Job :=
  (List.range (s.nBands h)).flatMap (fun b =>
    let start : Int := (base + s.bandStart h b * tuTick : Nat)
    bandJobs (s.tAct h * tuFine) (s.fld (SQ_SETTLE_guard_ticks h) * tuTick)
      (s.linkTu h (s.rowBlocks h (s.bandEnd h b - s.bandFirst h b))) b l start (start - (s.leadTicks h * tuTick : Nat)) true)

/-- The smallest slack in tu of a frame played after another with the lists given (R130). -/
def State.scheduleSlack (s : State) (h : Nat) (old new : List Slot) : Int :=
  let t := s.frameTu (s.groupOf h) / tuTick * tuTick
  let jobs := s.frameJobs h old 0 ++ s.frameJobs h new t
  playJobs (4 * jobs.length + 4) (((jobs.map (·.release)).min?).getD 0) jobs (2 ^ 40)

/-- The sum of durations, SYNC at its duration field, plus lead, in ticks (R130). -/
def State.listTicks (s : State) (h : Nat) (l : List Slot) : Nat := (l.map (·.duration)).sum + s.leadTicks h

/-- T_min in ticks. -/
def State.minTicks (s : State) (h : Nat) : Nat := s.frameTu (s.groupOf h) / tuTick

end Sys2Proof.Machine
end

