-- ==== Sys2Proof/Machine/Mailbox.lean ====
section
/-!
DEFINITION. Mailboxes (R300 to R308): the command catalogue, what a head waits for, and how a command begins and ends; the Gleaner's
states and the end of self-refresh, which commands bring about (R258, R388).
-/

namespace Sys2Proof.Machine

/-! ## The catalogue -/

/-- A command of the catalogue: its code, its number of arguments where that is fixed, whether it is served in fallow
mode, and whether it can be aborted. -/
structure CmdRow where
  code : Nat
  nArgs : Option Nat
  fallow : Bool
  abort : Bool
  deriving DecidableEq, Repr

def catalogue : List CmdRow :=
  [⟨0x0101, some 0, true, false⟩, ⟨0x0102, some 0, true, false⟩, ⟨0x0103, some 1, true, false⟩,
   ⟨0x0104, some 0, false, false⟩, ⟨0x0105, none, false, false⟩,
   ⟨0x0201, none, false, true⟩, ⟨0x0202, some 3, false, false⟩, ⟨0x0203, some 3, false, false⟩,
   ⟨0x0204, some 4, false, false⟩, ⟨0x0205, none, false, false⟩,
   ⟨0x0301, some 2, false, false⟩, ⟨0x0302, some 2, false, false⟩, ⟨0x0303, some 1, false, false⟩,
   ⟨0x0304, some 2, false, false⟩] ++
  [⟨0x0401, some 4, false, true⟩, ⟨0x0402, some 2, false, false⟩,
   ⟨0x0501, some 6, false, true⟩, ⟨0x0502, some 4, false, true⟩, ⟨0x0503, some 3, false, false⟩,
   ⟨0x0504, some 0, false, false⟩, ⟨0x0505, some 1, false, false⟩,
   ⟨0x0601, some 3, false, true⟩, ⟨0x0602, some 2, true, false⟩] ++
  [⟨0x0701, some 3, false, true⟩, ⟨0x0702, some 2, false, false⟩, ⟨0x0703, some 0, false, false⟩,
   ⟨0x0704, some 0, false, false⟩, ⟨0x0705, some 2, true, false⟩, ⟨0x0706, none, true, false⟩,
   ⟨0x0707, some 0, false, false⟩, ⟨0x0708, some 2, false, false⟩, ⟨0x0709, some 4, false, false⟩,
   ⟨0x0801, some 0, true, false⟩, ⟨0x0802, some 10, false, false⟩, ⟨0x0803, some 2, false, false⟩,
   ⟨0x0901, some 2, true, true⟩, ⟨0x0902, some 1, true, false⟩, ⟨0x0903, some 1, true, false⟩]

def cmdRow (code : Nat) : Option CmdRow := catalogue.find? (fun r => r.code == code)

/-- Argument `i` of a command. -/
def MbCmd.arg (c : MbCmd) (i : Nat) : Nat := (c.args.getD i 0).toNat

/-- An address argument "lo, hi": none where the high word has bits above 7 set. -/
def MbCmd.addr (c : MbCmd) (i : Nat) : Option Nat :=
  if c.arg (i + 1) < 256 then some (c.arg i + c.arg (i + 1) * 2 ^ 32) else none

/-- The number of arguments that the catalogue requires for a request's own arguments; none where they are malformed. -/
def MbCmd.needs (c : MbCmd) : Option Nat :=
  match cmdRow c.code with
  | none => none
  | some r =>
    match r.nArgs with
    | some n => some n
    | none =>
      if c.code = 0x0105 then (if c.arg 0 ≤ 20 then some (1 + 3 * c.arg 0) else none)
      else if c.code = 0x0201 then (if c.arg 2 ≤ 12 then some (3 + 4 * c.arg 2) else none)
      else if c.code = 0x0205 then
        (if bits (c.arg 0) 8 8 ≤ 128 then some (1 + ceilDiv (bits (c.arg 0) 8 8) 4) else none)
      else if c.arg 1 ≤ 240 then some (2 + ceilDiv (c.arg 1) 4) else none

/-- The checks of R306, 1 and 2. -/
def MbCmd.refusal (c : MbCmd) (fallow : Bool) : Nat :=
  if c.needs ≠ some c.nArgs then E_BAD_ARG
  else if fallow && !((cmdRow c.code).any (·.fallow)) then E_FALLOW
  else 0

/-! ## Exclusive resources (R307) -/

/-- The resources that a command needs: 0 a DMA engine, 1 the firmware path, then the inactive banks, calibration items
and Gleaner tasks. -/
def MbCmd.resources (c : MbCmd) : List Nat :=
  if c.needs ≠ some c.nArgs then []
  else
    (if [0x0501, 0x0502, 0x0402, 0x0708, 0x0803].contains c.code then [0] else []) ++
    (if c.code / 256 = 7 then [1] else []) ++
    (if c.code = 0x0202 ∨ c.code = 0x0203 ∨ c.code = 0x0204 then [100 + 10 * (c.code % 16) + c.arg 0 % 8] else []) ++
    (if c.code = 0x0601 then [1000 + c.arg 0 % 256] else []) ++
    (if c.code = 0x0901 then [2000 + c.arg 0 % 256] else [])

/-- Whether resources are free beside those taken: there are two DMA engines and one of every other. -/
def canTake (taken need : List Nat) : Bool := need.all (fun r => decide (taken.count r < if r = 0 then 2 else 1))

/-- Whether heads are served: the firmware runs, or the loader in fallow mode, and no handover is in progress. -/
def State.serving (s : State) : Bool := (s.running || s.boot.phase == FALLOW) && s.fw.handover.isNone

/-- The head of a mailbox. -/
def State.cmdHead (s : State) (m : Nat) : Option MbCmd := (s.mbox m).cmds.head?

/-- The head of a mailbox changed. -/
def State.modHead (s : State) (m : Nat) (g : MbCmd → MbCmd) : State :=
  s.modMbox m (fun b => match b.cmds with
    | c :: t => { b with cmds := g c :: t }
    | [] => b)

/-- The heads that wait, in the order in which they became heads. -/
def State.waitingHeads (s : State) : List (Nat × MbCmd) :=
  ((List.range 8).filterMap (fun m => (s.cmdHead m).bind (fun c => if c.state = MB_QUEUED then some (m, c) else none))).insertionSort
    (fun a b => a.2.since ≤ b.2.since)

/-- The resources that running commands hold. -/
def State.taken (s : State) : List Nat :=
  (List.range 8).flatMap (fun m => match s.cmdHead m with
    | some c => if c.state = MB_RUNNING then c.resources else []
    | none => [])

/-- Waiting heads start as far as their resources are free, in order (R302, R307). A command that waits keeps its place
for what it needs. -/
def State.startHeads (s : State) : State :=
  if s.serving then
    (s.waitingHeads.foldl (fun (p : State × List Nat) e =>
      (if canTake p.2 e.2.resources then p.1.modHead e.1 (fun c => { c with state := MB_RUNNING }) else p.1,
       p.2 ++ e.2.resources)) (s, s.taken)).1
  else s

/-- The command in front of a mailbox becomes its head. -/
def State.newHead (s : State) (m : Nat) : State :=
  let t := s.modHead m (fun c => { c with since := s.serial })
  ({ t with serial := t.serial + 1 }.modMbox m (fun b => { b with reply := [] })).startHeads

/-- The head leaves its mailbox, and the next command becomes head. -/
def State.popHead (s : State) (m : Nat) : State :=
  (s.modMbox m (fun b => { b with cmds := b.cmds.drop 1 })).newHead m

/-! ## The end of a command (R302, R304) -/

/-- The final results and n_results, then the result and the state, then MB_DONE. A reply that R290 discards is not
written, and the next command becomes head at once. -/
def State.finishHead (s : State) (m : Nat) (c : MbCmd) (code : Nat) (results : List Word) : State :=
  if c.orphan then s.popHead m
  else
    let reply := results.zipIdx.foldl (fun (t : Tab Word) e => tabSet (fun _ => 0) t (66 + e.2) e.1) (s.mbox m).reply
    let reply := tabSet (fun _ => (0 : Word)) reply 65 (BitVec.ofNat 32 results.length)
    let st := if code = S_OK ∨ code = S_PARTIAL then MB_DONE_ST else MB_FAILED
    let t := s.modMbox m (fun b => { b with reply := reply, completed := (b.completed + 1) % 65536 })
    ((t.modHead m (fun c => { c with state := st, result := code })).startHeads).raise2 (MB_DONE m) c.tag code

/-- A partial-result record of `k` words (R304). -/
def State.addPartial (s : State) (m : Nat) (rec : List Word) : State :=
  match s.cmdHead m with
  | none => s
  | some c =>
    let k := rec.length
    let j := c.partials % (32 / k)
    let reply := rec.zipIdx.foldl (fun (t : Tab Word) e => tabSet (fun _ => 0) t (96 + j * k + e.2) e.1) (s.mbox m).reply
    (s.modMbox m (fun b => { b with reply := reply })).modHead m (fun c =>
      { c with partials := min 65535 (c.partials + 1), newPartial := true })

/-! ## The work of a command -/

/-- The command of a code at the head of mailbox `m` is worked on: it is running, not begun before, and passes the checks
of R306; what fails them ends with the code. -/
def State.withCmd (s : State) (m code : Nat) (f : State → MbCmd → State) : State :=
  match s.cmdHead m with
  | none => s
  | some c =>
    if c.state = MB_RUNNING ∧ c.code = code ∧ c.outcome = none ∧ !c.begun ∧ s.serving then
      let e := c.refusal (s.boot.phase == FALLOW)
      if e = 0 then f s c else s.outcome0 m e
    else s

/-- A step of a command of several steps: as `withCmd`, and again after it has begun (R305). -/
def State.workOn (s : State) (m code : Nat) (f : State → MbCmd → State) : State :=
  match s.cmdHead m with
  | none => s
  | some c =>
    if c.state = MB_RUNNING ∧ c.code = code ∧ c.outcome = none ∧ s.serving then
      let e := c.refusal (s.boot.phase == FALLOW)
      if e = 0 then f s c else s.outcome0 m e
    else s

/-- Work done by a step, in the command's own unit, and its progress. -/
def State.moved (s : State) (m k total : Nat) : State :=
  s.modHead m (fun c => { c with begun := true, done := c.done + k, progress := min 1000 ((c.done + k) * 1000 / total) })

/-- How many bytes the next step of a transfer of `total` bytes from `a` on moves, of at most `n`: a step that is not the last ends at
the end of a line (log 108). -/
def MbCmd.chunk (c : MbCmd) (a total n : Nat) : Nat :=
  if total ≤ c.done + n then total - c.done else (a + c.done + n) / 64 * 64 - (a + c.done)

/-- The head's work is under way, and its end is awaited. -/
def State.beginHead (s : State) (m : Nat) : State := s.modHead m (fun c => { c with begun := true })

/-! ## Requesters (R242, R251, R262) -/

/-- The class of a requester: 0 A, 1 B, 2 C. -/
def reqClass (r : Nat) : Nat := if r < 28 then 0 else if r < 30 then 1 else 2

/-- The group that a requester serves. -/
def State.reqGroup (s : State) (r : Nat) : Option Nat :=
  let g := if r < 16 then r / 4 else if r < 28 then (if r % 4 < s.nHeads then s.groupOf (r % 4) else 7)
    else if r = 34 then s.fld HD_MON0_group else 7
  if s.rasterOn g then some g else none

/-- The frame of a requester (R242), as a number that changes with it. -/
def State.reqFrame (s : State) (r : Nat) : Nat :=
  match s.reqGroup r with
  | some g => 2 * s.fld (HD_RASTER_STATUS_frame g) + 1
  | none => 2 * (s.tick / 8000000)

/-- An event raised once per requester per frame. -/
def State.reqRaise (s : State) (i r : Nat) : State :=
  let k := i * 64 + r
  if tabGet (fun _ => 0) s.reqRaised k = s.reqFrame r + 1 then s
  else { (s.raise i r) with reqRaised := tabSet (fun _ => 0) s.reqRaised k (s.reqFrame r + 1) }

/-- A request above the capacity (R242). -/
def State.outOfRange (s : State) (r : Nat) : State := (s.count (GR_REQ2_drops r) 1).reqRaise GR_RANGE r

/-- A line that a requester replaced (R262). -/
def State.replacedLine (s : State) (r : Nat) : State := (s.count (GR_REQ2_poison_lines r) 1).reqRaise GR_POISON r

/-! ## The channels of the Granary (R238, R258) -/

def CH_OFF : Nat := 0
def CH_RUN : Nat := 2
def CH_SR : Nat := 3
def CH_MIGRATING : Nat := 4

def State.chState (s : State) (c : Nat) : Nat := s.fld (GR_CHAN1_state c)

/-- The enabled channels. -/
def State.channels (s : State) : List Nat := List.range (2 ^ s.fld GR_CTRL_channels)

/-! ## The Gleaner's states (R388, R389, R392) -/

/-- The mailbox whose GL.RUN runs a task. -/
def State.demandOf (s : State) (t : Nat) : Option Nat :=
  (List.range 8).find? (fun m => (s.cmdHead m).any (fun c => c.begun && c.code == 0x0901 && c.arg 0 == t))

/-- A memory task waits while every enabled channel is held off or in self-refresh. -/
def State.memoryHeld (s : State) : Bool :=
  s.flag GR_CTRL_in_sr || s.channels.all (fun c => (s.chan c).gleanerHeld)

/-- The state words of the tasks. -/
def State.glStates (s : State) : State :=
  s.doAll [1, 2, 3, 4, 5, 6, 7] (fun u t =>
    let demand := (u.demandOf t).isSome
    let back := u.running && bitOf (u.fld GL_CTRL_bg_mask) (t - 1)
    u.setFld (GL_TASK0_state t)
      (if !demand && !back then 0 else if t ≤ 2 ∧ u.memoryHeld then 3 else if demand then 2 else 1))

/-- The Granary leaves self-refresh: exit, the DQS oscillators retracked, nothing owed. -/
def State.wake (s : State) : State :=
  if s.flag GR_CTRL_in_sr then
    ((s.setFld GR_CTRL_in_sr 0).doAll s.channels (fun t c =>
      (((t.setFld (GR_CHAN1_state c) (t.chan c).resume).setFld (GR_CHAN1_owed c) 0).emit (.dram c 0 6 0)).emit (.dram c 0 7 0))).glStates
  else s

/-! ## Images -/

/-- A code, or the work. -/
def State.orElse (s : State) (m code : Nat) (f : State → State) : State := if code = 0 then f s else s.outcome0 m code

/-- A Granary image of `n` bytes that a command names by arguments `i` and `i + 1`, read by requester `r`: refused, or the work
on it (R242, R262). -/
def State.withImage (s : State) (m r : Nat) (c : MbCmd) (i align n : Nat) (f : State → Nat → State) : State :=
  match c.addr i with
  | none => s.outcome0 m E_BAD_ARG
  | some a =>
    if a % align ≠ 0 then s.outcome0 m E_BAD_ARG
    else if s.capacity < a + n then (s.outOfRange r).outcome0 m E_RANGE
    else if s.rangePoisoned a n then s.outcome0 m E_POISON
    else f s.wake a


/-- A command of the request region joins its mailbox (R301). -/
def State.submit (s : State) (m : Nat) (spi : Bool) : State :=
  let b := s.mbox m
  if 4 ≤ b.cmds.length then
    (s.setMbox m { b with lastSubmit := S_BUSY, busy := min 65535 (b.busy + 1) }).raise MB_BUSY m
  else
    let w := fun i : Nat => (tabGet (fun _ => (0 : Word)) b.request i)
    let n := getBits (w 0) 16 8
    let c : MbCmd :=
      { id := s.serial, code := getBits (w 0) 0 16, nArgs := n, kind := getBits (w 1) 0 3, target := getBits (w 1) 4 6,
        band := getBits (w 1) 10 5, tag := getBits (w 1) 16 16, args := (List.range (min n 62)).map (fun i => w (2 + i)),
        spi := spi, state := MB_QUEUED, result := 0, outcome := none, progress := 0, partials := 0, newPartial := false,
        sheaf := none, orphan := false, begun := false, done := 0, since := 0 }
    let t := s.setMbox m { b with cmds := b.cmds ++ [c], lastSubmit := S_QUEUED }
    let t := { t with serial := t.serial + 1 }
    if b.cmds.isEmpty then t.newHead m else t

/-- MAILBOX_DOORBELL, R301. -/
def execMailboxDoorbell (i : Iface) (m : Fin 8) (v : Word) (s : State) : Result :=
  s.host i (fun t => if v.getLsbD 0 then t.submit m (i == .spi) else t)

/-- An acknowledgement of the head (R303). -/
def State.ackHead (s : State) (m : Nat) : State :=
  match s.cmdHead m with
  | some c => if c.state = MB_DONE_ST ∨ c.state = MB_FAILED then s.popHead m else s
  | none => s

/-- MB_STATUS of a mailbox (R302). -/
def State.mbStatus (s : State) (m : Nat) : Word :=
  match s.cmdHead m with
  | some c => BitVec.ofNat 32 (c.state + c.progress * 2 ^ 4 + c.partials * 2 ^ 14 + c.newPartial.toNat * 2 ^ 31)
  | none => 0

/-- The result of a head as MB_RESULT shows it (R302). -/
def MbCmd.shown (c : MbCmd) : Nat :=
  if c.state = MB_QUEUED then S_QUEUED else if c.state = MB_RUNNING then S_RUNNING else c.result

/-- A mailbox control register as it reads, without the effect of the read. -/
def State.mbRegister (s : State) (m off : Nat) : Word :=
  let b := s.mbox m
  match off with
  | 0x04 => s.mbStatus m
  | 0x08 => match s.cmdHead m with
    | some c => BitVec.ofNat 32 (c.shown + c.tag * 2 ^ 16)
    | none => 0
  | 0x10 => BitVec.ofNat 32 (b.cmds.length + (match s.cmdHead m with
    | some c => c.spi.toNat * 8
    | none => 0) + b.lastSubmit * 2 ^ 16)
  | 0x14 => BitVec.ofNat 32 (b.busy + b.completed * 2 ^ 16)
  | _ => 0

/-- The bits of a request word that are not reserved (R300). -/
def requestMask (w : Nat) : Word := if w = 0 then 0x00FFFFFF else if w = 1 then 0xFFFF7FF7 else 0xFFFFFFFF

/-- A word of a mailbox's request and reply area as it reads; reserved bits read 0 (R8, R300). -/
def State.mbWord (s : State) (m w : Nat) : Word :=
  let b := s.mbox m
  if w < 64 then tabGet (fun _ => 0) b.request w &&& requestMask w
  else if w = 64 then match s.cmdHead m with
    | some c => BitVec.ofNat 32 (c.tag + c.code * 2 ^ 16)
    | none => 0
  else tabGet (fun _ => 0) b.reply w

/-- The read of MB_STATUS clears new_partial. -/
def State.readStatus (s : State) (m : Nat) : State := s.modHead m (fun c => { c with newPartial := false })

end Sys2Proof.Machine
end

