-- ==== Sys2Proof/Machine/Wire.lean ====
section
/-!
DEFINITION. The Ramvos wire: blocks, the scrambler, columns and control blocks (R29 to R33), packets (R39), the lanes of an ingest
port as received (R31, R38), and STATUS packets on the tally lane (R42). Bit 0 of a block is sent first: header bits [3:0], payload
bits [131:4].
-/

namespace Sys2Proof.Machine

/-! ## Blocks and the scrambler (R29, R30) -/

def dataHeader : BitVec 4 := 0b0011#4
def ctrlHeader : BitVec 4 := 0b1100#4

def blockHeader (b : BitVec 132) : BitVec 4 := b.extractLsb' 0 4
def blockBits (b : BitVec 132) : BitVec 128 := b.extractLsb' 4 128

/-- Whether a block's header is one of the two; any other is a header error (R29). -/
def headerValid (b : BitVec 132) : Bool := blockHeader b == dataHeader || blockHeader b == ctrlHeader

/-- One bit through the scrambler's register: what is added to it, and the register after scrambled bit `o`. -/
def scramblerBit (r : BitVec 58) : Bool := r.getLsbD 38 != r.getLsbD 57
def scramblerNext (r : BitVec 58) (o : Bool) : BitVec 58 := (r <<< 1) ||| (if o then 1#58 else 0#58)

/-- A payload with bit `i` set to `b`, where it was 0. -/
def withBit (x : BitVec 128) (i : Nat) (b : Bool) : BitVec 128 := if b then x ||| (1#128 <<< i) else x

/-- A payload scrambled, bit 0 first, and the register after it (R30). -/
def scramble (r : BitVec 58) (x : BitVec 128) : BitVec 128 × BitVec 58 :=
  (List.range 128).foldl (fun (a : BitVec 128 × BitVec 58) i =>
    let o := x.getLsbD i != scramblerBit a.2
    (withBit a.1 i o, scramblerNext a.2 o)) (0#128, r)

/-- A payload descrambled, and the register after it (R30). -/
def descramble (r : BitVec 58) (y : BitVec 128) : BitVec 128 × BitVec 58 :=
  (List.range 128).foldl (fun (a : BitVec 128 × BitVec 58) i =>
    (withBit a.1 i (y.getLsbD i != scramblerBit a.2), scramblerNext a.2 (y.getLsbD i))) (0#128, r)

/-! ## Control blocks (R32) -/

def amBlock (lane : Nat) (marker : BitVec 16) : BitVec 128 :=
  BitVec.ofNat 128 (0x4B + lane * 2 ^ 8 + marker.toNat * 2 ^ 16 + 0x5A3C96F0 * 2 ^ 32)
def trainBlock (lane preset : Nat) : BitVec 128 := BitVec.ofNat 128 (0x54 + lane * 2 ^ 8 + preset % 8 * 2 ^ 14)
def laneMapBlock (spare0 spare1 : Nat) (marker : BitVec 16) : BitVec 128 :=
  BitVec.ofNat 128 (0x4C + spare0 * 2 ^ 14 + spare1 * 2 ^ 20 + marker.toNat * 2 ^ 26)
def resetBlock (band tag : Nat) (glob : Bool) : BitVec 128 :=
  BitVec.ofNat 128 (0x52 + band * 2 ^ 8 + glob.toNat * 2 ^ 13 + tag * 2 ^ 14)
def lineStartBlock (beam line : Nat) (reverse : Bool) : BitVec 128 :=
  BitVec.ofNat 128 (0x53 + beam * 2 ^ 8 + line * 2 ^ 10 + reverse.toNat * 2 ^ 24)

/-! ## Columns of a head port (R32, R33, R37) -/

/-- The blocks of a column on the lanes of head `h`, where lane `i` has header `hd` and payload `f i`. A lane whose data a spare
carries has TRAIN columns; a spare carries an exact copy. -/
def State.columnLanes (s : State) (h : Nat) (hd : BitVec 4) (f : Nat → BitVec 128) : List (Nat × BitVec 4 × BitVec 128) :=
  let a := s.fld (HD_RVH_STATUS_spare0_for h)
  let b := s.fld (HD_RVH_STATUS_spare1_for h)
  let q := s.port (h + 2)
  (List.range (s.fld (HD_RVH_CTRL_lanes h))).map (fun i =>
    if i = a ∨ i = b then (i, ctrlHeader, trainBlock i (tabGet (fun _ => 0) q.presets i)) else (i, hd, f i)) ++
  (if a = 63 then [] else [(40, hd, f a)]) ++ (if b = 63 then [] else [(41, hd, f b)]) ++
  (match q.sparing with
   | some (k, sp) => if q.copying then [(sp, hd, f k)] else []
   | none => [])

/-- One column put on the lanes, each lane through its scrambler, at the next column position. -/
def State.putColumn (s : State) (h : Nat) (hd : BitVec 4) (f : Nat → BitVec 128) : State :=
  let q := s.port (h + 2)
  let put := fun (a : List (Nat × BitVec 132) × Tab (BitVec 58)) (e : Nat × BitVec 4 × BitVec 128) =>
    let r := scramble (tabGet (fun _ => 0) a.2 e.1) e.2.2
    (a.1 ++ [(e.1, r.1 ++ e.2.1)], tabSet (fun _ => 0) a.2 e.1 r.2)
  let out := (s.columnLanes h hd f).foldl put ([], q.scr)
  { s with wire := { head := h, blocks := out.1 } :: s.wire }.setPort (h + 2) { q with scr := out.2, col := q.col + 1 }

/-- The AM column of head `h` (R33): the marker count goes on, and a spare that has been taken carries its copy from here on
(R37). -/
def State.sendAm (s : State) (h : Nat) : State :=
  let t := s.modPort (h + 2) (fun q => { q with markers := q.markers + 1, copying := q.sparing.isSome })
  (t.putColumn h ctrlHeader (fun i => amBlock i (t.port (h + 2)).markers)).modPort (h + 2) (fun q => { q with col := 0 })

/-- A column sent at the next position that is not an AM column's: every 16,384th is (R33). -/
def State.sendColumn (s : State) (h : Nat) (hd : BitVec 4) (f : Nat → BitVec 128) : State :=
  (s.doIf (decide (16383 ≤ (s.port (h + 2)).col)) (·.sendAm h)).putColumn h hd f

def State.sendTrain (s : State) (h : Nat) : State :=
  s.sendColumn h ctrlHeader (fun i => trainBlock i (tabGet (fun _ => 0) (s.port (h + 2)).presets i))

/-- DATA blocks join the stream of a head port, which goes out column by column, lane 0 first (R31, R32). -/
def State.sendBlocks (s : State) (h : Nat) (l : List (BitVec 128)) : State :=
  let n := s.fld (HD_RVH_CTRL_lanes h)
  let all := (s.port (h + 2)).stream ++ l
  let whole := all.length / n
  let t := s.doAll (List.range whole) (fun u j => u.sendColumn h dataHeader (fun i => all.getD (j * n + i) 0))
  t.modPort (h + 2) (fun q => { q with stream := all.drop (whole * n) })

/-! ## Packets (R39) -/

/-- The header block of a packet: type, payload blocks, seq, and its type fields from bit 48 on. -/
def packetHeader (type blocks : Nat) (seq : BitVec 16) (fields : Nat) : BitVec 128 :=
  let n := type + 2 ^ 8 + blocks % 2 ^ 16 * 2 ^ 16 + seq.toNat * 2 ^ 32 + fields % 2 ^ 64 * 2 ^ 48
  let reg := crc16Bits ((List.range 112).map n.testBit)
  BitVec.ofNat 128 (n + reverse16 reg * 2 ^ 112)

/-- The trailer block of a packet: the CRC-32 over header and payload, and the seq. -/
def packetTrailer (header : BitVec 128) (payload : List Byte) : BitVec 128 :=
  BitVec.ofNat 128 (crc32 (natLe 16 header.toNat ++ payload) + (header.extractLsb' 32 16).toNat * 2 ^ 32)

/-- Bytes padded with zeros to whole blocks. -/
def padBlocks (l : List Byte) : List Byte := l ++ List.replicate ((16 - l.length % 16) % 16) 0

/-- The 16-byte blocks of a run of bytes. -/
def blocksOf (l : List Byte) : List (BitVec 128) :=
  (List.range (l.length / 16)).map (fun i => BitVec.ofNat 128 (leNat ((l.drop (16 * i)).take 16)))

/-- A packet sent on head `h`: `o` as it is listed, and its blocks in the stream (R39). -/
def State.sendPacket (s : State) (h : Nat) (o : Out) (type fields : Nat) (payload : List Byte) : State :=
  let l := padBlocks payload
  let seq := (s.port (h + 2)).seqOut + 1
  let hd := packetHeader type (l.length / 16) seq fields
  let t := (s.emit o).modPort (h + 2) (fun q => { q with seqOut := seq })
  t.sendBlocks h (hd :: blocksOf l ++ [packetTrailer hd l])

/-- A FILL block sent (R39). -/
def State.sendFill (s : State) (h : Nat) : State := (s.emit (.fill h)).sendBlocks h [0]

/-- Numbers of a width packed least significant bit first. -/
def packBits (width : Nat) (l : List Nat) : List Byte :=
  natLe (ceilDiv (width * l.length) 8) (l.reverse.foldl (fun a c => a * 2 ^ width + c % 2 ^ width) 0)

/-! ## Headers as received (R39, R40) -/

/-- The packet types of R39. -/
def packetTypes : List Nat := [0x11, 0x21, 0x22, 0x31, 0x32]

/-- Whether a block is a good header: hcrc, type and length (R40). -/
def headerGood (hd : BitVec 128) : Bool :=
  let n := hd.toNat
  hcrcGood hd && packetTypes.contains (bits n 0 8) &&
    (bits n 16 16 != 0 || bits n 0 8 == 0x31 || bits n 0 8 == 0x32)

/-- Whether a good header's seq ends a hunt: 1 to 8 ahead of the last good one, or any when there is none (R40). -/
def seqAhead (last : Option (BitVec 16)) (seq : BitVec 16) : Bool :=
  match last with
  | none => true
  | some l => decide (1 ≤ (seq - l).toNat) && decide ((seq - l).toNat ≤ 8)

/-- The seq of a header. -/
def headerSeq (hd : BitVec 128) : BitVec 16 := hd.extractLsb' 32 16

/-- Whether a receiver takes a block as the header of a packet: it is good and, in a hunt, ahead of the last good one (R40). -/
def Port.accepts (q : Port) (hd : BitVec 128) : Bool := headerGood hd && (!q.hunting || seqAhead q.lastSeq (headerSeq hd))

/-- A header taken, which ends a hunt. -/
def Port.took (q : Port) (hd : BitVec 128) : Port := { q with hunting := false, lastSeq := some (headerSeq hd) }

/-- Whether a packet is whole: as many payload blocks as its header names, and a trailer with its CRC-32 and seq. A trailer with
another seq spoils the packet as a bad CRC-32 does (log 137). -/
def packetWhole (hd : BitVec 128) (payload : List Byte) (trailer : BitVec 128) : Bool :=
  payload.length == 16 * (hd.extractLsb' 16 16).toNat &&
    (trailer.extractLsb' 0 48) == (packetTrailer hd payload).extractLsb' 0 48

/-! ## The lanes of an ingest port (R31, R38) -/

/-- One block received on a lane: the run of valid headers, which of the last 64 were not, and the descrambler's register. -/
def RxLane.take (x : RxLane) (b : BitVec 132) : RxLane :=
  let ok := headerValid b
  { run := if ok then min 64 (x.run + 1) else 0
    invalid := (x.invalid <<< 1) ||| (if ok then 0#64 else 1#64)
    scr := (descramble x.scr (blockBits b)).2 }

/-- The headers that are not valid among the last 64. -/
def RxLane.bad (x : RxLane) : Nat := ((List.range 64).filter (fun i => x.invalid.getLsbD i)).length

/-- Block lock after 64 consecutive valid headers; loss of lock at 16 invalid ones in the last 64 (R31). -/
def RxLane.locks (x : RxLane) : Bool := x.run == 64
def RxLane.loses (x : RxLane) : Bool := decide (16 ≤ x.bad)

def rxReset (_ : Nat) : RxLane := RxLane.reset

/-- The receiver of a lane. -/
def Port.lane (q : Port) (i : Nat) : RxLane := tabGet rxReset q.rx i

/-- Blocks received on a lane. -/
def State.receive (s : State) (p lane : Nat) (l : List (BitVec 132)) : State :=
  s.modPort p (fun q => { q with rx := tabSet rxReset q.rx lane (l.foldl RxLane.take (q.lane lane)) })

/-- The block of a lane in a column; a lane that the column does not list has no valid header. -/
def columnBlock (c : List (BitVec 132)) (i : Nat) : BitVec 132 := c.getD i 0

/-- The payload of a lane in a column, descrambled. -/
def State.lanePayload (s : State) (p : Nat) (c : List (BitVec 132)) (i : Nat) : BitVec 128 :=
  (descramble ((s.port p).lane i).scr (blockBits (columnBlock c i))).1

/-- Lanes 0 to lanes - 1 of an ingest port, and lane 16 with parity. -/
def State.ingestLanes (s : State) (p : Nat) : List Nat :=
  List.range (s.fld (HD_INGEST_CTRL_lanes p)) ++ (if s.flag (HD_INGEST_CTRL_parity_en p) then [16] else [])

/-- The payload of a lane rebuilt: the XOR of the payloads of the other lanes of the column (R38). -/
def State.rebuiltPayload (s : State) (p : Nat) (c : List (BitVec 132)) (lane : Nat) : BitVec 128 :=
  ((s.ingestLanes p).filter (· != lane)).foldl (fun a i => a ^^^ s.lanePayload p c i) 0

/-- The lane that is rebuilt from parity. -/
def State.rebuilt (s : State) (p : Nat) : Option Nat :=
  if s.flag (HD_INGEST_STATUS_parity_in_use p) then some (s.fld (HD_INGEST_STATUS_rebuilt_lane p)) else none

/-- The payload that a lane of a column brings, rebuilt where it has failed. -/
def State.laneData (s : State) (p : Nat) (c : List (BitVec 132)) (lane : Nat) : BitVec 128 :=
  if s.rebuilt p = some lane then s.rebuiltPayload p c lane else s.lanePayload p c lane

/-- A column received on every lane of an ingest port. -/
def State.receiveColumn (s : State) (p : Nat) (c : List (BitVec 132)) : State :=
  s.doAll (s.ingestLanes p) (fun t i => t.receive p i [columnBlock c i])

/-- The lanes of a column that show a header error. -/
def State.headerErrors (s : State) (p : Nat) (c : List (BitVec 132)) : List Nat :=
  (s.ingestLanes p).filter (fun i => !headerValid (columnBlock c i))

/-- Whether a column is a control column: the first lane with a valid header tells, since all carry the same (R32). -/
def State.controlColumn (s : State) (p : Nat) (c : List (BitVec 132)) : Bool :=
  ((s.ingestLanes p).find? (fun i => headerValid (columnBlock c i))).any (fun i => blockHeader (columnBlock c i) == ctrlHeader)

/-- The marker count of an AM column whose blocks agree on every lane but one that is rebuilt (R32, R34). -/
def State.alignedAm (s : State) (p : Nat) (c : List (BitVec 132)) : Option (BitVec 16) :=
  match (s.ingestLanes p).filter (fun i => s.rebuilt p != some i) with
  | [] => none
  | i0 :: l =>
    let m := (s.lanePayload p c i0).extractLsb' 16 16
    if (i0 :: l).all (fun i => blockHeader (columnBlock c i) == ctrlHeader && s.lanePayload p c i == amBlock i m) then some m
    else none

/-! ## STATUS packets on the tally lane (R42) -/

/-- Characters of the tally lane: bit 8 tells a K character, bits [7:0] are its byte. -/
def charK27_7 : BitVec 9 := 0x1FB#9
def charK29_7 : BitVec 9 := 0x1FD#9

/-- The blocks between K27.7 and K29.7: header, payload bytes, trailer; none where the framing is broken. -/
def statusBlocks (l : List (BitVec 9)) : Option (BitVec 128 × List Byte × BitVec 128) :=
  let body := (l.drop 1).dropLast
  let bytes := body.map (fun c => c.extractLsb' 0 8)
  let n := bytes.length
  if l.head? = some charK27_7 ∧ l.getLast? = some charK29_7 ∧ 32 ≤ n ∧ n % 16 = 0 ∧ body.all (fun c => !c.getLsbD 8) then
    some (BitVec.ofNat 128 (leNat (bytes.take 16)), (bytes.drop 16).take (n - 32), BitVec.ofNat 128 (leNat (bytes.drop (n - 16))))
  else none

end Sys2Proof.Machine
end

