-- ==== Sys2Proof/Machine/Link.lean ====
section
/-!
DEFINITION. The Ramvos ports: training, sparing, parity, tally messages and CMD exchanges (R28 to R49). Ports 0 and 1
are the ingest ports, ports 2 to 5 the head ports of heads 0 to 3.
-/

namespace Sys2Proof.Machine

def portState (p : Nat) : Field := if p < 2 then HD_INGEST_STATUS_state p else HD_RVH_STATUS_state (p - 2)
def portAttempts (p : Nat) : Field := if p < 2 then HD_INGEST_STATUS_attempts p else HD_RVH_STATUS_attempts (p - 2)
def portMaxAttempts (p : Nat) : Field :=
  if p < 2 then HD_INGEST_CTRL_max_attempts p else HD_RVH_CTRL_max_attempts (p - 2)
def portLanes (p : Nat) : Field := if p < 2 then HD_INGEST_CTRL_lanes p else HD_RVH_CTRL_lanes (p - 2)

/-- The number of a port in event data: 0 and 1 ingest, 4 to 7 head 0 to 3 (R316). -/
def portNumber (p : Nat) : Nat := if p < 2 then p else p + 2

/-- The training state of head `h`'s port. -/
def State.headState (s : State) (h : Nat) : Nat := s.fld (HD_RVH_STATUS_state h)

/-- A port carries traffic in ACTIVE and SPARING. -/
def State.portUp (s : State) (p : Nat) : Bool := s.fld (portState p) == ACTIVE || s.fld (portState p) == SPARING

/-- The ticks of 10 us. -/
def ticks10us : Nat := 8000

/-! ## CMD exchanges (R41, R148) -/

/-- What an awaited answer is for: MODE, LOAD_TIMING, or 2 + m for HEAD.CMD on mailbox m. -/
def forMode : Nat := 0
def forTiming : Nat := 1
def forMailbox (m : Nat) : Nat := 2 + m

/-- A CMD packet sent on head `h`, with a new ctag; its answer is awaited. -/
def State.sendCmd (s : State) (h opcode arg0 : Nat) (payload : List Word) (what : Nat) : State :=
  let tag := (s.port (h + 2)).ctag + 1
  (s.modPort (h + 2) (fun q => { q with ctag := tag, awaited := q.awaited ++ [(tag.toNat, what, opcode, arg0)] })).sendPacket h
    (.cmd h opcode tag.toNat arg0 payload) 0x31 (opcode % 2 ^ 16 + tag.toNat * 2 ^ 16 + arg0 % 2 ^ 16 * 2 ^ 32) (wordsBytes payload)

/-- The items of MODE (R41): mode, width, height, bands or beams, channels. -/
def State.modePayload (s : State) (h : Nat) : List Word :=
  let g := s.groupOf h
  let l := s.lineMode h
  [l.toNat, s.fld (HD_RASTER1_h_active g), s.fld (HD_RASTER3_v_active g),
   if l then s.fld (LM_CTRL_beams h) else s.fld (SQ_CTRL_bands h), s.fld (LM_CTRL_channels h)].map (BitVec.ofNat 32)

/-- MODE sent (R41, R76); the head is not parked from then on (R331). -/
def State.sendMode (s : State) (h : Nat) : State :=
  (s.sendCmd h 0x0002 0 (s.modePayload h) forMode).modPort (h + 2) (fun q => { q with parked := false })

/-- The number of a resampling-table entry in `State.resample`. -/
def resampleKey (h bank i : Nat) : Nat := (h * 2 + bank) * 8192 + i

/-- The emission instant of pixel `i` in a bank of head `h`'s resampling table (R147). -/
def State.emission (s : State) (h bank i : Nat) : Nat :=
  bits (tabGet (fun _ => 0#64) s.resample (resampleKey h bank i)).toNat 0 24

/-- LOAD_TIMING sent with the instants of the bank in use, one word a pixel, padded to a whole block (R148). -/
def State.sendTiming (s : State) (h : Nat) : State :=
  let n := s.fld (HD_RASTER1_h_active (s.groupOf h))
  let bank := s.fld (LM_CTRL_table_bank h)
  let ws := (List.range n).map (fun i => BitVec.ofNat 32 (s.emission h bank i))
  let t := s.modPort (h + 2) (fun q => { q with timingOk := false })
  t.sendCmd h 0x0006 0 (ws ++ List.replicate ((4 - n % 4) % 4) 0) forTiming

/-! ## HEAD.CMD (R306) -/

/-- The mailboxes whose HEAD.CMD waits for the port of head `h` to train. -/
def State.headWaits (s : State) (h : Nat) : List Nat :=
  (List.range 8).filter (fun m => (s.cmdHead m).any (fun c =>
    c.state == MB_RUNNING && c.begun && c.code == 0x0201 && c.outcome.isNone && c.arg 0 % 4 == h &&
      !(s.port (h + 2)).awaited.any (fun a => a.2.1 == forMailbox m)))

/-- The CMD packet of a HEAD.CMD sent. -/
def State.sendHeadCmd (s : State) (m h : Nat) : State :=
  match s.cmdHead m with
  | some c => s.sendCmd h (bits (c.arg 1) 0 16) (bits (c.arg 1) 16 16) ((c.args.drop 3).take (4 * c.arg 2)) (forMailbox m)
  | none => s

/-! ## Training (R34 to R36) -/

/-- A new training state. A head port that enters BLOCK_LOCK or EQ sends TRAIN columns from then on (R34); one stands for those that
repeat it (log 138). A HEAD.CMD that waits for the port fails with E_STATE when the port is disabled or fails. -/
def State.setPortState (s : State) (p st : Nat) : State :=
  let t := (s.setFld (portState p) st).doIf (decide (2 ≤ p) && (st == BLOCK_LOCK || st == EQ)) (·.sendTrain (p - 2))
  t.doIf (decide (2 ≤ p) && (st == DISABLED || st == FAILED)) (fun u =>
    u.doAll (u.headWaits (p - 2)) (fun v m => v.outcome0 m E_STATE))

/-- The loads in progress on a head port that leaves ACTIVE are dropped (R140). -/
def State.dropLoads (s : State) (h : Nat) : State :=
  s.doAll (List.range 32) (fun t b => t.modBandOf (h * 32 + b) (fun x => { x with load := none, tails := [] }))

/-- The port leaves ACTIVE or SPARING: the instant of the loss is kept, and the head is dark until the first whole
frame after the port is ACTIVE again (R36). -/
def State.portLost (s : State) (p : Nat) : State :=
  if s.portUp p then
    (s.modPort p (fun q => { q with lossTick := q.lossTick.or (some s.tick), darkUntilFrame := true, sparing := none,
                                    copying := false, mapAt := none, parked := false, stream := [] })).doIf (decide (2 ≤ p)) (fun t => (t.dropLoads (p - 2)).darkHead (p - 2))
  else s

/-- The presets a training starts from: the stored set, or start_preset on every lane. -/
def State.startPresets (s : State) (h : Nat) (stored : Bool) : State :=
  let q := s.port (h + 2)
  match stored, q.stored with
  | true, some l => s.setPort (h + 2) { q with presets := (l.zipIdx).foldl (fun t x => tabSet (fun _ => 0) t x.2 (x.1 % 8)) [] }
  | _, _ =>
    let v := s.fld (HD_RVH_CTRL_start_preset h)
    (s.setPort (h + 2) { q with presets := (List.range 42).foldl (fun t i => tabSet (fun _ => 0) t i v) [] }).emit
      (.preset h 63 v)

/-- FAILED at max_attempts (R34). -/
def State.trainFail (s : State) (p : Nat) : State :=
  (s.setPortState p FAILED).raise RV_TRAIN_FAIL (portNumber p)

/-- The number of lanes of a port's SERDES records, the tally lane last (R331). -/
def portRecordLanes (p : Nat) : Nat := if p < 2 then 17 else 43

/-- The equalisation of a port as its SERDES records hold it (R331): the preset of each lane, and the receiver settings to which the
device has adapted, whose CTLE and DFE values are free. -/
def State.equalisation (s : State) (p : Nat) : List Nat × State :=
  (List.range (portRecordLanes p)).foldl (fun (a : List Nat × State) i =>
    let (v, u) := a.2.draw
    (a.1 ++ [tabGet (fun _ => 0) (s.port p).presets i % 8 + v % 2 ^ 24 * 2 ^ 8], u)) ([], s)

/-- The SERDES records of a port written as one set (R35, R343). While the write window is closed the writes are deferred (R329). -/
def State.writeSerdes (s : State) (p : Nat) (l : List Nat) : State :=
  let ws := l.map (BitVec.ofNat 32)
  let base := 0xE0 + 4 * portNumber p
  let recs := (List.range (if p < 2 then 2 else 4)).map (fun j => (base + j, (ws.drop (12 * j)).take 12))
  let t := s.setFld (CL_INST_state 7 (portNumber p)) 1
  if t.nvOpen then t.writeSet recs else t.doAll recs (fun u e => u.ownWrite e.1 e.2)

/-- The port reaches ACTIVE: presets and receiver settings stored, and written to the root cellar where they differ from those stored
(R35, R343), the time from loss reported (R36), after an enable, and where one fell due meanwhile, MODE and LOAD_TIMING sent (R41,
R76, R148), and the packets of HEAD.CMDs that have waited (R306). -/
def State.toActive (s : State) (p : Nat) : State :=
  let q := s.port p
  let (eq, s1) := s.equalisation p
  let t := (s1.setPortState p ACTIVE).modPort p (fun x =>
    { x with lossTick := none, everActive := true, lastSeq := none, hunting := false, fromRetrain := false
             stored := some eq, modeDue := false, timingDue := false })
  let t := t.doIf (q.stored != some eq) (·.writeSerdes p eq)
  let t := match q.lossTick with
    | none => t
    | some at0 =>
      let u := min 4095 ((s.tick - at0) / ticks10us)
      (t.doIf (decide (2 ≤ p)) (·.setFld (HD_RVH_STATUS_last_retrain (p - 2)) u)).raise2 RV_RETRAIN (portNumber p) u
  if 2 ≤ p then
    let h := p - 2
    let t := (t.supplySync h).doIf (!q.everActive || q.modeDue) (·.sendMode h)
    let t := t.doIf (s.lineMode h && (!q.everActive || q.timingDue)) (·.sendTiming h)
    t.doAll (t.headWaits h) (·.sendHeadCmd · h)
  else t

/-! ## Lanes in use (R34, R37, R38) -/

/-- Lanes that must be locked: data lanes not carried by a spare, the spares in use, and lane 16 with parity. -/
def State.laneInUse (s : State) (p lane : Nat) : Bool :=
  if p < 2 then decide (lane < s.fld (portLanes p)) || (lane == 16 && s.flag (HD_INGEST_CTRL_parity_en p))
  else
    let a := s.fld (HD_RVH_STATUS_spare0_for (p - 2))
    let b := s.fld (HD_RVH_STATUS_spare1_for (p - 2))
    (decide (lane < s.fld (portLanes p)) && lane != a && lane != b) || (lane == 40 && a != 63) || (lane == 41 && b != 63)

/-- Whether every lane in use is locked. The parity lane counts as any other, and no lane is rebuilt or replaced while the port is in
BLOCK_LOCK: DESIGN CHOICE, log 136. -/
def State.allLocked (s : State) (p : Nat) : Bool :=
  (List.range 42).all (fun i => !s.laneInUse p i || (s.port p).locks.getLsbD i)

/-- All lanes in use are locked: BLOCK_LOCK is left (R34). On a head port EQ is skipped with a stored set. -/
def State.locksDone (s : State) (p : Nat) : State :=
  if s.fld (portState p) ≠ BLOCK_LOCK ∨ !s.allLocked p then s
  else if p < 2 then (s.modPort p (fun q => { q with goodAms := 0 })).setPortState p DESKEW
  else
    let q := s.port p
    let skip := (s.flag (HD_RVH_CTRL_use_stored_eq (p - 2)) || q.fromRetrain) && q.stored.isSome
    s.setPortState p (if skip then DESKEW else EQ)

/-- BLOCK_LOCK is entered; a port whose lanes are all locked leaves it at once. -/
def State.blockLock (s : State) (p : Nat) : State := (s.setPortState p BLOCK_LOCK).locksDone p

/-- Training starts at the port's first training state (R34): a full training. -/
def State.startTraining (s : State) (p : Nat) : State :=
  let t := (s.portLost p).modPort p (fun q => { q with goodAms := 0, fromRetrain := false })
  if p < 2 then t.blockLock p else t.setPortState p TALLY_LOCK

/-- RETRAIN (R34): the attempt count starts at 0, and training continues at BLOCK_LOCK with stored equalisation, or at
TALLY_LOCK on a head port without valid CAPS. -/
def State.retrain (s : State) (p : Nat) : State :=
  let t := ((s.portLost p).setFld (portAttempts p) 0).modPort p (fun q => { q with goodAms := 0, fromRetrain := true })
  if p < 2 then t.blockLock p
  else if t.flag (HD_RVH_STATUS_caps_valid (p - 2)) then (t.startPresets (p - 2) true).blockLock p
  else t.setPortState p TALLY_LOCK

/-- The port is enabled (R34, R41). No lane is carried by a spare from then on: DESIGN CHOICE, log 139. -/
def State.portEnable (s : State) (p : Nat) : State :=
  let t := (s.setFld (portAttempts p) 0).setPort p { Port.reset with stored := (s.port p).stored, ctag := (s.port p).ctag }
  let t := t.doIf (decide (2 ≤ p)) (fun u =>
    (u.setFld (HD_RVH_STATUS_spare0_for (p - 2)) 63).setFld (HD_RVH_STATUS_spare1_for (p - 2)) 63)
  t.startTraining p

/-- The port is disabled: DISABLED, and caps_valid cleared (R34, R41). -/
def State.portDisable (s : State) (p : Nat) : State :=
  let t := (s.portLost p).setPortState p DISABLED
  let t := t.setPort p { Port.reset with stored := (s.port p).stored, ctag := (s.port p).ctag }
  if p < 2 then
    ((t.setFld (HD_INGEST_STATUS_lane_lock p) 0).setFld (HD_INGEST_STATUS_parity_in_use p) 0).setFld
      (HD_INGEST_STATUS_rebuilt_lane p) 0
  else t.setFld (HD_RVH_STATUS_caps_valid (p - 2)) 0

/-- A write of retrain = 1 (R34, R52): no effect on a disabled port. -/
def State.portRetrain (s : State) (p : Nat) : State := if s.fld (portState p) = DISABLED then s else s.retrain p

/-- TRAINING_TIMEOUT, R34: one attempt is counted; training restarts or the port fails. -/
def execTrainingTimeout (port : Fin 6) (s : State) : Result :=
  let p := port.val
  let st := s.fld (portState p)
  if st = DISABLED ∨ st = ACTIVE ∨ st = RETRAIN ∨ st = FAILED then .next s
  else
    let n := s.fld (portAttempts p) + 1
    let t := (s.portLost p).setFld (portAttempts p) n
    if n < s.fld (portMaxAttempts p) then .next (t.startTraining p) else .next (t.trainFail p)

/-- TALLY_LOCK_ACQUIRED, R34. -/
def execTallyLockAcquired (h : Fin 4) (s : State) : Result :=
  if s.headState h = TALLY_LOCK then .next (s.setPortState (h + 2) CAPS_STATE) else .next s

/-- TALLY_LOSS, R34, R36: an ACTIVE head port leaves ACTIVE. -/
def execTallyLoss (h : Fin 4) (s : State) : Result := if s.portUp (h + 2) then .next (s.retrain (h + 2)) else .next s

/-! ## CAPS (R41) -/

/-- Whether a head's configuration exceeds the CAPS of its modulator (R41). -/
def State.capsFail (s : State) (h : Nat) (caps : BitVec 128) : Bool :=
  let c := caps.toNat
  let g := s.groupOf h
  let l := s.lineMode h
  !(bitOf (bits c 48 8) (if l then 1 else 0)) || decide (bits c 40 8 < s.fld (HD_RVH_CTRL_lanes h)) ||
  (decide (g < 4) && (decide (bits c 0 16 < s.fld (HD_RASTER1_h_active g)) ||
    decide (bits c 16 16 < s.fld (HD_RASTER3_v_active g)))) ||
  (if l then decide (bits c 32 8 < s.fld (LM_CTRL_beams h))
   else decide (bits c 32 8 < s.fld (SQ_CTRL_bands h)) ||
     (s.flag (SQ_CTRL_phase_global h) && !bitOf (bits c 48 8) 2))

/-- L_sweep of a line-mode head in tu (R143). -/
def State.sweepTu (s : State) (h : Nat) : Nat :=
  s.linkTu h (s.fld (LM_CTRL_beams h) *
    (2 + ceilDiv (s.hActive (s.groupOf h) * s.fld (LM_CTRL_channels h) * 14) 128))

/-- H_min in tu (R143). -/
def State.halfMinTu (s : State) (h : Nat) : Rat := (8000000000000 : Rat) / (s.fld (LM_FREQ_f_max h) : Nat)

/-- Whether the packets of a sweep do not fit beside `tact` fine steps of the board (R143). -/
def State.sweepFail (s : State) (h tact : Nat) : Bool :=
  s.lineMode h && decide (s.groupOf h < 4) &&
  decide (s.halfMinTu h * 3 / 2 - ((s.fld (LM_CENTRE_centre_fs h) * tuFine + 1100 * tuNs : Nat) : Rat) <
    ((s.sweepTu h + (tact + (s.sfld (LM_TRIM_rev_trim h)).natAbs) * tuFine : Nat) : Rat))

/-- A message of the tally lane discarded for a bad CRC is counted (R42). -/
def State.tallyError (s : State) (h : Nat) : State := s.count (HD_RVH_ERRS3_tally_errs h) 1

/-! ## STATUS packets (R39, R40, R42) -/

/-- The STATUS packet that characters bring to a head port which takes it: header and payload. -/
def State.statusOf (s : State) (h : Nat) (chars : List (BitVec 9)) : Option (BitVec 128 × List Byte) :=
  match statusBlocks chars with
  | some (hd, pl, tr) => if (s.port (h + 2)).accepts hd && packetWhole hd pl tr && hd.extractLsb' 0 8 == 0x32#8 then some (hd, pl) else none
  | none => none

/-- Characters that bring no packet: a header that is not taken starts or keeps up a hunt, and a packet with a broken framing, a bad
hcrc or a bad CRC-32 is discarded and counted (R40, R42, log 140). -/
def State.badStatus (s : State) (h : Nat) (chars : List (BitVec 9)) : State :=
  match statusBlocks chars with
  | none => s.tallyError h
  | some (hd, pl, tr) =>
    let q := s.port (h + 2)
    if !headerGood hd then (s.setPort (h + 2) { q with hunting := true }).tallyError h
    else if !q.accepts hd then s
    else (s.setPort (h + 2) (q.took hd)).doIf (!packetWhole hd pl tr) (·.tallyError h)

/-- A STATUS packet on the tally lane of a port that is not DISABLED: `g` with its header and payload. -/
def State.withStatus (s : State) (h : Nat) (chars : List (BitVec 9)) (g : State → BitVec 128 → List Byte → State) : State :=
  if s.headState h = DISABLED then s
  else match s.statusOf h chars with
    | some (hd, pl) => g (s.modPort (h + 2) (fun q => q.took hd)) hd pl
    | none => s.badStatus h chars

/-- The CAPS taken (R41, R143): the check on arrival. -/
def State.takeCaps (s : State) (h : Nat) (caps : BitVec 128) : State :=
  if s.capsFail h caps || s.sweepFail h (bits caps.toNat 64 16) then
    ((s.setPortState (h + 2) FAILED).setFld (HD_RVH_RESULT_enable_result h) E_CONFLICT).raise HEAD_MODE_FAIL h
  else
    let t := s.modPort (h + 2) (fun q => { q with caps := caps })
    let t := (t.setFld (HD_RVH_STATUS_caps_valid h) 1).setFld (HD_RVH_RESULT_enable_result h) S_OK
    (t.startPresets h (s.flag (HD_RVH_CTRL_use_stored_eq h))).blockLock (h + 2)

/-- CAPS_RECEIVE, R41, R143: a CAPS STATUS packet, which counts in state CAPS only. -/
def execCapsReceive (h : Fin 4) (chars : List (BitVec 9)) (s : State) : Result :=
  .next (s.withStatus h chars (fun t hd pl =>
    if t.headState h = CAPS_STATE ∧ hd.extractLsb' 48 16 = 1#16 ∧ pl.length = 16 then t.takeCaps h (BitVec.ofNat 128 (leNat pl)) else t))

/-! ## Answers to CMD packets (R41, R148, R306) -/

/-- The first awaited answer with a ctag. -/
def State.awaitedOf (s : State) (h ctag : Nat) : Option (Nat × Nat × Nat × Nat) :=
  (s.port (h + 2)).awaited.find? (fun a => a.1 == ctag)

def State.unawait (s : State) (h ctag : Nat) : State :=
  s.modPort (h + 2) (fun q => { q with awaited := q.awaited.filter (fun a => a.1 != ctag) })

/-- The head stays dark, since MODE or LOAD_TIMING has failed (R41, R76, R148). -/
def State.modeFail (s : State) (h : Nat) : State :=
  (s.modPort (h + 2) (fun q => { q with modeOk := false })).raise HEAD_MODE_FAIL h

def State.timingFail (s : State) (h : Nat) : State :=
  (s.modPort (h + 2) (fun q => { q with timingOk := false })).raise HEAD_MODE_FAIL h

/-- An awaited answer taken: its result and payload. -/
def State.takeAnswer (s : State) (h ctag result : Nat) (payload : List Byte) : State :=
  match s.awaitedOf h ctag with
  | none => s
  | some (_, what, opcode, arg0) =>
    let t := s.unawait h ctag
    if what = forMode then
      if result = 0 then t.modPort (h + 2) (fun q => { q with modeOk := true }) else t.modeFail h
    else if what = forTiming then
      if result = 0 then t.modPort (h + 2) (fun q => { q with timingOk := true }) else t.timingFail h
    else
      let t := t.doIf (opcode == 0x0005 && result == 0) (·.modPort (h + 2) (fun q => { q with parked := arg0 == 0 }))
      t.setOutcome (what - 2) S_OK (BitVec.ofNat 32 (result + payload.length / 16 % 2 ^ 16 * 2 ^ 16) :: bytesWords payload)

/-- STATUS_PACKET, R41: the answer to MODE, LOAD_TIMING or a HEAD.CMD, matched by its ctag. -/
def execStatusPacket (h : Fin 4) (chars : List (BitVec 9)) (s : State) : Result :=
  .next (s.withStatus h chars (fun t hd pl =>
    t.takeAnswer h (hd.extractLsb' 64 16).toNat (hd.extractLsb' 80 16).toNat pl))

/-- CMD_STATUS_TIMEOUT, R41, R306: no STATUS within 100 us. -/
def execCmdStatusTimeout (h : Fin 4) (ctag : BitVec 16) (s : State) : Result :=
  match s.awaitedOf h ctag.toNat with
  | none => .next s
  | some (_, what, _, _) =>
    if what = forMode then .next ((s.unawait h ctag.toNat).modeFail h)
    else if what = forTiming then .next s
    else .next ((s.unawait h ctag.toNat).outcome0 (what - 2) E_TIMEOUT)

/-- LOAD_TIMING_TIMEOUT, R148: no answer within 1 ms. -/
def execLoadTimingTimeout (h : Fin 4) (s : State) : Result :=
  match (s.port (h + 2)).awaited.find? (fun a => a.2.1 == forTiming) with
  | none => .next s
  | some a => .next ((s.unawait h a.1).timingFail h)

/-! ## Lanes (R31, R37, R38) -/

/-- A lane's lock recorded. -/
def State.setLock (s : State) (p lane : Nat) (b : Bool) : State :=
  let bit : BitVec 42 := 1#42 <<< lane
  let t := s.modPort p (fun q => { q with locks := if b then q.locks ||| bit else q.locks &&& ~~~bit })
  t.doIf (decide (p < 2)) (fun u => u.setFld (HD_INGEST_STATUS_lane_lock p) ((u.port p).locks.toNat % 2 ^ 17))

/-- LANE_BLOCK_LOCK, R31: blocks arrive on a lane, which locks once 64 headers in a row are valid; a lane rebuilt from parity is then
used again: DESIGN CHOICE, log 135. -/
def execLaneBlockLock (port : Fin 6) (lane : Fin 42) (blocks : List (BitVec 132)) (s : State) : Result :=
  let p := port.val
  let t := s.receive p lane blocks
  if s.fld (portState p) = DISABLED then .next s
  else if !((t.port p).lane lane).locks then .next t
  else
    let t := t.setLock p lane true
    let t := t.doIf (decide (p < 2 ∧ t.rebuilt p = some lane.val))
      (fun u => (u.setFld (HD_INGEST_STATUS_parity_in_use p) 0).setFld (HD_INGEST_STATUS_rebuilt_lane p) 0)
    .next (t.locksDone p)

/-- The replacement of lane `k` by the lowest free spare starts (R37); with no spare free the port retrains. -/
def State.startSparing (s : State) (h k : Nat) : State :=
  let spare := if s.fld (HD_RVH_STATUS_spare0_for h) = 63 then some 40
    else if s.fld (HD_RVH_STATUS_spare1_for h) = 63 then some 41 else none
  match spare with
  | none => s.retrain (h + 2)
  | some sp =>
    ((s.modPort (h + 2) (fun q => { q with sparing := some (k, sp), copying := false, mapAt := none })).setPortState (h + 2) SPARING).emit
      (.spareCopy h k sp)

/-- A lane of a head port in use has failed (R37). While another lane is being replaced, the failure waits for the
switch unless the last spare is the one being taken. A spare that carries a lane is not replaced: its failure retrains the port
(DESIGN CHOICE, log 141). -/
def State.headLaneFail (s : State) (h lane : Nat) : State :=
  if !s.laneInUse (h + 2) lane then s
  else if s.headState h = ACTIVE then
    if s.flag (HD_RVH_CTRL_spare_auto h) && decide (lane < 40) then s.startSparing h lane else s.retrain (h + 2)
  else if s.headState h = SPARING then
    match (s.port (h + 2)).sparing with
    | some (k, sp) =>
      if k = lane then s
      else if sp = 40 ∧ s.fld (HD_RVH_STATUS_spare1_for h) = 63 ∧ lane < 40 then s
      else s.retrain (h + 2)
    | none => s
  else s

/-- A lane of an ingest port in DESKEW or ACTIVE has failed: rebuilt from parity, or RETRAIN at a second failure (R38). The parity lane
counts as a failed lane like any other: DESIGN CHOICE, log 135. -/
def State.ingestLaneFail (s : State) (p lane : Nat) : State :=
  let st := s.fld (portState p)
  if !s.laneInUse p lane ∨ (st ≠ ACTIVE ∧ st ≠ DESKEW) then s
  else if s.flag (HD_INGEST_STATUS_parity_in_use p) then
    if s.fld (HD_INGEST_STATUS_rebuilt_lane p) = lane then s
    else (s.setFld (HD_INGEST_STATUS_parity_in_use p) 0).retrain p
  else if s.flag (HD_INGEST_CTRL_parity_en p) then
    ((s.setFld (HD_INGEST_STATUS_parity_in_use p) 1).setFld (HD_INGEST_STATUS_rebuilt_lane p) lane).raise2
      RV_PARITY_ACTIVE p lane
  else s.retrain p

/-- A lane loses block lock. -/
def State.laneLost (s : State) (p lane : Nat) : State :=
  let t := s.setLock p lane false
  if p < 2 then t.ingestLaneFail p lane else t.headLaneFail (p - 2) lane

/-- LANE_LOSS_OF_LOCK, R31, R37, R38: blocks arrive on a lane, which loses lock once 16 of the last 64 headers are invalid. -/
def execLaneLossOfLock (port : Fin 6) (lane : Fin 42) (blocks : List (BitVec 132)) (s : State) : Result :=
  let p := port.val
  let t := s.receive p lane blocks
  if s.fld (portState p) = DISABLED then .next s
  else if !((t.port p).lane lane).loses then .next t
  else .next (t.laneLost p lane)

/-- A column arrives on an ingest port: each lane that shows a header error fails (R29, R38). -/
def State.columnIn (s : State) (p : Nat) (c : List (BitVec 132)) : State :=
  (s.receiveColumn p c).doAll (s.headerErrors p c) (fun t i => t.ingestLaneFail p i)

/-- An AM column on an ingest port in DESKEW: the second in a row whose blocks are aligned reaches ACTIVE (R34). -/
def State.ingestAm (s : State) (p : Nat) (c : List (BitVec 132)) : State :=
  let t := s.columnIn p c
  match s.alignedAm p c with
  | some m =>
    let t := t.modPort p (fun q => { q with markers := m, goodAms := if m = q.markers + 1 then min 2 (q.goodAms + 1) else 1 })
    t.doIf (t.fld (portState p) == DESKEW && decide (2 ≤ (t.port p).goodAms)) (·.toActive p)
  | none => t.modPort p (fun q => { q with goodAms := 0 })

/-- AM_COLUMN, R33, R34: an ingest port receives one; a head port sends one, and while it trains TRAIN columns follow. -/
def execAmColumn (port : Fin 6) (column : List (BitVec 132)) (s : State) : Result :=
  let p := port.val
  if s.fld (portState p) = DISABLED then .next s
  else if p < 2 then .next (s.ingestAm p column)
  else .next ((s.sendAm (p - 2)).doIf (s.fld (portState p) == BLOCK_LOCK || s.fld (portState p) == EQ) (·.sendTrain (p - 2)))

/-! ## Tally messages (R42 to R49) -/

/-- What a tally message does: nothing on a disabled port, a count when its CRC-8 is bad, its effect otherwise. -/
def State.tally (s : State) (h type : Nat) (arg : BitVec 48) (crc : Byte) (g : State → Nat → State) : State :=
  if s.headState h = DISABLED then s
  else if crcTally (BitVec.ofNat 8 type :: natLe 6 arg.toNat) ≠ crc.toNat then s.tallyError h
  else g s arg.toNat

/-- EQ_REQ, R35: in EQ the requested preset is applied on a lane, or on all for lane 63. -/
def execEqReq (h : Fin 4) (arg : BitVec 48) (crc : Byte) (s : State) : Result :=
  .next (s.tally h 0x06 arg crc (fun t a =>
    let lane := bits a 0 6
    let v := bits a 6 3
    if t.headState h = EQ ∧ (lane < 42 ∨ lane = 63) then
      let ls := if lane = 63 then List.range 42 else [lane]
      ((t.modPort (h + 2) (fun q => { q with presets := ls.foldl (fun u i => tabSet (fun _ => 0) u i v) q.presets })).emit
        (.preset h lane v)).sendTrain h
    else t))

/-- EQ_DONE, R34. -/
def execEqDone (h : Fin 4) (arg : BitVec 48) (crc : Byte) (s : State) : Result :=
  .next (s.tally h 0x07 arg crc (fun t _ => if t.headState h = EQ then t.setPortState (h + 2) DESKEW else t))

/-- DESKEW_DONE, R34, R35, R41. -/
def execDeskewDone (h : Fin 4) (arg : BitVec 48) (crc : Byte) (s : State) : Result :=
  .next (s.tally h 0x08 arg crc (fun t _ => if t.headState h = DESKEW then t.toActive (h + 2) else t))

/-- A report of locked lanes in ACTIVE or SPARING: a spare that has locked is given its LANE_MAP, and a lane in use that
is not locked has failed. -/
def State.laneReport (s : State) (h : Nat) : State :=
  let q := s.port (h + 2)
  let t := match q.sparing with
    | some (k, sp) =>
      if q.locks.getLsbD sp ∧ q.mapAt = none then
        let m := q.markers + 2
        let a := if sp = 40 then k else s.fld (HD_RVH_STATUS_spare0_for h)
        let b := if sp = 41 then k else s.fld (HD_RVH_STATUS_spare1_for h)
        ((s.modPort (h + 2) (fun x => { x with mapAt := some m })).emit (.laneMap h a b m.toNat)).sendColumn h ctrlHeader
          (fun _ => laneMapBlock a b m)
      else s
    | none => s
  match (List.range 42).find? (fun i => t.laneInUse (h + 2) i && !q.locks.getLsbD i) with
  | some k => t.headLaneFail h k
  | none => t

/-- LANE_LOCK, R34, R37. -/
def execLaneLock (h : Fin 4) (arg : BitVec 48) (crc : Byte) (s : State) : Result :=
  .next (s.tally h 0x04 arg crc (fun t a =>
    let u := t.modPort (h + 2) (fun q => { q with locks := BitVec.ofNat 42 a })
    if u.portUp (h + 2) then u.laneReport h else u.locksDone (h + 2)))

/-- LANE_HEALTH, R37: a count at health_thresh starts the replacement of the lane. -/
def execLaneHealth (h : Fin 4) (arg : BitVec 48) (crc : Byte) (s : State) : Result :=
  .next (s.tally h 0x05 arg crc (fun t a =>
    let lane := bits a 0 6
    t.doIf (t.flag (HD_RVH_CTRL_spare_auto h) && decide (t.fld (HD_RVH_CTRL_health_thresh h) ≤ bits a 6 16)) (·.headLaneFail h lane)))

/-- LANE_MAP_SWITCH, R37: from AM column m on, lane k's data comes from the spare. Another lane in use that has lost lock
meanwhile is replaced next. -/
def execLaneMapSwitch (h : Fin 4) (s : State) : Result :=
  let q := s.port (h + 2)
  match q.sparing, q.mapAt with
  | some (k, sp), some _ =>
    let f := if sp = 40 then HD_RVH_STATUS_spare0_for h else HD_RVH_STATUS_spare1_for h
    let t := (s.setFld f k).setPort (h + 2) { q with sparing := none, copying := false, mapAt := none }
    let t := (t.setPortState (h + 2) ACTIVE).raise2 RV_LANE_SPARED (portNumber (h + 2)) k
    match (List.range 40).find? (fun i => t.laneInUse (h + 2) i && !q.locks.getLsbD i) with
    | some j => .next (t.headLaneFail h j)
    | none => .next t
  | _, _ => .next s

/-- The load of band `b` of head `h` with a tag, while its reset instant has not come. -/
def State.loadOf (s : State) (h b tag : Nat) : Option Load :=
  (s.bandOf (h * 32 + b)).load.filter (fun l => l.tag == tag)

def State.setLoad (s : State) (h b : Nat) (l : Option Load) : State :=
  s.modBandOf (h * 32 + b) (fun x => { x with load := l })

/-- BAND_OK, R46: the load is whole. -/
def execBandOk (h : Fin 4) (arg : BitVec 48) (crc : Byte) (s : State) : Result :=
  .next (s.tally h 0x01 arg crc (fun t a =>
    match t.loadOf h (bits a 0 5) (bits a 5 8) with
    | some l => t.setLoad h (bits a 0 5) (some { l with acked := true })
    | none => t))

/-- A resend of rows, at most max_resend times per load (R46). -/
def State.resend (s : State) (h b : Nat) (l : Load) (first last : Nat) : State :=
  if l.resends < s.fld (HD_RVH_CTRL_max_resend h) ∧ first ≤ last then
    s.setLoad h b (some { l with resend := l.resend ++ [(first, last)], resends := l.resends + 1 })
  else s

/-- BAND_ERR, R46: the bad rows are resent before the band's reset instant. -/
def execBandErr (h : Fin 4) (arg : BitVec 48) (crc : Byte) (s : State) : Result :=
  .next (s.tally h 0x02 arg crc (fun t a =>
    match t.loadOf h (bits a 0 5) (bits a 5 8) with
    | some l => t.resend h (bits a 0 5) { l with acked := false } (bits a 13 13) (bits a 26 13)
    | none => t))

/-- A band counted stale (R47). -/
def State.stale (s : State) (h b : Nat) : State :=
  ((s.count (HD_RVH_ERRS2_band_stale h) 1).raise2 RV_BAND_STALE h b).modBandOf (h * 32 + b)
    (fun x => { x with staleDone := true })

/-- BAND_STALE, R47: counted once per reset. -/
def execBandStale (h : Fin 4) (arg : BitVec 48) (crc : Byte) (s : State) : Result :=
  .next (s.tally h 0x03 arg crc (fun t a =>
    let x := t.bandOf (h * 32 + bits a 0 5)
    if x.lastTag = bits a 5 8 ∧ !x.staleDone then t.stale h (bits a 0 5) else t))

/-- LINE_ERR, R49: at most one event per head per frame. -/
def execLineErr (h : Fin 4) (arg : BitVec 48) (crc : Byte) (s : State) : Result :=
  .next (s.tally h 0x09 arg crc (fun t a => (t.count (HD_RVH_ERRS3_line_errs h) 1).raiseOnce RV_LINE_ERR h h (bits a 2 14)))

/-- FAULT, R43. -/
def execFault (h : Fin 4) (arg : BitVec 48) (crc : Byte) (s : State) : Result :=
  .next (s.tally h 0x0A arg crc (fun t a =>
    (t.setFld (HD_RVH_RESULT_last_fault h) (bits a 0 16)).raise2 RV_MOD_FAULT h (bits a 0 16)))

/-- BAND_TALLY_TIMEOUT, R46: no answer 2 us after the last block, so the whole band is resent. -/
def execBandTallyTimeout (h : Fin 4) (band : Fin 32) (s : State) : Result :=
  match (s.bandOf (h * 32 + band)).load with
  | some l =>
    if l.acked ∨ l.nextRow ≤ l.lastRow ∨ !l.resend.isEmpty then .next s
    else
      .next (s.resend h band l (s.bandFirst h band) l.lastRow)
  | none => .next s

/-! ## Hunting (R40) -/

/-- A block that stands where a packet header is expected, or any block in a hunt (R39, R40): FILL counts nothing, a good header ends a
hunt, and any other block starts one, counted once. -/
def State.headerBlock (s : State) (p : Nat) (hd : BitVec 128) : State :=
  let q := s.port p
  if hd = 0 then s
  else if q.accepts hd then s.setPort p (q.took hd)
  else if q.hunting then s
  else (s.setPort p { q with hunting := true }).count (HD_INGEST_ERRS3_hdr_errors p) 1

/-- RECEIVE_BAD_HEADER, R29, R30, R38 to R40: a column arrives whose block on lane `lane` stands where a header is expected. A lane
that shows a header error is rebuilt from parity, the block with it; a control column is no part of the stream. -/
def execReceiveBadHeader (p : Fin 2) (lane : Fin 17) (column : List (BitVec 132)) (s : State) : Result :=
  if s.fld (portState p) ≠ ACTIVE then .next s
  else
    let t := s.columnIn p column
    let hd := ({ s with regs := t.regs }).laneData p column lane
    if t.fld (portState p) ≠ ACTIVE ∨ s.controlColumn p column then .next t
    else .next (t.headerBlock p hd)

end Sys2Proof.Machine
end

