-- ==== Sys2Proof/Machine/Bus.lean ====
section
/-!
DEFINITION. The driver bus (R171 to R181): frames and their CRC, exchanges and retries, tags; and where the zones of a
matrix lie on it (R191 to R197).
-/

namespace Sys2Proof.Machine

/-! ## Frames (R172, R173) -/

/-- A frame from the device. -/
def busFrame (addr op : Nat) (payload : List Byte) : List Byte :=
  let body : List Byte := BitVec.ofNat 8 addr :: BitVec.ofNat 8 op :: BitVec.ofNat 8 payload.length :: payload
  0x5A#8 :: body ++ [BitVec.ofNat 8 (crcDriver body)]

/-- A response taken apart: address, opcode without bit 7, payload; none when its sof, length or crc is bad.
An opcode whose bit 7 is not set answers no request, and stands here above every opcode. -/
def parseResponse (f : List Byte) : Option (Nat × Nat × List Byte) :=
  match f with
  | sof :: a :: op :: len :: rest =>
    let n := len.toNat
    if sof = 0x4B#8 ∧ rest.length = n + 1 ∧ n ≤ 64 ∧
        BitVec.ofNat 8 (crcDriver (a :: op :: len :: rest.take n)) = rest.getD n 0 then
      some (a.toNat, if 128 ≤ op.toNat then op.toNat - 128 else op.toNat + 256, rest.take n)
    else none
  | _ => none

def byteAt (l : List Byte) (i : Nat) : Nat := (l.getD i 0).toNat
def halfAt (l : List Byte) (i : Nat) : Nat := byteAt l i + 256 * byteAt l (i + 1)

/-! ## Lanes (R171) -/

/-- The levels of lanes D0 to D3 over the byte times of a frame: in 4-lane mode byte k goes on lane k mod 4, and a lane
without a byte carries 0xFF; in 1-lane mode all bytes go on D0, and the other lanes rest high. Each byte goes
most significant bit first. -/
def onLanes (four : Bool) (f : List Byte) : List (List Bool) :=
  (List.range 4).map (fun j =>
    if four then (List.range (ceilDiv f.length 4)).flatMap (fun i => byteBitsMsb (f.getD (4 * i + j) 0xFF))
    else if j = 0 then f.flatMap byteBitsMsb
    else List.replicate (8 * f.length) true)

/-- A frame on a port of the bus. -/
def State.busEmit (s : State) (p : Nat) (f : List Byte) : State :=
  s.emit (.dbFrame p f (onLanes (s.flag (DB_PORT0_lanes4 p)) f))

/-! ## Ports and exchanges (R174, R176) -/

def State.dbOn (s : State) (p : Nat) : Bool := s.flag (DB_PORT0_enable p)

/-- The number of a driver in `State.drivers`. -/
def drvKey (p addr : Nat) : Nat := p * 128 + addr

/-- A driver that activates firmware is sent nothing but FW_QUERY (R365, R366). -/
def State.quiet (s : State) (p addr : Nat) : Bool := s.fw.awaitVersion.any (fun e => e.1 == drvKey p addr)

/-- The opcode of a frame that the device has sent. -/
def frameOp (f : List Byte) : Nat := (f.getD 2 0).toNat

/-- The next waiting frame goes out; frames to a driver that is to be left alone wait. -/
def State.busNext (s : State) (p : Nat) : State :=
  let x := s.dbPort p
  match x.inFlight, x.queue.find? (fun (f : Nat × List Byte) => !s.quiet p f.1 || frameOp f.2 == 0x30) with
  | none, some f =>
    (s.setDbPort p { x with inFlight := some f, queue := x.queue.erase f, tries := 0 }).busEmit p f.2
  | _, _ => s

/-- A unicast frame put in the queue of an enabled port. -/
def State.busSend (s : State) (p addr op : Nat) (payload : List Byte) : State :=
  if s.dbOn p then
    (s.modDbPort p (fun x => { x with queue := x.queue ++ [(addr, busFrame addr op payload)] })).busNext p
  else s

/-- A broadcast frame on an enabled port: never answered (R174). -/
def State.busCast (s : State) (p op : Nat) (payload : List Byte) : State :=
  if s.dbOn p then s.busEmit p (busFrame 0x7F op payload) else s

/-- The payload of a frame that the device has sent. -/
def framePayload (f : List Byte) : List Byte := (f.drop 4).take (byteAt f 3)

/-- The exchange in flight is over, and the next frame goes out. -/
def State.busDone (s : State) (p : Nat) : State := (s.modDbPort p (fun x => { x with inFlight := none })).busNext p

/-- Whether a driver has an exchange in flight or waiting. -/
def State.busPending (s : State) (p addr : Nat) : Bool :=
  (s.dbPort p).queue.any (fun f => f.1 == addr) || (s.dbPort p).inFlight.any (fun f => f.1 == addr)

/-- Whether an exchange of a tag is in flight or waiting on a port, among the opcodes that carry one. -/
def tagOf (f : List Byte) : Option Nat :=
  if [0x02, 0x03, 0x21, 0x34, 0x35].contains (frameOp f) then some (byteAt f 4) else none

def State.tagPending (s : State) (p tag : Nat) (ops : List Nat) : Bool :=
  ((s.dbPort p).queue ++ (s.dbPort p).inFlight.toList).any (fun f =>
    ops.contains (frameOp f.2) && tagOf f.2 == some tag)

/-! ## Tags (R177) -/

/-- Tags still in use: staged for a latch, held by a sheaf at a latch, or the levels of a matrix. -/
def State.tagsInUse (s : State) : List Nat :=
  (s.groups.filterMap (fun g => g.2.latchPending)) ++ s.dbPorts.map (fun p => p.2.tag) ++
  s.matrices.flatMap (fun m => [m.2.tag, m.2.lastTag]) ++ (s.sheaves.filter (fun x => x.2.staged != 0)).map (fun x => x.2.staged % 256)

/-- The next free tag at or after `t`. -/
def freeTag (used : List Nat) : Nat → Nat → Nat
  | 0, t => t % 256
  | fuel + 1, t => if used.contains (t % 256) then freeTag used fuel (t + 1) else t % 256

/-- A tag drawn from the one counter. -/
def State.drawTag (s : State) : Nat × State :=
  let t := freeTag s.tagsInUse 256 s.dbTag
  (t, { s with dbTag := (t + 1) % 256 })

/-! ## Who is on the bus -/

/-- The string drivers of a bank: port and address, without repeats. -/
def State.bankDrivers (s : State) (b : Nat) : List (Nat × Nat) :=
  ((s.members b).map (fun n => (s.fld (LS_STRING0_port n), s.fld (LS_STRING0_addr n)))).dedup

/-- The enabled strings of a driver. -/
def State.driverStrings (s : State) (p addr : Nat) : List Nat :=
  (List.range 64).filter (fun n => s.flag (LS_STRING0_enable n) && s.fld (LS_STRING0_port n) == p &&
    s.fld (LS_STRING0_addr n) == addr)

/-! ## Zones on the bus (R191 to R196) -/

def State.zx (s : State) (z : Nat) : Nat := s.fld (ZN_MAT1_cols z)
def State.zy (s : State) (z : Nat) : Nat := s.fld (ZN_MAT1_rows z)

/-- Zone rows of a band, and of a row group. -/
def State.zb (s : State) (z : Nat) : Nat := s.zy z / s.nBands (s.fld (ZN_MAT0_head z))
def State.groupRows (s : State) (z : Nat) : Nat := s.zb z / s.mux z

def State.zoneDrivers (s : State) (z : Nat) : Nat :=
  s.zx z * s.zy z / (s.mux z * s.fld (ZN_MAT4_chans z))

/-- The context of zone (i, m) (R194). -/
def State.zoneCtx (s : State) (z i m : Nat) : Nat := s.fld (ZN_MAT2_ctx_base z) + m * s.zx z + i

/-- Port and address of driver `d` of a matrix (R193). -/
def State.zoneDriver (s : State) (z d : Nat) : Nat × Nat :=
  let per := ceilDiv (s.zoneDrivers z) (s.fld (ZN_MAT4_n_ports z))
  (s.fld (ZN_MAT4_first_port z) + d / per, s.fld (ZN_MAT4_addr_base z) + d % per)

/-- The drivers of a matrix: their numbers. -/
def State.zoneDrvs (s : State) (z : Nat) : List Nat := List.range (s.zoneDrivers z)

/-- The driver of a matrix at a port and address. -/
def State.zoneDrvAt (s : State) (z p addr : Nat) : Option Nat :=
  (s.zoneDrvs z).find? (fun d => s.zoneDriver z d == (p, addr))

/-- The matrix and driver number at a port and address. -/
def State.zoneAt (s : State) (p addr : Nat) : Option (Nat × Nat) :=
  (List.range 4).findSome? (fun z => if s.matrixOn z then (s.zoneDrvAt z p addr).map (fun d => (z, d)) else none)

/-- The channel index of zone (i, m) (R193). -/
def State.zoneQ (s : State) (z i m : Nat) : Nat :=
  let gr := s.groupRows z
  let b := m / s.zb z
  (b * gr + (m - b * s.zb z) % gr) * s.zx z + i

/-- The row group of zone row `m` (R192). -/
def State.zoneGroup (s : State) (z m : Nat) : Nat := (m % s.zb z) / s.groupRows z

/-- The zone of a driver's channel in a row group: column and row. -/
def State.zoneOf (s : State) (z d chan r : Nat) : Nat × Nat :=
  let q := d * s.fld (ZN_MAT4_chans z) + chan
  let gr := s.groupRows z
  let row := q / s.zx z
  (q % s.zx z, row / gr * s.zb z + r * gr + row % gr)

/-- The drivers of a band. -/
def State.bandDrvs (s : State) (z b : Nat) : List Nat :=
  let per := s.groupRows z * s.zx z / s.fld (ZN_MAT4_chans z)
  (List.range per).map (b * per + ·)

/-- The ports of a band's drivers. -/
def State.bandPorts (s : State) (z b : Nat) : List Nat := ((s.bandDrvs z b).map (fun d => (s.zoneDriver z d).1)).dedup

/-- The contexts of a driver: every channel in every row group. -/
def State.drvZones (s : State) (z d : Nat) : List Nat :=
  (List.range (s.fld (ZN_MAT4_chans z))).flatMap (fun c =>
    (List.range (s.mux z)).map (fun r => s.zoneCtx z (s.zoneOf z d c r).1 (s.zoneOf z d c r).2))

/-- States 2 to 5 of a zone are faulted (R195). -/
def State.zoneFaulted (s : State) (c : Nat) : Bool :=
  decide (2 ≤ s.fld (ZN_CTX0_fault c)) && decide (s.fld (ZN_CTX0_fault c) ≤ 5)

/-- A zone is dark: faulted, from the frame after the fault was confirmed on, or held dark by the host (R195, R200). -/
def State.zoneDark (s : State) (c : Nat) : Bool :=
  (s.zoneFaulted c && !s.zoneFresh.contains c) || s.flag (ZN_CTX1_dark c)

/-- The drive before its clamp, and the drive code (R196). -/
def State.zoneRaw (s : State) (c : Nat) : Nat := roundDiv (s.fld (ZN_CTX0_level c) * s.fld (ZN_CTX0_gain_trim c)) 512
def State.zoneCode (s : State) (c : Nat) : Nat := if s.zoneDark c then 0 else min 4095 (s.zoneRaw c)

/-- The bytes of one entry of ZONE_LEVELS (R197). -/
def State.levelEntry (s : State) (c : Nat) : List Byte :=
  natLe 3 (s.zoneCode c + s.fld (ZN_CTX0_pre_trim c) * 2 ^ 12)

/-- The runs of a zone row: driver, first channel, first column, count; at most 20 to a frame. -/
def levelRuns (chans zx q0 : Nat) : Nat → Nat → List (Nat × Nat × Nat × Nat)
  | 0, _ => []
  | fuel + 1, i =>
    if zx ≤ i then []
    else
      let q := q0 + i
      let n := min 20 (min (zx - i) (chans - q % chans))
      (q / chans, q % chans, i, n) :: levelRuns chans zx q0 fuel (i + n)

/-- The codes of zone row `m` sent in ZONE_LEVELS frames under the matrix's tag (R197), and the clipped bits (R196). -/
def State.sendRow (s : State) (z m : Nat) : State :=
  let zx := s.zx z
  let t := s.doAll (List.range zx) (fun u i =>
    u.setFlag (ZN_CTX1_clipped (u.zoneCtx z i m)) (!u.zoneDark (u.zoneCtx z i m) && decide (4095 < u.zoneRaw (u.zoneCtx z i m))))
  t.doAll (levelRuns (t.fld (ZN_MAT4_chans z)) zx (t.zoneQ z 0 m) zx 0) (fun u e =>
    let pa := u.zoneDriver z e.1
    let payload : List Byte := [BitVec.ofNat 8 (u.matrix z).tag, BitVec.ofNat 8 (u.zoneGroup z m),
        BitVec.ofNat 8 e.2.1, BitVec.ofNat 8 e.2.2.2] ++
      (List.range e.2.2.2).flatMap (fun k => u.levelEntry (u.zoneCtx z (e.2.2.1 + k) m))
    u.doIf (!u.quiet pa.1 pa.2) (·.busSend pa.1 pa.2 0x21 payload))

/-- The weight fraction of entry `w` (R190). -/
def State.frac (s : State) (b w : Nat) : Rat :=
  let n := (s.members b).length
  if n = 0 then 0 else ((s.entryStrings b w).length : Rat) / n

end Sys2Proof.Machine
end

