-- ==== Sys2Proof/Machine/Layers.lean ====
section
/-!
DEFINITION. Layers: formats and buffers (R54 to R58), flip queues (R63 to R72), ingest rings (R51, R60, R61, R425),
composition with underrun (R57, R78), the CRC rectangles (R79, R80) and the monitor output (R82 to R84).
-/

namespace Sys2Proof.Machine

/-! ## Formats and buffers (R55, R56) -/

/-- Bytes of a pixel in the luma or packed plane; 0 for a code that names no format. -/
def bytesPerPixel (f : Nat) : Nat :=
  match f with
  | 1 => 2 | 2 => 3 | 3 => 4 | 4 => 4 | 5 => 6 | 6 => 1 | 7 => 2 | 8 => 2 | _ => 0

def isYc (f : Nat) : Bool := decide (6 ≤ f)
def isYc420 (f : Nat) : Bool := f == 6 || f == 7

/-- Lines of the chroma plane. -/
def chromaLines (f height : Nat) : Nat := if isYc420 f then height / 2 else if isYc f then height else 0

def State.layerFormat (s : State) (g l : Nat) : Nat := s.fld (HD_LAYER_CTRL_format g l)
def State.layerWidth (s : State) (g l : Nat) : Nat := s.fld (HD_LAYER_SIZE_width g l)
def State.layerHeight (s : State) (g l : Nat) : Nat := s.fld (HD_LAYER_SIZE_height g l)
def State.layerOn (s : State) (g l : Nat) : Bool := s.flag (HD_LAYER_CTRL_enable g l)
def State.ingestFed (s : State) (g l : Nat) : Bool := s.flag (HD_LAYER_CTRL_source g l)

/-- The evenness that YC formats need of a layer's width and height (R56). -/
def State.evenSize (s : State) (g l : Nat) : Bool :=
  let f := s.layerFormat g l
  (!isYc f || s.layerWidth g l % 2 == 0) && (!isYc420 f || s.layerHeight g l % 2 == 0)

/-- R56 on a buffer of a layer: base, stride, and the evenness that YC formats need. -/
def State.bufferGood (s : State) (g l base stride : Nat) : Bool :=
  base % 4096 == 0 && stride % 64 == 0 && decide (s.layerWidth g l * bytesPerPixel (s.layerFormat g l) ≤ stride) && s.evenSize g l

def roundUp (n m : Nat) : Nat := ceilDiv n m * m

/-- The address of a line of the luma or packed plane, and of a line of the chroma plane. -/
def lumaLine (base stride y : Nat) : Nat := base + 0x1000 + y * stride
def chromaLine (base stride height y : Nat) : Nat := roundUp (base + 0x1000 + stride * height) 4096 + y * stride

def State.ringBase (s : State) (g l : Nat) : Nat :=
  s.fld (HD_LAYER_RING3_ring_base_lo g l) + s.fld (HD_LAYER_RING4_ring_base_hi g l) * 2 ^ 32
def State.ringStride (s : State) (g l : Nat) : Nat := s.fld (HD_LAYER_RING4_ring_stride g l)

/-- The size of one ring buffer: laid out by R56, rounded up to 4 KiB. -/
def State.ringSize (s : State) (g l : Nat) : Nat :=
  let h := s.layerHeight g l
  let f := s.layerFormat g l
  roundUp (chromaLine 0 (s.ringStride g l) h (chromaLines f h)) 4096

def State.ringBuf (s : State) (g l buf : Nat) : Nat := s.ringBase g l + buf * s.ringSize g l

/-! ## Flip queues (R63 to R72) -/

def slotDefault (_ : Nat) : FqSlot := FqSlot.reset
def FlipQueue.slot (q : FlipQueue) (n : Nat) : FqSlot := tabGet slotDefault q.slots n
def FlipQueue.setSlot (q : FlipQueue) (n : Nat) (v : FqSlot) : FlipQueue :=
  { q with slots := tabSet slotDefault q.slots n v }

/-- A slot is in use while it is waiting, current, held or retiring (R64). -/
def FlipQueue.inUse (q : FlipQueue) (n : Nat) : Bool :=
  q.waiting.contains n || q.current == some n || q.held == some n || q.retiring.any (fun r => r.slot == n)

/-- The slot that the layer shows. -/
def FlipQueue.showing (q : FlipQueue) : Option Nat := if q.fallback then q.held else q.current

/-- A retirement: into the FIFO with BUFFER_RETIRED, or waiting for room (R67). -/
def State.retire (s : State) (q : Nat) (r : Retired) : State :=
  let x := s.fqueue q
  if x.fifo.length < 8 then
    (s.setFqueue q { x with fifo := x.fifo ++ [r] }).raise2 BUFFER_RETIRED q r.slot
  else s.setFqueue q { x with retiring := x.retiring ++ [r] }

def State.fqResult (s : State) (q code : Nat) : State := s.modFqueue q (fun x => { x with lastResult := code })

/-- A submission of slot `v[2:0]` (R65). -/
def State.fqSubmit (s : State) (q : Nat) (v : Word) : State :=
  let n := getBits v 0 3
  let x := s.fqueue q
  let code :=
    if !(x.slot n).valid ∨ s.ingestFed (q / 4) (q % 4) then E_STATE
    else if x.inUse n then E_CONFLICT
    else if 4 ≤ x.waiting.length then S_BUSY
    else S_OK
  if code = S_OK then s.setFqueue q { x with waiting := x.waiting ++ [n], lastResult := S_OK }
  else (s.fqResult q code).raise2 FLIP_REFUSED q code

/-- FQ_SUBMIT, R65. -/
def execFqSubmit (i : Iface) (q : Fin 16) (v : Word) (s : State) : Result := s.host i (fun t => t.fqSubmit q v)

/-- Unregistering a slot (R68): a waiting or held slot is retired at once, the current one at the end of its frame. -/
def State.fqUnregister (s : State) (q n : Nat) : State :=
  let x := s.fqueue q
  let x := x.setSlot n { x.slot n with valid := false }
  if x.waiting.contains n then
    (s.setFqueue q { x with waiting := x.waiting.filter (· != n) }).retire q { slot := n, mismatch := false, unshown := true }
  else if x.held = some n then
    (s.setFqueue q { x with held := none, fallback := false }).retire q { slot := n, mismatch := false, unshown := false }
  else if x.current = some n then s.setFqueue q { x with leaving := true }
  else s.setFqueue q x

/-- A write of base_hi and valid, each against the slot's state before the write (R64). -/
def State.fqWriteHi (s : State) (q n : Nat) (v : Word) : State :=
  let x := s.fqueue q
  let sl := x.slot n
  let hi := getBits v 0 8
  let base : BitVec 40 := BitVec.ofNat 40 (sl.base.toNat % 2 ^ 32 + hi * 2 ^ 32)
  if x.inUse n then
    if v.getLsbD 31 then s.fqResult q E_STATE
    else (s.fqUnregister q n).fqResult q (if base = sl.base then S_OK else E_STATE)
  else if v.getLsbD 31 then
    let good := s.bufferGood (q / 4) (q % 4) base.toNat sl.stride.toNat
    (s.setFqueue q (x.setSlot n { sl with base := base, valid := good })).fqResult q (if good then S_OK else E_BAD_ARG)
  else (s.setFqueue q (x.setSlot n { sl with base := base, valid := false })).fqResult q S_OK

/-- A write of base_lo, stride or gen: refused for a slot in use that it would change, else taken, and the slot
unregistered (R64). -/
def State.fqWritePlain (s : State) (q n : Nat) (g : FqSlot → FqSlot) : State :=
  let x := s.fqueue q
  let sl := x.slot n
  if x.inUse n then s.fqResult q (if g sl = sl then S_OK else E_STATE)
  else (s.setFqueue q (x.setSlot n { (g sl) with valid := false })).fqResult q S_OK

/-- A write to one of the four words of a slot. -/
def State.fqWrite (s : State) (q n : Nat) (r : SlotReg) (v : Word) : State :=
  match r with
  | .baseLo => s.fqWritePlain q n (fun sl =>
      { sl with base := BitVec.ofNat 40 (v.toNat + sl.base.toNat / 2 ^ 32 * 2 ^ 32) })
  | .baseHi => s.fqWriteHi q n v
  | .stride => s.fqWritePlain q n (fun sl => { sl with stride := BitVec.ofNat 24 v.toNat })
  | .gen => s.fqWritePlain q n (fun sl => { sl with gen := v })

/-- FQ_SLOT_WRITE, R64. -/
def execFqSlotWrite (i : Iface) (q : Fin 16) (slot : Fin 8) (reg : SlotReg) (v : Word) (s : State) : Result :=
  s.host i (fun s => s.fqWrite q slot reg v)

/-- FQ_SLOT_REGISTER, R64: HD_FQ_BASE_HI written with valid = 1. -/
def execFqSlotRegister (i : Iface) (q : Fin 16) (slot : Fin 8) (v : Word) (s : State) : Result :=
  s.host i (fun s => s.fqWriteHi q slot (v ||| 0x80000000))

/-- FQ_SLOT_UNREGISTER, R64, R68: HD_FQ_BASE_HI written with valid = 0. -/
def execFqSlotUnregister (i : Iface) (q : Fin 16) (slot : Fin 8) (v : Word) (s : State) : Result :=
  s.host i (fun s => s.fqWriteHi q slot (v &&& 0x7FFFFFFF))

/-- A read of HD_FQ_RETIRED: the word, and the queue with a waiting retirement admitted (R63, R67). -/
def State.fqPop (s : State) (q : Nat) : Word × State :=
  let x := s.fqueue q
  match x.fifo with
  | [] => (0, s)
  | r :: t =>
    let w : Word := BitVec.ofNat 32 (r.slot + r.mismatch.toNat * 8 + r.unshown.toNat * 16 + 2 ^ 31)
    match x.retiring with
    | [] => (w, s.setFqueue q { x with fifo := t })
    | n :: u => (w, (s.setFqueue q { x with fifo := t, retiring := u }).retire q n)

/-- What a host read returns. -/
def State.respond (s : State) (l : List Byte) : State := { s with hi := { s.hi with response := l } }

/-- FQ_RETIRED_POP, R67. -/
def execFqRetiredPop (i : Iface) (q : Fin 16) (s : State) : Result :=
  s.host i (fun s => (s.fqPop q).2.respond (wordBytes (s.fqPop q).1))

/-- A condition of still mode fails in the present frame of a group (R81). -/
def State.stillBreak (s : State) (g : Nat) : State := s.modGroup g (fun gr => { gr with stillBroken := true })

/-- The flip queue of a layer at the frame boundary (R66, R67, R68, R71). A held slot that no whole frame of the current one has let go
yet is retired when a waiting entry becomes current: DESIGN CHOICE, log 143. -/
def State.fqBoundary (s : State) (q : Nat) : State :=
  let x := s.fqueue q
  -- a current slot shown for a whole frame with every check matching lets the held slot go (R67)
  let s := match x.held with
    | some h =>
      if x.checked ∧ x.current.isSome ∧ !x.fallback then
        (s.setFqueue q { x with held := none }).retire q { slot := h, mismatch := false, unshown := false }
      else s
    | none => s
  -- a current slot that was unregistered is retired at the end of its frame (R68)
  let x := s.fqueue q
  let s := match x.current with
    | some c =>
      if x.leaving then
        (s.setFqueue q { x with current := none, leaving := false, shown := false, checked := false }).retire q
          { slot := c, mismatch := false, unshown := !x.shown }
      else s
    | none => s
  let x := s.fqueue q
  match x.waiting with
  | n :: t =>
    let s := match x.current, x.held with
      | some _, some h => s.retire q { slot := h, mismatch := false, unshown := false }
      | _, _ => s
    let y := s.fqueue q
    let g := q / 4
    (s.setFqueue q { y with waiting := t, current := some n, held := y.current.or y.held, fallback := false, failed := false,
                            shown := false, checked := false, leaving := false, presented := n,
                            presentedFrame := s.fld (HD_RASTER_STATUS_frame g) }).stillBreak g
  | [] =>
    if x.failed ∧ x.current.isNone then
      let ok := match x.held with
        | some h => (x.slot h).valid
        | none => false
      s.setFqueue q { x with failed := false, fallback := ok }
    else s

/-- The header tag of a slot matches its gen (R69). -/
def State.tagGood (s : State) (q n : Nat) : Bool :=
  BitVec.ofNat 32 (s.memWord ((s.fqueue q).slot n).base.toNat) == ((s.fqueue q).slot n).gen

/-- The slot that the layer shows leaves the queue after a mismatch. -/
def FlipQueue.without (x : FlipQueue) (n : Nat) : FlipQueue :=
  if x.current = some n then { x with current := none, leaving := false, checked := false, failed := true }
  else { x with held := none, fallback := false }

/-- The tag check of one slot at fetch start (R70). -/
def State.fetchCheck (s : State) (q n : Nat) : State :=
  let x := s.fqueue q
  if s.tagGood q n then s.setFqueue q { x with checked := true }
  else
    let unshown := x.current == some n && !x.shown
    let t := (s.setFqueue q (x.without n)).retire q { slot := n, mismatch := true, unshown := unshown }
    (t.count (HD_LAYER_CNT6_buf_gen_mismatch (q / 4) (q % 4)) 1).raise2 BUF_GEN_MISMATCH q 0x7FFF

/-- The held slot takes the place of a current slot that has failed its check, once (R71). -/
def State.fallBack (s : State) (q : Nat) : State :=
  let y := s.fqueue q
  match y.current, y.held with
  | none, some h =>
    if y.failed ∧ !y.fallback then (s.setFqueue q { y with fallback := true, failed := false }).fetchCheck q h else s
  | _, _ => s

/-- The fetch start of a flip-fed layer (R69, R70): the slot shown is checked, and after a mismatch the held slot. -/
def State.flipFetch (s : State) (q : Nat) : State :=
  match (s.fqueue q).showing with
  | none => s
  | some n => (s.fetchCheck q n).fallBack q

/-- The bands of the heads of a group that do not become ready: from band `b` on (R71, R110). -/
def State.failBands (s : State) (g b : Nat) : State :=
  s.doAll (s.headsOf g) (fun t h =>
    t.doAll ((List.range (t.nBands h)).filter (fun i => decide (b ≤ i))) (fun u i =>
      u.modBandOf (h * 32 + i) (fun x => { x with failed := true, writing := false })))

/-- The bands of a group's heads. -/
def State.groupBands (s : State) (g : Nat) : Nat :=
  match s.headsOf g with
  | h :: _ => s.nBands h
  | [] => 0

/-- BAND_TAG_CHECK, R69 to R72: after the last line of band `b`, or in line mode of the frame. -/
def execBandTagCheck (g : Fin 4) (band : Fin 32) (s : State) : Result :=
  .next (s.doAll ((List.range 4).filter (fun l => s.layerOn g l && !s.ingestFed g l)) (fun t l =>
    let q := 4 * g + l
    let x := t.fqueue q
    match x.showing with
    | none => t
    | some n =>
      if t.tagGood q n then t.setFqueue q { x with shown := x.shown || x.current == some n }
      else
        let u := t.setFqueue q ((x.without n))
        if t.groupLine g then
          ((u.retire q { slot := n, mismatch := true, unshown := false }).count
            (HD_LAYER_CNT6_buf_gen_mismatch g l) 1).raise2 BUF_GEN_MISMATCH q 0x7FFE
        else
          let r : Retired := { slot := n, mismatch := true, unshown := x.current == some n && !x.shown }
          (((u.retire q r).count (HD_LAYER_CNT6_buf_gen_mismatch g l) (t.groupBands g - band)).failBands g band).raise2
            BUF_GEN_MISMATCH q band))

/-! ## Ingest rings (R51, R60, R61, R425) -/

/-- The enabled ingest-fed layers that a stream feeds, as group * 4 + layer (R425). -/
def State.boundLayers (s : State) (p st : Nat) : List Nat :=
  (List.range 16).filter (fun q => s.layerOn (q / 4) (q % 4) && s.ingestFed (q / 4) (q % 4) &&
    s.fld (HD_LAYER_CTRL_ingest_port (q / 4) (q % 4)) == p &&
    s.fld (HD_LAYER_CTRL_ingest_stream (q / 4) (q % 4)) == st)

def maxOf (l : List Nat) : Nat := l.foldl max 0

/-- The line counts of a stream: the largest of its layers' luma and chroma lines (R425). -/
def State.lumaCount (s : State) (ls : List Nat) : Nat := maxOf (ls.map (fun q => s.layerHeight (q / 4) (q % 4)))
def State.chromaCount (s : State) (ls : List Nat) : Nat :=
  maxOf (ls.map (fun q => chromaLines (s.layerFormat (q / 4) (q % 4)) (s.layerHeight (q / 4) (q % 4))))

/-- The address of a line of a ring buffer. -/
def State.ringLine (s : State) (q buf : Nat) (chroma : Bool) (y : Nat) : Nat :=
  let b := s.ringBuf (q / 4) (q % 4) buf
  if chroma then chromaLine b (s.ringStride (q / 4) (q % 4)) (s.layerHeight (q / 4) (q % 4)) y
  else lumaLine b (s.ringStride (q / 4) (q % 4)) y

/-- The bytes of a line. -/
def State.lineBytes (s : State) (q : Nat) : Nat :=
  s.layerWidth (q / 4) (q % 4) * bytesPerPixel (s.layerFormat (q / 4) (q % 4))

/-- Whether a layer holds a line of the plane. -/
def State.hasLine (s : State) (q : Nat) (chroma : Bool) (y : Nat) : Bool :=
  let h := s.layerHeight (q / 4) (q % 4)
  if chroma then decide (y < chromaLines (s.layerFormat (q / 4) (q % 4)) h) else decide (y < h)

/-- The buffer for a new frame: after the newest, never the one that composition reads or the newest itself. -/
def freeBuf (count : Nat) (r : List SrcFrame) : Nat :=
  let newest := match r with
    | f :: _ => f.buf
    | [] => count - 1
  let busy := fun b => r.any (fun f => f.reading && f.buf == b) || (!r.isEmpty && b == newest)
  ((List.range count).map (fun i => (newest + 1 + i) % count)).find? (fun b => !busy b) |>.getD 0

/-- A ring with a new frame in front, which takes the buffer of the frame that had it. -/
def pushFrame (count number : Nat) (r : List SrcFrame) : List SrcFrame :=
  let b := freeBuf count r
  { number := number, buf := b, line0 := false, closed := false, shown := false, reading := false, gone := false } ::
    r.map (fun f => if f.buf = b then { f with gone := true, reading := false } else f)

/-- A ring without a frame that never closed, and so is not seen: composition goes back to the frame before it (R252). -/
def dropFrame (number : Nat) (r : List SrcFrame) : List SrcFrame :=
  let out := fun f : SrcFrame => f.number == number && !f.closed
  let rest := r.filter (fun f => !out f)
  if r.any (fun f => out f && f.reading) then
    match rest with
    | f :: l => { f with reading := !f.gone } :: l
    | [] => []
  else rest

/-- The poison marks of the lines that a range covers whole are cleared by a write (R245). -/
def State.unpoisonRange (s : State) (a n : Nat) : State :=
  { s with poisoned := s.poisoned.filter (fun l => !(decide (a ≤ l * 64) && decide (l * 64 + 64 ≤ a + n))) }

/-- Bytes written to the Granary by a device (R245). -/
def State.store (s : State) (a : Nat) (l : List Byte) : State := (s.setBytes a l).unpoisonRange a l.length

/-- A line substituted in a ring: from the same line of the previous frame, or zeros in the first frame after the port's enable, when
there is none (R51). -/
def State.substitute (s : State) (q : Nat) (first chroma : Bool) (y : Nat) : State :=
  if !s.hasLine q chroma y then s
  else match s.ring q with
    | [] => s
    | f :: o =>
      match (if first then none else o.head?) with
      | some p => s.store (s.ringLine q f.buf chroma y) (s.bytes (s.ringLine q p.buf chroma y) (s.lineBytes q))
      | none => s.store (s.ringLine q f.buf chroma y) (List.replicate (s.lineBytes q) 0)

/-- The lines of a plane that are to be substituted: 0 never arrived, 2 failed its crc. -/
def missing (marks : Tab Nat) (count : Nat) : List (Nat × Nat) :=
  ((List.range count).map (fun y => (y, tabGet (fun _ => 0) marks y))).filter (fun e => e.2 != 1)

/-- A stream's frame closes (R51): substitution in each ring, the port's counters, and the event. -/
def State.closeFrame (s : State) (p st : Nat) : State :=
  let k := p * 4 + st
  let x := s.stream k
  match x.frame with
  | none => s
  | some n =>
    let ls := s.boundLayers p st
    if x.dropping then
      -- R252: a dropped frame never closes as a frame
      s.setStream k { x with frame := none, dropping := false, luma := [], chroma := [], sum := [], held := [] }
    else
      let ml := missing x.luma (s.lumaCount ls)
      let mc := missing x.chroma (s.chromaCount ls)
      let failed := ((ml ++ mc).filter (fun e => e.2 == 2)).length
      let absent := ((ml ++ mc).filter (fun e => e.2 == 0)).length
      let t := s.doAll ls (fun u q =>
        (u.doAll ml (fun v e => v.substitute q x.closed.isEmpty false e.1)).doAll mc (fun v e =>
          v.substitute q x.closed.isEmpty true e.1))
      let t := t.doAll ls (fun u q => (u.modRing q (fun r => match r with
        | f :: o => { f with closed := true, line0 := true } :: o
        | [] => [])).doIf (decide (0 < failed + absent)) (·.stillBreak (q / 4)))
      let t := (t.count (HD_INGEST_ERRS2_crc_lines p) failed).count (HD_INGEST_ERRS2_missing_lines p) absent
      let t := t.setStream k { x with frame := none, closed := (n :: x.closed).take 32768, luma := [], chroma := [], prevSum := x.sum
                                      sum := [], changed := false, held := [] }
      t.doIf (decide (0 < failed + absent)) (·.raise2 RV_INGEST_SUBST p (min 32767 (failed + absent)))

/-- A frame opens: a buffer in every ring. -/
def State.openFrame (s : State) (p st n : Nat) : State :=
  let t := s.doAll (s.boundLayers p st) (fun u q =>
    u.modRing q (pushFrame (u.fld (HD_LAYER_CTRL_ring_count (q / 4) (q % 4))) n))
  t.modStream (p * 4 + st) (fun x => { x with frame := some n })

/-- The highest line of a plane received so far, plus 1. -/
def received (marks : Tab Nat) : Nat := maxOf (marks.map (fun e => e.1 + 1))

/-- The newest frame of the rings has had line 0 resolved: line 0 has arrived, or a higher line has been written (R61). -/
def State.resolve0 (s : State) (ls : List Nat) : State :=
  s.doAll ls (fun u q => u.modRing q (fun r => match r with
    | f :: t => { f with line0 := true } :: t
    | [] => []))

/-- A line of the frame that is open marked as arrived: 1 good, 2 failed its crc. -/
def State.markLine (s : State) (k : Nat) (chroma : Bool) (y : Nat) (good : Bool) : State :=
  let mark := if good then 1 else 2
  s.modStream k (fun x => { x with
    luma := if chroma then x.luma else tabSet (fun _ => 0) x.luma y mark
    chroma := if chroma then tabSet (fun _ => 0) x.chroma y mark else x.chroma })

/-- A line of the frame that is open: written, or marked as failed (R51). -/
def State.takeLine (s : State) (p st : Nat) (chroma : Bool) (y : Nat) (good : Bool) (sum : Word) (payload : List Byte) :
    State :=
  let k := p * 4 + st
  let ls := s.boundLayers p st
  let x := s.stream k
  let key := y + (if chroma then 65536 else 0)
  let same := tabGet (fun _ => 0) x.prevSum key == sum && good
  let t := (s.markLine k chroma y good).modStream k (fun x => { x with
    sum := tabSet (fun _ => 0) x.sum key sum, changed := x.changed || !same })
  let t := if good then t.doAll ls (fun u q =>
      if u.hasLine q chroma y then
        match u.ring q with
        | f :: _ => u.store (u.ringLine q f.buf chroma y) (payload.take (u.lineBytes q))
        | [] => u
      else u) else t
  let t := t.doIf (!same) (fun u => u.doAll ls (fun v q => v.stillBreak (q / 4)))
  t.doIf (!chroma && (y == 0 || good)) (·.resolve0 ls)

/-- The source frame of an ingest-fed layer at fetch start (R60): the newest whose line 0 is resolved; with `again` the
last one shown (R75). -/
def State.ingestFetch (s : State) (g l : Nat) (again : Bool) : State :=
  let q := 4 * g + l
  let r := s.ring q
  match r.filter (fun f => (if again then f.shown else f.line0) && !f.gone) with
  | [] => s
  | f :: _ =>
    let older := (r.dropWhile (· != f)).drop 1
    let skipped := (older.filter (fun o => !o.shown && o.line0)).length
    let t := if f.shown then s.count (HD_LAYER_CNT7_frames_repeated g l) 1
      else s.count (HD_LAYER_CNT6_frames_dropped g l) skipped
    t.setRing q ((r.filter (fun o => !o.gone)).map (fun o => { o with reading := o == f, shown := o.shown || o == f || older.contains o }))

/-! ## Composition (R57, R58, R78) -/

/-- `n` bits expanded to 16 by bit replication. -/
def expand (n v : Nat) : Nat :=
  let k := ceilDiv 16 n
  v * ((2 ^ (n * k) - 1) / (2 ^ n - 1)) / 2 ^ (n * k - 16)

/-- A packed pixel from its bytes: red, green, blue, alpha in 16 bits (R55). -/
def packedPixel (f : Nat) (b : List Byte) : Nat × Nat × Nat × Nat :=
  let n := leNat b
  match f with
  | 1 => (expand 5 (bits n 11 5), expand 6 (bits n 5 6), expand 5 (bits n 0 5), 65535)
  | 2 => (expand 8 (bits n 0 8), expand 8 (bits n 8 8), expand 8 (bits n 16 8), 65535)
  | 3 => (expand 8 (bits n 0 8), expand 8 (bits n 8 8), expand 8 (bits n 16 8), expand 8 (bits n 24 8))
  | 4 => (expand 10 (bits n 0 10), expand 10 (bits n 10 10), expand 10 (bits n 20 10), expand 2 (bits n 30 2))
  | _ => (bits n 0 16, bits n 16 16, bits n 32 16, 65535)

/-- Where a layer's picture lies: its buffer, stride, the buffer that replaces poisoned data (R262) or lines that are substituted (R51),
and the stream whose open frame it is. -/
structure Source where
  base : Nat
  stride : Nat
  other : Option (Nat × Nat)
  stream : Option Nat
  deriving DecidableEq, Repr

/-- The stream that feeds a layer. -/
def State.layerStream (s : State) (g l : Nat) : Nat := s.fld (HD_LAYER_CTRL_ingest_port g l) * 4 + s.fld (HD_LAYER_CTRL_ingest_stream g l)

/-- A frame of a layer's ring as a source, with the frame before it unless it is the first since the port's enable. -/
def State.ringSource (s : State) (g l : Nat) (f : SrcFrame) : Source :=
  let prev := ((s.ring (4 * g + l)).dropWhile (fun o => o != f)).drop 1 |>.head?
  let first := !f.closed && (s.stream (s.layerStream g l)).closed.isEmpty
  { base := s.ringBuf g l f.buf, stride := s.ringStride g l
    other := if first then none else prev.map (fun o => (s.ringBuf g l o.buf, s.ringStride g l))
    stream := if f.closed then none else some (s.layerStream g l) }

def State.layerSource (s : State) (g l : Nat) : Option Source :=
  let q := 4 * g + l
  if s.ingestFed g l then ((s.ring q).find? (fun f => f.reading)).map (s.ringSource g l)
  else
    let x := s.fqueue q
    match x.showing with
    | none => none
    | some n =>
      let other := match x.held with
        | some h => if x.fallback then none else some ((x.slot h).base.toNat, (x.slot h).stride.toNat)
        | none => none
      some { base := (x.slot n).base.toNat, stride := (x.slot n).stride.toNat, other := other, stream := none }

/-- How a line of a source stands (R61). -/
inductive LineState where
  /-- not resolved yet -/
  | unresolved
  /-- written -/
  | good
  /-- failed its crc or never arrived: taken from the previous frame -/
  | lost
  deriving DecidableEq, Repr

/-- A line of a plane of a source: of an open frame, by the lines of that plane that have arrived (R61). -/
def State.lineState (s : State) (c : Source) (chroma : Bool) (y : Nat) : LineState :=
  match c.stream with
  | none => .good
  | some k =>
    let marks := if chroma then (s.stream k).chroma else (s.stream k).luma
    let m := tabGet (fun _ => 0) marks y
    if m = 1 then .good else if m = 2 ∨ marks.any (fun e => decide (y < e.1) && e.2 == 1) then .lost else .unresolved

/-- Bytes of a line of a source at a place given by base and stride: of the frame before where the line is lost, zeros where there is
none (R51), and replaced where it is poisoned (R262). -/
def State.sourceBytes (s : State) (c : Source) (chroma : Bool) (y : Nat) (addr : Nat → Nat → Nat) (n : Nat) : Option (List Byte) :=
  let a := addr c.base c.stride
  let other := c.other.map (fun o => s.bytes (addr o.1 o.2) n)
  match s.lineState c chroma y with
  | .unresolved => none
  | .lost => some (other.getD (List.replicate n 0))
  | .good => if s.rangePoisoned a n then other else some (s.bytes a n)

/-- One chroma sample pair at chroma position (cx, cy), limited to the plane. -/
def State.chromaAt (s : State) (c : Source) (f w h : Nat) (cx cy : Int) : Option (Nat × Nat) :=
  let x := (clampI cx 0 (w / 2 - 1)).toNat
  let y := (clampI cy 0 ((chromaLines f h : Nat) - 1)).toNat
  let bpp := bytesPerPixel f
  (s.sourceBytes c true y (fun b st => chromaLine b st h y + x * 2 * bpp) (2 * bpp)).map (fun l =>
    if f = 6 then (bits (leNat l) 0 8 * 4, bits (leNat l) 8 8 * 4) else (bits (leNat l) 0 10, bits (leNat l) 16 10))

/-- Two options combined. -/
def both {α β : Type} : Option α → Option β → Option (α × β)
  | some a, some b => some (a, b)
  | _, _ => none

/-- The weighted sum of two chroma pairs, in sixteenths. -/
def mixChroma (a b : Nat × Nat) (wa wb : Nat) : Nat × Nat := (a.1 * wa + b.1 * wb, a.2 * wa + b.2 * wb)

/-- Chroma at a luma position, in units of 1/8 of a 10-bit step (R58). -/
def State.chromaFull (s : State) (c : Source) (f w h x y : Nat) : Option (Nat × Nat) :=
  let row := fun cy : Int =>
    (both (s.chromaAt c f w h (x / 2 : Nat) cy) (s.chromaAt c f w h ((x / 2 + x % 2 : Nat) : Int) cy)).map
      (fun p => mixChroma p.1 p.2 1 1)
  if isYc420 f then
    let j : Int := (y / 2 : Nat)
    (both (row j) (row (if y % 2 = 0 then j - 1 else j + 1))).map (fun p => mixChroma p.1 p.2 3 1)
  else (row (y : Nat)).map (fun p => mixChroma p (0, 0) 4 0)

/-- Kr and Kb of the matrices of R58, in ten-thousandths. -/
def ycCoeffs (m : Nat) : Nat × Nat := if m = 0 then (2126, 722) else if m = 1 then (2627, 593) else (2990, 1140)

/-- A rational rounded to nearest and limited to 16 bits. -/
def to16 (r : Rat) : Nat := (clampI ((r + 1 / 2).floor) 0 65535).toNat

/-- YC to RGB: `y` in 10-bit steps (8-bit ones scaled by 4), `cb` and `cr` in eighths of a 10-bit step. The result is
rounded once (log 13). In full range luma spans 0 to the greatest code, 1023, or 1020 for 8-bit ones scaled, and chroma spans as
much about 512: DESIGN CHOICE, log 146. -/
def ycToRgb (m : Nat) (full eight : Bool) (y cb cr : Nat) : Nat × Nat × Nat :=
  let top : Rat := if eight then 1020 else 1023
  let yy : Rat := if full then (y : Rat) / top else ((y : Rat) - 64) / 876
  let span : Rat := if full then top else 896
  let u : Rat := ((cb : Rat) / 8 - 512) / span
  let v : Rat := ((cr : Rat) / 8 - 512) / span
  let (kr, kb) := ycCoeffs m
  let r : Rat := kr / 10000
  let b : Rat := kb / 10000
  let red := yy + 2 * (1 - r) * v
  let blue := yy + 2 * (1 - b) * u
  let green := (yy - r * red - b * blue) / (1 - r - b)
  (to16 (red * 65535), to16 (green * 65535), to16 (blue * 65535))

/-- A pixel of a layer at a place in its picture: none where poisoned data cannot be replaced (R78, R262). -/
def State.layerPixel (s : State) (g l : Nat) (c : Source) (x y : Nat) : Option (Nat × Nat × Nat × Nat) :=
  let f := s.layerFormat g l
  let bpp := bytesPerPixel f
  let raw := s.sourceBytes c false y (fun b st => lumaLine b st y + x * bpp) bpp
  if isYc f then
    (both raw (s.chromaFull c f (s.layerWidth g l) (s.layerHeight g l) x y)).map (fun p =>
      let yy := if f = 6 then leNat p.1 * 4 else bits (leNat p.1) 0 10
      let (r, gr, b) := ycToRgb (s.fld (HD_LAYER_CTRL_yc_matrix g l)) (s.flag (HD_LAYER_CTRL_yc_full g l)) (f == 6)
        yy p.2.1 p.2.2
      (r, gr, b, 65535))
  else raw.map (packedPixel f)

/-- One component blended over the picture below (R57). -/
def blend1 (mode ga src a d : Nat) : Nat :=
  let one := 65535 * 255
  match mode with
  | 0 => src
  | 1 => roundDiv (src * (a * ga) + d * (one - a * ga)) one
  | _ => min 65535 (roundDiv (src * ga * 65535 + d * (one - a * ga)) one)

def State.blend (s : State) (g l : Nat) (px : Nat × Nat × Nat × Nat) (d : Nat × Nat × Nat) : Nat × Nat × Nat :=
  let m := s.fld (HD_LAYER_CTRL_alpha_mode g l)
  let ga := s.fld (HD_LAYER_CTRL_global_alpha g l)
  let (r, gr, b, a) := px
  (blend1 m ga r a d.1, blend1 m ga gr a d.2.1, blend1 m ga b a d.2.2)

/-- The place of raster pixel (x, y) in a layer's picture, where the layer covers it. -/
def State.layerPlace (s : State) (g l x y : Nat) : Option (Nat × Nat) :=
  let lx : Int := (x : Int) - s.sfld (HD_LAYER_POS_x g l)
  let ly : Int := (y : Int) - s.sfld (HD_LAYER_POS_y g l)
  if 0 ≤ lx ∧ lx < s.layerWidth g l ∧ 0 ≤ ly ∧ ly < s.layerHeight g l then some (lx.toNat, ly.toNat) else none

/-- An underrun pixel (R78). -/
def State.underrun (s : State) (g l : Nat) : State :=
  ((s.count (HD_LAYER_CNT5_underrun_pix g l) 1).raiseOnce LAYER_UNDERRUN (4 * g + l) (4 * g + l) 0).stillBreak g

/-- One layer composed at a pixel from a source. -/
def State.composeFrom (s : State) (g x y : Nat) (supplied : BitVec 4) (d : Nat × Nat × Nat) (l : Nat) (src : Option Source) :
    State × (Nat × Nat × Nat) :=
  if !s.layerOn g l then (s, d)
  else match s.layerPlace g l x y, src with
    | some (px, py), some c =>
      let got := if supplied.getLsbD l then s.layerPixel g l c px py else none
      match got with
      | some v =>
        (s.modGroup g (fun gr => { gr with lastPixel := tabSet (fun _ => none) gr.lastPixel l (some v) }), s.blend g l v d)
      | none =>
        let t := s.underrun g l
        match tabGet (fun _ => none) (s.group g).lastPixel l with
        | some v => (t, s.blend g l v d)
        | none => (t, d)
    | _, _ => (s, d)

/-- One layer composed at a pixel. -/
def State.composeLayer (s : State) (g x y : Nat) (supplied : BitVec 4) (d : Nat × Nat × Nat) (l : Nat) : State × (Nat × Nat × Nat) :=
  s.composeFrom g x y supplied d l (s.layerSource g l)

/-- The background (R57). -/
def State.background (s : State) (g : Nat) : Nat × Nat × Nat :=
  (expand 10 (s.fld (HD_RASTER_BG_bg_r g)), expand 10 (s.fld (HD_RASTER_BG_bg_g g)),
   expand 10 (s.fld (HD_RASTER_BG_bg_b g)))

/-- A pixel composed from background and layers L0 to L3. -/
def State.compose (s : State) (g x y : Nat) (supplied : BitVec 4) : State × (Nat × Nat × Nat) :=
  (List.range 4).foldl (fun p l => State.composeLayer p.1 g x y supplied p.2 l) (s, s.background g)

/-! ## CRC rectangles (R79, R80) -/

/-- A rectangle as latched at the frame boundary: x, y, width, height. -/
def Group.rect (gr : Group) (r : Nat) : Nat × Nat × Nat × Nat :=
  let p := (tabGet (fun _ => 0) gr.crcRects (2 * r)).toNat
  let z := (tabGet (fun _ => 0) gr.crcRects (2 * r + 1)).toNat
  (bits p 0 14, bits p 16 14, bits z 0 14, bits z 16 14)

/-- Whether a rectangle holds a pixel. -/
def Group.inRect (gr : Group) (r x y : Nat) : Bool :=
  let (rx, ry, w, h) := gr.rect r
  decide (rx ≤ x) && decide (x < rx + w) && decide (ry ≤ y) && decide (y < ry + h)

/-- Whether a rectangle is enabled: not empty after clipping. -/
def State.rectOn (s : State) (g r : Nat) : Bool :=
  let (rx, ry, w, h) := (s.group g).rect r
  decide (0 < w) && decide (0 < h) && decide (rx < s.hActive g) && decide (ry < s.vActive g)

/-- The six bytes of a pixel (R80). -/
def pixelBytes (p : Nat × Nat × Nat) : List Byte := natLe 2 p.1 ++ natLe 2 p.2.1 ++ natLe 2 p.2.2

def crcInit (_ : Nat) : Word := 0xFFFFFFFF

/-- The rectangles take a composed pixel. -/
def State.crcPixel (s : State) (g x y : Nat) (p : Nat × Nat × Nat) : State :=
  s.modGroup g (fun gr => { gr with crcSum :=
    ((List.range 16).filter (fun r => gr.inRect r x y)).foldl (fun t r =>
      tabSet crcInit t r (BitVec.ofNat 32 (crc32Reg (tabGet crcInit t r).toNat (pixelBytes p)))) gr.crcSum })

/-! ## The monitor's picture (R82, R83) -/

/-- Bytes of a pixel of the monitor's picture: three components of 8 bits, or of 10 bits in one word (log 147). -/
def State.monBytes (s : State) : Nat := if s.flag HD_MON0_rgb10 then 4 else 3

def State.monWidth (s : State) : Nat := s.hActive (s.fld HD_MON0_group) / 2 ^ s.fld HD_MON0_decimate
def State.monHeight (s : State) : Nat := s.vActive (s.fld HD_MON0_group) / 2 ^ s.fld HD_MON0_decimate

/-- The address of one half of the double buffer: the second begins at the next 4 KiB after the first (log 147). -/
def State.monBuf (s : State) (half : Bool) : Nat :=
  s.fld HD_MON4_buf_lo + s.fld HD_MON5_buf_hi * 2 ^ 32 +
    (if half then roundUp (s.monWidth * s.monHeight * s.monBytes) 4096 else 0)

/-- A pixel of the monitor's picture as bytes. -/
def State.monPixelBytes (s : State) (p : Nat × Nat × Nat) : List Byte :=
  if s.flag HD_MON0_rgb10 then natLe 4 (p.1 + p.2.1 * 2 ^ 10 + p.2.2 * 2 ^ 20) else natLe 3 (p.1 + p.2.1 * 2 ^ 8 + p.2.2 * 2 ^ 16)

/-- Whether writes of the monitor wait for room in their queues (R248). -/
def State.monStarved (s : State) : Bool := s.subs.any (fun x => x.2.entry.any (fun q => q.write && q.r == 34))

/-- A monitor frame abandoned for want of class C capacity: its waiting writes go and the last picture stays (R253). It counts as
such when its writes still wait as its last line ends (DESIGN CHOICE, log 155). -/
def State.monAbandon (s : State) : State :=
  let t := s.doAll (List.range 16) (fun u k => u.modSub k (fun x => { x with entry := x.entry.filter (fun q => !(q.write && q.r == 34)) }))
  { t.count (GR_REQ2_drops 34) 1 with mon := { t.mon with sums := [] } }

/-- The decimated picture is complete: it goes to the half of the double buffer that is not in use. -/
def State.monPicture (s : State) : State :=
  if s.monStarved then s.monAbandon
  else
  let d := 2 ^ s.fld HD_MON0_decimate
  let n := if s.flag HD_MON0_rgb10 then 1023 else 255
  let avg := fun v : Nat => roundDiv (v * n) (d * d * 65535)
  let box := fun b : Nat × Nat × Nat => (avg b.1, avg b.2.1, avg b.2.2)
  let pic := (List.range (s.monWidth * s.monHeight)).map (fun i => box (tabGet (fun _ => (0, 0, 0)) s.mon.sums i))
  let t := s.store (s.monBuf (!s.mon.half)) (pic.flatMap s.monPixelBytes)
  { t with mon := { t.mon with sums := [], picture := pic, half := !s.mon.half } }

/-- LAST_ACTIVE_LINE_END, R80, R79: each enabled rectangle's result against its expected value, or learnt; a rectangle that learns is
not compared in that frame (DESIGN CHOICE, log 145). The monitor's decimated picture is complete (R82). -/
def execLastActiveLineEnd (g : Fin 4) (s : State) : Result :=
  if s.flag (HD_STILL_STATUS_in_still g) then .next s
  else
    let gr := s.group g
    let on := (List.range 16).filter (fun r => s.rectOn g r)
    let result := fun r => (tabGet crcInit gr.crcSum r) ^^^ 0xFFFFFFFF
    let t := s.doAll on (fun u r => u.setWord (HD_CRC_RESULT g r) (result r))
    let t := t.doAll (on.filter (fun r => gr.learn.getLsbD r)) (fun u r => u.setWord (HD_CRC_EXPECT g r) (result r))
    let bad := on.filter (fun r => !gr.learn.getLsbD r && result r != tabGet (fun _ => 0) gr.crcRects (32 + r))
    let mask := (bad.map (fun r => 2 ^ r)).sum
    let learnt := on.foldl (fun (m : BitVec 16) r => m &&& ~~~(1#16 <<< r)) gr.learn
    let t := t.modGroup g (fun x => { x with crcSum := [], learn := learnt })
    let t := t.doIf (decide (0 < mask)) (fun u =>
      (u.setFld (HD_CRC_STATUS_mismatch g) ((u.fld (HD_CRC_STATUS_mismatch g)) ||| mask)).raise2 CRC_RECT_MISMATCH g mask)
    .next (t.doIf (t.flag HD_MON0_enable && t.fld HD_MON0_group == g) (·.monPicture))

/-- The monitor's boxes take a composed pixel. -/
def State.monPixel (s : State) (g x y : Nat) (p : Nat × Nat × Nat) : State :=
  if s.flag HD_MON0_enable ∧ s.fld HD_MON0_group = g then
    let d := 2 ^ s.fld HD_MON0_decimate
    let w := s.hActive g / d
    if x / d < w ∧ y / d < s.vActive g / d then
      let k := y / d * w + x / d
      let o := tabGet (fun _ => (0, 0, 0)) s.mon.sums k
      let sums := tabSet (fun _ => (0, 0, 0)) s.mon.sums k (o.1 + p.1, o.2.1 + p.2.1, o.2.2 + p.2.2)
      { s with mon := { s.mon with sums := sums } }
    else s
  else s

/-- PIXEL_DUE, R57, R78: a pixel of the raster is composed; `supplied` says which layers could supply it in time. In
still mode composition stops (R81). -/
def execPixelDue (g : Fin 4) (x y : Nat) (supplied : BitVec 4) (s : State) : Result :=
  if s.flag (HD_STILL_STATUS_in_still g) then .next s
  else
    let (t, p) := s.compose g x y supplied
    let t := t.modGroup g (fun gr => { gr with composed := p })
    .next ((t.crcPixel g x y p).monPixel g x y p)

/-! ## Fetch start and variable blanking (R66, R75) -/

/-- The layers of a group start fetching (R60, R69, R70). -/
def State.fetch (s : State) (g : Nat) (again : Option Nat) : State :=
  let t := s.doAll ((List.range 4).filter (fun l => s.layerOn g l)) (fun u l =>
    if u.ingestFed g l then u.ingestFetch g l (again == some l) else u.flipFetch (4 * g + l))
  t.modGroup g (fun gr => { gr with fetching := true, lastPixel := [] })

/-- FETCH_START, R66: 8 lines before active line 0; nothing is fetched in still mode. -/
def execFetchStart (g : Fin 4) (s : State) : Result :=
  if (s.group g).fetching ∨ s.flag (HD_STILL_STATUS_in_still g) ∨ !s.rasterOn g then .next s
  else .next (s.fetch g none)

/-- The paced layer's previous source frame has closed and line 0 of its next frame is resolved (R75): a frame that has not been shown
and comes after a closed one, or with none before it (DESIGN CHOICE, log 144). -/
def State.pacedReady (s : State) (g : Nat) : Bool :=
  let r := (s.ring (4 * g + s.fld (HD_RASTER0_vrr_layer g))).filter (fun f => !f.gone)
  (r.zip ((r.drop 1).map some ++ [none])).any (fun e => e.1.line0 && !e.1.shown && e.2.all (·.closed))

/-- Conditions (a) and (b) tested at a line boundary, from 8 lines before the end of v_back on (R75). -/
def State.pace (s : State) (g : Nat) : State :=
  let n := (s.group g).line
  let lastLn := n + 8 + s.vActive g
  let a := decide (s.fld (HD_RASTER6_min_lines g) ≤ lastLn) && s.pacedReady g
  let b := decide (s.fld (HD_RASTER6_max_lines g) ≤ lastLn)
  if !s.vrr g ∨ !s.rasterOn g ∨ (s.group g).fetching ∨ n + 8 < s.vBlank g ∨ s.flag (HD_STILL_STATUS_in_still g) then s
  else if a then s.fetch g none
  else if b then
    ((s.fetch g (some (s.fld (HD_RASTER0_vrr_layer g)))).count (HD_RASTER_STATUS_vrr_repeats g) 1).raise VRR_REPEAT g
  else s

/-- LINE_BOUNDARY, R75: under variable blanking. The first line boundary of a frame is its frame boundary. -/
def execLineBoundary (g : Fin 4) (s : State) : Result :=
  .next ((s.modGroup g (fun gr => { gr with line := gr.line + 1 })).pace g)

/-! ## The monitor output (R84) -/

/-- The packets of a monitor frame, one for each of its lines, read from the double buffer: in command mode write_memory_start, then
write_memory_continue, as DCS long writes; in video mode the pixels (log 147). -/
def State.monPackets (s : State) : List (Nat × List Byte) :=
  let n := s.monWidth * s.monBytes
  let line := fun y : Nat => s.bytes (s.monBuf s.mon.half + y * n) n
  (List.range s.monHeight).map (fun y =>
    if s.flag HD_MON0_cmd_mode then (0x39, (if y = 0 then 0x2C else 0x3C) :: line y)
    else (if s.flag HD_MON0_rgb10 then 0x0D else 0x3E, line y))

/-- Ticks that a monitor frame takes on the lanes: its bits with the tenth of R83, at lanes × lane_mbps (log 148). -/
def State.monTicks (s : State) : Nat :=
  ceilDiv (11 * s.monWidth * s.monHeight * (if s.flag HD_MON0_rgb10 then 30 else 24) * 800)
    (10 * s.fld HD_MON0_lanes * s.fld HD_MON1_lane_mbps)

/-- A monitor frame sent. -/
def State.monSend (s : State) : State :=
  let t := (s.countWrap HD_MON6_frames_sent 1).emit (.monitorFrame s.mon.frames s.monPackets)
  { t with mon := { t.mon with waiting := false, frames := t.mon.frames + 1, sendEnd := t.tick + s.monTicks } }

/-- Whether a refresh is due: refresh_div frames of the group after the last, or still_div in still mode (R82). -/
def State.monDue (s : State) : Bool :=
  decide ((if s.flag (HD_STILL_STATUS_in_still (s.fld HD_MON0_group)) then s.fld HD_MON0_still_div else s.fld HD_MON0_refresh_div) ≤ s.mon.since)

/-- MONITOR_REFRESH, R82, R84: in video mode the frame is sent; in command mode it waits for DSI_TE. A refresh that falls due
while one waits or is being sent is skipped. -/
def execMonitorRefresh (s : State) : Result :=
  if !s.flag HD_MON0_enable ∨ !s.monDue then .next s
  else
    let t := { s with mon := { s.mon with since := 0 } }
    if s.mon.waiting ∨ s.tick < s.mon.sendEnd then .next t
    else if s.flag HD_MON0_cmd_mode then .next { t with mon := { t.mon with waiting := true } }
    else .next t.monSend

/-- DSI_TE_EDGE, R84: the selected edge lets a waiting frame go. -/
def execDsiTeEdge (falling : Bool) (s : State) : Result :=
  if s.mon.waiting ∧ s.flag HD_MON0_te_falling = falling then .next s.monSend else .next s

/-- TE_TIMEOUT, R84: the frame is sent anyway; te_timeout = 0 waits without limit. -/
def execTeTimeout (s : State) : Result :=
  if s.mon.waiting ∧ s.fld HD_MON0_te_timeout ≠ 0 then
    let t := s.monSend.count HD_MON6_te_missed 1
    .next (t.raise MON_TE_MISSED (t.fld HD_MON6_frames_sent))
  else .next s

end Sys2Proof.Machine
end

