-- ==== Sys2Proof/Machine/Colour.lean ====
section
/-!
DEFINITION. The colour pipeline (R85 to R97): linearisation, matrix, the split with its zone levels and light field,
uniformity gain and dither. Products are exact and are rounded to nearest once, at the output of a stage (R85; halves
upwards, log 14).
-/

namespace Sys2Proof.Machine

/-- A rational rounded to nearest, halves upwards. -/
def ratRound (r : Rat) : Int := (r + 1 / 2).floor

def topLinear : Nat := 0x3FFFFF

/-! ## Linearisation and matrix (R86, R88) -/

/-- The number of a table word in the bank of a window. -/
def lutKey (g bank c i : Nat) : Nat := winBase + bank * winBank + CP_LUT g c i

def State.lutEntry (s : State) (g c i : Nat) : Nat :=
  getBits (s.word (lutKey g (s.fld (CP_CTRL_lut_bank g)) c i)) 0 22

/-- The output of the table of component `c` (R86). -/
def State.linearise (s : State) (g c v : Nat) : Nat :=
  if s.flag (CP_CTRL_lut_bypass g) then v * 16
  else
    let i := v / 16
    let f : Int := (v % 16 : Nat)
    let a : Int := s.lutEntry g c i
    let b : Int := s.lutEntry g c (i + 1)
    (clampI (a + roundDivI ((b - a) * f) 16) 0 topLinear).toNat

/-- The matrix output of native component `r` before its clamp (R88). -/
def State.matrixRaw (s : State) (g r : Nat) (v : Nat → Nat) : Int :=
  if s.flag (CP_CTRL_matrix_bypass g) then v r
  else
    let sum : Int := ((List.range 3).map (fun c => s.sfld (CP_MATRIX_m g (3 * r + c)) * (v c : Int))).sum
    roundDivI sum (2 ^ 20) + s.sfld (CP_OFFSET_off g r)

def clampLinear (i : Int) : Nat := (clampI i 0 topLinear).toNat

/-- The clip counters and the event, for the pixel of a group (R88). -/
def State.clipCount (s : State) (g : Nat) (t : List Int) : State :=
  let low := t.any (fun i => decide (i < 0))
  let high := t.any (fun i => decide ((topLinear : Int) < i))
  let u := (s.doIf low (·.count (CP_CNT20_clip_low g) 1)).doIf high (·.count (CP_CNT21_clip_high g) 1)
  u.doIf (low || high) (·.raiseOnce COLOUR_CLIP g g 0)

/-! ## Uniformity gain (R95) -/

/-- A point of the gain map; one in poisoned data is taken as 1.0 (R262). -/
def State.gainPoint (s : State) (h u v : Nat) : Nat :=
  let gx := ceilDiv (s.hActive (s.groupOf h)) 16 + 1
  let base := s.fld (CP_HEAD_UNIF6_unif_lo h) + s.fld (CP_HEAD_UNIF7_unif_hi h) * 2 ^ 32
  let a := base + 2 * (v * gx + u)
  if s.rangePoisoned a 2 then 2 ^ 14 else leNat (s.bytes a 2)

/-- The value after the gain map, interpolated between the four surrounding points. -/
def State.uniform (s : State) (h x y p : Nat) : Nat :=
  if s.flag (CP_HEAD_CTRL_unif_en h) then
    let fx := x % 16
    let fy := y % 16
    let g := s.gainPoint h (x / 16) (y / 16) * (16 - fx) * (16 - fy) +
      s.gainPoint h (x / 16 + 1) (y / 16) * fx * (16 - fy) +
      s.gainPoint h (x / 16) (y / 16 + 1) * (16 - fx) * fy +
      s.gainPoint h (x / 16 + 1) (y / 16 + 1) * fx * fy
    min topLinear (roundDiv (p * g) (256 * 2 ^ 14))
  else p

/-! ## Dither (R96, R97) -/

/-- The Bayer matrix of 2^k by 2^k. -/
def bayer : Nat → Nat → Nat → Nat
  | 0, _, _ => 0
  | k + 1, y, x =>
    let n := 2 ^ k
    let off := match y / n % 2, x / n % 2 with
      | 0, 0 => 0
      | 0, _ => 2
      | _, 0 => 3
      | _, _ => 1
    4 * bayer k (y % n) (x % n) + off

/-- The threshold, in 512ths. -/
def State.threshold (s : State) (h x y : Nat) : Nat :=
  let g := s.groupOf h
  let f := (s.headOf h).dither
  match s.fld (CP_HEAD_CTRL_dither_mode h) with
  | 0 => 256
  | 1 => (2 * bayer 3 ((y + 5 * f + 3 * h) % 8) ((x + 3 * f + 2 * h) % 8) + 1) * 4
  | _ =>
    let n := (y + 29 * f + 13 * h) % 64 * 64 + (x + 17 * f + 7 * h) % 64
    2 * getBits (s.word (CP_TILE g (n / 4))) (8 * (n % 4)) 8 + 1

/-- The plane-code-table index of a value (R96). -/
def State.ditherIndex (s : State) (h x y p : Nat) : Nat :=
  let b := s.fld (CP_HEAD_CTRL_dither_bits h)
  let top := 2 ^ b - 1
  let q := min top ((min p (2 ^ 20) * top * 512 + s.threshold h x y * 2 ^ 20) / 2 ^ 29)
  q * 2 ^ (16 - b) + q / 2 ^ (2 * b - 16)

/-- The number of a component's pixel in the tables of a head. -/
def pixKey (c x y : Nat) : Nat := (c * 16384 + y) * 16384 + x

/-- The last two stages for one component of a head: the index for the Thresher, or the value for the resampler. -/
def State.finish (s : State) (h c x y p : Nat) : State :=
  let v := s.uniform h x y p
  if s.lineMode h then
    s.modHeadOf h (fun d => { d with linear := tabSet (fun _ => 0) d.linear (pixKey c x y) (min v (2 ^ 20)) })
  else
    s.modHeadOf h (fun d => { d with index := tabSet (fun _ => 0) d.index (pixKey c x y) (s.ditherIndex h x y v) })

/-! ## The split (R89 to R94) -/

/-- A kernel tap: horizontal or vertical. -/
def State.tap (s : State) (h n : Nat) (vert : Bool) : Nat :=
  if n < 16 then s.fld (if vert then CP_HEAD_KERNEL_tv h n else CP_HEAD_KERNEL_th h n) else 0

/-- The phase sums, in 2^-16 (R90). -/
def State.phaseSum (s : State) (h : Nat) (vert b : Bool) : Nat :=
  (((List.range 16).filter (fun n => (n % 4 == 1 || n % 4 == 2) == b)).map (fun n => s.tap h n vert)).sum

/-- The unity field (R90). -/
def State.unity (s : State) (h : Nat) : Rat :=
  (s.fld (CP_HEAD_PEAK_zone_peak h) : Rat) / 2 ^ 20 *
    (min (s.phaseSum h false false) (s.phaseSum h false true) : Nat) / 2 ^ 16 *
    (min (s.phaseSum h true false) (s.phaseSum h true true) : Nat) / 2 ^ 16

/-- One more than the index of the last vertical tap that is not zero (R92). -/
def State.lastTap (s : State) (h : Nat) : Nat :=
  ((List.range 16).filter (fun n => s.tap h n true != 0)).foldl (fun m n => max m (n + 1)) 0

/-- Rv and LA (R92). -/
def State.reachV (s : State) (h : Nat) : Nat := (s.lastTap h + 2) / 4
def State.lookaheadOf (s : State) (h : Nat) : Nat :=
  if s.flag (CP_HEAD_CTRL_split_en h) then (s.reachV h + 1) * s.fld (CP_HEAD_ZONE_zone_h h) else 0

def State.zoneW (s : State) (h : Nat) : Nat := s.fld (CP_HEAD_ZONE_zone_w h)
def State.zoneH (s : State) (h : Nat) : Nat := s.fld (CP_HEAD_ZONE_zone_h h)

/-- The key of a cell in the table of needs. -/
def cellKey (i m : Nat) : Nat := m * 256 + i

/-- A pixel enters the split: it is held in the delay line, and its cell needs at least as much (R91, R93). -/
def State.splitIn (s : State) (h c x y t : Nat) : State :=
  s.modHeadOf h (fun d =>
    let k := cellKey (x / s.zoneW h) (y / s.zoneH h)
    { d with
      linear := tabSet (fun _ => 0) d.linear (pixKey c x y) t
      need := tabSet (fun _ => 0) d.need k (max t (tabGet (fun _ => 0) d.need k)) })

/-- raw of a cell (R91). -/
def State.cellRaw (s : State) (h i m : Nat) : Rat :=
  ((tabGet (fun _ => 0) (s.headOf h).need (cellKey i m) : Nat) : Rat) / 2 ^ 20 * s.fld (CP_HEAD_SPLIT_boost h) / 2 ^ 14 /
    s.unity h

/-- The level of a cell from its raw value and the level before it (R91). -/
def cellCode (raw : Rat) (floor prev fall : Nat) : Nat :=
  min 4095 (max (min 4095 (raw * 4095).ceil.toNat) (max floor (prev - fall)))

/-- The levels of cell row `m` become final and go to the zone contexts (R91, R92). -/
def State.splitLevels (s : State) (h z m : Nat) : State :=
  let cells := List.range (s.zx z)
  let clip := (cells.filter (fun i => decide (1 < s.cellRaw h i m))).length
  let t := s.doAll cells (fun u i =>
    let c := s.zoneCtx z i m
    let prev := if (s.headOf h).splitFresh then 0 else s.fld (ZN_CTX0_level c)
    u.setFld (ZN_CTX0_level c) (cellCode (s.cellRaw h i m) (s.fld (CP_HEAD_ZONE_floor h)) prev
      (s.fld (CP_HEAD_SPLIT_fall_max h))))
  t.modHeadOf h (fun d => { d with
    clipRow := d.clipRow + clip
    need := cells.foldl (fun n i => tabErase (cellKey i m) n) d.need })

/-- The light that a zone is modelled to give: 0 while it is marked dark (R91). -/
def State.zoneModel (s : State) (c : Nat) : Nat := if s.zoneDark c then 0 else s.fld (ZN_CTX0_level c)

/-- The distance index of field point `j` from zone `i`: n where the distance is n + 0.5. -/
def tapIndex (j i : Nat) : Nat := (if 4 * i + 1 < j then j - (4 * i + 2) else 4 * i + 1 - j)

/-- The field at field point (j, k), as the matrix has its levels (R91), in the format of a light field, 1.0 = 2^20, to nearest (R85,
log 149). -/
def State.fieldPoint (s : State) (h z j k : Nat) : Rat :=
  let near := fun (p n : Nat) => (List.range n).filter (fun i => decide (tapIndex p i < 16))
  let sum := ((near k (s.zy z)).map (fun m => ((near j (s.zx z)).map (fun i =>
    s.zoneModel (s.zoneCtx z i m) * s.tap h (tapIndex j i) false * s.tap h (tapIndex k m) true)).sum)).sum
  (clampLinear (ratRound ((s.fld (CP_HEAD_PEAK_zone_peak h) : Rat) * sum / 4095 / 2 ^ 32)) : Rat) / 2 ^ 20

/-- The two field points about a mirror position in one direction and the share of the second: field point j lies at
((j + 0.5) * w/4 - 0.5); outside the outermost points the edge value holds. -/
def fieldPlace (w n x : Nat) : Nat × Nat × Rat :=
  let g : Rat := ((x : Rat) + 1 / 2) * 4 / w - 1 / 2
  if g ≤ 0 then (0, 0, 0)
  else if ((n - 1 : Nat) : Rat) ≤ g then (n - 1, n - 1, 0)
  else (g.floor.toNat, g.floor.toNat + 1, g - g.floor)

/-- The field at a mirror. -/
def State.fieldAt (s : State) (h z x y : Nat) : Rat :=
  let (j0, j1, a) := fieldPlace (s.zoneW h) (4 * s.zx z) x
  let (k0, k1, b) := fieldPlace (s.zoneH h) (4 * s.zy z) y
  (1 - b) * ((1 - a) * s.fieldPoint h z j0 k0 + a * s.fieldPoint h z j1 k0) +
    b * ((1 - a) * s.fieldPoint h z j0 k1 + a * s.fieldPoint h z j1 k1)

/-- The residual of a value in 2^-20, and whether it clips (R91). -/
def residual (t : Nat) (fl : Rat) : Nat × Bool :=
  let v : Rat := (t : Rat) / 2 ^ 20
  if t = 0 then (0, false)
  else if fl = 0 then (2 ^ 20, true)
  else if fl < v then (2 ^ 20, true)
  else ((ratRound (v / fl * 2 ^ 20)).toNat, false)

/-- The split emits the residual of one mirror (R91, R92). -/
def State.splitOut (s : State) (h z c x y : Nat) : State :=
  let (r, clip) := residual (tabGet (fun _ => 0) (s.headOf h).linear (pixKey c x y)) (s.fieldAt h z x y)
  let t := s.doIf clip (fun u => (u.count (CP_HEAD_CNT_clip_pix h) 1).raiseOnce SPLIT_CLIP h h 0)
  t.finish h c x y r

/-- The array rows whose residuals are emitted once cell row `m` has passed: cell row m - Rv, or every row left after the
last cell row (R92). -/
def State.rowsOut (s : State) (h m : Nat) : List Nat :=
  let hh := s.vActive (s.groupOf h)
  let rv := s.reachV h
  (List.range hh).filter (fun y =>
    let last := min (hh - 1) ((y / s.zoneH h + rv + 1) * s.zoneH h - 1)
    decide (m * s.zoneH h ≤ last) && decide (last < (m + 1) * s.zoneH h))

/-! ## The commands -/

/-- Whether the pipeline of a head works: it is in a group whose raster runs, outside still mode. -/
def State.pipeOn (s : State) (h : Nat) : Bool :=
  decide (h < s.nHeads) && s.rasterOn (s.groupOf h) && !s.flag (HD_STILL_STATUS_in_still (s.groupOf h))

/-- A composed pixel of a head's group passes the pipeline (R86, R88, R91, R95, R96). The stages that the group shares count for the
pixel of its lowest-numbered head (log 22). With the split, the pixel enters the delay line, and its residual leaves with
CELL_ROW_COMPLETE. -/
def State.pipePixel (s : State) (h x y : Nat) (p : Nat × Nat × Nat) : State :=
  if !s.pipeOn h then s
  else
    let gr := s.groupOf h
    let input := fun c : Nat => if c = 0 then p.1 else if c = 1 then p.2.1 else p.2.2
    let v := fun c => s.linearise gr c (input c)
    let raw := (List.range 3).map (fun c => s.matrixRaw gr c v)
    let t := s.doIf ((s.headsOf gr).head? == some h) (·.clipCount gr raw)
    t.doAll (s.comps h) (fun u c =>
      let n := clampLinear (raw.getD c 0)
      if s.flag (CP_HEAD_CTRL_split_en h) then u.splitIn h c x y n else u.finish h c x y n)

/-- COLOUR_PIPELINE_PIXEL, R86, R88, R91, R95, R96. -/
def execColourPipelinePixel (h : Fin 4) (x y : Nat) (r g b : BitVec 16) (s : State) : Result :=
  .next (s.pipePixel h x y (r.toNat, g.toNat, b.toNat))

/-- CELL_ROW_COMPLETE, R91, R92, R197: the levels of cell row `m` become final and go to the illuminator, and the
residual rows that waited for them are emitted. -/
def execCellRowComplete (h : Fin 4) (m : Nat) (s : State) : Result :=
  match s.matrixOf h with
  | none => .next s
  | some z =>
    if !s.pipeOn h ∨ !s.flag (CP_HEAD_CTRL_split_en h) ∨ s.zy z ≤ m then .next s
    else
      let t := (s.splitLevels h z m).sendRow z m
      let t := t.doAll (t.rowsOut h m) (fun u y =>
        u.doAll (List.range (u.hActive (u.groupOf h))) (fun w x => w.doAll (w.comps h) (fun k c => k.splitOut h z c x y)))
      .next (if m + 1 = s.zy z then
        (t.setFld (CP_HEAD_STATUS_level_clip h) (min 65535 (t.headOf h).clipRow)).modHeadOf h
          (fun d => { d with clipRow := 0, splitFresh := false })
      else t)

end Sys2Proof.Machine
end

