-- ==== Sys2Proof/Machine/Planes.lean ====
section
/-!
DEFINITION. The Thresher, the plane code table, effective weights and the plane store's copies (R100 to R116).
-/

namespace Sys2Proof.Machine

/-! ## Effective weights (R105) -/

/-- The lit time of a slot in ticks (R122, R123). -/
def State.litTicks (s : State) (h : Nat) (k : Slot) : Nat :=
  if k.op ≠ opLight then 0 else if k.hold then k.duration else k.duration - s.fld (SQ_SETTLE_settle_ticks h)

/-- The bank whose level entries weigh a slot: the lowest-numbered of the primary (log 23). -/
def State.weightBank (s : State) (h prim : Nat) : Option Nat := (s.banksOf h prim).head?

def State.measured (s : State) (b w : Nat) : Bool := s.flag (CC_LIGHT_measured b (w - 1))

/-- The light of a level entry: measured, or its strings over the bank's strings (R105). -/
def State.entryLight (s : State) (b w : Nat) : Rat :=
  if s.measured b w then (s.fld (CC_LIGHT_light b (w - 1)) : Rat) / 32768 else s.frac b w

/-- The effective weight of a plane in ticks of full light. -/
def State.weight (s : State) (h : Nat) (l : List Slot) (p : Nat) : Rat :=
  ((l.filter (fun k => k.op == opLight && k.plane == p)).map (fun k =>
    match s.weightBank h k.prim with
    | some b => (s.litTicks h k : Rat) * s.entryLight b k.w
    | none => 0)).sum

/-- The effective weights of a head computed again from its current bank (R105); ew_measured tells whether every entry that the
sequence names, in every bank that it lights, has been measured (R116). -/
def State.updateWeights (s : State) (h : Nat) : State :=
  let l := s.slots h (s.fld (SQ_CTRL_seq_bank h))
  let t := s.doAll (List.range 64) (fun u p =>
    u.setFld (TS_PLANE_EW_ew h p) (min (2 ^ 32 - 1) (ratRound (s.weight h l p * 256)).toNat))
  let named := l.filter (fun k => k.op == opLight || (k.op == opMeasure && k.w != 0))
  let all := named.all (fun k => !(s.banksOf h k.prim).isEmpty && (s.banksOf h k.prim).all (fun b => s.measured b k.w))
  t.setFlag (TS_STATUS_ew_measured h) (all && !named.isEmpty)

/-! ## The words of the running configuration (R107, R114, R115, R116) -/

/-- Loading LIGHT slots that name lofted planes. -/
def State.loftLoads (s : State) (h : Nat) (l : List Slot) : Nat :=
  (l.filter (fun k => k.op == opLight && !k.hold && s.lofted h k.plane)).length

/-- The frame rate of a group in Hz, at its shortest frame. -/
def State.frameRate (s : State) (g : Nat) : Rat :=
  (800000000 : Rat) * 65536 / ((s.frameLines g * s.hTotal g * s.fld (HD_RASTER5_pix_period g) : Nat) : Rat)

/-- The loft demand of a head in bits per second (R115). -/
def State.loftDemand (s : State) (h : Nat) : Rat :=
  let g := s.groupOf h
  let l := s.slots h (s.fld (SQ_CTRL_seq_bank h))
  let planes := (s.loftLoads h l + s.nLoft h) * 8 * s.nBands h * s.chunk h
  let delay := if s.flag (CP_HEAD_CTRL_split_en h) then 64 * s.hActive g * s.vActive g else 0
  ((planes + delay : Nat) : Rat) * s.frameRate g

/-- Whether a head threshes: enabled, in plane mode, in a group. -/
def State.threshes (s : State) (h : Nat) : Bool :=
  decide (h < s.nHeads) && s.headOn h && !s.lineMode h && decide (s.groupOf h < 4)

/-- The read-only words of the plane store and loft. -/
def State.planeWords (s : State) (h : Nat) : State :=
  let on := s.threshes h
  let v := fun n : Nat => if on then n else 0
  let t := s.setFld (TS_STATUS_loft_need h) (v (s.loftNeed h))
  let t := t.setFld (TS_STATUS_n_granary h) (v (s.nGranary h))
  let t := t.setFld (TS_STATUS_n_loft h) (v (s.nLoft h))
  let t := t.setFld (TS_STORE_SIZE_store_size h) (v (s.storeSize h / 4096))
  t.setFld (TS_LOFT_BW_loft_gbps h) (v (s.loftDemand h / 1000000000).ceil.toNat)

/-! ## Threshing (R101, R107, R109, R110) -/

/-- The other copy of a band, which the Thresher writes: 1 - cur. -/
def Band.other (x : Band) : Nat := if x.cur then 0 else 1
def Band.current (x : Band) : Nat := if x.cur then 1 else 0

/-- Whether a copy of a band lies in the layout that a commit has replaced (R113). -/
def Band.oldCopy (x : Band) (copy : Nat) : Bool := if copy = 0 then x.old0 else x.old1

/-- The state words of the layout in which a copy of a band lies (R113). -/
def State.copyView (s : State) (h b copy : Nat) : State :=
  if (s.bandOf (h * 32 + b)).oldCopy copy then s.doAll (s.headOf h).oldWords (fun t e => t.setWord e.1 e.2) else s

/-- A new frame of a band begins: a ready copy that never became current is overwritten (R110). -/
def State.beginBand (s : State) (h b : Nat) : State :=
  let x := s.bandOf (h * 32 + b)
  let t := s.setBandOf (h * 32 + b) { x with writing := true, ready := false, otherOk := false }
  t.doIf x.ready (fun u => (u.count (TS_CNTC_band_skips h) 1).raiseOnce BAND_SKIPPED h h 0)

/-- The bits of an entry written to the planes of a component (R101). -/
def State.writeEntry (s : State) (h b c r x e : Nat) : State :=
  let copy := (s.bandOf (h * 32 + b)).other
  s.doAll (List.range (s.nPlanes h c)) (fun t k => t.setPlaneBit h b copy (t.planeBase h c + k) r x (bitOf e k))

/-- The bits of a row beyond the array, written as 0 (R107). -/
def State.padRow (s : State) (h b c r : Nat) : State :=
  let w := s.hActive (s.groupOf h)
  s.doAll ((List.range (s.rowBytes h * 8)).filter (fun x => decide (w ≤ x))) (fun t x => t.writeEntry h b c r x 0)

/-- THRESH_PIXEL, R101, R109, R110: the index that left the dither stage is looked up, and the entry's bits go to the copy
that is not current. A band that has failed the tag check takes nothing more in its frame. -/
def execThreshPixel (h : Fin 4) (x y : Nat) (s : State) : Result :=
  let g := s.groupOf h
  if !s.threshes h ∨ !s.pipeOn h ∨ s.hActive g ≤ x ∨ s.vActive g ≤ y then .next s
  else
    let b := s.bandOfRow h y
    let d := s.bandOf (h * 32 + b)
    if d.failed then .next s
    else
      let t := s.doIf (!d.writing || (x == 0 && y == s.bandFirst h b)) (·.beginBand h b)
      let r := y - s.bandFirst h b
      .next (t.doAll (t.comps h) (fun u c =>
        let i := tabGet (fun _ => 0) (u.headOf h).index (pixKey c x y)
        let u := u.writeEntry h b c r x (u.code h (u.fld (TS_CTRL_table_bank h)) i)
        u.doIf (x + 1 == s.hActive g) (·.padRow h b c r)))

/-- The rows of a band. -/
def State.rowsOf (s : State) (h b : Nat) : Nat := s.bandEnd h b - s.bandFirst h b

/-- BAND_COPY_READY, R109: every row of the copy is written and the tag check has matched. The lines written whole are no
longer poisoned (R245). -/
def execBandCopyReady (h : Fin 4) (band : Fin 32) (s : State) : Result :=
  let x := s.bandOf (h * 32 + band)
  if !s.threshes h ∨ s.nBands h ≤ band ∨ x.failed then .next s
  else
    let t := s.doAll ((s.planes h).filter (fun p => !s.lofted h p)) (fun u p =>
      u.unpoisonRange (u.rowAddr h band x.other p 0) (u.rowsOf h band * u.rowBytes h))
    .next (t.setBandOf (h * 32 + band) { x with
      writing := false, ready := true, readyOnce := true
      old0 := x.old0 && x.other != 0, old1 := x.old1 && x.other != 1 })

/-! ## TS.LOAD_TABLE (R103, R104) -/

/-- Whether an entry of a sheaf masks bits of a field. -/
def Entry.touches (e : Entry) (f : Field) : Bool := e.index == f.key && getBits e.mask f.lo f.width != 0

/-- Whether a sheaf that masks a field is PENDING or APPLIED. -/
def State.sheafOn (s : State) (f : Field) : Bool :=
  s.sheaves.any (fun x => (x.2.state == SH_PENDING || x.2.state == SH_APPLIED) && x.2.entries.any (·.touches f))

/-- The effective light of an entry, in the units of TS_PLANE_EW. -/
def State.entryWeight (s : State) (h c e : Nat) : Nat :=
  ((List.range (s.nPlanes h c)).map (fun k =>
    if bitOf e k then s.fld (TS_PLANE_EW_ew h (s.planeBase h c + k)) else 0)).sum

/-- The descending steps of a table (R104). -/
def State.descending (s : State) (h : Nat) (f : Nat → Nat) : Nat :=
  match s.comps h with
  | c :: _ => ((List.range 65535).filter (fun i => decide (s.entryWeight h c (f (i + 1)) < s.entryWeight h c (f i)))).length
  | [] => 0

/-- TS_LOAD_TABLE, R104: the image goes to the bank that the Thresher does not read. -/
def execTsLoadTable (m : Fin 8) (s : State) : Result :=
  .next (s.withCmd m 0x0203 (fun t c =>
    if t.nHeads ≤ c.arg 0 then t.outcome0 m E_RANGE
    else
      let h := c.arg 0
      t.withImage m 35 c 1 4096 262144 (fun t a =>
        let word := fun i : Nat => t.memWord (a + 4 * i)
        let code := firstCode [
          if (List.range 65536).any (fun i => decide (2 ^ 24 ≤ word i)) then E_BAD_ARG else 0,
          if t.sheafOn (TS_CTRL_table_bank h) then E_STATE else 0]
        t.orElse m code (fun t =>
          let bank := 1 - t.fld (TS_CTRL_table_bank h)
          let table := tabPut codeReset t.planeCode (codeKey h bank 0) ((List.range 65536).map (fun i => BitVec.ofNat 32 (word i)))
          ({ t with planeCode := table }).setOutcome m S_OK [BitVec.ofNat 32 (t.descending h word)]))))

end Sys2Proof.Machine
end

