-- ==== Sys2Proof/Machine/Ce.lean ====
section
/-!
DEFINITION. The control engine (R217 to R237): loops, generators, lowest-wins groups, injectors and the capture buffer.
-/

namespace Sys2Proof.Machine

def LOOP_OFF : Nat := 0
def LOOP_RUN : Nat := 1
def LOOP_HOLD : Nat := 2
def LOOP_FAULT : Nat := 3

def State.loopState (s : State) (l : Nat) : Nat := s.fld (CE_LOOP30_state l)
def State.loopOn (s : State) (l : Nat) : Bool := s.flag (CE_LOOP00_enable l)

/-- The fast and the slow loop of a head. -/
def State.fastLoop (s : State) (h : Nat) : Nat := s.fld (LM_CTRL_fast_loop h)
def State.slowLoop (s : State) (h : Nat) : Nat := s.fld (LM_CTRL_slow_loop h)

/-- Whether what the input of a calibration instance feeds carries STALE (R335). -/
def State.measuring (s : State) (item inst : Nat) : Bool := s.flag (CL_INST_stale item inst)

/-- STALE set or cleared on the instances of an item that produce inputs (R335): EDGE and CEA_OUT produce none. -/
def State.setStale (s : State) (item : Nat) (units : List Nat) (b : Bool) : State :=
  if item = 1 ∨ item = 4 then s else s.doAll units (fun t i => t.setFlag (CL_INST_stale item i) b)

/-! ## Lanes (R219, R220) -/

/-- The enabled loops of a lane. -/
def State.laneLoops (s : State) (m : Nat) : List Nat :=
  (List.range 64).filter (fun l => s.loopOn l && s.fld (CE_LOOP00_lane l) == m)

def State.period (s : State) (l : Nat) : Nat := s.fld (CE_LOOP01_period_ticks l)

/-- The load of a lane: the sum of 32/period over its enabled loops. -/
def State.laneLoad (s : State) (m : Nat) : Rat := ((s.laneLoops m).map (fun l => (32 : Rat) / s.period l)).sum

/-- The response bound in ticks, by iteration from 64 ticks; stops above 2^20 ticks. -/
def wcrFrom (periods : List Nat) : Nat → Nat → Nat
  | 0, w => w
  | fuel + 1, w =>
    let w' := 64 + 32 * (periods.map (fun p => ceilDiv w p)).sum
    if w' = w ∨ 2 ^ 20 < w then w else wcrFrom periods fuel w'

/-- wcr of a loop in ticks (R220). -/
def State.wcrTicks (s : State) (l : Nat) : Nat :=
  wcrFrom (((s.laneLoops (s.fld (CE_LOOP00_lane l))).filter (fun j => decide (j < l))).map s.period) 32768 64

/-- The words that follow from the enabled loops: wcr and load_pm. -/
def State.loopWords (s : State) : State :=
  let t := s.doAll (List.range 64) (fun u l =>
    u.setFld (CE_LOOP38_wcr l) (if u.loopOn l then min 65535 (ceilDiv (u.wcrTicks l) 8) else 0))
  t.doAll [0, 1] (fun u m => u.setFld (CE_LANE_load_pm m) (min 1023 (u.laneLoad m * 1000).ceil.toNat))

/-! ## Profile generators (R228 to R230) -/

def State.genOn (s : State) (g : Nat) : Bool := s.flag (CE_PG0_enable g)

/-- The enabled generators of a loop. -/
def State.gensOf (s : State) (l : Nat) : List Nat :=
  (List.range 8).filter (fun g => s.genOn g && s.fld (CE_PG0_loop g) == l)

/-- The generators that the words of a head name: slow_pg of a line-mode head, and shift_pg of a head that has shift positions
(R228; which words name one is DEDUCED, log 150). -/
def State.headGens (s : State) (h : Nat) : List Nat :=
  (if s.lineMode h then [s.fld (LM_CTRL_slow_pg h)] else []) ++
    (if s.fld (SQ_CTRL_shift_positions h) = 0 then [] else [s.fld (SQ_CTRL_shift_pg h)])

/-- A generator is owned while an enabled head of a group names it (R228). -/
def State.owned (s : State) (g : Nat) : Bool :=
  s.heads'.any (fun h => decide (s.groupOf h < 4) && s.headOn h && (s.headGens h).contains g)

def State.ownWords (s : State) : State := s.doAll (List.range 8) (fun t g => t.setFlag (CE_PG6_owned g) (t.owned g))

def frac32 : Int := 2 ^ 32

/-- The read-only words of a generator. -/
def State.genWords (s : State) (g : Nat) : State :=
  let x := s.gen g
  (s.setInt (CE_PG7_p g) (sat32 (x.p / frac32))).setInt (CE_PG8_v g) (sat32 (x.v / 2 ^ 16))

/-- A generator is not settled. -/
def State.unsettle (s : State) (g : Nat) : State :=
  (s.setFld (CE_PG6_settled g) 0).modGen g (fun x => { x with okRun := 0 })

/-- A command to a generator (R229): a done generator starts from r of its loop's last sample. -/
def State.genCommand (s : State) (g : Nat) (target : Int) : State :=
  let t := s.setInt (CE_PG1_target g) target
  let r := s.sfld (CE_LOOP32_r (s.fld (CE_PG0_loop g)))
  let t := t.doIf (s.flag (CE_PG6_done g)) (·.modGen g (fun x => { x with p := r * frac32, v := 0, a := 0 }))
  (((t.setFld (CE_PG6_done g) 0).setFld (CE_PG6_moving g) 1).unsettle g).genWords g

def sgn (i : Int) : Int := if i < 0 then -1 else if i = 0 then 0 else 1

/-- The distance that a state with v at or above 0 covers before rest: jerk brings a to -ap, with ap limited by amax, and
then v and a reach zero together (R229). All with 32 fractional bits; the square root is cut to 32 fractional bits and the
distance rounded to nearest (log 27). -/
def stopUp (v a j m : Int) : Int :=
  let s : Rat := (2 ^ 32 : Nat)
  let v' : Rat := v / s
  let a' : Rat := a / s
  let j' : Rat := j / s
  let root : Rat := (Nat.sqrt ((j' * v' + a' * a' / 2) * s * s).floor.toNat : Nat) / s
  let ap : Rat := min (m / s) root
  let d : Rat :=
    if ap = 0 ∨ a' ≤ -ap then
      let t := -a' / j'
      v' * t + a' * t * t / 2 + j' * t * t * t / 6
    else
      let t1 := (a' + ap) / j'
      let v1 := v' + a' * t1 - j' * t1 * t1 / 2
      let d1 := v' * t1 + a' * t1 * t1 / 2 - j' * t1 * t1 * t1 / 6
      let t3 := ap / j'
      let v3 := ap * t3 / 2
      let t2 := (v1 - v3) / ap
      let d2 := v1 * t2 - ap * t2 * t2 / 2
      d1 + d2 + v3 * t3 - ap * t3 * t3 / 2 + j' * t3 * t3 * t3 / 6
  (d * s + 1 / 2).floor

/-- stop(v, a) of R229. -/
def stopDist (v a j m : Int) : Int :=
  if v = 0 ∧ a = 0 then 0
  else if v < 0 ∨ (v = 0 ∧ a < 0) then -(stopUp (-v) (-a) j m)
  else stopUp v a j m

/-- Whether a jerk may be taken (R229). -/
def genOk (x : Gen) (target sg vmax amax jmax j : Int) : Bool :=
  let a1 := clampI (x.a + j) (-amax) amax
  let v1 := x.v + a1
  (decide (v1.natAbs * (2 * jmax) + a1 * a1 ≤ vmax * (2 * jmax)) || sgn a1 != sgn v1) &&
    decide (0 ≤ (target - (x.p + v1 + stopDist v1 a1 jmax amax)) * sg)

/-- One sample of a moving generator: the new state, and whether it is done. -/
def genStep (x : Gen) (target vmax amax jmax : Int) : Gen × Bool :=
  let sg := sgn (target - x.p)
  let j := (([sg * jmax, 0, -sg * jmax]).find? (genOk x target sg vmax amax jmax)).getD (-sg * jmax)
  let a := clampI (x.a + j) (-amax) amax
  let v := x.v + a
  let p := x.p + v
  if (target - p).natAbs < 2 ^ 32 ∧ (v.natAbs : Int) < jmax ∧ (a.natAbs : Int) < jmax then
    ({ x with p := target, v := 0, a := 0 }, true)
  else ({ x with p := p, v := v, a := a }, false)

/-- The mailboxes whose CE.MOVE is under way on a generator. -/
def State.movers (s : State) (g : Nat) : List (Nat × MbCmd) :=
  (List.range 8).filterMap (fun m => (s.cmdHead m).bind (fun c =>
    if c.state = MB_RUNNING ∧ c.begun ∧ c.code = 0x0401 ∧ c.outcome = none ∧ c.arg 0 = g then some (m, c) else none))

/-- r0 of CE.MOVE. -/
def State.moveResult (s : State) (g : Nat) : List Word := [BitVec.ofInt 32 ((s.gen g).p / frac32)]

/-- A generator at a sample of its loop (R229). A CE.MOVE without wait has been taken. -/
def State.genSample (s : State) (g : Nat) : State :=
  let t :=
    if s.flag (CE_PG6_moving g) then
      let lim := fun f : Field => (s.fld f : Int) * 2 ^ 16
      let (x, done) := genStep (s.gen g) (s.sfld (CE_PG1_target g) * frac32) (lim (CE_PG2_vmax g)) (lim (CE_PG3_amax g))
        (lim (CE_PG4_jmax g))
      let t := (s.setGen g x).genWords g
      t.doIf done (fun u => (u.setFld (CE_PG6_moving g) 0).setFld (CE_PG6_done g) 1)
    else s
  t.doAll (t.movers g) (fun u e => u.doIf (!bitOf (e.2.arg 2) 0) (fun v => v.setOutcome e.1 S_OK (v.moveResult g)))

/-! ## Injectors (R234) -/

/-- The signal of an injector at its sample, and its state after it. -/
def injStep (x : Inj) (kind amp duration fStart fStop period : Nat) : Inj :=
  let a : Int := signed 32 amp
  let turn := 80000000000 * duration
  match kind with
  | 0 =>
    let v := if x.lfsr.testBit 14 then a else -a
    let held := x.held + 1
    if fStart ≤ held then
      let bit := (x.lfsr.testBit 14 != x.lfsr.testBit 13).toNat
      { x with n := x.n + 1, value := v, held := 0, lfsr := (x.lfsr * 2 + bit) % 2 ^ 15 }
    else { x with n := x.n + 1, value := v, held := held }
  | 3 => { x with n := x.n + 1, value := a }
  | _ =>
    let f : Int :=
      if kind = 1 then (fStart * duration : Nat) + ((fStop : Int) - fStart) * x.n
      else (Config.logSweep fStart fStop x.n duration * duration : Nat)
    { x with n := x.n + 1, value := roundDivI (a * Config.sine x.phase turn) (2 ^ 30)
             phase := (x.phase + f.toNat * period) % turn }

/-- The running injectors of a loop take their sample; one that has run its duration gives nothing. -/
def State.injSample (s : State) (l : Nat) : State :=
  s.doAll ((List.range 4).filter (fun k => s.flag (CE_INJ0_running k) && s.fld (CE_INJ0_loop k) == l)) (fun t k =>
    let d := t.fld (CE_INJ2_duration k)
    if (t.inj k).n < d then
      t.setInj k (injStep (t.inj k) (t.fld (CE_INJ0_kind k)) (t.fld (CE_INJ1_amp k)) d (t.fld (CE_INJ3_f_start k))
        (t.fld (CE_INJ4_f_stop k)) (t.period l))
    else t.modInj k (fun x => { x with value := 0 }))

/-- The injection at a point of a loop: 0 set-point, 1 error, 2 output. -/
def State.injected (s : State) (l point : Nat) : Int :=
  (((List.range 4).filter (fun k => s.flag (CE_INJ0_running k) && s.fld (CE_INJ0_loop k) == l &&
    s.fld (CE_INJ0_point k) == point)).map (fun k => (s.inj k).value)).sum

/-- A run ends (R234). -/
def State.injEnd (s : State) (k : Nat) : State :=
  if s.flag (CE_INJ0_running k) then
    ((s.setFld (CE_INJ0_running k) 0).setInj k Inj.reset).raise CE_INJECT_DONE k
  else s

/-- Whether a loop is the fast or the slow loop of an armed head. -/
def State.armedLoop (s : State) (l : Nat) : Bool :=
  s.heads'.any (fun h => s.flag (LM_STATUS_armed h) && (s.fastLoop h == l || s.slowLoop h == l))

/-- The refusal of a start, 0 when it is taken (R234). -/
def State.injCode (s : State) (k : Nat) : Nat :=
  let l := s.fld (CE_INJ0_loop k)
  let kind := s.fld (CE_INJ0_kind k)
  let fs := s.fld (CE_INJ3_f_start k)
  let fe := s.fld (CE_INJ4_f_stop k)
  let above := fun f : Nat => decide (80000000000 < 2 * f * s.period l)
  if s.fld (CE_INJ2_duration k) = 0 ∨ (fs = 0 ∧ kind = 2) then E_ZERO
  else if (kind = 1 ∨ kind = 2) ∧ (above fs ∨ above fe) then E_RANGE
  else if (List.range 4).any (fun j => j != k && s.flag (CE_INJ0_running j) && s.fld (CE_INJ0_loop j) == l) then E_CONFLICT
  else if s.armedLoop l then E_STATE
  else 0

/-! ## The capture buffer (R235) -/

def CAP_IDLE : Nat := 0
def CAP_ARMED : Nat := 1
def CAP_RUNNING : Nat := 2
def CAP_DONE : Nat := 3

/-- A condition that a waiting capture may be triggered by: 1 injector start, 2 FAULT, 3 following-error trip. -/
def State.capTrigger (s : State) (kind unit : Nat) : State :=
  let of := if kind = 1 then s.fld CE_CAP0_trig_inj else s.fld CE_CAP0_cap_loop
  if s.fld CE_CAP4_state = CAP_ARMED ∧ s.fld CE_CAP0_trigger = kind ∧ of = unit ∧ s.fld CE_CAP1_pre ≤ s.cap.buf.length then
    { s with cap := { s.cap with trigNow := true } }
  else s

/-- The latest completed value of a loop: y, r, e or v. -/
def State.capValue (s : State) (l qty : Nat) : Int :=
  match qty with
  | 0 => s.sfld (CE_LOOP31_y l)
  | 1 => s.sfld (CE_LOOP32_r l)
  | 2 => (s.loop l).lastE
  | _ => (s.loop l).lastV

def State.capSampleNow (s : State) : List Int :=
  [s.capValue (s.fld CE_CAP2_loop_0) (s.fld CE_CAP2_qty_0), s.capValue (s.fld CE_CAP2_loop_1) (s.fld CE_CAP2_qty_1),
   s.capValue (s.fld CE_CAP2_loop_2) (s.fld CE_CAP2_qty_2), s.capValue (s.fld CE_CAP2_loop_3) (s.fld CE_CAP2_qty_3)]

/-- Whether a sample triggers a waiting capture. `after` counts the samples since the arm while it waits. -/
def State.capHit (s : State) (ch0 : Int) : Bool :=
  let th := s.sfld CE_CAP3_threshold
  let last := s.cap.lastCh0
  match s.fld CE_CAP0_trigger with
  | 0 => true
  | 4 => decide (0 < s.cap.after) && decide (last < th) && decide (th ≤ ch0)
  | 5 => decide (0 < s.cap.after) && decide (th < last) && decide (ch0 ≤ th)
  | _ => s.cap.trigNow

/-- A sample taken into the buffer. -/
def State.capTake (s : State) (sample : List Int) : State :=
  let pre := s.fld CE_CAP1_pre
  let total := s.fld CE_CAP1_length
  let x := s.cap
  let ch0 := sample.headD 0
  let t :=
    if s.fld CE_CAP4_state = CAP_ARMED then
      if pre ≤ x.buf.length ∧ s.capHit ch0 then
        ({ s with cap := { x with triggered := true, trigNow := false, after := 1, lastCh0 := ch0
                                  buf := if pre < total then sample :: x.buf else x.buf } }).setFld CE_CAP4_state CAP_RUNNING
      else { s with cap := { x with buf := (sample :: x.buf).take pre, after := x.after + 1, lastCh0 := ch0 } }
    else if x.after < total - pre then
      { s with cap := { x with buf := sample :: x.buf, after := x.after + 1, lastCh0 := ch0 } }
    else s
  t.setFld CE_CAP4_count t.cap.buf.length

/-- The output instant of the pacing loop: every decim-th sample is taken. -/
def State.capSample (s : State) (l : Nat) : State :=
  let st := s.fld CE_CAP4_state
  if (st = CAP_ARMED ∨ st = CAP_RUNNING) ∧ s.fld CE_CAP0_cap_loop = l then
    if s.cap.skip = 0 then
      ({ s with cap := { s.cap with skip := s.fld CE_CAP0_decim - 1 } }).capTake s.capSampleNow
    else { s with cap := { s.cap with skip := s.cap.skip - 1 } }
  else s

/-- arm = 1. -/
def State.capArm (s : State) : State :=
  (({ s with cap := Capture.reset }).setFld CE_CAP4_state CAP_ARMED).setFld CE_CAP4_count 0

/-! ## Loops (R222 to R227) -/

/-- The first PWM period that starts at or after a tick: periods start at multiples of pwm_ticks (log 151). -/
def periodStart (tick period : Nat) : Nat := ceilDiv tick period * period

/-- The high time of a PWM output that is in use at a tick. -/
def Pwm.now (x : Pwm) (tick : Nat) : Int :=
  match x.next with
  | some (v, at0) => if at0 ≤ tick then v else x.high
  | none => x.high

/-- A new high time waits for the first period that starts at or after the present tick (R223). -/
def State.setHigh (s : State) (n period : Nat) (v : Int) : State :=
  let at0 := periodStart s.tick period
  (s.modPwm n (fun x => { high := x.now s.tick, next := some (v, at0) })).emit (.pwm n v at0)

/-- An output is driven (R223). -/
def State.drive (s : State) (l : Nat) (v : Int) : State :=
  let t := s.setInt (CE_LOOP33_out l) v
  let x := v / 2 ^ s.fld (CE_LOOP05_out_shift l)
  let n := s.fld (CE_LOOP05_out_index l)
  match s.fld (CE_LOOP00_out_kind l) with
  | 1 => t.emit (.dac n (clampI x (-32768) 32767))
  | 2 => t.setHigh n (s.fld (CE_LOOP06_pwm_ticks l)) (clampI x 0 (32 * s.fld (CE_LOOP06_pwm_ticks l)))
  | _ => t

/-- The state of a loop as R225 starts it. -/
def State.loopInit (s : State) (l : Nat) : State :=
  (s.modLoop l (fun x => { x with e1 := 0, e2 := 0, e3 := 0, u1 := 0, u2 := 0, u3 := 0, overrunRun := 0, feRun := 0, feDone := false
                                  first := true, newSet := false, limStep := false
                                  outPrev := s.sfld (CE_LOOP0A_out_safe l) })).setFld (CE_LOOP35_c l) 0

/-- Generators of a loop are not settled. -/
def State.loopUnsettle (s : State) (l : Nat) : State := s.doAll (s.gensOf l) (fun t g => t.unsettle g)

/-- enable = 1 (R224, R225). -/
def State.loopEnable (s : State) (l : Nat) : State :=
  (((s.setLoop l Loop.reset).loopInit l).setFld (CE_LOOP30_state l) LOOP_RUN).setFld (CE_LOOP34_amp l) 0

/-- enable = 0: out_safe, then held; histories cleared (R224). -/
def State.loopDisable (s : State) (l : Nat) : State :=
  ((((s.setFld (CE_LOOP30_state l) LOOP_OFF).setLoop l Loop.reset).setFld (CE_LOOP35_c l) 0).loopUnsettle l).drive l
    (s.sfld (CE_LOOP0A_out_safe l))

/-- A loop enters FAULT (R225). -/
def State.loopFault (s : State) (l : Nat) : State :=
  if s.loopState l = LOOP_FAULT then s
  else
    ((((s.setFld (CE_LOOP30_state l) LOOP_FAULT).raise CE_LOOP_FAULT l).loopUnsettle l).drive l
      (s.sfld (CE_LOOP0A_out_safe l))).capTrigger 2 l

/-- clear_fault = 1 (R225). -/
def State.loopClear (s : State) (l : Nat) : State :=
  let t := (s.setFld (CE_LOOP30_fe_tripped l) 0).modLoop l (fun x => { x with feRun := 0, feDone := false, gateTrip := false })
  if s.loopState l = LOOP_FAULT then t.modLoop l (fun x => { x with clear := true }) else t

/-- The input of a loop carries STALE (R335): a CEA_IN, or a temperature sensor. -/
def State.loopStale (s : State) (l : Nat) : Bool :=
  let i := s.fld (CE_LOOP04_in_index l)
  match s.fld (CE_LOOP04_in_kind l) with
  | 0 => s.measuring 3 i
  | 3 => decide (i < 36) && s.measuring 6 i
  | _ => false

/-- The raw value of a sample (R217). A wrapping count is taken as two's complement (log 28). -/
def rawValue (kind : Nat) (w : Word) : Int :=
  match kind with
  | 0 => signed 16 w.toNat
  | 2 => (w.toNat : Int)
  | _ => w.toInt

/-- A temperature that a loop reads: XTS, on-die sensor, or the reported maximum (R217). -/
def State.temperature (s : State) (i : Nat) : Int :=
  if i < 36 then s.sfld (TH_SENSOR1_value i) else s.sfld TH_GLOBAL3_die_max

/-- The scheduling variable (R226). -/
def State.schedX (s : State) (l : Nat) (y r : Int) : Int :=
  match s.fld (CE_LOOP00_sched_src l) with
  | 0 => y
  | 1 => r
  | _ => s.sfld (CE_LOOP31_y (s.fld (CE_LOOP00_sched_loop l)))

/-- The set taken at a sample (R226). -/
def State.nextSet (s : State) (l : Nat) (x : Int) : Nat :=
  let n := s.fld (CE_LOOP00_n_sets l)
  let cur := s.fld (CE_LOOP30_set l)
  if n ≤ 1 then 0
  else
    let hy : Int := s.fld (CE_LOOP0E_hyst l)
    let ths := (List.range (n - 1)).map (fun k => s.sfld (CE_LOOP_TH_th l k))
    let up := (ths.filter (fun t => decide (t + hy ≤ x))).length
    let down := (ths.filter (fun t => decide (t - hy ≤ x))).length
    if cur < up then up else if down < cur then down else cur

/-- Coefficient `i` of set `k`. -/
def State.coef (s : State) (l k i : Nat) : Int := s.sfld (CE_COEF_coef l (7 * k + i))

/-- What one evaluation gives: u, c before the decay, v and c after it. -/
structure EvalOut where
  u : Int
  c : Int
  v : Int
  cNext : Int
  deriving DecidableEq, Repr

/-- The compensator of R222 for error `e` with set `k`. -/
def State.compensate (s : State) (l k : Nat) (e injOut : Int) (changed : Bool) : EvalOut :=
  let x := s.loop l
  let third : Int := if s.flag (CE_LOOP00_order l) then 1 else 0
  let acc := s.coef l k 0 * e + s.coef l k 1 * x.e1 + s.coef l k 2 * x.e2 + third * s.coef l k 3 * x.e3 -
    s.coef l k 4 * x.u1 - s.coef l k 5 * x.u2 - third * s.coef l k 6 * x.u3
  let u := sat32 ((acc + 2 ^ 19) / 2 ^ 20)
  let sk := s.fld (CE_LOOP00_swap_k l)
  let c := if changed then (if sk = 0 then 0 else sat32 (x.outPrev - u)) else s.sfld (CE_LOOP35_c l)
  let v := clampI (u + c + injOut) (s.sfld (CE_LOOP08_out_min l)) (s.sfld (CE_LOOP09_out_max l))
  let cNext := if c = 0 then 0 else c - sgn c * max 1 ((c.natAbs / 2 ^ sk : Nat) : Int)
  { u := u, c := c, v := v, cNext := cNext }

/-- The following-error supervision (R231). A run of samples above the limit trips once, when it has reached fe_time (log 26). -/
def State.feCheck (s : State) (l : Nat) (err : Int) : State :=
  let lim := s.fld (CE_LOOP0F_fe_limit l)
  let x := s.loop l
  if lim = 0 ∨ err.natAbs ≤ lim then s.setLoop l { x with feRun := 0, feDone := false }
  else
    let run := min (x.feRun + 1) 65536
    let trips := decide (s.fld (CE_LOOP10_fe_time l) ≤ run) && !x.feDone
    let t := s.setLoop l { x with feRun := run, feDone := x.feDone || trips }
    t.doIf trips (fun u =>
      let v := (((u.setFld (CE_LOOP30_fe_tripped l) 1).count (CE_LOOP37_fe_trips l) 1).raise CE_FE_TRIP l).capTrigger 3 l
      v.doIf (s.flag (CE_LOOP00_fe_action l)) (·.loopFault l))

/-- The settled flag of a generator at an evaluation (R230). -/
def State.settleCheck (s : State) (g : Nat) (err : Int) : State :=
  let ok := s.flag (CE_PG6_done g) && s.loopState (s.fld (CE_PG0_loop g)) == LOOP_RUN &&
    decide (err.natAbs ≤ s.fld (CE_PG5_settle_tol g))
  if ok then
    let n := (s.gen g).okRun + 1
    (s.modGen g (fun x => { x with okRun := min n 4096 })).doIf (decide (s.fld (CE_PG0_settle_n g) ≤ n)) (fun t =>
      (t.setFld (CE_PG6_settled g) 1).doAll (t.movers g) (fun u e => u.setOutcome e.1 S_OK (u.moveResult g)))
  else s.unsettle g

/-! ## Lowest-wins groups (R233) -/

/-- The loops of a group, with their member index; an enabled bank's group takes none. -/
def State.lwMembers (s : State) (n : Nat) : List (Nat × Nat) :=
  [(s.flag (CE_LW0_valid_0 n), s.fld (CE_LW0_loop_0 n), 0), (s.flag (CE_LW0_valid_1 n), s.fld (CE_LW0_loop_1 n), 1),
   (s.flag (CE_LW0_valid_2 n), s.fld (CE_LW0_loop_2 n), 2), (s.flag (CE_LW0_valid_3 n), s.fld (CE_LW0_loop_3 n), 3)].filterMap
    (fun e => if e.1 then some (e.2.1, e.2.2) else none)

/-- The group of a loop. -/
def State.lwOf (s : State) (l : Nat) : Option Nat :=
  (List.range 16).find? (fun n => (s.lwMembers n).any (fun e => e.1 == l))

/-- The first of the lowest: index in the list of values. -/
def lowest : List (Int × Nat) → Option (Int × Nat)
  | [] => none
  | e :: t =>
    match lowest t with
    | none => some e
    | some f => if f.1 < e.1 then some f else some e

/-- The winner changes (R233). -/
def State.setWinner (s : State) (n w : Nat) : State :=
  (s.doIf (s.fld (CE_LW1_winner n) != w) (·.count (CE_LW1_switches n) 1)).setFld (CE_LW1_winner n) w

/-- The v of sample number `n`. -/
def LoopSample.put (n : Nat) (v : Option Int) (x : LoopSample) : LoopSample := if x.n = n then { x with v := v } else x

/-- The last sample of a tick. -/
def Loop.at (x : Loop) (tick : Nat) : Option LoopSample := x.samples.reverse.find? (fun q => q.tick == tick)

/-- Whether every member of a group has evaluated its sample of a tick. -/
def State.groupReady (s : State) (n tick : Nat) : Bool :=
  (s.lwMembers n).all (fun e => ((s.loop e.1).at tick).any (·.done))

/-- A group judged once every member has been evaluated: losers track the winner, whose v the first member puts out. -/
def State.lwJudge (s : State) (n tick : Nat) : State :=
  let ms := s.lwMembers n
  if s.groupReady n tick then
    let vs := ms.map (fun e =>
      (if s.loopState e.1 = LOOP_FAULT then s.sfld (CE_LOOP0A_out_safe e.1)
       else (((s.loop e.1).at tick).bind (·.v)).getD (s.loop e.1).outPrev, e.2))
    match lowest vs, ms with
    | some (v, w), first :: _ =>
      let n0 := (((s.loop first.1).at tick).map (·.n)).getD 0
      let t := s.setWinner n w
      let t := t.doAll ms (fun u e =>
        let u := (u.setFld (CE_LOOP30_lw_winner e.1) w).setFlag (CE_LOOP30_limited e.1) (e.2 != w)
        if e.2 ≠ w ∧ u.loopState e.1 = LOOP_RUN then
          (u.modLoop e.1 (fun x => { x with u1 := v, u2 := v, u3 := v, outPrev := v })).setFld (CE_LOOP35_c e.1) 0
        else u)
      t.modLoop first.1 (fun x => { x with samples := x.samples.map (LoopSample.put n0 (some v)) })
    | _, _ => s
  else s

end Sys2Proof.Machine
end

