-- ==== Sys2Proof/Machine/SetPoints.lean ====
section
/-!
DEFINITION. Set-points (R164 to R169, R177): fades, the scale of a bank, the codes of strings, and the frames that carry
codes that have changed.
-/

namespace Sys2Proof.Machine

/-! ## Fades (R169) -/

def FADE_OFF : Nat := 0
def FADE_IN : Nat := 1
def FADE_ON : Nat := 2
def FADE_OUT : Nat := 3
def FADE_STANDBY : Nat := 4
def FADE_BREATHE : Nat := 5

def State.fadeState (s : State) (b : Nat) : Nat := s.fld (LS_BANK12_fade_state b)

/-- The group of a bank's head. -/
def State.bankGroup (s : State) (b : Nat) : Nat := s.groupOf (s.fld (LS_BANK0_head b))

/-- A square root, with 32 fractional bits (log 33). -/
def ratSqrt (r : Rat) : Rat := (Nat.sqrt (r * 2 ^ 64).floor.toNat : Nat) / (2 ^ 32 : Rat)

def State.standbyLight (s : State) (b : Nat) : Rat := (s.fld (LS_BANK11_standby b) : Rat) / 32768

/-- The light of BREATHE, `n` frame periods after it was entered. -/
def State.breatheLight (s : State) (b n : Nat) : Rat :=
  let t := n * s.groupFrameTu (s.bankGroup b)
  let c : Rat := (Config.cosine t (s.fld (LS_BANK10_breathe_ms b) * 1000000 * tuNs) : Int) / (2 ^ 30 : Rat)
  max 0 (s.standbyLight b * (1 - (s.fld (LS_BANK11_depth b) : Rat) / 32768 * (1 - c) / 2))

/-- fade of a bank: x squared, or the light of BREATHE. -/
def State.fade (s : State) (b : Nat) : Rat :=
  if s.fadeState b = FADE_BREATHE then s.breatheLight b (s.bank b).breatheFrames else (s.bank b).x * (s.bank b).x

/-- The state that a command enters, where the table of R169 lets the present state leave to it (log 34). -/
def fadeTarget (st cmd : Nat) : Option Nat :=
  let goal := if cmd = 1 then some FADE_IN else if cmd = 2 then some FADE_OUT else if cmd = 3 then some FADE_STANDBY
    else if cmd = 4 then some FADE_BREATHE else none
  if st = FADE_OFF then goal.filter (· != FADE_OUT)
  else if st = FADE_ON ∨ st = FADE_STANDBY ∨ st = FADE_BREATHE then goal
  else none

/-- The fade position and state at a boundary, in state `st` from `x`, with the step of one frame period. -/
def State.fadeMove (s : State) (b st : Nat) (x d : Rat) : Nat × Rat :=
  if st = FADE_IN then (if 1 ≤ x + d then (FADE_ON, 1) else (FADE_IN, x + d))
  else if st = FADE_ON then (FADE_ON, 1)
  else if st = FADE_OUT then (if x - d ≤ 0 then (FADE_OFF, 0) else (FADE_OUT, x - d))
  else if st = FADE_STANDBY then
    let goal := min 1 (ratSqrt (s.standbyLight b))
    (FADE_STANDBY, if x < goal then min goal (x + d) else max goal (x - d))
  else if st = FADE_BREATHE then (FADE_BREATHE, x)
  else (FADE_OFF, 0)

/-- The fade of a bank at a frame boundary of its group (R169). A command to a tripped bank has no effect. -/
def State.fadeFrame (s : State) (b : Nat) : State :=
  let k := s.bank b
  let st0 := s.fadeState b
  let cmd := if s.tripped b then none else fadeTarget st0 k.fadeCmd
  let st := cmd.getD st0
  let d : Rat := (s.groupFrameTu (s.bankGroup b) : Rat) / ((s.fld (LS_BANK10_fade_ms b) * 1000000 * tuNs : Nat) : Rat)
  let (st', x') := s.fadeMove b st k.x d
  let n := if cmd = some FADE_BREATHE then 0 else k.breatheFrames + 1
  let t := (s.setFld (LS_BANK12_fade_state b) st').setBank b { k with x := x', fadeCmd := 0, breatheFrames := n }
  if st' = FADE_BREATHE then t.modBank b (fun y => { y with x := ratSqrt (t.breatheLight b n) }) else t

/-! ## Scale (R165 to R167) -/

/-- The temperature of a bank: the highest value among the trusted and substituted inputs of its mask (R166, R321). -/
def State.bankTemp (s : State) (b : Nat) : Option Int :=
  (((List.range 16).filter (fun i => bitOf (s.fld (LS_BANK6_xts_mask b)) i && (s.sensor i).converted)).map (fun i =>
    s.sfld (TH_SENSOR1_value i))).max?

/-- The formula of R166 for the tracked temperature of a bank. -/
def State.derate (s : State) (b : Nat) : Rat :=
  let t := (s.bank b).kneeTracked
  let knee : Int := s.fld (LS_BANK5_knee_c b) * 8
  if s.fld (LS_BANK6_xts_mask b) = 0 ∨ t ≤ knee then 1
  else max ((s.fld (LS_BANK5_floor b) : Rat) / 1000)
    (1 - (s.fld (LS_BANK5_derate b) : Rat) / 1000 * (((t - knee : Int) : Rat) / 8))

/-- A share of full scale as a code, 1.0 = 0x8000. -/
def scaleCode (r : Rat) : Nat := (clampI (ratRound (r * 32768)) 0 32768).toNat

/-- The members of a bank's group that are present, with their numbers (R165). -/
def State.scaleMembers (s : State) (b : Nat) : List (Int × Nat) :=
  let g := s.bankGroup b
  (if s.flag (LS_BANK7_cc_member b) then
    [(Int.ofNat (min 0x8000 (s.fld (CC_DEMAND_demand g (s.fld (CC_BANK0_comp b))))), 0)] else []) ++
  [(Int.ofNat (scaleCode (s.bank b).member1), 1), (Int.ofNat (scaleCode (s.bank b).member2), 2),
   (Int.ofNat (s.fld (LS_BANK8_cap b)), 3)]

/-- The scale of a bank and the member that sets it; the first of equal members wins (R165, R233). -/
def State.scaleOf (s : State) (b : Nat) : Nat × Nat :=
  match lowest (s.scaleMembers b) with
  | some (v, w) => (v.toNat, w)
  | none => (0, 0)

/-- The lowest of members 1 to 3 (R212). -/
def State.scaleLimit (s : State) (b : Nat) : Nat :=
  match lowest ((s.scaleMembers b).filter (fun e => e.2 != 0)) with
  | some (v, _) => v.toNat
  | none => 0

/-- Scale and winner of a bank at a frame boundary, and the winner of its group in the control engine. -/
def State.scaleFrame (s : State) (b : Nat) : State :=
  let (v, w) := s.scaleOf b
  ((s.setFld (LS_BANK12_scale b) v).setFld (LS_BANK12_winner b) w).setWinner (s.fld (LS_BANK7_lw_group b)) w

/-! ## Codes (R164, R185) -/

/-- The set-point code of a string at the scale that the last frame boundary set (R164, R165, R212), and whether its channel
is enabled. -/
def State.codeOf (s : State) (n : Nat) : Nat × Bool :=
  if s.strUsable n then
    let b := s.fld (LS_STRING0_bank n)
    ((clampI (ratRound ((s.fld (LS_STRING1_base_code n) : Rat) * s.fld (LS_BANK12_scale b) * s.fade b / 32768)) 0 65535).toNat, true)
  else (0, false)

/-- The state words as entries would leave them. -/
def State.withEntries (s : State) (l : List Entry) : State :=
  s.doAll l (fun t e => t.setWord e.index (maskWord (t.word e.index) e.mask e.value))

/-- The PENDING sheaves that wait for the latch of a group, in the order they became PENDING (R272). -/
def State.latchSheaves (s : State) (g : Nat) : List Nat :=
  ((List.range 16).filter (fun n => (s.sheaf n).state == SH_PENDING && (s.sheaf n).kind == 6 && (s.sheaf n).target == g)).insertionSort
    (fun a b => (s.sheaf a).order ≤ (s.sheaf b).order)

/-- The words as the latch of a group is to leave them. -/
def State.latchView (s : State) (g : Nat) : State :=
  s.withEntries ((s.latchSheaves g).flatMap (fun n => (s.sheaf n).entries))

/-- The string drivers of a group: those of its enabled banks, on enabled ports. -/
def State.groupDrivers (s : State) (g : Nat) : List (Nat × Nat) :=
  (((s.banksOfGroup g).flatMap s.bankDrivers).dedup).filter (fun d => s.dbOn d.1)

/-- Entries of SETPOINT frames, at most 21 to a frame. -/
def chunks21 : Nat → List (Nat × Nat) → List (List (Nat × Nat))
  | 0, _ => []
  | fuel + 1, l => if l.isEmpty then [] else l.take 21 :: chunks21 fuel (l.drop 21)

/-- Whether a group's update serves a string: its bank is of the group, before or after it (R164). -/
def State.updates (s v : State) (g n : Nat) : Bool :=
  s.bankGroup (s.fld (LS_STRING0_bank n)) == g || v.bankGroup (v.fld (LS_STRING0_bank n)) == g

/-- The frames that bring one driver to the codes and enables that view `v` gives the strings of group `g`, tagged `tag`. The
channels of other groups keep their codes and enables. -/
def State.sendDriver (s v : State) (g tag : Nat) (d : Nat × Nat) : State :=
  let key := drvKey d.1 d.2
  let x := s.driver key
  if x.comms || s.quiet d.1 d.2 then s
  else
    let want := (v.driverStrings d.1 d.2).map (fun n =>
      let c := v.fld (LS_STRING0_chan n)
      (c, if s.updates v g n then v.codeOf n else (tabGet (fun _ => 0) x.codes c, bitOf x.mask c)))
    let mask := (want.map (fun e => if e.2.2 then 2 ^ e.1 else 0)).foldl Nat.lor 0
    let changed := (want.filter (fun e => x.resend || tabGet (fun _ => 0) x.codes e.1 != e.2.1)).map (fun e => (e.1, e.2.1))
    let t := s.doAll (chunks21 4 changed) (fun u l =>
      u.busSend d.1 d.2 0x02 (BitVec.ofNat 8 tag :: l.flatMap (fun e => BitVec.ofNat 8 e.1 :: natLe 2 e.2)))
    let en := x.resend || mask != x.mask
    let t := t.doIf en (·.busSend d.1 d.2 0x03 (BitVec.ofNat 8 tag :: natLe 2 mask))
    t.setDriver key { x with
      codes := changed.foldl (fun u e => tabSet (fun _ => 0) u e.1 e.2) x.codes
      shadow := changed.foldl (fun u e => tabSet (fun _ => 0) u e.1 (tag + 1)) x.shadow
      mask := mask, maskTag := if en then some tag else x.maskTag, resend := false }

/-- The frames of a group's update: what has changed goes out under the tag of its next latch (R164, R272). -/
def State.sendCodes (s : State) (g : Nat) : State :=
  match (s.group g).latchPending with
  | none => s
  | some tag =>
    let v := s.latchView g
    s.doAll ((v.groupDrivers g ++ s.groupDrivers g).dedup) (fun t d => t.sendDriver v g tag d)

end Sys2Proof.Machine
end

