-- ==== Sys2Proof/Machine/SheafBase.lean ====
section
/-!
DEFINITION. How a sheaf ends (R268, R273, R276 to R280): refusal, abort and completion, and what follows for the mailbox
command that built it.
-/

namespace Sys2Proof.Machine

/-- A sheaf that changes a head's seq_bank is PENDING or not yet complete (R136, R137). -/
def State.swapWords (s : State) : State :=
  s.doAll s.heads' (fun t h =>
    let p := t.sheafOn (SQ_CTRL_seq_bank h)
    (t.setFlag (SQ_STATUS10_swap_pending h) p).modHeadOf h (fun x => { x with swapPending := p }))

/-- The result words of a command whose sheaf has ended. -/
def sheafResults (c : MbCmd) (x : Sheaf) : List Word :=
  if c.code = 0x0104 then [BitVec.ofNat 32 x.stamp]
  else if c.code = 0x0105 then [BitVec.ofNat 32 x.stamp, BitVec.ofNat 32 x.failEntry]
  else []

/-- The end of a sheaf on handles 14 and 15 is the result of the command that built it, and frees the handle (R280). -/
def State.commandSheafEnd (s : State) (n code : Nat) : State :=
  if n < 14 then s
  else
    let x := s.sheaf n
    let t := match s.cmdHead x.mailbox with
      | some c => if c.sheaf = some n then s.setOutcome x.mailbox code (sheafResults c x) else s
      | none => s
    t.setSheaf n Sheaf.reset

/-- A sheaf is refused (R273). -/
def State.refuseSheaf (s : State) (n code fail : Nat) : State :=
  let t := s.modSheaf n (fun x => { x with state := SH_REFUSED_ST, result := code, failEntry := fail, waits := [] })
  let t := if n < 14 then { t with shRefused := min 65535 (t.shRefused + 1) } else t
  (t.raise2 SH_REFUSED n code).commandSheafEnd n code

/-- A sheaf is aborted (R276): nothing of it takes effect, and drivers that hold its values get those that stand without it
(R272). -/
def State.abortSheaf (s : State) (n code : Nat) : State :=
  let x := s.sheaf n
  let t := s.modSheaf n (fun y => { y with state := SH_ABORTED_ST, result := code, staged := 0, waits := [] })
  let t := t.doIf (x.staged / 256 == 1) (·.sendCodes x.target)
  ((t.raise2 SH_ABORTED n code).swapWords).commandSheafEnd n code

/-- A sheaf is COMPLETE (R277). -/
def State.completeSheaf (s : State) (n : Nat) : State :=
  let t := s.modSheaf n (fun x => { x with state := SH_DONE, result := S_OK })
  ((t.raise SH_COMPLETE n).swapWords).commandSheafEnd n S_OK

/-- Whether a boundary's target runs (R276). -/
def State.targetRuns (s : State) (kind target : Nat) : Bool :=
  if kind = 0 then true
  else if kind = 1 then s.loopOn target
  else if kind = 4 ∨ kind = 5 then
    decide (target < s.nHeads) && s.headOn target && s.rasterOn (s.groupOf target)
  else s.rasterOn target

/-- PENDING sheaves in the order they became so. -/
def State.pendingSheaves (s : State) : List Nat :=
  ((List.range 16).filter (fun n => (s.sheaf n).state == SH_PENDING)).insertionSort
    (fun a b => (s.sheaf a).order ≤ (s.sheaf b).order)

/-- A PENDING sheaf whose target has stopped running is aborted with E_STATE (R276). -/
def State.abortStopped (s : State) : State :=
  s.doAll s.pendingSheaves (fun t n =>
    t.doIf (!t.targetRuns (t.sheaf n).kind (t.sheaf n).target) (·.abortSheaf n E_STATE))

end Sys2Proof.Machine
end

