-- ==== Sys2Proof/Machine/FwBus.lean ====
section
/-!
DEFINITION. Driver firmware on the driver bus (R360, R364 to R366, R370): which body serves a driver, how it is loaded, and
what an update and a latch do for drivers that switch.
-/

namespace Sys2Proof.Machine

/-! ## Which body serves a driver -/

/-- The drivers of enabled banks and matrices, as port and address. -/
def State.liveDrivers (s : State) : List (Nat × Nat) :=
  (((List.range 8).filter s.bankOn).flatMap s.bankDrivers ++
    ((List.range 4).filter s.matrixOn).flatMap (fun z => (s.zoneDrvs z).map (s.zoneDriver z ·))).dedup

/-- The body of a list that serves a driver: class and type of its IDENT match (R364). -/
def State.bodyFor (s : State) (l : List DrvBody) (key : Nat) : Option DrvBody :=
  l.find? (fun b => b.cls == (s.driver key).kind && b.type == (s.driver key).type)

/-- Whether a driver body serves an enabled driver. -/
def State.serves (s : State) (b : DrvBody) : Bool :=
  s.liveDrivers.any (fun d => let x := s.driver (drvKey d.1 d.2); x.kind == b.cls && x.type == b.type)

/-- The group of a driver: that of its bank, or of the head of its matrix. -/
def State.driverGroup (s : State) (key : Nat) : Option Nat :=
  match (List.range 8).find? (fun b => s.bankOn b && (s.bankDrivers b).contains (key / 128, key % 128)) with
  | some b => some (s.bankGroup b)
  | none => (s.zoneAt (key / 128) (key % 128)).map (fun e => s.groupOf (s.fld (ZN_MAT0_head e.1)))

/-! ## The staging region (R359) -/

def State.stageBase (s : State) : Nat := s.fld FW_STAGE0_stage_lo + s.fld FW_STAGE1_stage_hi * 2 ^ 32

/-- The bytes of a body: in boot flash for the image that lies there, else in the staging region. -/
def State.bodyBytes (s : State) (b : DrvBody) : List Byte :=
  if s.fw.booted.contains b then s.flashBytes b.offset b.size else s.bytes (s.stageBase + b.offset) b.size

/-! ## Loading (R364) -/

/-- The 56-byte pieces of a body, with their offsets. -/
def pieces56 (l : List Byte) : List (Nat × List Byte) :=
  (List.range ((l.length + 55) / 56)).map (fun i => (56 * i, (l.drop (56 * i)).take 56))

/-- A body goes to a driver: FW_BEGIN, FW_DATA in ascending offset, FW_CHECK. -/
def State.loadDriver (s : State) (key : Nat) (b : DrvBody) : State :=
  let p := key / 128
  let a := key % 128
  let l := s.bodyBytes b
  let t := s.busSend p a 0x31 (natLe 4 l.length ++ natLe 4 (crc32 l))
  let t := t.doAll (pieces56 l) (fun u e => u.busSend p a 0x32 (natLe 4 e.1 ++ e.2))
  let t := t.busSend p a 0x33 []
  { t with fw := { t.fw with loading := t.fw.loading ++ [(key, b.version)] } }

/-! ## Switching (R366) -/

/-- The drivers of a group that are to switch: those loaded, once no load is under way, with FW_ACTIVATE, and those to be
reverted with FW_REVERT; with the version that each will report. -/
def State.switchers (s : State) (g : Nat) : List (Nat × Nat × Nat) :=
  ((if s.fw.loading.isEmpty then s.fw.checked.map (fun (e : Nat × Nat) => (0x34, e.1, e.2)) else []) ++
    s.fw.reverting.map (fun (e : Nat × Nat) => (0x35, e.1, e.2))).filter (fun (e : Nat × Nat × Nat) => s.driverGroup e.2.1 == some g)

/-- A group's update tells the drivers that are to switch its tag. -/
def State.fwUpdate (s : State) (g tag : Nat) : State :=
  s.doAll (s.switchers g) (fun t e =>
    let key := e.2.1
    if (t.driver key).fwTag = some tag then t
    else (t.busSend (key / 128) (key % 128) e.1 [BitVec.ofNat 8 tag]).modDriver key (fun x => { x with fwTag := some tag }))

/-- The ports of the drivers of a group that wait for a latch with a tag. -/
def State.fwPorts (s : State) (g tag : Nat) : List Nat :=
  ((s.switchers g).filter (fun e => (s.driver e.2.1).fwTag == some tag)).map (fun e => e.2.1 / 128)

/-- At a latch the drivers told its tag switch banks, and each is asked for its version. -/
def State.fwLatch (s : State) (g tag : Nat) : State :=
  let l := (s.switchers g).filter (fun e => (s.driver e.2.1).fwTag == some tag)
  let keys := l.map (fun e => e.2.1)
  let gone := fun (e : Nat × Nat) => !keys.contains e.1
  let fw := s.fw
  let t := { s with fw := { fw with
    checked := fw.checked.filter gone
    reverting := fw.reverting.filter gone
    awaitVersion := fw.awaitVersion ++ l.map (fun (e : Nat × Nat × Nat) => e.2)
    activated := fw.activated ++ (l.filter (fun (e : Nat × Nat × Nat) => e.1 == 0x34)).map (fun (e : Nat × Nat × Nat) => e.2.1) } }
  t.doAll keys (fun u key =>
    (u.modDriver key (fun x => { x with fwTag := none })).busSend (key / 128) (key % 128) 0x30 [])

end Sys2Proof.Machine
end

