-- ==== Sys2Proof/Machine/Lamps.lean ====
section
/-!
DEFINITION. Lamp strings (R157 to R188): diagnosis, faults and trips, the bus converter, telemetry, and what a frame boundary
and a latch do.
-/

namespace Sys2Proof.Machine

def STR_UNVERIFIED : Nat := 0
def STR_OK : Nat := 1
def STR_OPEN : Nat := 2
def STR_SHORT : Nat := 3
def STR_HEADROOM : Nat := 4
def STR_DRIVER : Nat := 5
def STR_COMMS : Nat := 6
def STR_DISABLED : Nat := 7

def State.strState (s : State) (n : Nat) : Nat := s.fld (LS_STRING2_state n)

/-- The bank of a string. -/
def State.strBank (s : State) (n : Nat) : Nat := s.fld (LS_STRING0_bank n)

/-- A string runs: enabled, in an enabled bank. -/
def State.strOn (s : State) (n : Nat) : Bool := s.flag (LS_STRING0_enable n) && s.bankOn (s.strBank n)

/-! ## Faults and trips (R185, R186) -/

/-- The bank trips (R186): every output low, SAFE to its drivers, faded out. -/
def State.trip (s : State) (b : Nat) : State :=
  let t := (s.lowOuts ((s.members b).map s.strOut ++ s.bankSelects b)).setFld (LS_BANK12_tripped b) 1
  let t := (t.setFld (LS_BANK12_fade_state b) FADE_OFF).modBank b (fun x => { x with x := 0, fadeCmd := 0 })
  (t.doAll (t.bankDrivers b) (fun u d => u.busSend d.1 d.2 0x08 [])).raise LS_BANK_OFF b

/-- No run of bad samples, and no sample for no frame. -/
def Str.clean (x : Str) : Str := { x with openRun := 0, shortRun := 0, hrRun := 0, silentFrames := 0 }

/-- A fault of a string is confirmed (R185, R186): one that is faulted already, or disabled, stays as it is. -/
def State.strFault (s : State) (n st : Nat) : State :=
  if s.strFaulted n ∨ s.strState n = STR_DISABLED ∨ !s.strOn n then s
  else
    let b := s.strBank n
    let t := (s.setFld (LS_STRING2_state n) st).modStr n (fun x => { x with openRun := 0, shortRun := 0, hrRun := 0, due := false })
    let t := ((t.lowOuts [t.strOut n]).count (LS_BANK14_faults b) 1).raise2 LS_STRING_FAULT n st
    let t := t.doIf (!t.flag (LS_BANK0_policy b) && !t.tripped b) (·.trip b)
    t.sendCodes (t.bankGroup b)

/-- A string enters a state at once, whatever fault it has (R176, R183): only a string without a fault takes it as a new one
(log 128). -/
def State.strEnter (s : State) (n st : Nat) : State :=
  if s.strFaulted n then s.setFld (LS_STRING2_state n) st else s.strFault n st

/-- The run of consecutive bad samples of a kind. -/
def Str.run (x : Str) (kind : Nat) : Nat := if kind = STR_OPEN then x.openRun else if kind = STR_SHORT then x.shortRun else x.hrRun

/-- A sample of a kind, bad or not (R183; the kinds are counted apart: log 129). -/
def Str.sampleOf (x : Str) (kind : Nat) (bad : Bool) : Str :=
  let n := if bad then x.run kind + 1 else 0
  if kind = STR_OPEN then { x with openRun := n } else if kind = STR_SHORT then { x with shortRun := n } else { x with hrRun := n }

/-- A sample of a kind taken: `confirm` bad ones in a row confirm the fault (R183). -/
def State.kindSample (s : State) (n kind : Nat) (bad : Bool) : State :=
  let t := s.modStr n (·.sampleOf kind bad)
  t.doIf (bad && decide (s.fld (LS_BANK0_confirm (s.strBank n)) ≤ (t.str n).run kind)) (·.strFault n kind)

/-- A good sample sets OK. -/
def State.goodSample (s : State) (n : Nat) : State := s.setFld (LS_STRING2_state n) STR_OK

/-- Whether a string's diagnosis sample is taken now (R183): it runs and is neither faulted nor dark, its first of the frame,
at a code of at least a sixteenth of its base code. -/
def State.samples (s : State) (n : Nat) : Bool :=
  s.strUsable n && s.strState n != STR_DISABLED && !(s.str n).sampled &&
    decide (s.fld (LS_STRING1_base_code n) ≤ 16 * s.fld (LS_STRING4_code_active n))

/-- DIAGNOSIS_SAMPLE, R183: while a calibration of the input runs it counts neither as good nor as bad (R188). -/
def execDiagnosisSample (n : Fin 64) (code : BitVec 12) (s : State) : Result :=
  if !s.samples n then .next s
  else
    let b := s.strBank n
    let t := (s.setFld (LS_STRING2_last_sns n) code.toNat).modStr n (fun x => { x with sampled := true, silentFrames := 0 })
    if s.measuring 2 n then .next t
    else
      let opened := decide (s.fld (LS_BANK1_open_code b) ≤ code.toNat)
      let shorted := decide (code.toNat ≤ s.fld (LS_BANK1_short_code b))
      let t := (t.kindSample n STR_OPEN opened).kindSample n STR_SHORT shorted
      .next (if opened || shorted then t else t.goodSample n)

/-! ## Probe classification (R184) -/

/-- Whether a slot's window begins at the slot's own start, and so abuts the window of the slot before it (R124). -/
def Slot.abuts (k : Slot) : Bool := (k.op == opLight && k.hold) || k.op == opMeasure

/-- For each slot of a list in turn, the strings it lights and for how long they have been lit without a break. -/
def litRuns (len : Slot → Nat) (lights : Slot → List Nat) : List Slot → List (Nat × Nat) → List (Nat × Nat)
  | [], _ => []
  | k :: t, before =>
    let now := (lights k).map (fun n => (n, len k + (if k.abuts then ((before.find? (fun e => e.1 == n)).map (·.2)).getD 0 else 0)))
    now ++ litRuns len lights t now

/-- The strings that a slot lights: the entry of each bank of the head and primary. -/
def State.slotStrings (s : State) (h : Nat) (k : Slot) : List Nat :=
  if k.op = opLight ∨ (k.op = opMeasure ∧ k.w ≠ 0) then (s.banksOf h k.prim).flatMap (fun b => s.entryStrings b k.w) else []

/-- The members of a head's banks classed at a commit: probe-diagnosed where no lit window, with the trims of its edges, lasts
400 ns (R183). A zone-lit head's are never (R190). -/
def State.classify (s : State) (h : Nat) : State :=
  let l := s.slots h (s.fld (SQ_CTRL_seq_bank h))
  let len := fun k : Slot => if k.op = opLight then s.litTicks h k else k.duration
  let trims := fun n => s.sfld (SQ_TRIM_off_trim h (s.strBank n)) - s.sfld (SQ_TRIM_on_trim h (s.strBank n))
  let seen := ((litRuns len (s.slotStrings h) l []).filter (fun e => decide (10240 ≤ (32 * e.2 : Nat) + trims e.1))).map (·.1)
  let ms := (s.banksOfHead h).flatMap s.members
  let probed := fun n => !s.zoneLit h && !seen.contains n
  let t := s.doAll ms (fun u n => (u.setFlag (LS_STRING2_probed n) (probed n)).doIf (!probed n)
    (·.modStr n (fun x => { x with due := false })))
  if ms.any probed && !l.any (fun k => k.op == opProbe) then t.raise LS_PROBE_MISSING h else t

/-- The strings of a head due for a probe of a primary: ascending bank, then string (R184). -/
def State.dueStrings (s : State) (h prim : Nat) : List Nat :=
  (s.banksOf h prim).flatMap (fun b => (s.members b).filter (fun n => (s.str n).due && s.strUsable n))

/-! ## The bus converter (R167, R168) -/

/-- The CRC-8 of a PMBus packet error code, polynomial 0x07 (log 130). -/
def pecCrc (l : List Byte) : Nat := crcBits 8 0x07 0 (l.flatMap byteBitsMsb)

/-- A value in mV in the linear format of a VOUT_MODE byte (R168): a 16-bit mantissa, with the exponent in two's complement in
bits [4:0]. -/
def linearVout (mode : Byte) (mv : Nat) : Nat :=
  let n := signed 5 (mode.toNat % 32)
  let scale : Rat := if 0 ≤ n then 1 / (2 ^ n.toNat : Nat) else (2 ^ (-n).toNat : Nat)
  (ratRound ((mv : Rat) / 1000 * scale)).toNat % 65536

/-- What the bus converter of a bank reports as its VOUT_MODE (log 79). -/
def State.voutMode (s : State) (b : Nat) : Byte := tabGet (fun _ => 0x18#8) s.converters b

/-- The address byte of a bank's bus converter. -/
def State.pmbAddr (s : State) (b : Nat) : Nat := 2 * s.fld (LS_BANK4_pmb_addr b)

/-- The read of VOUT_MODE (0x20) at enable (R168). -/
def State.vmodeRead (s : State) (b : Nat) : State :=
  s.emit (.pmbus b ([s.pmbAddr b, 0x20, s.pmbAddr b + 1].map (BitVec.ofNat 8)))

/-- A request of a bank's bus voltage: VOUT_COMMAND (0x21) in the reported linear format, with PEC (R168). -/
def State.vbusRequest (s : State) (b mv : Nat) : State :=
  let body : List Byte := BitVec.ofNat 8 (s.pmbAddr b) :: 0x21#8 :: natLe 2 (linearVout (s.voutMode b) mv)
  (s.setFld (LS_BANK13_vbus_mv b) mv).emit (.pmbus b (body ++ [BitVec.ofNat 8 (pecCrc body)]))

/-- PMBUS_TRANSACTION_FAIL, R168: the request is repeated at the next round. -/
def execPmbusTransactionFail (b : Fin 8) (s : State) : Result :=
  if !s.bankOn b then .next s
  else
    let t := (s.setFld (LS_BANK12_pmb_error b) 1).modBank b (fun x => { x with pmbRetry := true })
    .next (t.raise LS_PMBUS_ERR b)

/-- The smallest headroom among the members that count (R168). -/
def State.hMin (s : State) (b : Nat) : Option Nat :=
  (((s.members b).filter (fun n => !s.strFaulted n &&
    decide (s.fld (LS_STRING1_base_code n) ≤ 16 * s.fld (LS_STRING4_code_active n)))).map (fun n =>
      s.fld (LS_STRING3_headroom_mv n))).min?

/-- The bus voltage of a round with headroom `hm`, and the run of rounds above the band. -/
def State.nextVbus (s : State) (b hm : Nat) : Nat × Nat :=
  let v := s.fld (LS_BANK13_vbus_mv b)
  let step := 2 * s.fld (LS_BANK2_step_mv b)
  let target := s.fld (LS_BANK2_hr_target_mv b)
  if hm < target then (min (s.fld (LS_BANK3_vbus_max_mv b)) (v + max step (target - hm)), 0)
  else if target + s.fld (LS_BANK2_hr_band_mv b) < hm then
    let run := min 100 ((s.bank b).highRun + 1)
    (if 100 ≤ run then max (s.fld (LS_BANK3_vbus_min_mv b)) (v - step) else v, run)
  else (v, 0)

/-- A telemetry round of a bank is complete (R167, R168). With no member that counts the bus holds, and what the last round
left stands. -/
def State.roundDone (s : State) (b : Nat) : State :=
  let hm := s.hMin b
  let retry := (s.bank b).pmbRetry
  let v := s.fld (LS_BANK13_vbus_mv b)
  let target := s.fld (LS_BANK2_hr_target_mv b)
  let (v1, run) := match hm with
    | some x => s.nextVbus b x
    | none => (v, 0)
  let v2 := if retry then v else v1
  let t := s.modBank b (fun x => { x with answered := [], highRun := run, pmbRetry := false })
  let t := match hm with
    | some x => t.setFld (LS_BANK13_hmin_mv b) x
    | none => t
  let t := t.doIf (v2 != v || retry) (·.vbusRequest b v2)
  let was := s.flag (LS_BANK12_at_vbus_max b)
  let atMax := match hm with
    | some x => v2 == s.fld (LS_BANK3_vbus_max_mv b) && decide (x < target)
    | none => was
  let t := (t.setFlag (LS_BANK12_at_vbus_max b) atMax).doIf (atMax && !was) (·.raise LS_HR_LIMIT b)
  let high := decide (2 * target + s.fld (LS_BANK2_hr_band_mv b) < 2 * t.fld (LS_BANK13_hmin_mv b))
  t.modBank b (fun x =>
    let m : Rat := if atMax then max 0 (x.member1 - 1 / 256) else if high then min 1 (x.member1 + 1 / 256) else x.member1
    { x with member1 := m })

/-- A driver has answered, or failed every try: rounds of its banks that are now whole are done (R179). -/
def State.answered (s : State) (p addr : Nat) : State :=
  s.doAll ((List.range 8).filter (fun b => s.bankOn b && (s.bankDrivers b).contains (p, addr))) (fun t b =>
    let l := (drvKey p addr :: (t.bank b).answered).dedup
    let u := t.modBank b (fun x => { x with answered := l })
    if (u.bankDrivers b).all (fun d => l.contains (drvKey d.1 d.2)) then u.roundDone b else u)

/-! ## Telemetry (R179, R183) -/

/-- One string's part of a report: headroom, temperature and fault byte. -/
def State.telemString (s : State) (n temp hm fb : Nat) : State :=
  let b := s.strBank n
  let t := ((s.setFld (LS_STRING3_headroom_mv n) hm).setFld (LS_STRING3_drv_temp n) temp).setFld (LS_STRING3_drv_fault n) fb
  if bitOf fb 2 ∨ bitOf fb 3 then t.strEnter n STR_DRIVER
  else if t.strFaulted n ∨ !t.strOn n then t
  else
    let t := t.doIf (bitOf fb 0) (·.kindSample n STR_OPEN true)
    let t := t.doIf (bitOf fb 1) (·.kindSample n STR_SHORT true)
    t.kindSample n STR_HEADROOM (t.flag (LS_BANK12_at_vbus_max b) && decide (2 * hm < t.fld (LS_BANK2_hr_target_mv b)))

/-- A driver answers again: its strings return to UNVERIFIED, and its set-points go out again (R176, R179). -/
def State.driverBack (s : State) (p addr : Nat) : State :=
  if (s.driver (drvKey p addr)).comms then
    let t := s.modDriver (drvKey p addr) (fun x => { x with comms := false, resend := true })
    t.doAll (t.driverStrings p addr) (fun u n => u.doIf (u.strState n == STR_COMMS) (fun v =>
      (v.setFld (LS_STRING2_state n) STR_UNVERIFIED).modStr n Str.clean))
  else s

/-- A driver reports a tag that is not the last one latched for it (R179). -/
def State.latchCheck (s : State) (p addr tag : Nat) : State :=
  match (s.driver (drvKey p addr)).latchedTag with
  | none => s
  | some t =>
    if t = tag then s
    else
      ((s.count (DB_PORT3_latch_missed p) 1).raise2 DB_LATCH_MISSED p addr).modDriver (drvKey p addr)
        (fun x => { x with resend := true })

/-- A good TELEM report of a string driver. -/
def State.telemReport (s : State) (p addr : Nat) (pl : List Byte) : State :=
  let t := s.driverBack p addr
  let t := t.doAll (t.driverStrings p addr) (fun u n =>
    let i := 2 + 3 * u.fld (LS_STRING0_chan n)
    if i + 2 < pl.length then u.telemString n (byteAt pl 1) (halfAt pl i) (byteAt pl (i + 2)) else u)
  (t.latchCheck p addr (byteAt pl 0)).answered p addr

/-- The drivers of a port: string drivers of its enabled strings in enabled banks, by address. -/
def State.portStringDrivers (s : State) (p : Nat) : List Nat :=
  (List.range 127).filter (fun a => (s.driverStrings p a).any s.strOn)

/-- A driver has failed every try: its strings enter COMMS, and sheaves whose exchanges it had are aborted (R176, R272). -/
def State.stringsComms (s : State) (p addr : Nat) : State :=
  let t := s.modDriver (drvKey p addr) (fun x => { x with comms := true, resend := true })
  let hit := (List.range 4).flatMap (fun g => (t.latchSheaves g).filter (fun n =>
    let v := t.withEntries (t.sheaf n).entries
    (t.sheaf n).staged / 256 == 1 && ((v.driverStrings p addr).map (fun i => (i, v.codeOf i)) !=
      (t.driverStrings p addr).map (fun i => (i, t.codeOf i)))))
  let t := t.doAll hit (fun u n => u.abortSheaf n E_TIMEOUT)
  let t := t.doAll (t.driverStrings p addr) (fun u n => u.strEnter n STR_COMMS)
  t.answered p addr

/-! ## Enabling, clearing and rearming (R182, R188) -/

/-- A bank is enabled (R165, R167 to R169, R182; log 32). -/
def State.bankEnable (s : State) (b : Nat) : State :=
  let t := s.setBank b { Bank.reset with kneeTracked := (s.bankTemp b).getD 0 }
  let t := t.modBank b (fun x => { x with member2 := t.derate b })
  let t := (t.setFld (LS_BANK12_fade_state b) FADE_OFF).setFld (LS_BANK12_at_vbus_max b) 0
  let t := t.doAll (t.members b) (fun u n => (u.setFld (LS_STRING2_state n) STR_UNVERIFIED).setStr n Str.reset)
  let t := t.setFld (CE_LW1_bank_owned (t.fld (LS_BANK7_lw_group b))) 1
  let t := (t.vmodeRead b).vbusRequest b (t.fld (LS_BANK3_vbus_max_mv b))
  let t := t.doAll (t.bankDrivers b) (fun u d => u.busSend d.1 d.2 0x01 [])
  t.rebuildEff b (fun _ => true) (fun _ => false)

/-- A bank is disabled: its strings are dark and DISABLED, and the selects that it supplies are low (R161, R182, R192). -/
def State.bankDisable (s : State) (b : Nat) : State :=
  let t := s.lowOuts ((s.members b).map s.strOut ++ s.bankSelects b)
  let t := t.doAll (t.members b) (fun u n => (u.setFld (LS_STRING2_state n) STR_DISABLED).setFld (LS_STRING2_probed n) 0)
  t.setFld (CE_LW1_bank_owned (t.fld (LS_BANK7_lw_group b))) 0

/-- A string whose own enable or bank has changed takes the state R182 gives it. -/
def State.strSync (s : State) (n : Nat) : State :=
  if s.strOn n then
    if s.strState n = STR_DISABLED then (s.setFld (LS_STRING2_state n) STR_UNVERIFIED).setStr n Str.reset else s
  else if s.strState n = STR_DISABLED then s
  else ((s.setFld (LS_STRING2_state n) STR_DISABLED).setFld (LS_STRING2_probed n) 0).lowOuts [s.strOut n]

/-- clear_fault of a string: it takes effect at the next frame boundary (R188). -/
def State.strClear (s : State) (n : Nat) : State :=
  if s.strFaulted n then s.modStr n (fun x => { x with clearing := true }) else s

/-- rearm of a bank: 0 and the bank rearmed, or E_STATE (R188). -/
def State.rearmCode (s : State) (b : Nat) : Nat :=
  if s.tripped b && (s.members b).any s.strFaulted then E_STATE else 0

def State.rearm (s : State) (b : Nat) : State :=
  if s.rearmCode b = 0 then s.setFld (LS_BANK12_tripped b) 0 else s

/-- A fade command written: taken at the next frame boundary; the codes that name none have no effect (R159, R169). -/
def State.fadeWrite (s : State) (b cmd : Nat) : State :=
  if 1 ≤ cmd ∧ cmd ≤ 4 then s.modBank b (fun x => { x with fadeCmd := cmd }) else s

/-! ## The frame boundary and the latch (R164, R177) -/

/-- The strings of a bank at a frame boundary with frame number `f`: clears take effect, strings become due, and one without
a sample for too long is UNVERIFIED (R182, R184, R188). -/
def State.strFrame (s : State) (b f n : Nat) : State :=
  let x := s.str n
  let every := s.fld (LS_BANK0_probe_every b)
  let silent := if x.sampled then 0 else min (x.silentFrames + 1) 1020
  let t := s.setStr n { x with sampled := false, clearing := false, silentFrames := silent }
  let t := t.doIf (x.clearing && t.strFaulted n) (fun u =>
    (u.setFld (LS_STRING2_state n) STR_UNVERIFIED).modStr n Str.clean)
  let t := t.doIf (t.strState n == STR_OK && decide (4 * every ≤ (t.str n).silentFrames))
    (·.setFld (LS_STRING2_state n) STR_UNVERIFIED)
  t.doIf (t.flag (LS_STRING2_probed n) && decide (f % every = 0)) (·.modStr n (fun y => { y with due := true }))

/-- The entries of a bank follow its faults at a frame boundary; where one changes, the weights that use it are computed again
(R160, R187). -/
def State.effFrame (s : State) (b : Nat) : State :=
  let t := s.rebuildEff b (fun _ => true) (fun _ => false)
  t.doIf (levelEntries.any (fun w => s.effMask b w != t.effMask b w)) (·.updateWeights (s.fld (LS_BANK0_head b)))

/-- What a frame boundary does to a group's banks before the set-points go out. -/
def State.bankFrame (s : State) (b : Nat) : State :=
  let f := s.fld (HD_RASTER_STATUS_frame (s.bankGroup b))
  let t := s.doAll (s.members b) (fun u n => u.strFrame b f n)
  ((t.effFrame b).fadeFrame b).scaleFrame b

/-- The set-points of a group's update go out under a tag of its own, or, after a late latch, under the one that is still to
be latched (R164, R177). PENDING sheaves of the latch are carried by it (R272), and drivers that switch firmware (R366). -/
def State.updateFrame (s : State) (g : Nat) : State :=
  if (s.banksOfGroup g).isEmpty && (s.switchers g).isEmpty then s
  else
    let t := match (s.group g).latchPending with
      | some _ => s
      | none =>
        let (tag, u) := s.drawTag
        u.modGroup g (fun x => { x with latchPending := some tag })
    let tag := ((t.group g).latchPending).getD 0
    let t := (t.sendCodes g).fwUpdate g tag
    t.doAll (t.latchSheaves g) (fun u n => u.modSheaf n (fun x => { x with staged := 256 + tag }))

/-- A latch of tag `tag` in a driver (R177): the shadows of that tag become active, and every other shadow is discarded; its
set-point and enable count as not sent (log 131). -/
def Driver.latch (x : Driver) (tag : Nat) : Driver :=
  let put := fun (t u : Tab Nat) (e : Nat × Nat) => tabSet (fun _ => 0) t e.1 (tabGet (fun _ => 0) u e.1)
  let mine := x.shadow.filter (fun e => e.2 == tag + 1)
  let rest := x.shadow.filter (fun e => e.2 != tag + 1)
  let m := if x.maskTag = some tag then x.mask else x.activeMask
  { x with active := mine.foldl (fun t e => put t x.codes e) x.active
           codes := rest.foldl (fun t e => put t x.active e) x.codes
           shadow := [], mask := m, activeMask := m, maskTag := none
           latchedTag := if mine.isEmpty && x.maskTag != some tag then x.latchedTag else some tag }

/-- A latch of tag `tag` in a driver, and the codes that its strings show from then on (R157, R177). -/
def State.latchDriver (s : State) (tag key : Nat) : State :=
  let x := s.driver key
  if x.comms then s
  else
    let y := x.latch tag
    let t := (s.driverStrings (key / 128) (key % 128)).filter (fun n => tabGet (fun _ => 0) x.shadow (s.fld (LS_STRING0_chan n)) == tag + 1)
    (s.doAll t (fun u n => u.setFld (LS_STRING4_code_active n)
      (tabGet (fun _ => 0) y.active (u.fld (LS_STRING0_chan n))))).setDriver key y

/-- LATCH_ALL, R164, R177, R180, R366: latch_us after the boundary. Every driver of the ports hears it. With exchanges not complete the latch moves to the next
boundary. -/
def execLatchAll (g : Fin 4) (s : State) : Result :=
  match (s.group g).latchPending with
  | none => .next s
  | some tag =>
    let v := s.latchView g
    let drivers := (v.groupDrivers g ++ s.groupDrivers g).dedup
    let ports := (drivers.map (·.1) ++ s.fwPorts g tag).dedup
    if ports.any (fun p => s.tagPending p tag [0x02, 0x03, 0x34, 0x35]) then .next (s.count DB_GLOBAL_latch_late 1)
    else
      let t := s.doAll ports (fun u p => u.busCast p 0x04 [BitVec.ofNat 8 tag])
      let t := (t.emit (.latch tag ports)).modGroup g (fun x => { x with latchPending := none })
      let t := t.doAll ports (fun u p => u.modDbPort p (fun x => { x with tag := tag }))
      let heard := (t.drivers.map (·.1)).filter (fun k => ports.contains (k / 128))
      let t := (t.doAll heard (fun u k => u.latchDriver tag k)).fwLatch g tag
      .next (t.doAll (t.latchSheaves g) (fun u n => u.doIf ((u.sheaf n).staged == 256 + tag)
        (·.modSheaf n (fun x => { x with staged := 512 + tag }))))

end Sys2Proof.Machine
end

