-- ==== Sys2Proof/Machine/Replay.lean ====
section
/-!
DEFINITION. A band's replay as it is played (R131, R139): the slots of its bank, with thin slots dropped.
-/

namespace Sys2Proof.Machine

/-- F and ceil(N - beta N) of a list (R139). -/
def thinCount (l : List Slot) : Nat := (l.filter (·.thin)).length
def thinNeed (l : List Slot) (beta : Nat) : Nat := ceilDiv (nLoads l * (1000 - beta)) 1000

/-- A list with its dropped slots: thin slot `j` of frame `n` is dropped when (j + n X) mod F < X, and a held slot goes with
its base (R139). -/
def dropThin (n x f : Nat) : List Slot → Nat → Bool → List Slot
  | [], _, _ => []
  | k :: t, j, baseGone =>
    let own := k.thin && decide ((j + n * x) % f < x)
    let gone := own || (k.hold && baseGone)
    let base := if k.op = opLight ∧ !k.hold then own else baseGone
    (if gone then { k with op := opDark, hold := false, dump := false, thin := true } else k) ::
      dropThin n x f t (if k.thin then j + 1 else j) base

/-- The slots that band `b` plays, up to and without END. -/
def State.playSlots (s : State) (h b : Nat) : List Slot :=
  let x := s.bandOf (h * 32 + b)
  let l := s.slots h x.playBank.toNat
  if x.thinX = 0 then l else dropThin (x.frameNo.getD 0) x.thinX (thinCount l) l 0 false

/-- Whether a slot of a list as played is one that was dropped: a DARK slot marked thin stands in no list (R119). -/
def Slot.dropped (k : Slot) : Bool := k.op == opDark && k.thin

/-- The lit time of a slot with light, in fine steps (R122, R123, R134). -/
def State.litFine (s : State) (h : Nat) (k : Slot) : Nat := 32 * (if k.op = opLight then s.litTicks h k else k.duration)

/-! ## The item that the colour-constancy schedule names (R207, R214) -/

/-- The loop of a group is held. -/
def State.ccHeld (s : State) (g : Nat) : Bool :=
  s.flag (CC_GROUP0_hold g) || (s.ccGroup g).holdFrame ||
    (s.banksOfGroup g).any (fun b => !s.tripped b && s.fadeState b != FADE_ON)

/-- The item named for the frame: bank, and entry or 0 for white. -/
def State.namedItem (s : State) (g : Nat) : Option (Nat × Nat) :=
  if s.flag (CC_GROUP0_enable g) && !s.ccHeld g then (s.ccGroup g).named else none

end Sys2Proof.Machine
end

