-- ==== Sys2Proof/Machine/Zone.lean ====
section
/-!
DEFINITION. The zone illuminator (R189 to R203): contexts, levels, line scan, self-scan and zone faults.
-/

namespace Sys2Proof.Machine

def ZONE_OK : Nat := 0
def ZONE_UNVERIFIED : Nat := 1
def ZONE_OPEN : Nat := 2
def ZONE_SHORT : Nat := 3
def ZONE_DRIVER : Nat := 4
def ZONE_COMMS : Nat := 5

def State.selfScan (s : State) (z : Nat) : Bool := s.flag (ZN_MAT6_in_self_scan z)

/-- The contexts of a matrix. -/
def State.zones (s : State) (z : Nat) : List Nat :=
  (List.range (s.zx z * s.zy z)).map (s.fld (ZN_MAT2_ctx_base z) + ·)

/-- The matrix of a context. -/
def State.zoneMatrix (s : State) (c : Nat) : Option Nat :=
  (List.range 4).find? (fun z => s.matrixOn z && decide (s.fld (ZN_MAT2_ctx_base z) ≤ c) &&
    decide (c < s.fld (ZN_MAT2_ctx_base z) + s.zx z * s.zy z))

/-- A zone's state, with the count of faulted zones of its matrix. -/
def State.setZone (s : State) (c st : Nat) : State :=
  let was := s.zoneFaulted c
  let t := s.setFld (ZN_CTX0_fault c) st
  let now := t.zoneFaulted c
  match s.zoneMatrix c with
  | none => t
  | some z =>
    let n := s.fld (ZN_MAT6_faulted_zones z)
    if now && !was then t.setFld (ZN_MAT6_faulted_zones z) (n + 1)
    else if was && !now then t.setFld (ZN_MAT6_faulted_zones z) (n - 1)
    else t

/-! ## Faults (R200) -/

/-- A zone takes a fault: it goes dark with the next frame's levels. -/
def State.zoneFault (s : State) (c st : Nat) : State :=
  if s.zoneFaulted c then s
  else
    let t := s.setZone c st
    { t with zoneRun := tabSet (fun _ => 0) t.zoneRun c 0, zoneFresh := c :: t.zoneFresh }

/-- A zone enters a state at once, whatever fault it has: DRIVER (R200) or COMMS (R197). -/
def State.zoneEnter (s : State) (c st : Nat) : State := if s.zoneFaulted c then s.setZone c st else s.zoneFault c st

/-- One poll of a zone with the fault bits that it names the zone with: `confirm` polls in a row that name it open, or short,
confirm the fault; bit 2 or 3 puts it in DRIVER. -/
def State.zonePoll (s : State) (z c fb : Nat) : State :=
  if bitOf fb 2 ∨ bitOf fb 3 then
    if s.fld (ZN_CTX0_fault c) = ZONE_DRIVER then s else (s.zoneEnter c ZONE_DRIVER).raise2 ZN_ZONE_FAULT c ZONE_DRIVER
  else if s.zoneFaulted c then s
  else
    let r := tabGet (fun _ => 0) s.zoneRun c
    let opened := if bitOf fb 0 then r % 256 + 1 else 0
    let shorted := if bitOf fb 1 then r / 256 + 1 else 0
    let confirm := s.fld (LS_BANK0_confirm (s.fld (ZN_MAT0_supply_bank z)))
    if bitOf fb 0 && decide (confirm ≤ opened) then (s.zoneFault c ZONE_OPEN).raise2 ZN_ZONE_FAULT c ZONE_OPEN
    else if bitOf fb 1 && decide (confirm ≤ shorted) then (s.zoneFault c ZONE_SHORT).raise2 ZN_ZONE_FAULT c ZONE_SHORT
    else { s with zoneRun := tabSet (fun _ => 0) s.zoneRun c (opened + 256 * shorted) }

/-- The fault bits that the entries of a report name a context with. -/
def State.namedBits (s : State) (z d : Nat) (l : List (Nat × Nat × Nat)) (c : Nat) : Nat :=
  (l.filter (fun e => decide (e.1 < s.fld (ZN_MAT4_chans z)) && decide (e.2.1 < s.mux z) &&
    (let p := s.zoneOf z d e.1 e.2.1; s.zoneCtx z p.1 p.2 == c))).foldl (fun b e => Nat.lor b (e.2.2 % 16)) 0

/-- The entries of a ZONE_FAULTS payload. -/
def faultEntries (pl : List Byte) : List (Nat × Nat × Nat) :=
  (List.range (min 15 (byteAt pl 3))).filterMap (fun i =>
    if 4 * i + 7 < pl.length then some (byteAt pl (4 + 4 * i), byteAt pl (5 + 4 * i), byteAt pl (6 + 4 * i)) else none)

/-- A good ZONE_FAULTS report of driver `d` of matrix `z` (R197, R200, R202): zones in COMMS return to UNVERIFIED, and zones
that it does not name are OK (log 37). -/
def State.zoneReport (s : State) (z d : Nat) (pl : List Byte) : State :=
  let entries := faultEntries pl
  let t := s.doAll (s.drvZones z d) (fun u c =>
    let fb := s.namedBits z d entries c
    let u := u.setFld (ZN_CTX1_temp c) (byteAt pl 2)
    let u := if u.fld (ZN_CTX0_fault c) = ZONE_COMMS then u.setZone c ZONE_UNVERIFIED
      else if u.fld (ZN_CTX0_fault c) = ZONE_UNVERIFIED ∧ fb = 0 then u.setZone c ZONE_OK
      else u
    u.zonePoll z c fb)
  let n := byteAt pl 1
  (t.count (ZN_MAT7_steps_missed z) n).doIf (n != 0) (·.modMatrix z (fun x => { x with missed := true }))

/-- A zone driver has failed every try: its zones enter COMMS (R197). -/
def State.zonesComms (s : State) (p addr : Nat) : State :=
  match s.zoneAt p addr with
  | none => s
  | some (z, d) =>
    (s.modDriver (drvKey p addr) (fun x => { x with comms := true })).doAll (s.drvZones z d) (fun u c => u.zoneEnter c ZONE_COMMS)

/-- clear_fault of zones: they return to UNVERIFIED at the next frame boundary of their matrix's head (R200). -/
def State.zonesClear (s : State) (l : List Nat) : State :=
  { s with zoneClear := (l.filter (fun c => s.zoneFaulted c && (s.zoneMatrix c).isSome)) ++ s.zoneClear }

/-! ## Configuration of the drivers (R197, R202) -/

/-- Nanoseconds of ticks. -/
def ticksNs (n : Nat) : Nat := n * 5 / 4

/-- ZONE_CFG sent to every driver of a matrix. -/
def State.zoneCfg (s : State) (z : Nat) : State :=
  s.doAll (s.zoneDrvs z) (fun t d =>
    let pa := t.zoneDriver z d
    t.busSend pa.1 pa.2 0x20 (BitVec.ofNat 8 (t.mux z) :: natLe 2 (ticksNs (t.fld (ZN_MAT3_winnow_ticks z))) ++
      natLe 2 (ticksNs (t.fld (ZN_MAT5_step_ticks z))) ++ [BitVec.ofNat 8 (t.selfScan z).toNat]))

/-- A matrix is enabled (R193, R194). -/
def State.matrixEnable (s : State) (z : Nat) : State :=
  let t := s.doAll (s.zones z) (fun u c => (u.setFld (ZN_CTX0_level c) 0).setFld (ZN_CTX0_fault c) ZONE_UNVERIFIED)
  let t := (t.setMatrix z { Matrix.reset with iface := (t.matrix z).iface }).setFlag (ZN_MAT6_in_self_scan z) (t.flag (ZN_MAT0_scan_mode z))
  let t := (t.setFld (ZN_MAT6_n_drv z) (t.zoneDrivers z)).setFld (ZN_MAT6_faulted_zones z) 0
  let t := t.doAll (t.zoneDrvs z) (fun u d => let pa := u.zoneDriver z d; u.busSend pa.1 pa.2 0x01 [])
  (t.zoneCfg z).supplySync (t.fld (ZN_MAT0_head z))

/-- A matrix is disabled: its selects are low, and no self-scan is in effect. -/
def State.matrixDisable (s : State) (z : Nat) : State := (s.lowOuts (s.selects z)).setFld (ZN_MAT6_in_self_scan z) 0

/-- The count of faulted zones of a matrix over its contexts. -/
def State.countFaulted (s : State) (z : Nat) : State :=
  s.setFld (ZN_MAT6_faulted_zones z) ((s.zones z).filter s.zoneFaulted).length

/-- The ports of each band of each enabled matrix. -/
def State.bandPortLists (s : State) : List (Nat × List Nat) :=
  ((List.range 4).filter s.matrixOn).flatMap (fun z =>
    (List.range (s.nBands (s.fld (ZN_MAT0_head z)))).map (fun b => (z, s.bandPorts z b)))

/-- Whether a matrix may go to self-scan: each of its bands lies on one port, and that port serves no other band (R201). -/
def State.scanPorts (s : State) (z : Nat) : Bool :=
  let all := s.bandPortLists.flatMap (·.2)
  (s.bandPortLists.filter (fun e => e.1 == z)).all (fun e => decide (e.2.length ≤ 1) && e.2.all (fun p => decide (all.count p ≤ 1)))

/-! ## The lit window of a slot (R198, R201) -/

/-- t_w in fine steps; with M = 1 it is 0. -/
def State.winnowFine (s : State) (z : Nat) : Nat := if s.mux z = 1 then 0 else 32 * s.fld (ZN_MAT3_winnow_ticks z)

/-- pre: 0 after a settle, else t_w. -/
def State.preFine (s : State) (z : Nat) (k : Slot) : Nat := if k.op = opLight ∧ !k.hold then 0 else s.winnowFine z

/-- slice of a window of `len` fine steps. -/
def State.slice (s : State) (z : Nat) (k : Slot) (len : Nat) : Nat :=
  (len - (s.mux z - 1) * s.winnowFine z - s.preFine z k) / s.mux z

/-- frac of a slot: 1 for the white item of a MEASURE slot (R190). -/
def State.slotFrac (s : State) (z : Nat) (k : Slot) (w : Nat) : Rat :=
  if k.op = opMeasure ∧ w = 0 then 1 else s.frac (s.fld (ZN_MAT0_supply_bank z)) w

/-- The weight of a window (R198). -/
def State.stepWeight (s : State) (z : Nat) (k : Slot) (w len : Nat) : Nat :=
  let sl := s.slice z k len
  if sl = 0 then 0
  else (clampI (ratRound (2048 * s.slotFrac z k w * len / ((s.mux z * sl : Nat) : Rat))) 0 65535).toNat

/-- The row groups of a window that starts at `start`, in fine steps: row, on, off (R198). -/
def State.rowWindows (s : State) (z : Nat) (k : Slot) (start len : Nat) : List (Nat × Nat × Nat) :=
  let sl := s.slice z k len
  (List.range (s.mux z)).map (fun r =>
    let on := start + s.preFine z k + r * (sl + s.winnowFine z)
    (r, on, if r + 1 = s.mux z then start + len else on + sl))

/-- The gate of a window in self-scan, in ticks (R201). -/
def State.gateTicks (s : State) (z : Nat) (k : Slot) (w len : Nat) : Nat :=
  (ratRound ((len : Rat) * s.slotFrac z k w / 32)).toNat

/-- The row groups lit under a gate of `gate` ticks from `start`: row, on, off, in fine steps. -/
def State.scanWindows (s : State) (z start gate : Nat) : List (Nat × Nat × Nat) :=
  let step := s.fld (ZN_MAT5_step_ticks z)
  let t := s.fld (ZN_MAT3_winnow_ticks z)
  (List.range (ceilDiv gate (max 1 step))).filterMap (fun i =>
    let on := start + 32 * (i * step + t)
    let off := min (start + 32 * (i + 1) * step) (start + 32 * gate)
    if on < off then some (i % s.mux z, on, off) else none)

/-- The light of a window added to the ages of a band's zones in row group `r` (R195). -/
def State.ageRow (s : State) (z b r lit : Nat) : State :=
  let gr := s.groupRows z
  let rows := (List.range gr).map (b * s.zb z + r * gr + ·)
  s.doAll (rows.flatMap (fun m => (List.range (s.zx z)).map (fun i => s.zoneCtx z i m))) (fun t c =>
    let full := 256 * 3600 * 800000000 * 32 * 4095
    let a := tabGet (fun _ => 0) t.zoneAge c + lit * t.zoneCode c
    ({ t with zoneAge := tabSet (fun _ => 0) t.zoneAge c (a % full) }).doIf (decide (full ≤ a)) (·.count (ZN_CTX1_age c) (a / full)))

/-! ## Levels shown (R197) -/

/-- A driver of a band meets a tag for the first time: its whole buffer becomes active, or its zones are stale. -/
def State.newLevels (s : State) (z tag d : Nat) : State :=
  let pa := s.zoneDriver z d
  let key := drvKey pa.1 pa.2
  let x := s.driver key
  if x.seenTag = some tag then s
  else
    let whole := decide (x.levelTag = tag ∧ s.fld (ZN_MAT4_chans z) * s.mux z ≤ x.levels)
    let t := s.setDriver key { x with seenTag := some tag }
    let t := t.doAll (t.drvZones z d) (fun u c => u.setFlag (ZN_CTX1_stale c) (!whole))
    if whole then t else (t.count (ZN_MAT7_levels_stale z) 1).raiseOnce ZN_LEVELS_STALE z z 0

/-- Levels taken by a driver: an ACK of ZONE_LEVELS. -/
def State.levelsAcked (s : State) (p addr tag n : Nat) : State :=
  s.modDriver (drvKey p addr) (fun x => { x with levelTag := tag, levels := (if x.levelTag = tag then x.levels else 0) + n })

/-- The slot that a ZONE_STEP of a band is for: the window now open while row groups of it are still to come, else the slot
that starts next (R198). -/
def State.stepSlot (s : State) (h z b : Nat) : Option (Slot × Bool) :=
  let x := s.bandOf (h * 32 + b)
  let l := s.playSlots h b
  let lit := fun k : Slot => k.op == opLight || k.op == opMeasure
  match (if x.slot = 0 then none else l[x.slot - 1]?) with
  | some k => if lit k && decide (x.steps < s.mux z) then some (k, false)
    else (l[x.slot]?).bind (fun k => if lit k then some (k, true) else none)
  | none => (l[x.slot]?).bind (fun k => if lit k then some (k, true) else none)

/-- The level entry that a slot of a zone-lit head shows: its own, or the item's for a MEASURE slot with w = 0 (R134). -/
def State.itemEntry (s : State) (h : Nat) (k : Slot) : Option Nat :=
  if k.op = opMeasure ∧ k.w = 0 then
    match s.namedItem (s.groupOf h) with
    | some (b, w) => if s.fld (LS_BANK0_head b) = h ∧ s.fld (LS_BANK0_prim b) = k.prim then some w else none
    | none => none
  else some k.w

/-- ZONE_STEP, R198, R197, R199: broadcast on the band's ports; the drivers activate their buffers. -/
def execZoneStep (z : Fin 4) (band : Fin 32) (row : Fin 16) (s : State) : Result :=
  let h := s.fld (ZN_MAT0_head z)
  if !s.matrixOn z ∨ s.selfScan z ∨ s.mux z ≤ row ∨ s.nBands h ≤ band then .next s
  else
    match s.stepSlot h z band with
    | none => .next s
    | some (k, ahead) =>
      match s.itemEntry h k with
      | none => .next s
      | some w =>
        let tag := (s.bandOf (h * 32 + band)).levelTag
        let uni := k.op = opMeasure
        let payload : List Byte := [BitVec.ofNat 8 tag, BitVec.ofNat 8 band, BitVec.ofNat 8 (row + if uni then 128 else 0)] ++
          natLe 2 (s.stepWeight z k w (s.litFine h k)) ++ natLe 2 (if uni then s.fld (ZN_MAT3_meas_code z) else 0)
        let t := s.doAll (s.bandPorts z band) (fun u p => u.busCast p 0x22 payload)
        let t := t.doAll (t.bandDrvs z band) (fun u d => u.newLevels z tag d)
        .next (t.modBandOf (h * 32 + band) (fun x =>
          if ahead then { x with preStep := true } else { x with steps := x.steps + 1 }))

/-- ZONE_SWAP, R201: at the band's decision instant in self-scan. -/
def execZoneSwap (z : Fin 4) (band : Fin 32) (s : State) : Result :=
  let h := s.fld (ZN_MAT0_head z)
  if !s.matrixOn z ∨ !s.selfScan z ∨ s.nBands h ≤ band then .next s
  else
    let tag := (s.bandOf (h * 32 + band)).levelTag
    let t := s.doAll (s.bandPorts z band) (fun u p => u.busCast p 0x23 [BitVec.ofNat 8 tag, BitVec.ofNat 8 band])
    .next (t.doAll (t.bandDrvs z band) (fun u d => u.newLevels z tag d))

/-! ## The frame boundary (R197, R200, R202) -/

/-- The fall-back to self-scan (R202); a matrix whose ports do not allow the mode stays in line scan (R201). -/
def State.zoneFallback (s : State) (z : Nat) : State :=
  let x := s.matrix z
  let run := if x.missed then x.missedRun + 1 else 0
  let t := s.setMatrix z { x with missed := false, missedRun := min run 255 }
  if t.flag (ZN_MAT0_auto_fallback z) ∧ !t.selfScan z ∧ t.fld (ZN_MAT5_fb_frames z) ≤ run ∧ t.scanPorts z then
    let t := (t.setFld (ZN_MAT6_in_self_scan z) 1).modMatrix z (fun y => { y with missedRun := 0 })
    (t.zoneCfg z).raise ZN_SELF_SCAN z
  else t

/-- The frame boundary of a matrix's head: cleared zones, the tag of the frame's levels, and, without a split, the levels. -/
def State.zoneFrame (s : State) (z : Nat) : State :=
  let mine := fun c => s.zoneMatrix c == some z
  let t := s.doAll (s.zoneClear.filter mine) (fun u c => if u.zoneFaulted c then u.setZone c ZONE_UNVERIFIED else u)
  let t := { t with zoneClear := t.zoneClear.filter (fun c => !mine c), zoneFresh := t.zoneFresh.filter (fun c => !mine c) }
  let t := (t.zoneFallback z).clearOnce ZN_LEVELS_STALE z
  let (tag, t) := t.drawTag
  let t := t.modMatrix z (fun x => { x with lastTag := x.tag, tag := tag })
  if t.flag (CP_HEAD_CTRL_split_en (t.fld (ZN_MAT0_head z))) then t
  else t.doAll (List.range (t.zy z)) (fun u m => u.sendRow z m)

/-- A write of scan_mode on an enabled matrix: ZONE_CFG goes first (R202). -/
def State.scanMode (s : State) (z : Nat) : State :=
  let m := s.flag (ZN_MAT0_scan_mode z)
  if m = s.selfScan z then s
  else
    let t := (s.setFlag (ZN_MAT6_in_self_scan z) m).modMatrix z (fun x => { x with missedRun := 0 })
    (t.zoneCfg z).doIf m (·.raise ZN_SELF_SCAN z)

end Sys2Proof.Machine
end

