-- ==== Sys2Proof/Machine/Cc.lean ====
section
/-!
DEFINITION. Colour constancy (R204 to R216): readings, items, and the loop that moves the demands.
-/

namespace Sys2Proof.Machine

abbrev Xyz := Rat × Rat × Rat

def Xyz.add (a b : Xyz) : Xyz := (a.1 + b.1, a.2.1 + b.2.1, a.2.2 + b.2.2)
def Xyz.scale (a : Xyz) (k : Rat) : Xyz := (a.1 * k, a.2.1 * k, a.2.2 * k)
def Xyz.at (a : Xyz) (i : Nat) : Rat := if i = 0 then a.1 else if i = 1 then a.2.1 else a.2.2
def Xyz.dot (a b : Xyz) : Rat := a.1 * b.1 + a.2.1 * b.2.1 + a.2.2 * b.2.2
def Xyz.cross (a b : Xyz) : Xyz :=
  (a.2.1 * b.2.2 - a.2.2 * b.2.1, a.2.2 * b.1 - a.1 * b.2.2, a.1 * b.2.1 - a.2.1 * b.1)

/-- A value in sensor units as a word, 1.0 = 2^24, limited to 32 bits. -/
def xyzWord (r : Rat) : Nat := (clampI (ratRound (r * 16777216)) 0 4294967295).toNat

/-- Calibration values in use of an item's instance (R331). -/
def calKey (item inst : Nat) : Nat := item * 64 + inst
def State.calValues (s : State) (item inst : Nat) : List Int := tabGet (fun _ => []) s.calUse (calKey item inst)

/-! ## Readings (R204, R205, R209) -/

/-- The number of a range: input, bank, entry. -/
def rangeKey (input b w : Nat) : Nat := (input * 8 + b) * 16 + w

/-- The range of an input for an item. -/
def State.rangeOf (s : State) (t c b w : Nat) : Nat :=
  if s.flag (CC_TRIAD0_auto_range t) then tabGet (fun _ => 0) s.ranges (rangeKey (3 * t + c) b w)
  else s.fld (CC_TRIAD0_fixed_range t)

/-- The range that the next frame of the item uses, from the mean of the codes (R209). -/
def nextRange (r : Nat) (mean : Rat) (clipped : Bool) : Nat :=
  if clipped then r - 1 else if mean * 20 < 65536 then min 3 (r + 1) else r

def sampleCode (x : TriadSample) (c : Nat) : Nat :=
  if c = 0 then x.code0.toNat else if c = 1 then x.code1.toNat else x.code2.toNat

/-- Whether a sample lies in the sample window of a slot: from `skip` us after light-on to 1 us before the slot's end (R208). -/
def inWindow (skip dur : Nat) (x : TriadSample) : Bool :=
  decide (skip * 800 ≤ x.at0) && decide (x.at0 + 800 ≤ dur)

/-- The mean code of an input over samples (R208). -/
def meanCode (l : List TriadSample) (c : Nat) : Rat := ((l.map (fun x => sampleCode x c)).sum : Nat) / (l.length : Rat)

/-- Whether a sample of an input has reached code 0xFFFF (R208). -/
def clippedAt (l : List TriadSample) (c : Nat) : Bool := l.any (fun x => sampleCode x c == 0xFFFF)

/-- The reading of an input of a triad in sensor units (R204). -/
def State.reading (s : State) (t c rng : Nat) (mean : Rat) : Rat :=
  (mean - ((s.calValues 5 (3 * t + c)).getD rng 0 : Int)) / 65536 / 10 ^ rng

/-- Entry (row, column) of a triad's matrix, 20 fractional bits. -/
def State.triadMat (s : State) (t r c : Nat) : Rat := (s.sfld (CC_TRIAD_MAT_mat t (3 * r + c)) : Rat) / 1048576

/-- XYZ of the means of a triad's inputs (R205). -/
def State.triadXyz (s : State) (t : Nat) (mean : Nat → Rat) (rng : Nat → Nat) : Xyz :=
  let a := fun c => s.reading t c (rng c) (mean c)
  let row := fun i => max 0 (s.triadMat t i 0 * a 0 + s.triadMat t i 1 * a 1 + s.triadMat t i 2 * a 2)
  (row 0, row 1, row 2)

/-- The white vector of a bank, in sensor units. -/
def State.whiteOf (s : State) (b : Nat) : Xyz :=
  let v := fun i => (s.fld (CC_WHITE_white b i) : Rat) / 16777216
  (v 0, v 1, v 2)

/-! ## Lists and items (R206, R207) -/

/-- Whether a bank is measurable: its head plays a MEASURE slot with w = 0 and its primary (R206). -/
def State.measurable (s : State) (b : Nat) : Bool :=
  let h := s.fld (LS_BANK0_head b)
  (s.slots h (s.fld (SQ_CTRL_seq_bank h))).any (fun k => k.op == opMeasure && k.w == 0 && k.prim == s.fld (LS_BANK0_prim b))

/-- The entries that LIGHT slots of a bank's head and primary select, ascending. -/
def State.usedEntries (s : State) (b : Nat) : List Nat :=
  let h := s.fld (LS_BANK0_head b)
  let l := s.slots h (s.fld (SQ_CTRL_seq_bank h))
  levelEntries.filter (fun w => l.any (fun k => k.op == opLight && k.w == w && k.prim == s.fld (LS_BANK0_prim b)))

/-- What the lists of a group rest on: its banks, what their heads play for them, and their masks (R206). -/
def State.ccLists (s : State) (g : Nat) : List (Nat × Bool × List (Nat × Nat)) :=
  (s.banksOfGroup g).map (fun b => (b, s.measurable b, (s.usedEntries b).map (fun w => (w, s.levelMask b w))))

/-- The lists of a group rebuilt (R206). A bank that is tripped or whose matrix is in self-scan is passed over when an item is
picked, so that it counts again as soon as it can be measured. A current item that is on neither list is let go. -/
def State.ccRebuild (s : State) (g : Nat) : State :=
  let banks := s.banksOfGroup g
  let t := s.doAll (banks.filter (fun b => !s.measurable b)) (fun u b => u.raise CC_NO_MEASURE b)
  let good := banks.filter s.measurable
  let level := good.flatMap (fun b => (s.usedEntries b).map (fun w => (b, w)))
  t.modCcGroup g (fun x => { x with
    white := good, whiteAt := 0, levelAt := 0, level := level
    item := x.item.filter (fun e => if e.2 = 0 then good.contains e.1 else level.contains e) })

/-- A commit that changes the banks, sequences or masks of an enabled group rebuilds its lists (R206). -/
def State.ccCommit (s0 s : State) (g : Nat) : State :=
  if s.flag (CC_GROUP0_enable g) ∧ s0.flag (CC_GROUP0_enable g) ∧ s0.ccLists g ≠ s.ccLists g then s.ccRebuild g else s

/-- Whether an item of a bank can be measured now (R206, R207). -/
def State.itemUsable (s : State) (b : Nat) : Bool :=
  s.bankOn b && !s.tripped b && !(s.matrixOf (s.fld (LS_BANK0_head b))).any s.selfScan

/-- The first member of a list from a place on, cyclically, that passes; and the place after it. -/
def pickFrom {α : Type} (ok : α → Bool) (l : List α) (start : Nat) : Option (α × Nat) :=
  (List.range l.length).findSome? (fun i =>
    let j := (start + i) % l.length
    match l[j]? with
    | some a => if ok a then some (a, j + 1) else none
    | none => none)

/-- The words that name the current item. -/
def State.itemWords (s : State) (g : Nat) : State :=
  match (s.ccGroup g).item with
  | some (b, w) => (s.setFld (CC_GROUP4_item_bank g) b).setFld (CC_GROUP4_item_entry g) w
  | none => s

/-- The current item begins anew. -/
def CcGroup.freshItem (x : CcGroup) : CcGroup :=
  { x with good := 0, tried := 0, sum := (0, 0, 0), frameSum := (0, 0, 0), frameN := 0 }

/-- The next item: from the white and the level list in turn (R207). -/
def State.nextItem (s : State) (g : Nat) : State :=
  let x := s.ccGroup g
  let fresh := x.freshItem
  let white := pickFrom s.itemUsable x.white x.whiteAt
  let level := pickFrom (fun e : Nat × Nat => s.itemUsable e.1) x.level x.levelAt
  let y := match (if x.takeLevel then level else none), white with
    | some (e, j), _ => { fresh with item := some e, levelAt := j, takeLevel := false }
    | none, some (b, j) => { fresh with item := some (b, 0), whiteAt := j, takeLevel := true }
    | none, none => { fresh with item := none }
  (s.setCcGroup g y).itemWords g

/-- The state word of a group: OFF, HELD, RUNNING or LIMITED (R213, R214). While the loop is held the current item starts again
and no item is named until a frame boundary after the hold. -/
def State.ccShow (s : State) (g : Nat) : State :=
  if !s.flag (CC_GROUP0_enable g) then s.setFld (CC_GROUP4_state g) 0
  else if s.ccHeld g then
    (s.modCcGroup g (fun x => { x.freshItem with named := none })).setFld (CC_GROUP4_state g) 1
  else s.setFld (CC_GROUP4_state g) (if (s.ccGroup g).limited then 3 else 2)

/-! ## The loop (R212, R213) -/

/-- The column of a component in the primary matrix. -/
def State.column (s : State) (g c : Nat) : Xyz :=
  ((s.banksOfGroup g).filter (fun b => s.fld (CC_BANK0_comp b) == c && (s.bank b).hasWhite)).foldl
    (fun a b => Xyz.add a (s.whiteOf b)) (0, 0, 0)

def State.target (s : State) (g : Nat) : Xyz :=
  let v := fun i => (s.fld (CC_TARGET_target g i) : Rat) / 16777216
  (v 0, v 1, v 2)

/-- inverse(M) * T, where M is not singular. -/
def solve (m0 m1 m2 t : Xyz) : Option Xyz :=
  let det := m0.dot (m1.cross m2)
  if det = 0 then none
  else some (t.dot (m1.cross m2) / det, t.dot (m2.cross m0) / det, t.dot (m0.cross m1) / det)

/-- L of a component. -/
def State.limitOf (s : State) (g c : Nat) : Rat :=
  let l := ((s.banksOfGroup g).filter (fun b => s.fld (CC_BANK0_comp b) == c && !s.tripped b)).map s.scaleLimit
  match l.min? with
  | some v => (v : Rat) / 32768
  | none => 0

/-- COLOUR_FIRST: k and e. -/
def colourFirst (d l : Xyz) : Rat × Xyz :=
  let k := min 1 (min (l.1 / d.1) (min (l.2.1 / d.2.1) (l.2.2 / d.2.2)))
  (k, d.scale k)

/-- One pass of LUMA_FIRST on the pinned components and e. -/
def lumaPass (d l my : Xyz) (ty : Rat) (pinned : List Nat) (e : Xyz) : List Nat × Xyz :=
  let p := (List.range 3).filter (fun c => pinned.contains c || decide (l.at c < e.at c))
  let part := fun (f : Nat → Rat) (cs : List Nat) => (cs.map (fun c => f c * my.at c)).sum
  let free := (List.range 3).filter (fun c => !p.contains c)
  let den := part d.at free
  let g := if den = 0 then 1 else max 1 ((ty - part l.at p) / den)
  let v := fun c => if p.contains c then l.at c else g * d.at c
  (p, (v 0, v 1, v 2))

/-- LUMA_FIRST: the pinned components and e. -/
def lumaFirst (d l my : Xyz) (ty : Rat) : List Nat × Xyz :=
  let a := lumaPass d l my ty [] d
  let b := lumaPass d l my ty a.1 a.2
  let c := lumaPass d l my ty b.1 b.2
  (c.1, (min c.2.1 l.1, min c.2.2.1 l.2.1, min c.2.2.2 l.2.2))

/-- The demands of a group. -/
def State.setDemand (s : State) (g : Nat) (d : Xyz) : State :=
  (s.modCcGroup g (fun x => { x with demand := d })).doAll (List.range 3) (fun t c =>
    t.setFld (CC_DEMAND_demand g c) (clampI (ratRound (d.at c * 32768)) 0 65535).toNat)

/-- The component with the smallest L/d. -/
def worstComp (d l : Xyz) : Nat :=
  let r := fun c => l.at c / d.at c
  if r 0 ≤ r 1 ∧ r 0 ≤ r 2 then 0 else if r 1 ≤ r 2 then 1 else 2

/-- The luminance that a group gives now: Y of each bank's white vector at its scale and fade; a tripped bank gives none. -/
def State.lumaNow (s : State) (g : Nat) : Rat :=
  (((s.banksOfGroup g).filter (fun b => (s.bank b).hasWhite && !s.tripped b)).map (fun b =>
    (s.whiteOf b).2.1 * (s.fld (LS_BANK12_scale b) : Nat) / 32768 * s.fade b)).sum

/-- luma_ratio: the luminance given, over the target's (R213). For a target without luminance the spec states none: a free value
(log 132). -/
def State.lumaShow (s : State) (g : Nat) : State :=
  let ty := (s.target g).2.1
  let (v, t) := if ty = 0 then s.draw else ((clampI (ratRound (s.lumaNow g / ty * 32768)) 0 65535).toNat, s)
  t.setFld (CC_GROUP4_luma_ratio g) v

/-- The group is limited, or no longer; CC_LIMITED is raised on entry (R213). -/
def State.ccLimit (s : State) (g : Nat) (limited : Bool) : State :=
  let was := (s.ccGroup g).limited
  let t := (s.modCcGroup g (fun x => { x with limited := limited })).ccShow g
  t.doIf (limited && !was) (fun u => u.raise2 CC_LIMITED g (u.fld (CC_GROUP4_limited_comp g)))

/-- The update after a white item (R212). -/
def State.ccUpdate (s : State) (g : Nat) : State :=
  let m := fun c => s.column g c
  let fail := (s.count (CC_GROUP8_solve_fails g) 1).raise CC_SOLVE_FAIL g
  match solve (m 0) (m 1) (m 2) (s.target g) with
  | none => fail
  | some d =>
    if d.1 ≤ 0 ∨ d.2.1 ≤ 0 ∨ d.2.2 ≤ 0 then fail
    else
      let l : Xyz := (s.limitOf g 0, s.limitOf g 1, s.limitOf g 2)
      let my : Xyz := ((m 0).2.1, (m 1).2.1, (m 2).2.1)
      let ty := (s.target g).2.1
      let luma := s.flag (CC_GROUP0_policy g)
      let e := if luma then (lumaFirst d l my ty).2 else (colourFirst d l).2
      let limited := if luma then !(lumaFirst d l my ty).1.isEmpty else decide ((colourFirst d l).1 < 1)
      let x := s.ccGroup g
      let dt : Rat := ((s.tick - x.lastUpdate : Nat) : Rat) / 800000
      let k := min 1 (dt / s.fld (CC_GROUP0_tau_ms g))
      let to1 := fun c => Xyz.at x.demand c + (e.at c - Xyz.at x.demand c) * k
      let t := (s.setDemand g (to1 0, to1 1, to1 2)).modCcGroup g (fun y => { y with lastUpdate := s.tick })
      let t := t.setFld (CC_GROUP4_limited_comp g) (worstComp d l)
      (t.lumaShow g).ccLimit g limited

/-- The current item is complete (R210). A level item whose white vector has Y = 0 has no stated light: a free value. -/
def State.itemDone (s : State) (g b w : Nat) (v : Xyz) : State :=
  let t :=
    if w = 0 then
      let t := ((s.setFld (CC_WHITE_white b 0) (xyzWord v.1)).setFld (CC_WHITE_white b 1) (xyzWord v.2.1)).setFld
        (CC_WHITE_white b 2) (xyzWord v.2.2)
      (t.modBank b (fun x => { x with hasWhite := true })).ccUpdate g
    else
      let y := (s.whiteOf b).2.1
      let (light, t) := if y = 0 then s.draw else ((clampI (ratRound (v.2.1 / y * 32768)) 0 65535).toNat, s)
      ((t.setFld (CC_LIGHT_light b (w - 1)) light).setFld (CC_LIGHT_measured b (w - 1)) 1).updateWeights (t.fld (LS_BANK0_head b))
  t.nextItem g

/-! ## MEASURE_SLOT_END (R205, R208 to R211) -/

/-- Whether a triad samples the MEASURE slot of a head's band (R205). -/
def State.triadServes (s : State) (t h b : Nat) : Bool :=
  s.flag (CC_TRIAD0_enable t) && s.fld (CC_TRIAD0_head t) == h && (!s.zoneLit h || s.fld (CC_TRIAD0_band t) == b)

/-- A reading taken from the samples in the window: the ranges, the last-reading words and the clip counter. The second part is its
XYZ where it is valid (R208). A window without a sample brings nothing. -/
def State.takeReading (s : State) (r : TriadReading) (b w skip dur : Nat) : State × Option Xyz :=
  let t := r.triad.val
  let l := r.samples.filter (inWindow skip dur)
  if l.isEmpty then (s, none)
  else
    let rng := fun c => s.rangeOf t c b w
    let v := s.triadXyz t (meanCode l) rng
    let clip := (List.range 3).any (clippedAt l)
    let s1 := s.doAll (List.range 3) (fun u c => u.setFld (CC_TRIAD_LAST_last t c) (xyzWord (v.at c)))
    let s1 := s1.setFld (CC_TRIADA_ranges t) (rng 0 + 4 * rng 1 + 16 * rng 2)
    let s1 := s1.doIf clip (·.count (CC_TRIADE_clipped t) 1)
    let s1 := if s.flag (CC_TRIAD0_auto_range t) then
        { s1 with ranges := (List.range 3).foldl (fun u c =>
          tabSet (fun _ => 0) u (rangeKey (3 * t + c) b w) (nextRange (rng c) (meanCode l c) (clippedAt l c))) s1.ranges }
      else s1
    let stale := (List.range 3).any (fun c => s.measuring 5 (3 * t + c))
    (s1, if clip || stale || s.flag (CC_TRIADA_suspect t) then none else some v)

/-- A valid reading of the current item: divided by scale and fade, and, for a white item, held against the white vector
before it (R210, R211). What comes after the frame has been taken into the item is not used (log 133). -/
def State.useReading (s : State) (g t b w : Nat) (v : Xyz) : State :=
  let f : Rat := (s.fld (LS_BANK12_scale b) : Rat) / 32768 * s.fade b
  let x := s.ccGroup g
  if f = 0 ∨ x.taken ∨ x.item ≠ some (b, w) then s
  else
    let n := v.scale (1 / f)
    let y := (s.whiteOf b).2.1
    let far := w = 0 ∧ (s.bank b).hasWhite ∧ (n.2.1 < y * 4 / 5 ∨ y * 6 / 5 < n.2.1)
    if far then
      let bad := tabGet (fun _ => 0) s.triadBad t + 1
      let u := (s.count (CC_TRIADE_implausible t) 1).raise2 CC_IMPLAUSIBLE t b
      ({ u with triadBad := tabSet (fun _ => 0) u.triadBad t (min bad 3) }).doIf (decide (3 ≤ bad))
        (·.setFld (CC_TRIADA_suspect t) 1)
    else
      let u := if w = 0 then { s with triadBad := tabSet (fun _ => 0) s.triadBad t 0 } else s
      u.modCcGroup g (fun x => { x with frameSum := Xyz.add x.frameSum n, frameN := x.frameN + 1 })

/-- The readings of a frame are complete: after the last band that a triad serves (R207, R210). -/
def State.frameReadings (s : State) (g b w : Nat) : State :=
  let x := s.ccGroup g
  if x.frameN = 0 ∨ x.taken then s
  else
    let sum := Xyz.add x.sum (Xyz.scale x.frameSum (1 / x.frameN))
    let t := s.setCcGroup g { x with sum := sum, good := x.good + 1, frameSum := (0, 0, 0), frameN := 0, taken := true }
    if s.fld (CC_GROUP0_meas_frames g) ≤ x.good + 1 then t.itemDone g b w (Xyz.scale sum (1 / ((x.good + 1 : Nat) : Rat))) else t

/-- MEASURE_SLOT_END, R204 to R212: the slot that was started last ends. -/
def execMeasureSlotEnd (h : Fin 4) (band : Fin 32) (readings : List TriadReading) (s : State) : Result :=
  let g := s.groupOf h
  let x := s.bandOf (h * 32 + band)
  let mine := readings.filter (fun r => s.triadServes r.triad h band)
  let skip := s.fld (CC_GROUP0_skip_us g)
  match (if x.slot = 0 then none else (s.playSlots h band)[x.slot - 1]?) with
  | none => .next s
  | some k =>
    if k.op ≠ opMeasure ∨ (s.matrixOf h).any s.selfScan then .next s
    else if k.w ≠ 0 then
      .next (s.doAll mine (fun t r => (t.takeReading r ((t.weightBank h k.prim).getD 0) k.w skip k.duration).1))
    else match s.namedItem g with
      | none => .next s
      | some (b, w) =>
        if s.fld (LS_BANK0_head b) ≠ h ∨ s.fld (LS_BANK0_prim b) ≠ k.prim then .next s
        else
          let t := s.doAll mine (fun u r =>
            let (u', v) := u.takeReading r b w skip k.duration
            match v with
            | some v => u'.useReading g r.triad b w v
            | none => u')
          let last := (List.range 4).all (fun i => !(s.flag (CC_TRIAD0_enable i) && s.fld (CC_TRIAD0_head i) == h &&
            s.zoneLit h && decide (band.val < s.fld (CC_TRIAD0_band i))))
          .next (if last then t.frameReadings g b w else t)

/-! ## The frame boundary, enable and learn (R213 to R215) -/

/-- The tracking anti-windup of member 0 (R165, R213). -/
def State.antiWindup (s : State) (g : Nat) : State :=
  let banks := fun c => (s.banksOfGroup g).filter (fun b => s.fld (CC_BANK0_comp b) == c)
  let x : Xyz := (s.ccGroup g).demand
  let v := fun c =>
    if (banks c).any (fun b => s.flag (LS_BANK7_cc_member b) && s.fld (LS_BANK12_winner b) != 0) then
      match ((banks c).map (fun b => s.fld (LS_BANK12_scale b))).min? with
      | some k => (k : Rat) / 32768
      | none => x.at c
    else x.at c
  s.setDemand g (v 0, v 1, v 2)

/-- The item for the frame to come is named (R207): an item with no valid reading in 4 * meas_frames frames is abandoned, and one
that can no longer be measured is left. -/
def State.ccName (s : State) (g : Nat) : State :=
  let x := s.ccGroup g
  let t := match x.item with
    | none => s.nextItem g
    | some (b, _) =>
      if x.good = 0 ∧ 4 * s.fld (CC_GROUP0_meas_frames g) ≤ x.tried then
        ((s.count (CC_GROUP8_item_skips g) 1).raise2 CC_ITEM_SKIP g b).nextItem g
      else if s.itemUsable b then s
      else s.nextItem g
  t.modCcGroup g (fun y => { y with named := y.item, tried := y.tried + y.item.isSome.toNat })

/-- The frame boundary of a group's loop (R207, R213, R214). -/
def State.ccFrame (s : State) (g : Nat) : State :=
  if !s.flag (CC_GROUP0_enable g) then s
  else
    let t := s.modCcGroup g (fun x => { x with
      holdFrame := x.holdNext, holdNext := false, taken := false, frameSum := (0, 0, 0), frameN := 0 })
    ((if t.ccHeld g then t else (t.antiWindup g).ccName g).ccShow g).lumaShow g

/-- A group's loop is enabled or disabled. The first white item of each bank after the enable has no white vector before it (R211,
log 134). -/
def State.ccEnable (s : State) (g : Nat) : State :=
  let d := fun c => (s.fld (CC_DEMAND_demand g c) : Rat) / 32768
  let t := s.setCcGroup g { CcGroup.reset with demand := (d 0, d 1, d 2), lastUpdate := s.tick }
  let t := t.doAll (s.banksOfGroup g) (fun u b => u.modBank b (fun x => { x with hasWhite := false }))
  (t.ccRebuild g).ccShow g

def State.ccDisable (s : State) (g : Nat) : State :=
  (s.modCcGroup g (fun x => { x with item := none, named := none })).ccShow g

/-- learn = 1 (R215): the component's scale is the lowest of its banks. -/
def State.ccLearn (s : State) (g : Nat) : State :=
  let scale := fun c =>
    match (((s.banksOfGroup g).filter (fun b => s.fld (CC_BANK0_comp b) == c)).map (fun b => s.fld (LS_BANK12_scale b))).min? with
    | some k => (k : Rat) / 32768
    | none => 0
  let v := Xyz.add ((s.column g 0).scale (scale 0)) (Xyz.add ((s.column g 1).scale (scale 1)) ((s.column g 2).scale (scale 2)))
  let t := s.doAll (List.range 3) (fun u i => u.setFld (CC_TARGET_target g i) (xyzWord (v.at i)))
  t.setDemand g (scale 0, scale 1, scale 2)

/-- clear_suspect of a triad (R211). -/
def State.triadClear (s : State) (t : Nat) : State :=
  { s.setFld (CC_TRIADA_suspect t) 0 with triadBad := tabSet (fun _ => 0) s.triadBad t 0 }

end Sys2Proof.Machine
end

