-- ==== Sys2Proof/Machine/Ingest.lean ====
section
/-!
DEFINITION. VIDEO_LINE packets (R39, R40, R51, R252, R425), and the direct line path of a line-mode group (R16, R17).
-/

namespace Sys2Proof.Machine

/-! ## The direct line path (R16, R17) -/

/-- Whether a group uses the direct line path as far as its configuration goes (R16). -/
def State.directPath (s : State) (g : Nat) : Bool :=
  s.groupLine g && s.layerOn g 0 && s.ingestFed g 0 && (List.range 4).all (fun l => l == 0 || !s.layerOn g l) &&
    (s.headsOf g).all (fun h => !s.flag (CP_HEAD_CTRL_split_en h))

/-- The key of a line of a source frame. -/
def lineKey (chroma : Bool) (y : Nat) : Nat := y + (if chroma then 65536 else 0)

/-- The lines of the source frame that picture line `y` of layer L0 of a group is made of (R58). -/
def State.lineNeeds (s : State) (g y : Nat) : List Nat :=
  let f := s.layerFormat g 0
  let n := chromaLines f (s.layerHeight g 0)
  let limited := fun c : Int => lineKey true (clampI c 0 ((n : Int) - 1)).toNat
  let j : Int := (y / 2 : Nat)
  lineKey false y ::
    (if isYc420 f then [limited j, limited (if y % 2 = 0 then j - 1 else j + 1)] else if isYc f then [lineKey true y] else [])

/-- The composed pixels of raster line `y` of a group with layer L0 from a source, in memory as `s` has it. -/
def State.rowFrom (s : State) (g y : Nat) (c : Source) : List (Nat × Nat × Nat) :=
  (List.range (s.hActive g)).map (fun x => (s.composeFrom g x y 1#4 (s.background g) 0 (some c)).2)

/-- A row of composed pixels passes the pipelines of a group's heads. -/
def State.pipeRow (s : State) (g y : Nat) (row : List (Nat × Nat × Nat)) : State :=
  s.doAll (row.zipIdx) (fun t e => t.doAll (t.headsOf g) (fun u h => u.pipePixel h e.2 y e.1))

/-- The raster line of a line of layer L0. -/
def State.rasterLine (s : State) (g y : Nat) : Option Nat :=
  let r : Int := (y : Int) + s.sfld (HD_LAYER_POS_y g 0)
  if 0 ≤ r ∧ r < s.vActive g then some r.toNat else none

/-- The memory that the pipeline reads of the lines held for the direct line path: a buffer at address 0 with these lines alone. -/
def State.heldLines (s : State) (g : Nat) (l : Tab (List Byte)) : State :=
  let stride := s.ringStride g 0
  l.foldl (fun t e =>
    let a := if e.1 < 65536 then lumaLine 0 stride e.1 else chromaLine 0 stride (s.layerHeight g 0) (e.1 - 65536)
    t.setBytes a e.2) { s with mem := [], poisoned := [] }

/-- A line that has arrived for a group on the direct line path enters the pipeline: the picture lines that are made of it and have all
their lines now (R16). -/
def State.directLine (s : State) (g k : Nat) (chroma : Bool) (y : Nat) : State :=
  let held := (s.stream k).held
  let around := if chroma then (if isYc420 (s.layerFormat g 0) then [2 * y - 1, 2 * y, 2 * y + 1, 2 * y + 2] else [y]) else [y]
  let ready := around.dedup.filter (fun p =>
    decide (p < s.layerHeight g 0) && (s.lineNeeds g p).contains (lineKey chroma y) && (s.lineNeeds g p).all (fun n => !(tabGet (fun _ => []) held n).isEmpty))
  s.doAll ready (fun t p =>
    match t.rasterLine g p with
    | some r => t.pipeRow g r ((t.heldLines g held).rowFrom g r { base := 0, stride := t.ringStride g 0, other := none, stream := none })
    | none => t)

/-- A line that has passed its checks enters the pipelines of the groups on the direct line path that its stream feeds. -/
def State.directIn (s : State) (k : Nat) (ls : List Nat) (chroma : Bool) (y : Nat) (payload : List Byte) : State :=
  let gs := (ls.filter (fun q => q % 4 == 0 && s.directPath (q / 4))).map (· / 4)
  if gs.isEmpty then s
  else
    let t := s.modStream k (fun x => { x with held := tabSet (fun _ => []) x.held (lineKey chroma y) payload })
    t.doAll gs (fun u g => u.directLine g k chroma y)

/-- Whether the source line of a scan line is not complete although its frame has begun (R17). -/
def State.lineLate (s : State) (g line : Nat) : Bool :=
  let ly := (line : Int) - s.sfld (HD_LAYER_POS_y g 0)
  let k := s.layerStream g 0
  let src : Source := { base := 0, stride := 0, other := none, stream := some k }
  s.directPath g && decide (0 ≤ ly) && decide (ly < s.layerHeight g 0) &&
    ((s.stream k).dropping || (s.ring (4 * g)).any (fun f => f.reading && !f.closed)) &&
    (s.lineNeeds g ly.toNat).any (fun n => s.lineState src (decide (65536 ≤ n)) (n % 65536) == .unresolved)

/-- A scan line whose source line is late is drawn from the same line of the previous frame in the Granary, and counted (R17). -/
def State.lateLine (s : State) (h line : Nat) : State :=
  let g := s.groupOf h
  let t := s.count (LM_CNT18_late_lines h) 1
  match (s.ring (4 * g)).find? (fun f => f.closed && !f.gone) with
  | some f => t.pipeRow g line (t.rowFrom g line (t.ringSource g 0 f))
  | none => t

/-! ## VIDEO_LINE (R51, R425, R252) -/

/-- The streams of a port that is enabled start anew: there is no previous frame, and no frame is open (R51). -/
def State.streamsReset (s : State) (p : Nat) : State :=
  s.doAll (List.range 4) (fun t st =>
    (t.doAll (t.boundLayers p st) (fun u q => u.modRing q (fun r => r.filter (·.closed)))).setStream (p * 4 + st) Stream.reset)

/-- A VIDEO_LINE of a stream that feeds layers `ls`: the frame it is of opens and closes as R51 says. -/
def State.videoLine (s : State) (p : Nat) (hd : BitVec 128) (payload : List Byte) (good room : Bool) : State :=
  let n := hd.toNat
  let st := bits n 48 2
  let chroma := bitOf n 50
  let last := bitOf n 51
  let y := bits n 56 16
  let frame := bits n 72 16
  let ls := s.boundLayers p st
  let k := p * 4 + st
  if ls.isEmpty then s
  else if (s.stream k).closed.contains frame then s.count (HD_INGEST_ERRS3_order_errors p) 1
  else
    let s := if (s.stream k).frame = some frame then s else (s.closeFrame p st).openFrame p st frame
    let x := s.stream k
    let marks := if chroma then x.chroma else x.luma
    let count := if chroma then s.chromaCount ls else s.lumaCount ls
    let sum := BitVec.ofNat 32 (crc32 (natLe 16 n ++ payload))
    let order := decide (y < received marks) || decide (count ≤ y)
    let s :=
      if order then s.doIf (!x.dropping) (·.count (HD_INGEST_ERRS3_order_errors p) 1)
      else
        let s := s.doIf good (·.directIn k ls chroma y payload)
        if x.dropping then s.markLine k chroma y good
        else if !room then
          let s := (s.doAll ls (fun u q => (u.modRing q (dropFrame frame)).stillBreak (q / 4))).markLine k chroma y good
          ((s.modStream k (fun x => { x with dropping := true })).count (GR_REQ2_drops (28 + p)) 1).raise GR_INGEST_DROP p
        else s.takeLine p st chroma y good sum payload
    if last then s.closeFrame p st else s

/-- VIDEO_LINE, R39, R40, R51, R425, R252: a packet that has arrived whole. `room` = it can enter the holding buffer. A good packet of
another type is of no use to an ingest port and is discarded. -/
def execVideoLine (p : Fin 2) (header : BitVec 128) (payload : List Byte) (trailer : BitVec 128) (room : Bool) (s : State) : Result :=
  if s.fld (portState p) ≠ ACTIVE then .next s
  else
    let t := s.headerBlock p header
    if header = 0 ∨ !(s.port p).accepts header ∨ bits header.toNat 0 8 ≠ 0x11 then .next t
    else .next (t.videoLine p header payload (packetWhole header payload trailer) room)

end Sys2Proof.Machine
end

