-- ==== Sys2Proof/Machine/Line.lean ====
section
/-!
DEFINITION. Line mode (R142 to R156): the line timebase, sweeps, the resampling table, line codes and the laser enables.
Times are in fine steps with 8 fractional bits; a tick is 8192.
-/

namespace Sys2Proof.Machine

/-- A line-mode head that is enabled and in a group. -/
def State.scans (s : State) (h : Nat) : Bool := s.lineMode h && s.headOn h && decide (s.groupOf h < 4)

/-! ## Laser enables (R153 to R155) -/

/-- The outputs of a head. The four copies of LM_LEN_MAP are one map (log 30). -/
def State.lensOf (s : State) (h : Nat) : List Nat :=
  (List.range 8).filter (fun n => s.fld ⟨LM_LEN_MAP 0, 4 * n, 3⟩ == h)

/-- The conditions of R153 that fail now, bits as LM_STATUS.conditions; of a loop the gates see what its last output instant brought
(R220). -/
def State.lenConditions (s : State) (h : Nat) : Nat :=
  let fast := s.fastLoop h
  let slow := s.slowLoop h
  (!s.ilkHigh).toNat + (decide ((s.loop fast).gateAmp < s.fld (LM_AMP_MIN_amp_min h))).toNat * 2 +
    (s.loop slow).gateTrip.toNat * 4 +
    ((s.loop fast).gateFault || (s.loop slow).gateFault).toNat * 8 + (!s.scans h).toNat * 16 +
    (s.flag (LM_LEN_CTRL_force_off h)).toNat * 32

/-- The level of a laser enable. -/
def State.setLen (s : State) (n : Nat) (b : Bool) : State :=
  let bit : BitVec 8 := 1#8 <<< n
  { s with len := if b then s.len ||| bit else s.len &&& ~~~bit }

/-- A head is disarmed, its enables low. -/
def State.disarm (s : State) (h : Nat) : State :=
  (s.doAll (s.lensOf h) (fun t n => t.setLen n false)).setFld (LM_STATUS_armed h) 0

/-- The gates of a head judged (R153): a failing condition drops the enables of an armed head. -/
def State.gate (s : State) (h : Nat) : State :=
  let c := s.lenConditions h
  let t := s.setFld (LM_STATUS_conditions h) c
  if s.flag (LM_STATUS_armed h) ∧ c ≠ 0 then
    let t := (((t.disarm h).setFld (LM_STATUS_trip_cause h) c).count (LM_CNT19_len_drops h) 1)
    t.raise2 LEN_DROP h c
  else t

/-- The gates of every head. -/
def State.gates (s : State) : State := s.doAll s.heads' (fun t h => t.gate h)

/-- arm = 1 (R155). -/
def State.arm (s : State) (h : Nat) : State :=
  let t := s.gate h
  let c := t.lenConditions h
  if c = 0 then (t.doAll (t.lensOf h) (fun u n => u.setLen n true)).setFld (LM_STATUS_armed h) 1
  else t.raise2 LEN_ARM_REFUSED h c

/-- ILK_N as the gates see it. -/
def State.setIlk (s : State) (high : Bool) : State := ({ s with ilkHigh := high }).gates

/-- ILK_N_FALL, R153, R154: ILK_N falls, and stays low for `lowNs` ns or from then on. A low of at least 80 ns drops the enables of
every armed head; whether the filter passes a shorter one is left open, and is a free value (log 152). ILK_N is high again after it. -/
def execIlkNFall (lowNs : Option Nat) (s : State) : Result :=
  let (v, t) := s.draw
  let trips := lowNs.all (fun n => decide (80 ≤ n)) || v % 2 == 1
  let u := if lowNs.all (fun n => decide (80 ≤ n)) then s else t
  .next ((u.doIf trips (·.setIlk false)).setIlk lowNs.isSome)

/-! ## The timebase (R144, R145) -/

/-- The interval of R144 between the limits of f_max and f_min: 0 good, 1 too short, 2 too long. -/
def State.interval (s : State) (h : Nat) (d : Int) : Nat :=
  if 2 * (s.fld (LM_FREQ_f_max h) : Int) * d < 6553600000000 then 1
  else if 6553600000000 < 2 * (s.fld (LM_FREQ_f_min h) : Int) * d then 2 else 0

/-- H in LM_HALF, with 3 fractional bits. -/
def State.halfWord (s : State) (h : Nat) : State :=
  s.setFld (LM_HALF_half_period h) (min (2 ^ 24 - 1) ((s.line h).half / 32).toNat)

/-- The last e in LM_STATUS, saturating. -/
def State.errWord (s : State) (h : Nat) (e : Int) : State :=
  s.setInt (LM_STATUS_phase_err h) (clampI (roundDivI e 256) (-2048) 2047)

/-- The timebase loses lock and acquires again (R145). -/
def State.unlock (s : State) (h : Nat) : State :=
  let t := s.modLine h (fun x => { x with crossings := 0, inTol := 0, outTol := 0, misses := 0, drawing := false, queue := [], starts := [] })
  if s.flag (LM_STATUS_locked h) then
    ((t.setFld (LM_STATUS_locked h) 0).count (LM_CNT19_unlocks h) 1).raise LM_UNLOCK_EV h
  else t

/-- The lock state after an accepted crossing with error `e` (R145). -/
def State.judgeLock (s : State) (h : Nat) (e : Int) : State :=
  let tol := fun f : Field => s.fld f * 256
  let inT := if e.natAbs ≤ tol (LM_LOCK_lock_tol h) then (s.line h).inTol + 1 else 0
  let outT := if tol (LM_LOCK_unlock_tol h) < e.natAbs then (s.line h).outTol + 1 else 0
  let t := s.modLine h (fun x => { x with inTol := min inT 256, outTol := min outT 4, misses := 0 })
  if 4 ≤ outT ∧ s.flag (LM_STATUS_locked h) then t.unlock h
  else if 256 ≤ inT ∧ !s.flag (LM_STATUS_locked h) then (t.setFld (LM_STATUS_locked h) 1).raise LM_LOCK_EV h
  else t

/-- A crossing reported to the timebase of a head (R144). On acquisition, one that comes too long after the first starts
the acquisition again (log 31). -/
def State.crossing (s : State) (h : Nat) (z : Int) (rising : Bool) : State :=
  let x := s.line h
  if x.crossings = 0 then s.setLine h { x with crossings := 1, lastZ := z, lastRising := rising }
  else
    let k := s.interval h (z - x.lastZ)
    if k = 2 ∧ x.crossings = 1 then s.setLine h { x with lastZ := z, lastRising := rising }
    else if k ≠ 0 ∨ rising = x.lastRising then s
    else if x.crossings = 1 then
      (s.setLine h { x with crossings := 2, half := z - x.lastZ, zhat := z + (z - x.lastZ), lastZ := z,
                            lastRising := rising }).halfWord h
    else
      let e := z - x.zhat
      let half := x.half + e / 2 ^ s.fld (LM_LOCK_kf h)
      let t := s.setLine h { x with half := half, zhat := x.zhat + half + e / 2 ^ s.fld (LM_LOCK_kp h), lastZ := z,
                                    lastRising := rising }
      ((t.halfWord h).errWord h e).judgeLock h e

/-- CROSSING_MISS, R144, R145: the prediction advances by H with e = 0. A miss stands for a crossing at its predicted
instant and direction (log 31). -/
def execCrossingMiss (h : Fin 4) (s : State) : Result :=
  if !s.scans h then .next s
  else
    let x := s.line h
    if x.crossings < 2 then .next (s.setLine h { x with zhat := x.zhat + x.half })
    else
      let t := (s.setLine h { x with zhat := x.zhat + x.half, lastZ := x.zhat, lastRising := !x.lastRising, inTol := 0,
                                     outTol := 0, misses := x.misses + 1 }).errWord h 0
      if 4 ≤ x.misses + 1 ∧ s.flag (LM_STATUS_locked h) then .next (t.unlock h) else .next t

/-! ## The slow axis (R146) -/

/-- The active sweeps of a frame. -/
def State.activeSweeps (s : State) (h : Nat) : Nat :=
  s.vActive (s.groupOf h) / s.fld (LM_CTRL_beams h)

/-- The ramp that gives the set-point of a slow loop at a sample, rounded to nearest. -/
def State.ramp (s : State) (l tick : Nat) : Option Int :=
  s.heads'.findSome? (fun h =>
    if s.scans h && s.slowLoop h == l then
      match (s.line h).rampStart with
      | some t0 =>
        let span := (s.activeSweeps h : Int) * (s.line h).heldHalf
        let tau := (tick : Int) * 8192 - t0
        if tau < 0 ∨ span ≤ 0 then none
        else some (s.sfld (LM_SLOW_TOP_slow_top h) +
          ((s.sfld (LM_SLOW_BOT_slow_bot h) - s.sfld (LM_SLOW_TOP_slow_top h)) * tau * 2 + span) / (2 * span))
      | none => none
    else none)

/-! ## The resampling and code tables (R147 to R151) -/

def State.resampleEntry (s : State) (h bank i : Nat) : Nat := (tabGet (fun _ => 0#64) s.resample (resampleKey h bank i)).toNat

/-- x of a pixel, with 8 fractional bits. -/
def State.tableX (s : State) (h i : Nat) : Int :=
  signed 24 (bits (s.resampleEntry h (s.fld (LM_CTRL_table_bank h)) i) 32 24)
def State.tableT (s : State) (h i : Nat) : Int := (s.emission h (s.fld (LM_CTRL_table_bank h)) i : Nat)

/-- The source position of pixel `i` of a sweep late by `late` fine steps, in 1/256 column (R150). -/
def State.position (s : State) (h beam i : Nat) (reverse : Bool) (late : Rat) : Int :=
  let n := s.hActive (s.groupOf h)
  let a := i - 1
  let b := if i + 1 < n then i + 1 else i
  let dt := s.tableT h b - s.tableT h a
  let slope : Rat := if dt = 0 then 0 else ((s.tableX h b - s.tableX h a : Int) : Rat) / dt
  let p : Rat := (s.tableX h i : Rat) + late * slope
  ratRound ((if reverse then 256 * ((n : Rat) - 1) - p else p) + s.sfld (LM_BEAM_x_off h beam))

/-- A native component interpolated between two source columns (R150). -/
def State.sourceValue (s : State) (h c line : Nat) (xp : Int) : Nat :=
  let w : Int := s.hActive (s.groupOf h)
  let at' := fun x : Int => (tabGet (fun _ => 0) (s.headOf h).linear (pixKey c (clampI x 0 (w - 1)).toNat line) : Nat)
  let x0 := xp / 256
  let f := (xp % 256).toNat
  roundDiv (at' x0 * (256 - f) + at' (x0 + 1) * f) 256

def State.chanComp (s : State) (h c : Nat) : Nat := s.fld ⟨LM_CHAN_MAP h, 2 * c, 2⟩
def State.chanGain (s : State) (h c : Nat) : Nat :=
  s.fld (if c % 2 = 0 then LM_CHAN_GAIN_gain_even h (c / 2) else LM_CHAN_GAIN_gain_odd h (c / 2))

/-- An entry of a code table's bank in use. -/
def State.codeEntry (s : State) (h c i : Nat) : Int :=
  (getBits (s.word (winBase + s.fld (LM_CTRL_code_bank h) * winBank + LM_CODE h c i)) 0 14 : Nat)

/-- The code of channel `c` for a value (R151). -/
def State.lineCode (s : State) (h c v : Nat) : Nat :=
  let y := min (2 ^ 20) (roundDiv (v * s.chanGain h c) (2 ^ 14))
  let i := y / 4096
  let f : Int := (y % 4096 : Nat)
  let a := s.codeEntry h c i
  (clampI (a + roundDivI ((s.codeEntry h c (i + 1) - a) * f) 4096) 0 16383).toNat

/-- The codes of one beam's line: pixel by pixel, channel by channel. -/
def State.lineOf (s : State) (h beam line : Nat) (reverse : Bool) (late : Rat) : List Nat :=
  (List.range (s.hActive (s.groupOf h))).flatMap (fun i =>
    let xp := s.position h beam i reverse late
    (List.range (s.fld (LM_CTRL_channels h))).map (fun c =>
      s.lineCode h c (s.sourceValue h (s.chanComp h c) line xp)))

/-! ## Sweeps (R145, R146, R149, R152) -/

/-- Whether lines of a head may be drawn now (R36, R41, R76, R145, R148). -/
def State.draws (s : State) (h : Nat) : Bool :=
  let q := s.port (h + 2)
  s.scans h && (s.line h).drawing && !(s.line h).skipFrame && s.portUp (h + 2) && q.modeOk && q.timingOk &&
    !q.darkUntilFrame && (s.headOf h).darkFrames == 0

/-- The request instant q of the LINE_START of a sweep with crossing at `zhat` (R149). -/
def State.lineRequest (s : State) (h : Nat) (zhat : Int) (reverse : Bool) : Int :=
  zhat - 256 * (s.fld (LM_CENTRE_centre_fs h) : Int) - 256 * (s.tAct h : Int) - 41943 +
    (if reverse then 256 * s.sfld (LM_TRIM_rev_trim h) else 0)

/-- The codes of active sweep `a` prepared at the start of the sweep before it, with its LINE_START fixed at q and its boundary b, which
is late by `late` fine steps (R149, R152). -/
def State.prepare (s : State) (h a : Nat) (late : Rat) (zhat : Int) (reverse : Bool) : State :=
  let beams := s.fld (LM_CTRL_beams h)
  let g := s.groupOf h
  let q := s.lineRequest h zhat reverse
  let lines := (List.range beams).map (a * beams + ·)
  let t := s.doAll lines (fun u l => u.doIf (u.lineLate g l) (·.lateLine h l))
  let packets := lines.zipIdx.map (fun e => Out.lineCodes h e.2 e.1 reverse (t.lineOf h e.2 e.1 reverse late))
  t.modLine h (fun x => { x with queue := x.queue ++ packets, starts := x.starts ++ [(a * beams, reverse, q, q + ratRound (256 * late))] })

/-- SWEEP_START, R145, R146, R149, R152: the next sweep of the frame starts, and the codes of the sweep after it are computed. The
boundary of that sweep's column is the first one, `gap` 1/25 fine steps after its request instant, or the next where an AM column
stands there (R45, log 142). A sweep that starts before the slow axis has settled is not drawn. -/
def execSweepStart (h : Fin 4) (gap : Fin 4096) (am : Bool) (s : State) : Result :=
  if !s.scans h then .next s
  else
    let x := s.line h
    let fly := s.fld (LM_SCAN_flyback_sweeps h)
    let act := s.activeSweeps h
    let n := x.sweep
    let settled := s.flag (CE_PG6_settled (s.fld (LM_CTRL_slow_pg h)))
    let late : Rat := ((gap.val + (if am then 4096 else 0) : Nat) : Rat) / 25
    let t := s.setLine h { x with sweep := n + 1 }
    -- active sweep 0: the ramp starts on time, settled or not
    let t := t.doIf (n == fly) (fun u =>
      let u := u.modLine h (fun y => { y with rampStart := some (x.zhat - x.half / 2) })
      u.doIf (x.flybackWait && !settled) (fun v => (v.count (LM_CNT1A_flyback_late h) 1).raiseOnce LM_FLYBACK_LATE h h 0))
    let t := t.doIf (decide (fly ≤ n) && x.flybackWait && !settled) (·.modLine h (fun y =>
      { y with starts := y.starts.filter (fun e => e.1 != (n - fly) * s.fld (LM_CTRL_beams h)) }))
    let t := t.doIf (decide (fly ≤ n) && settled) (·.modLine h (fun y => { y with flybackWait := false }))
    let t := t.doIf (decide (fly ≤ n) && decide (n < fly + act) && !x.drawing)
      (·.count (LM_CNT18_dark_lines h) (s.fld (LM_CTRL_beams h)))
    -- the codes of the sweep that follows
    .next (t.doIf (decide (fly ≤ n + 1) && decide (n + 1 < fly + act) && t.draws h)
      (·.prepare h (n + 1 - fly) late (x.zhat + x.half) (!x.lastRising)))

/-- LINE_START_COLUMN, R149: the column of the earliest sweep that has been fixed; lane m carries the block of beam m mod beams. -/
def execLineStartColumn (h : Fin 4) (s : State) : Result :=
  match (s.line h).starts with
  | [] => .next s
  | e :: rest =>
    let t := s.modLine h (fun x => { x with starts := rest })
    let beams := s.fld (LM_CTRL_beams h)
    let block := fun m : Nat => lineStartBlock (m % beams) (e.1 + m % beams) e.2.1
    if s.draws h then .next ((t.emit (.lineStart h e.1 e.2.1)).sendColumn h ctrlHeader block) else .next t

/-- The frame boundary of a line-mode head (R142, R145, R146, R148). -/
def State.lineFrame (s : State) (h : Nat) : State :=
  let x := s.line h
  let t := s.setLine h { x with sweep := 0, heldHalf := x.half, rampStart := none, flybackWait := true
                                drawing := s.flag (LM_STATUS_locked h), skipFrame := x.timingSwap, timingSwap := false
                                queue := [], starts := [] }
  let t := (t.clearOnce LM_FLYBACK_LATE h).doIf x.timingSwap (·.sendTiming h)
  if s.scans h then t.genCommand (s.fld (LM_CTRL_slow_pg h)) (s.sfld (LM_SLOW_TOP_slow_top h)) else t

/-! ## LM.LOAD_TABLE (R147) -/

/-- The first entry of an image that breaks R147. -/
def tableFail (f : Nat → Nat) (n : Nat) : Option Nat :=
  (List.range n).find? (fun i => bits (f i) 24 8 != 0 || bits (f i) 56 8 != 0 ||
    (decide (0 < i) && decide (bits (f i) 0 24 ≤ bits (f (i - 1)) 0 24)))

/-- LM_LOAD_TABLE, R147: the image goes to the bank not in use. -/
def execLmLoadTable (m : Fin 8) (s : State) : Result :=
  .next (s.withCmd m 0x0204 (fun t c =>
    if t.nHeads ≤ c.arg 0 then t.outcome0 m E_RANGE
    else
      let h := c.arg 0
      let n := c.arg 3
      t.orElse m (if n = 0 then E_ZERO else if 8192 < n then E_RANGE else 0) (fun t => t.withImage m 35 c 1 4096 (8 * n) (fun t a =>
        let entry := fun i : Nat => leNat (t.bytes (a + 8 * i) 8)
        match tableFail entry n with
        | some i => t.setOutcome m E_BAD_ARG [0, BitVec.ofNat 32 i]
        | none =>
          if t.sheafOn (LM_CTRL_table_bank h) ∨ (t.line h).timingSwap ∨ (t.line h).skipFrame then t.outcome0 m E_STATE
          else
            let bank := 1 - t.fld (LM_CTRL_table_bank h)
            let table := tabPut (fun _ => 0) t.resample (resampleKey h bank 0)
              ((List.range 8192).map (fun i => if i < n then BitVec.ofNat 64 (entry i) else 0))
            let lens := tabSet (fun _ => 0) t.resampleLen (h * 2 + bank) n
            ({ t with resample := table, resampleLen := lens }).setOutcome m S_OK [BitVec.ofNat 32 n]))))

/-- The entry count of a bank; 0 before the first load. -/
def State.tableCount (s : State) (h bank : Nat) : Nat := tabGet (fun _ => 0) s.resampleLen (h * 2 + bank)

end Sys2Proof.Machine
end

