-- ==== Sys2Proof/Machine/Seq.lean ====
section
/-!
DEFINITION. The plane sequencer (R117 to R141): decision instants, slots, light edges, RESET columns and the link schedule.
Times of edges are in fine steps, 32 to a tick.
-/

namespace Sys2Proof.Machine

/-- Whether a head shows light (R36, R41, R76, R113, R140). -/
def State.showing (s : State) (h : Nat) : Bool :=
  let q := s.port (h + 2)
  s.portUp (h + 2) && q.modeOk && !q.darkUntilFrame && (s.headOf h).darkFrames == 0

/-! ## The read-only words of a sequencer (R141) -/

/-- The words of a running configuration; `old` is the list played before, whose last frame overlaps the first of the new one
where a commit swaps them (R130). -/
def State.seqWords (s : State) (h : Nat) (old : List Slot) : State :=
  let l := s.slots h (s.fld (SQ_CTRL_seq_bank h))
  let on := s.threshes h
  let t := s.setFld (SQ_STATUS10_list_len h) (if on then l.length + 1 else 0)
  let t := t.setFld (SQ_STATUS10_lead h) (if on then min 65535 (s.leadTicks h) else 0)
  let t := t.setFld (SQ_STATUS11_offset_used h) (if on then s.offsetTicks h else 0)
  let t := t.setFld (SQ_STATUS12_loads h) (if on then nLoads l else 0)
  t.setFld (SQ_STATUS12_min_margin h) (if on then min 65535 ((min (s.scheduleSlack h l l) (s.scheduleSlack h old l)).toNat / 160000) else 0)

/-! ## Loads (R44, R129) -/

/-- The next loading slot of a list from index `k`, whose slot starts at tick `start`: the slot and its start. -/
def nextLoading : List Slot → Nat → Option (Slot × Nat)
  | [], _ => none
  | k :: t, start => if k.loads then some (k, start) else nextLoading t (start + k.duration)

/-- A load of a band released for the next loading slot among `l`, the first of which starts at tick `start`. A band with no
copy in the present layout loads the all-off plane (R112). -/
def State.releaseLoad (s : State) (h b : Nat) (l : List Slot) (start : Nat) (first : Bool) : State :=
  match nextLoading l start with
  | none => s
  | some (k, at0) =>
    let x := s.bandOf (h * 32 + b)
    let v := s.copyView h b x.current
    let tag := (x.tag + 1) % 256
    let dead := at0 * tuTick - s.tAct h * tuFine - tuColumn - s.fld (SQ_SETTLE_guard_ticks h) * tuTick
    let load : Load :=
      { tag := tag, copy := x.current, plane := if x.dark ∨ k.op = opDark then 64 else k.plane, nextRow := v.bandFirst h b
        lastRow := v.bandEnd h b - 1, resend := [], resends := 0, first := first, deadline := dead, acked := false }
    if s.portUp (h + 2) then s.setBandOf (h * 32 + b) { x with tag := tag, load := some load }
    else s.setBandOf (h * 32 + b) { x with tag := tag }

/-! ## The decision instant (R109, R127, R138, R139) -/

/-- The bank that governs the replay of frame `n` (R137). -/
def State.replayBank (s : State) (h n : Nat) : Nat :=
  let b := s.fld (SQ_CTRL_seq_bank h)
  if n < (s.headOf h).swapAt then 1 - b else b

/-- Light of held windows is lost up to instant `upTo`, in fine steps (R135): the lit ticks of each window count once, and each
SHIFT slot that delayed light counts once. -/
def State.lostWindows (s : State) (h : Nat) (l : List HeldWindow) (upTo : Nat) : State :=
  let late := l.filter (fun w => decide (w.on < upTo))
  if late.isEmpty then s
  else
    let lost := ((late.map (fun w => (w.on, min w.off upTo))).dedup).map (fun w => w.2 - w.1)
    let t := s.count (SQ_CNT15_lost_ticks h) (lost.sum / 32)
    (t.count (SQ_CNT13_shift_late h) ((late.map (·.shift)).dedup).length).raiseOnce SHIFT_LATE h h 0

/-- The wait for a pixel shift ends with its frame: windows still held are not lit. -/
def State.shiftEnd (s : State) (h : Nat) : State :=
  let l := (s.headOf h).heldWindows
  (s.lostWindows h l ((l.map (·.off)).foldl max 0)).modHeadOf h (fun x => { x with heldWindows := [], shiftWaiting := false })

/-- DECISION_INSTANT, R109, R127, R137 to R139: the copy is chosen, the replay's bank is fixed, and the first load of the
frame is released. -/
def execDecisionInstant (h : Fin 4) (band : Fin 32) (s : State) : Result :=
  let key := h.val * 32 + band
  if !s.threshes h ∨ s.nBands h ≤ band then .next s
  else
    let x := s.bandOf key
    let hd := s.headOf h
    let n := match x.frameNo with
      | none => hd.frame
      | some m => max (hd.frame - 1) (min (m + 1) hd.frame)
    let bank := s.replayBank h n
    let l := s.slots h bank
    let start := s.tick + s.leadTicks h
    let lv := match s.matrixOf h with
      | some z => if n = hd.frame then (s.matrix z).tag else (s.matrix z).lastTag
      | none => 0
    let y := { x with
      frameNo := some n, playBank := bank = 1, thinX := min (thinCount l) (thinNeed l (if n = hd.frame then hd.beta else hd.betaPrev)), slot := 0
      start := start, levelTag := lv, steps := 0, preStep := false
      cur := if x.ready then !x.cur else x.cur, otherOk := if x.ready then x.curOk else x.otherOk
      curOk := x.curOk || x.ready, ready := false, dark := if x.ready then false else !x.readyOnce }
    let t := s.setBandOf key y
    let t := t.doIf (!x.ready) (fun u => (u.count (SQ_CNT13_late_bands h) 1).raiseOnce BAND_LATE h h band)
    let t := t.doIf (!x.ready && !x.readyOnce && !x.dark) (·.count (TS_CNTC_dark_bands h) 1)
    let t := t.doIf (x.ready && (List.range (s.nBands h)).all (fun b => !(t.bandOf (h * 32 + b)).oldCopy (t.bandOf (h * 32 + b)).current))
      (·.modHeadOf h (fun z => { z with oldRegions := [], oldWords := [] }))
    let t := t.doIf (band == 0) (fun u => (u.shiftEnd h).setFld (SQ_STATUS10_bank_playing h) bank)
    .next (t.releaseLoad h band (t.playSlots h band) start true)

/-! ## Light (R122 to R124, R133 to R135) -/

/-- The strings of a flood-lit head that a slot lights: LIGHT and MEASURE slots (R118, R134). -/
def State.litStrings (s : State) (h : Nat) (k : Slot) : List Nat :=
  if k.op = opMeasure ∧ k.w = 0 then
    match s.namedItem (s.groupOf h) with
    | some (b, w) =>
      if s.fld (LS_BANK0_head b) = h ∧ s.fld (LS_BANK0_prim b) = k.prim then
        (if w = 0 then s.whiteStrings b else s.entryStrings b w)
      else []
    | none => []
  else s.slotStrings h k

/-- The trims of a bank on a head. -/
def State.onTrim (s : State) (h b : Nat) : Int := s.sfld (SQ_TRIM_on_trim h b)
def State.offTrim (s : State) (h b : Nat) : Int := s.sfld (SQ_TRIM_off_trim h b)

/-- An edge placed. -/
def State.place (s : State) (out : Nat) (at0 : Int) (level : Bool) : State :=
  { s with edges := s.edges ++ [{ out := out, fine := at0.toNat, level := level }] }

/-- A lit window of an output: its edges are placed, or, while a pixel shift is awaited, it is held (R135). A zone window ages its
zones by its light (R195). -/
def State.lightWindow (s : State) (h : Nat) (w : HeldWindow) (onEdge : Bool) : State :=
  if (s.headOf h).shiftWaiting then
    s.modHeadOf h (fun x => { x with heldWindows := x.heldWindows ++ [{ w with shift := x.shiftNo }] })
  else
    let t := (s.doIf onEdge (·.place w.out (w.on + w.onTrim) true)).doIf w.offEdge (·.place w.out (w.off + w.offTrim) false)
    match w.zones with
    | some (z, b, r) => t.ageRow z b r (w.off - w.on)
    | none => t

/-- The lit window of slot `k` of a flood-lit head, between the slots before and after it: a string lit in windows that abut is
not switched between them (R124). -/
def State.floodWindow (s : State) (h : Nat) (before : Option Slot) (k : Slot) (after : Option Slot) (on off : Nat) : State :=
  let prev := match before with
    | some p => if k.abuts then s.litStrings h p else []
    | none => []
  let next := match after with
    | some p => if p.abuts then s.litStrings h p else []
    | none => []
  s.doAll (s.litStrings h k) (fun t n =>
    let b := t.strBank n
    t.lightWindow h { out := t.strOut n, onTrim := t.onTrim h b, offTrim := t.offTrim h b, on := on, off := off
                      offEdge := !next.contains n, shift := 0, zones := none } (!prev.contains n))

/-- Windows of one output that abut are one (R124). -/
def joinWindows (l : List HeldWindow) : List HeldWindow :=
  l.foldl (fun (acc : List HeldWindow) w =>
    if acc.any (fun v => v.out == w.out && v.off == w.on) then
      acc.map (fun v => if v.out = w.out ∧ v.off = w.on then { v with off := w.off, offEdge := w.offEdge } else v)
    else acc ++ [w]) []

/-- The generator of a shift has settled: held windows that are not over are lit from now on (R135). -/
def State.shiftSettled (s : State) (h : Nat) : State :=
  let x := s.headOf h
  if !x.shiftWaiting then s
  else
    let now := 32 * s.tick
    let rest := (x.heldWindows.filter (fun w => decide (now < w.off) || (!w.offEdge && w.off == now))).map (fun w =>
      { w with on := max now w.on })
    let t := (s.lostWindows h x.heldWindows now).modHeadOf h (fun y => { y with heldWindows := [], shiftWaiting := false })
    t.doAll (joinWindows rest) (fun u w => u.lightWindow h w true)

/-- The lit window of slot `k` of a zone-lit head in band `b`: its row groups in turn, and in self-scan the gate (R198,
R201). The white item of a MEASURE slot has frac 1. With one row group, windows that abut are not switched between (R124). -/
def State.zoneWindow (s : State) (h z b : Nat) (before : Option Slot) (k : Slot) (after : Option Slot) (on len : Nat) : State :=
  let bank := s.fld (ZN_MAT0_supply_bank z)
  let lit := fun (p : Option Slot) => p.any (fun k => (k.op == opLight || k.op == opMeasure) &&
    (s.itemEntry h k).any (fun w => s.slotFrac z k w != 0))
  let window := fun (u : State) (out a e : Nat) (offEdge onEdge : Bool) (zones : Option (Nat × Nat × Nat)) =>
    u.lightWindow h { out := out, onTrim := u.onTrim h bank, offTrim := u.offTrim h bank, on := a, off := e, offEdge := offEdge
                      shift := 0, zones := zones } onEdge
  match s.itemEntry h k with
  | none => s
  | some w =>
    if s.slotFrac z k w = 0 then s
    else if s.selfScan z then
      if k.op = opMeasure then s
      else
        let gate := s.gateTicks z k w len
        let t := s.doAll (s.bandPorts z b) (fun u p => u.lightWindow h { out := 128 + p, onTrim := 0, offTrim := 0, on := on
                                                                         off := on + 32 * gate, offEdge := true, shift := 0
                                                                         zones := none } true)
        t.doAll (s.scanWindows z on gate) (fun u e => window u (u.selectOut z b e.1) e.2.1 e.2.2 true true (some (z, b, e.1)))
    else
      let one := s.mux z == 1
      let joined := one && k.abuts && lit before
      let joins := one && after.any (·.abuts) && lit after
      s.doAll (s.rowWindows z k on len) (fun u e =>
        window u (u.selectOut z b e.1) e.2.1 e.2.2 (!joins) (!joined) (some (z, b, e.1)))

/-- The pulses of a PROBE slot (R133, R184). -/
def State.probePulses (s : State) (h : Nat) (k : Slot) (start : Nat) : State :=
  let n := (k.duration - 160) / 640
  let due := s.dueStrings h k.prim
  let t := s.doAll ((due.take n).zipIdx) (fun u e =>
    let b := u.strBank e.1
    let on := start + 32 * (160 + 640 * e.2)
    ((u.place (u.strOut e.1) (on + u.onTrim h b) true).place (u.strOut e.1) (on + 32 * 480 + u.offTrim h b) false).modStr e.1
      (fun x => { x with due := false }))
  t.doAll (due.drop n) (fun u m => u.count (LS_BANK14_probes_late (u.strBank m)) 1)

/-- The light of slot `k` of band `b`, which starts at fine step `start` with the band's offset. A flood-lit head's one
domain follows band 0 (R125). -/
def State.slotLight (s : State) (h b : Nat) (before : Option Slot) (k : Slot) (after : Option Slot) (start : Nat) : State :=
  let on := if k.op = opLight ∧ !k.hold then start + 32 * s.fld (SQ_SETTLE_settle_ticks h) else start
  let off := start + 32 * k.duration
  match s.matrixOf h with
  | some z => if k.op = opLight ∨ k.op = opMeasure then s.zoneWindow h z b before k after on (off - on) else s
  | none =>
    if b ≠ 0 then s
    else if k.op = opLight ∨ k.op = opMeasure then s.floodWindow h before k after on off
    else if k.op = opProbe then s.probePulses h k start
    else s

/-- The slot that a band's replay starts next. -/
def State.nextSlot (s : State) (h b : Nat) : Option Slot :=
  let x := s.bandOf (h * 32 + b)
  if s.threshes h ∧ b < s.nBands h ∧ x.frameNo.isSome then (s.playSlots h b)[x.slot]? else none

/-- SLOT_START, R121 to R124, R129, R131 to R135, R139: the next slot of a band's replay starts. -/
def execSlotStart (h : Fin 4) (band : Fin 32) (s : State) : Result :=
  let key := h.val * 32 + band
  let x := s.bandOf key
  let l := s.playSlots h band
  match s.nextSlot h band with
  | none => .next s
  | some k =>
    let t := s.setBandOf key { x with
      slot := x.slot + 1, start := x.start + k.duration, steps := if x.preStep then 1 else 0, preStep := false }
    let t := t.doIf k.dropped (·.count (SQ_CNT14_thinned h) 1)
    let t := t.doIf k.loads (·.releaseLoad h band (l.drop (x.slot + 1)) (x.start + k.duration) false)
    let before := if x.slot = 0 then none else l[x.slot - 1]?
    let t := t.slotLight h band before k l[x.slot + 1]? (32 * x.start + x.offsetFine)
    .next (t.doIf (k.op == opShift && band == 0) (fun u =>
      (u.genCommand (u.fld (SQ_CTRL_shift_pg h)) (u.sfld (SQ_SHIFT_POS_target h (k.plane % 4)))).modHeadOf h
        (fun y => { y with shiftWaiting := true, shiftNo := y.shiftNo + 1 })))

/-! ## Edges (R18, R124, R161) -/

/-- The earliest edge of an output. -/
def earliest (out : Nat) : List Edge → Option Edge
  | [] => none
  | e :: t =>
    match earliest out t with
    | none => if e.out = out then some e else none
    | some f => if e.out = out ∧ e.fine ≤ f.fine then some e else some f

/-- The edges without one. -/
def dropEdge (e : Edge) : List Edge → List Edge
  | [] => []
  | f :: t => if f = e then t else f :: dropEdge e t

/-- The head whose light an output switches. -/
def State.outHead (s : State) (o : Nat) : Option Nat :=
  s.heads'.find? (fun h => (s.headOuts h).contains o ||
    (decide (128 ≤ o) && (s.matrixOf h).any (fun z => s.selfScan z &&
      (List.range (s.nBands h)).any (fun b => (s.bandPorts z b).contains (o - 128)))))

/-- EDGE_INSTANT, R18, R122 to R124, R161: the output takes the level of its earliest edge; it goes high only while it may
be lit and its head shows light. -/
def execEdgeInstant (out : Fin 136) (s : State) : Result :=
  match earliest out s.edges with
  | none => .next s
  | some e =>
    let t := { s with edges := dropEdge e s.edges }
    let shown := (t.outHead out).any t.showing
    if out.val < 128 then .next (t.setTout out (e.level && shown && t.outUsable out))
    else
      let bit : BitVec 8 := 1#8 <<< (out.val - 128)
      .next { t with sync := if e.level && shown then t.sync ||| bit else t.sync &&& ~~~bit }

/-! ## RESET columns (R45, R47, R121, R128) -/

/-- A band is reset: its action is late by `late` fine steps. A load that is not whole leaves the band stale, and its unsent
rows are still sent (R47, R129). -/
def State.resetBand (s : State) (h b late : Nat) (dump : Bool) : State :=
  let key := h * 32 + b
  let x := s.bandOf key
  match x.load with
  | none => s.setBandOf key { x with offsetFine := late, dumped := dump }
  | some l =>
    let t := s.setBandOf key { x with
      offsetFine := late, dumped := dump, lastTag := l.tag, staleDone := false, load := none
      shown := if l.acked then some l.plane else x.shown
      tails := if l.nextRow ≤ l.lastRow then x.tails ++ [{ l with resend := [] }] else x.tails }
    if l.acked then t else t.stale h b

/-- The request instant of a band's next RESET column, in 1/25 fine step, plus the time by which every column of the head leads its
slot. -/
def Band.resetAt (x : Band) : Nat := x.start * 800

/-- The boundaries that columns requested earlier will take ahead of a column of band `b` that would stand at boundary `b0`: those of
bands whose reset is still to come, the earlier instant first and for equal instants the lower band (R45). -/
def State.boundariesAhead (s : State) (h b b0 : Nat) : Nat :=
  let x := s.bandOf (h * 32 + b)
  ((List.range (s.nBands h)).filter (fun c =>
    let y := s.bandOf (h * 32 + c)
    (decide (y.resetAt < x.resetAt) || y.resetAt == x.resetAt && decide (c < b)) && decide (b0 < y.resetAt + 4096) &&
      y.load.isSome && (s.nextSlot h c).any Slot.loads)).length

/-- The boundary that a column takes from boundary `b0` on: the first that no other timed column has and that is not an AM column's
(R45). -/
def Port.freeBoundary (q : Port) (b0 : Nat) : Nat :=
  let free := fun k : Nat => !q.timedAt.contains (b0 + 4096 * k) && (k != 0 || decide (q.col < 16383))
  b0 + 4096 * ((List.range 64).find? free).getD 0

/-- RESET_COLUMN, R45, R47, R121, R128: the column of a band's next slot stands at the first free boundary, the first of all being
`gap` 1/25 fine steps after the instant requested (log 142). -/
def execResetColumn (h : Fin 4) (band : Fin 32) (gap : Fin 4096) (s : State) : Result :=
  let x := s.bandOf (h.val * 32 + band)
  match s.nextSlot h band with
  | none => .next s
  | some k =>
    if !k.loads then .next s
    else
      let glob := s.globalPhase h
      let tag := match x.load with
        | some l => l.tag
        | none => x.tag
      let q := s.port (h + 2)
      let b0 := x.resetAt + gap
      let at0 := q.freeBoundary (b0 + (if glob then 0 else 4096 * s.boundariesAhead h band b0))
      let late := roundDiv (at0 - x.resetAt) 25
      let t := s.doIf (s.portUp (h + 2)) (fun u =>
        ((u.emit (.resetColumn h band tag glob)).sendColumn h ctrlHeader (fun _ => resetBlock band tag glob)).modPort (h + 2)
          (fun p => { p with timedAt := q.timedAt.filter (fun a => decide (x.resetAt ≤ a)) ++ [at0] }))
      .next (t.doAll (if glob then List.range (s.nBands h) else [band.val]) (fun u b => u.resetBand h b late k.dump))

/-! ## The link schedule (R25, R39, R46, R111, R129) -/

/-- Precedence of R129. -/
def before3 (a b : Nat × Nat × Nat) : Bool :=
  if a.1 ≠ b.1 then decide (a.1 < b.1) else if a.2.1 ≠ b.2.1 then decide (a.2.1 < b.2.1) else decide (a.2.2 ≤ b.2.2)

def best3 : List (Nat × Nat × Nat) → Option (Nat × Nat × Nat)
  | [] => none
  | a :: t =>
    match best3 t with
    | none => some a
    | some b => if before3 a b then some a else some b

/-- What a load has to send: class (0 resend, 1 first load, 2 other) and deadline. -/
def Load.offer (l : Load) : Option (Nat × Nat) :=
  if !l.resend.isEmpty then some (0, l.deadline)
  else if l.nextRow ≤ l.lastRow then some (if l.first then 1 else 2, l.deadline)
  else none

/-- The loads of a band that may still have rows to send, oldest first. -/
def Band.loads (x : Band) : List Load := x.tails ++ x.load.toList

/-- The best offer of a band: class, deadline, band (R25, R129). -/
def State.candidate (s : State) (h b : Nat) : Option (Nat × Nat × Nat) :=
  best3 ((s.bandOf (h * 32 + b)).loads.filterMap (fun l => l.offer.map (fun o => (o.1, o.2, b))))

/-- Whether a fetch of row `y` of a load returns E_POISON (R111, R262). -/
def State.rowPoisoned (s : State) (h b : Nat) (l : Load) (y : Nat) : Bool :=
  let v := s.copyView h b l.copy
  decide (l.plane < 64) && !v.lofted h l.plane &&
    v.rangePoisoned (v.rowAddr h b l.copy l.plane (y - v.bandFirst h b)) (v.rowBytes h)

/-- The payload of row `y` of a load: one in poisoned data comes from the other copy while that still holds the frame before, else
it is zeros, as in a band shown dark (R111, R112). -/
def State.rowPayload (s : State) (h b : Nat) (l : Load) (y : Nat) : List Byte :=
  let x := s.bandOf (h * 32 + b)
  let row := fun copy : Nat =>
    let v := s.copyView h b copy
    v.planeRow h b copy l.plane (y - v.bandFirst h b)
  let other := { l with copy := 1 - l.copy }
  if 64 ≤ l.plane ∨ x.dark then List.replicate (s.rowBytes h) 0
  else if !s.rowPoisoned h b l y then row l.copy
  else if l.copy = x.current ∧ x.otherOk ∧ !s.rowPoisoned h b other y then row other.copy
  else List.replicate (s.rowBytes h) 0

/-- A row fetched with E_POISON is counted; before the band has been ready once in the present layout it goes dark instead of
falling back (R111, R112). -/
def State.poisonRow (s : State) (h b : Nat) : State :=
  let x := s.bandOf (h * 32 + b)
  let t := (s.count (TS_CNTD_poison_rows h) 1).raiseOnce PLANE_POISON (h * 32 + b) h b
  t.doIf (!x.readyOnce && !x.dark) (fun u => (u.count (TS_CNTC_dark_bands h) 1).modBandOf (h * 32 + b) (fun y => { y with dark := true }))

/-- The type fields of a PLANE_BAND packet from header bit 48 on (R39). -/
def State.planeFields (s : State) (h b : Nat) (l : Load) (y : Nat) (resend : Bool) : Nat :=
  l.plane % 64 + b * 2 ^ 6 + y % 2 ^ 13 * 2 ^ 11 + l.tag * 2 ^ 24 + (decide (y = s.bandFirst h b)).toNat * 2 ^ 32 +
    (decide (y + 1 = s.bandEnd h b)).toNat * 2 ^ 33 + resend.toNat * 2 ^ 34 + s.fld (HD_RASTER1_h_active (s.groupOf h)) % 2 ^ 14 * 2 ^ 35

/-- One row of a load sent; an all-off plane goes as plane 0 with zeros (R118). -/
def State.sendPlaneRow (s : State) (h b : Nat) (l : Load) (y : Nat) (resend : Bool) : State :=
  let t := s.doIf (s.rowPoisoned h b l y && !(s.bandOf (h * 32 + b)).dark) (·.poisonRow h b)
  let row := t.rowPayload h b l y
  t.sendPacket h (.planeRow h b l.tag (l.plane % 64) y resend row) 0x21 (t.planeFields h b l y resend) row

/-- A load with its next row sent, first the rows to be sent again. -/
def Load.sent (l : Load) : Load :=
  match l.resend with
  | (first, last) :: rest => { l with resend := if first < last then (first + 1, last) :: rest else rest }
  | [] => { l with nextRow := l.nextRow + 1 }

/-- The row that a load sends next, and whether it is sent again. -/
def Load.row (l : Load) : Nat × Bool :=
  match l.resend with
  | (first, _) :: _ => (first, true)
  | [] => (l.nextRow, false)

/-- The next row of a band: of the load whose offer is the band's best. -/
def State.sendNext (s : State) (h b : Nat) : State :=
  let key := h * 32 + b
  match (s.bandOf key).loads.find? (fun l => l.offer.map (fun o => (o.1, o.2, b)) == s.candidate h b) with
  | none => s
  | some l =>
    let t := (s.sendPlaneRow h b l l.row.1 l.row.2).doIf l.row.2 (·.count (HD_RVH_ERRS2_resends h) 1)
    t.modBandOf key (fun x =>
      if x.load = some l then { x with load := some l.sent }
      else { x with tails := (x.tails.map (fun k => if k = l then l.sent else k)).filter (fun k => k.offer.isSome) })

/-- The type fields of a LINE_CODES packet from header bit 48 on (R39). -/
def State.lineFields (s : State) (h beam line : Nat) (reverse : Bool) : Nat :=
  beam + reverse.toNat * 2 ^ 2 + s.fld (LM_CTRL_channels h) * 2 ^ 3 + line % 2 ^ 14 * 2 ^ 7 +
    s.fld (HD_RASTER1_h_active (s.groupOf h)) % 2 ^ 14 * 2 ^ 21 + (s.headOf h).frame % 2 ^ 16 * 2 ^ 35

/-- A LINE_CODES packet sent. -/
def State.sendLine (s : State) (h : Nat) (o : Out) : State :=
  match o with
  | .lineCodes _ beam line reverse codes => s.sendPacket h o 0x22 (s.lineFields h beam line reverse) (packBits 14 codes)
  | _ => s

/-- PACKET_BOUNDARY, R25, R39, R44, R46, R129, R145, R152: the head port sends its next packet, or a FILL block. -/
def execPacketBoundary (h : Fin 4) (s : State) : Result :=
  if !s.portUp (h + 2) then .next s
  else if s.lineMode h then
    match (s.line h).queue with
    | o :: t =>
      let u := s.modLine h (fun x => { x with queue := t })
      if s.draws h then .next (u.sendLine h o) else .next (u.sendFill h)
    | [] => .next (s.sendFill h)
  else
    match best3 ((List.range (s.nBands h)).filterMap (s.candidate h)) with
    | some (_, _, b) => .next (s.sendNext h b)
    | none => .next (s.sendFill h)

/-! ## SEQ.LOAD (R119, R136) -/

/-- The list at address `a` checked and taken into the next bank of head `h` (R137, R138). -/
def State.takeSeq (s : State) (m h a : Nat) : State :=
  let slot := fun i : Nat => leNat (s.bytes (a + 8 * i) 8)
  let r := seqCheck slot 4096 0 slotCtx0
  if r.1 ≠ 0 then s.setOutcome m r.1 [0, BitVec.ofNat 32 r.2]
  else if (s.headOf h).swapPending then s.outcome0 m E_STATE
  else
    let bank := 1 - s.fld (SQ_CTRL_seq_bank h)
    let words := (List.range 4096).flatMap (fun i => [BitVec.ofNat 32 (slot i), BitVec.ofNat 32 (slot i / 2 ^ 32 % 512)])
    let t := { s with regs := tabPut resetWord s.regs (slotKey h bank 0) words }
    t.setOutcome m S_OK [BitVec.ofNat 32 (t.listLen h bank)]

/-- SEQ_LOAD, R136: the image goes to the bank that the sequencer does not read. -/
def execSeqLoad (m : Fin 8) (s : State) : Result :=
  .next (s.withCmd m 0x0202 (fun t c =>
    if t.nHeads ≤ c.arg 0 then t.outcome0 m E_RANGE
    else t.withImage m 35 c 1 4096 32768 (fun t a => t.takeSeq m (c.arg 0) a)))

end Sys2Proof.Machine
end

