-- ==== Sys2Proof/Machine/CeRun.lean ====
section
/-!
DEFINITION. A loop at its sample, data and output instants (R217 to R235), and the commands of the control engine.
-/

namespace Sys2Proof.Machine

/-! ## The sample instant -/

/-- A sample joins those on their way; of those whose output instant has come, the last four are kept for the groups whose
members differ in input latency. -/
def keepSamples (l : List LoopSample) (x : LoopSample) : List LoopSample :=
  l.drop ((l.filter (·.out)).length - 4) ++ [x]

/-- LOOP_SAMPLE, R217, R229, R234: the loop's generators and injectors advance, and the raw value is taken. -/
def execLoopSample (l : Fin 64) (raw : Word) (s : State) : Result :=
  if !s.loopOn l then .next s
  else
    let w := if s.fld (CE_LOOP04_in_kind l) = 3 then BitVec.ofInt 32 (s.temperature (s.fld (CE_LOOP04_in_index l))) else raw
    let t := (s.doAll (s.gensOf l) (fun u g => u.genSample g)).injSample l
    let x : LoopSample :=
      { n := (s.loop l).taken, tick := s.tick, raw := w, pos := (t.gensOf l).head?.map (fun g => sat32 ((t.gen g).p / frac32))
        injSp := t.injected l 0, injErr := t.injected l 1, injOut := t.injected l 2, done := false, out := false, v := none }
    .next (t.modLoop l (fun y => { y with samples := keepSamples y.samples x, taken := y.taken + 1 }))

/-! ## The evaluation -/

/-- The set-point of a sample (R228). -/
def State.setPoint (s : State) (l : Nat) (x : LoopSample) : Int :=
  match s.ramp l x.tick with
  | some r => sat32 r
  | none =>
    match s.flag (CE_LOOP00_sp_src l), x.pos with
    | true, some p => p
    | _, _ => s.sfld (CE_LOOP07_sp l)

/-- The instant of a crossing between two samples, in fine steps with 8 fractional bits (R232, log 24). -/
def crossInstant (t0 t1 : Nat) (y0 y1 : Int) : Int :=
  (t0 * 8192 + roundDiv ((t1 - t0) * 8192 * y0.natAbs) (y0.natAbs + y1.natAbs) : Nat)

/-- y and amp of a sample, and the zero crossing that it completes (R222, R232). -/
def State.sampleWords (s : State) (l tick : Nat) (y : Int) : State :=
  let x := s.loop l
  let amp0 := s.fld (CE_LOOP34_amp l)
  let t := (s.setInt (CE_LOOP31_y l) y).setFld (CE_LOOP34_amp l)
    (max y.natAbs (amp0 - amp0 / 2 ^ s.fld (CE_LOOP10_amp_decay l)))
  let crossed := x.seen && decide (0 < x.prevY) != decide (0 < y)
  let z := crossInstant x.prevTick tick x.prevY y
  let t := t.modLoop l (fun u => { u with prevY := y, prevTick := tick, seen := true,
                                          swing := if crossed || !x.seen then y.natAbs else max x.swing y.natAbs })
  if crossed && s.flag (CE_LOOP00_cross_en l) && decide (s.fld (CE_LOOP11_cross_hyst l) ≤ x.swing) then
    (t.setInt (CE_LOOP39_last_cross l) z).doAll (s.heads'.filter (fun h => s.scans h && s.fastLoop h == l))
      (fun u h => u.crossing h z (decide (0 < y)))
  else t

/-- The generators of a loop judged, and the waits that end with a settled one (R230, R135). -/
def State.settleAll (s : State) (l : Nat) (err : Int) : State :=
  s.doAll (s.gensOf l) (fun t g =>
    let u := t.settleCheck g err
    if u.flag (CE_PG6_settled g) ∧ !t.flag (CE_PG6_settled g) then
      u.doAll (u.heads'.filter (fun h => !u.lineMode h && u.fld (SQ_CTRL_shift_pg h) == g)) (fun v h => v.shiftSettled h)
    else u)

/-- The compensator's part of an evaluation in RUN (R222, R226, R227): what is left of it is the loop's own state. -/
def State.control (s : State) (l : Nat) (q : LoopSample) (y r : Int) : State :=
  let x := s.loop l
  let k := s.nextSet l (s.schedX l y r)
  let swap := x.newSet || k != s.fld (CE_LOOP30_set l)
  let fb : Int := if s.flag (CE_LOOP00_fb_sel l) then (s.fld (CE_LOOP34_amp l) : Int) else y
  let e := sat32 (r + q.injSp - fb + q.injErr)
  let out := s.compensate l k e q.injOut (swap || x.first)
  let t := s.doIf swap (·.count (CE_LOOP37_swaps l) 1)
  let t := t.doIf x.limStep (fun u => (u.count (CE_LOOP36_limit_steps l) 1).raise LOOP_LIMIT_STEP l)
  let t := ((t.setFld (CE_LOOP30_set l) k).setInt (CE_LOOP32_r l) r).setInt (CE_LOOP35_c l) out.cNext
  t.modLoop l (fun u => { u with e3 := x.e2, e2 := x.e1, e1 := e, u3 := x.u2, u2 := x.u1, first := false, newSet := false
                                 u1 := sat32 (out.v - out.c - q.injOut), limStep := false, outPrev := out.v
                                 lastE := e, lastV := out.v, samples := u.samples.map (LoopSample.put q.n (some out.v)) })

/-- One evaluation of a loop in RUN (R222, R230, R231). -/
def State.runLoop (s : State) (l : Nat) (q : LoopSample) (y : Int) : State :=
  let r := s.setPoint l q
  let fb : Int := if s.flag (CE_LOOP00_fb_sel l) then (s.fld (CE_LOOP34_amp l) : Int) else y
  let t := ((s.control l q y r).feCheck l (r - fb)).settleAll l (r - y)
  t.doIf (t.loopState l == LOOP_FAULT) (·.modLoop l (fun x => { x with samples := x.samples.map (LoopSample.put q.n none) }))

/-- What STALE and clear_fault do to the state of a loop at a sample (R224, R225). -/
def State.loopTurn (s : State) (l : Nat) : State :=
  let t :=
    if s.loopState l = LOOP_FAULT ∧ (s.loop l).clear then
      ((s.loopInit l).modLoop l (fun x => { x with clear := false })).setFld (CE_LOOP30_state l) LOOP_RUN
    else s
  if t.loopStale l then
    if t.loopState l = LOOP_RUN then
      ((t.setFld (CE_LOOP30_state l) LOOP_HOLD).loopUnsettle l).modLoop l (fun x => { x with seen := false })
    else t
  else if t.loopState l = LOOP_HOLD then t.setFld (CE_LOOP30_state l) LOOP_RUN else t

/-- The first sample that waits for its evaluation. -/
def Loop.waiting (x : Loop) : Option LoopSample := x.samples.find? (fun q => !q.done && !q.out)

/-- The input latency of a loop in ticks (R217). -/
def State.latency (s : State) (l : Nat) : Nat :=
  match s.fld (CE_LOOP04_in_kind l) with
  | 0 => 320
  | 3 => 0
  | _ => 2

/-- Whether the lane of a loop takes another sample before its sample `q`: that of a lower-numbered loop whose data instant has come
by the time that `q` can start (R220). -/
def State.laneBusy (s : State) (l : Nat) (q : LoopSample) : Bool :=
  let start := max s.tick (q.tick + s.latency l)
  (s.laneLoops (s.fld (CE_LOOP00_lane l))).any (fun j =>
    decide (j < l) && ((s.loop j).waiting).any (fun p => decide (p.tick + s.latency j ≤ start)))

/-- The lowest-wins group of a loop judged at a tick. -/
def State.judgeGroup (s : State) (l tick : Nat) : State :=
  match s.lwOf l with
  | some n => s.lwJudge n tick
  | none => s

/-- LOOP_EVALUATION, R220 to R233: a lane takes the lowest loop number first. -/
def execLoopEvaluation (l : Fin 64) (s : State) : Result :=
  match s.loopOn l, ((s.loop l).waiting).filter (fun q => !s.laneBusy l q) with
  | true, some q =>
    let t := (s.modLoop l (fun x => { x with samples := x.samples.map (fun p => if p.n = q.n then { p with done := true } else p) })).loopTurn l
    if t.loopStale l then .next (t.judgeGroup l q.tick)
    else
      let y := sat32 (rawValue (s.fld (CE_LOOP04_in_kind l)) q.raw * s.sfld (CE_LOOP04_in_gain l))
      let t := t.sampleWords l q.tick y
      let t := if t.loopState l = LOOP_RUN then t.runLoop l q y else t
      .next (t.judgeGroup l q.tick)
  | _, _ => .next s

/-! ## The output instant -/

/-- Whether a loop puts out the v of a sample: in RUN; as the first member of a lowest-wins group, the group's value, where the
group could be judged (R224, R233). -/
def State.putsOut (s : State) (l tick : Nat) : Bool :=
  match s.lwOf l with
  | some n =>
    if (s.lwMembers n).head?.any (fun e => e.1 == l) then s.groupReady n tick && s.loopState l != LOOP_HOLD
    else s.loopState l == LOOP_RUN
  | none => s.loopState l == LOOP_RUN

/-- An evaluation is late (R221). -/
def State.overrun (s : State) (l : Nat) : State :=
  let run := (s.loop l).overrunRun + 1
  let t := (s.count (CE_LOOP36_overruns l) 1).modLoop l (fun x => { x with overrunRun := min run 16 })
  let t := t.doIf (run == 1) (·.raise CE_OVERRUN l)
  t.doIf (decide (s.fld (CE_LOOP00_overrun_max l) ≤ run)) (·.loopFault l)

/-- The results of a loop reach the laser gates (R220). -/
def State.gateLatch (s : State) (l : Nat) : State :=
  s.modLoop l (fun x => { x with gateAmp := s.fld (CE_LOOP34_amp l), gateTrip := s.flag (CE_LOOP30_fe_tripped l)
                                 gateFault := s.loopState l == LOOP_FAULT })

/-- OUTPUT_INSTANT, R217, R220, R221, R223, R233, R235: v goes out, or the output keeps its value; the gates of heads and the
capture take the sample's results. -/
def execOutputInstant (l : Fin 64) (s : State) : Result :=
  match s.loopOn l, (s.loop l).samples.find? (!·.out) with
  | true, some q =>
    let s1 := s.modLoop l (fun x => { x with samples := x.samples.map (fun p => if p.n = q.n then { p with out := true } else p) })
    let t :=
      if !q.done then s1.doIf (s1.loopState l != LOOP_HOLD || !s1.loopStale l) (·.overrun l)
      else
        let u := s1.modLoop l (fun y => { y with overrunRun := 0 })
        match q.v with
        | some v => u.doIf (u.putsOut l q.tick) (·.drive l v)
        | none => u
    .next ((t.gateLatch l).gates.capSample l)
  | _, _ => .next s

/-! ## Injection, capture and CE.MOVE -/

/-- INJECTION_END, R234: an injector that has run its duration stops. -/
def execInjectionEnd (k : Fin 4) (s : State) : Result :=
  if s.fld (CE_INJ2_duration k) ≤ (s.inj k).n then .next (s.injEnd k) else .next s

/-- CAPTURE_FILL_END, R235: length - pre samples are held after the trigger. -/
def execCaptureFillEnd (s : State) : Result :=
  if s.fld CE_CAP4_state = CAP_RUNNING ∧ s.fld CE_CAP1_length - s.fld CE_CAP1_pre ≤ s.cap.after then
    .next ((s.setFld CE_CAP4_state CAP_DONE).raise CE_CAPTURE_DONE 0)
  else .next s

/-- CE_MOVE, R229, R228: a command to a generator that is enabled and not owned. -/
def execCeMove (m : Fin 8) (s : State) : Result :=
  .next (s.withCmd m 0x0401 (fun t c =>
    let g := c.arg 0
    if 8 ≤ g then t.outcome0 m E_RANGE
    else if !t.genOn g ∨ t.flag (CE_PG6_owned g) then t.outcome0 m E_STATE
    else (t.genCommand g (signed 32 (c.arg 1))).beginHead m))

/-- MOVE_TIMEOUT, R229: the timeout of a CE.MOVE under way; 0 waits without limit. -/
def execMoveTimeout (m : Fin 8) (s : State) : Result :=
  match s.cmdHead m with
  | some c =>
    if c.state = MB_RUNNING ∧ c.begun ∧ c.code = 0x0401 ∧ c.outcome = none ∧ c.arg 3 ≠ 0 then .next (s.outcome0 m E_TIMEOUT)
    else .next s
  | none => .next s

end Sys2Proof.Machine
end

