-- ==== Sys2Proof/Machine/Granary.lean ====
section
/-!
DEFINITION. The Granary (R238 to R266): the address map, the line code, queues and their scheduler, refresh, row
disturbance, self-refresh and sparing. A write's data is in `State.mem` from the moment it has entered a queue (R249).
-/

namespace Sys2Proof.Machine

/-! ## Configuration and the address map (R238 to R241) -/

/-- Data ranks of a channel. -/
def State.dataRanks (s : State) (c : Nat) : Nat := s.fld (GR_CHAN0_ranks c) - s.fld (GR_CHAN0_spare_en c)

/-- Lines of one rank on both subchannels. -/
def State.rankLines (s : State) : Nat := if s.flag GR_CTRL_density then 2 ^ 28 else 2 ^ 27

/-- GR_CAPACITY in GiB (R239). -/
def State.capacityGib (s : State) : Nat :=
  2 ^ s.fld GR_CTRL_channels * s.dataRanks 0 * (if s.flag GR_CTRL_density then 16 else 8)

/-- The groups of `nc` bits of a number XORed together, the lowest first. -/
def xorGroups (nc : Nat) : Nat → Nat → Nat
  | 0, _ => 0
  | fuel + 1, n => (n % 2 ^ nc) ^^^ xorGroups nc fuel (n / 2 ^ nc)

/-- Where a line lies: channel, subchannel, and line index s within the subchannel (R240). -/
structure Place where
  ch : Nat
  sub : Nat
  s : Nat
  deriving DecidableEq, Repr

def State.placeOf (s : State) (a : Nat) : Place :=
  let i := s.fld GR_CTRL_il
  let nc := s.fld GR_CTRL_channels
  let up := a / 2 ^ (i + nc)
  let ch := a / 2 ^ i % 2 ^ nc ^^^ (if s.flag GR_CTRL_hash && nc != 0 then xorGroups nc 40 up else 0)
  let ca := up * 2 ^ i + a % 2 ^ i
  { ch := ch, sub := ca / 64 % 2, s := ca / 128 }

/-- The address of a line from its place. -/
def State.addrOf (s : State) (p : Place) : Nat :=
  let i := s.fld GR_CTRL_il
  let nc := s.fld GR_CTRL_channels
  let ca := p.s * 128 + p.sub * 64
  let up := ca / 2 ^ i
  let low := p.ch ^^^ (if s.flag GR_CTRL_hash && nc != 0 then xorGroups nc 40 up else 0)
  up * 2 ^ (i + nc) + low * 2 ^ i + ca % 2 ^ i

/-- The bits of s that name the logical rank, for a number of data ranks. -/
def State.rankBits (s : State) (c : Nat) : List Nat :=
  if s.dataRanks c ≤ 1 then [] else if s.dataRanks c = 2 then [s.fld GR_FIELDS_rk0]
  else [s.fld GR_FIELDS_rk0, s.fld GR_FIELDS_rk1]

/-- The number made of named bits of `n`, the first lowest. -/
def pickBits (n : Nat) : List Nat → Nat
  | [] => 0
  | b :: t => (n / 2 ^ b) % 2 + 2 * pickBits n t

/-- A bit taken out of a number. -/
def cutBit (n b : Nat) : Nat := n / 2 ^ (b + 1) * 2 ^ b + n % 2 ^ b

/-- A bit put into a number. -/
def putBit (n b v : Nat) : Nat := n / 2 ^ b * 2 ^ (b + 1) + v * 2 ^ b + n % 2 ^ b

def sortUp (l : List Nat) : List Nat := l.insertionSort (· ≤ ·)

def State.rankOf (s : State) (p : Place) : Nat := pickBits p.s (s.rankBits p.ch)

/-- Bank group and bank of a line: 0 to 15. -/
def State.bank16 (s : State) (p : Place) : Nat :=
  4 * pickBits p.s [s.fld GR_FIELDS_bg0, s.fld GR_FIELDS_bg1] + pickBits p.s [s.fld GR_FIELDS_ba0, s.fld GR_FIELDS_ba1]

/-- The bank of a line within its channel: subchannel, rank, bank group and bank. -/
def State.bankNo (s : State) (p : Place) : Nat := p.sub * 64 + s.rankOf p * 16 + s.bank16 p

/-- The bits of s that nothing names. -/
def State.plainBits (s : State) (p : Place) : Nat :=
  let named := sortUp (s.rankBits p.ch ++ [s.fld GR_FIELDS_bg0, s.fld GR_FIELDS_bg1, s.fld GR_FIELDS_ba0, s.fld GR_FIELDS_ba1])
  named.reverse.foldl cutBit p.s

/-- The burst column C[9:4] of a line, and its row above (R240). -/
def State.columnNo (s : State) (p : Place) : Nat := s.plainBits p % 64
def State.rowNo (s : State) (p : Place) : Nat := s.plainBits p / 64

/-- The index of a line within its rank: both subchannels, in the order of migration (R260). -/
def State.rankIndex (s : State) (p : Place) : Nat :=
  2 * ((sortUp (s.rankBits p.ch)).reverse.foldl cutBit p.s) + p.sub

/-- The line of an index within a rank. -/
def State.rankPlace (s : State) (c k i : Nat) : Place :=
  let bs := s.rankBits c
  let s0 := (sortUp bs).foldl (fun n b => putBit n b ((k / 2 ^ (bs.idxOf b)) % 2)) (i / 2)
  { ch := c, sub := i % 2, s := s0 }

/-- The chip select of a logical rank. -/
def State.csOf (s : State) (c k : Nat) : Nat := bits (s.fld (GR_CHAN1_rank_map c)) (2 * k) 2

/-- The logical rank on a chip select. -/
def State.rankAt (s : State) (c cs : Nat) : Option Nat :=
  (List.range (s.dataRanks c)).find? (fun k => s.csOf c k == cs)

/-- The chip selects that a read, or a write, of a line goes to (R261). -/
def State.route261 (s : State) (p : Place) (write : Bool) : List Nat :=
  let k := s.rankOf p
  let own := s.csOf p.ch k
  let spare := s.fld (GR_CHAN0_spare_cs p.ch)
  if s.chState p.ch = CH_MIGRATING ∧ s.fld (GR_CHAN2_mig_rank p.ch) = k then
    if s.rankIndex p < s.fld (GR_CHAN2_ptr p.ch) then [spare] else if write then [own, spare] else [own]
  else [own]

/-! ## The line code (R243, R244) -/

/-- Multiplication by x in GF(2^16). -/
def gfX (a : Nat) : Nat := if 32768 ≤ a then (2 * a) ^^^ 0x1100B else 2 * a

def gfXpow (a : Nat) : Nat → Nat
  | 0 => a
  | n + 1 => gfX (gfXpow a n)

def gfMulFrom : Nat → Nat → Nat → Nat
  | 0, _, _ => 0
  | n + 1, a, b => (if b % 2 = 1 then a else 0) ^^^ gfMulFrom n (gfX a) (b / 2)

def gfMul (a b : Nat) : Nat := gfMulFrom 16 a b

/-- The inverse: a^(2^16 - 2), as the product of the squares a^2, a^4, … a^(2^15). -/
def gfInvFrom : Nat → Nat → Nat → Nat
  | 0, acc, _ => acc
  | n + 1, acc, a => let q := gfMul a a
    gfInvFrom n (gfMul acc q) q

def gfInv (a : Nat) : Nat := gfInvFrom 15 1 a

/-- The exponent of symbol `n` of the 40 in a line: data symbols above the check symbols. -/
def symExp (n : Nat) : Nat := if n < 32 then n + 8 else n - 32

/-- The value of a received word at α^i, by Horner's rule from the highest exponent. -/
def syndrome (l : List Nat) (i : Nat) : Nat :=
  ((l.take 32).reverse ++ (l.drop 32).reverse).foldl (fun acc c => gfXpow acc i ^^^ c) 0

def syndromes (l : List Nat) : List Nat := (List.range 8).map (syndrome l)

def synAt (l : List Nat) (i : Nat) : Nat := l.getD i 0

/-- Whether the syndromes are those of one error at exponent `p`. -/
def oneError (l : List Nat) (p : Nat) : Bool :=
  synAt l 0 != 0 && (List.range 7).all (fun i => synAt l (i + 1) == gfXpow (synAt l i) p)

/-- Whether the syndromes are those of errors at exponents `p` and `q`. -/
def twoErrors (l : List Nat) (p q : Nat) : Bool :=
  let sum := gfXpow 1 p ^^^ gfXpow 1 q
  (List.range 6).all (fun i => synAt l (i + 2) == (gfMul sum (synAt l (i + 1)) ^^^ gfXpow (synAt l i) (p + q)))

/-- The errors, exponent and value, that make the word a codeword, where two symbols or fewer do. -/
def findErrors (l : List Nat) : Option (List (Nat × Nat)) :=
  if l.all (· == 0) then some []
  else match (List.range 40).find? (oneError l) with
    | some p => some [(p, synAt l 0)]
    | none =>
      match ((List.range 40).flatMap (fun p => ((List.range 40).filter (fun q => decide (p < q))).map (fun q => (p, q)))).find?
          (fun e => twoErrors l e.1 e.2) with
      | some (p, q) =>
        let e2 := gfMul (synAt l 1 ^^^ gfXpow (synAt l 0) p) (gfInv (gfXpow 1 p ^^^ gfXpow 1 q))
        some [(p, synAt l 0 ^^^ e2), (q, e2)]
      | none => none

/-- The data symbols of a word with errors taken out, as bytes. -/
def correctedBytes (l : List Nat) (es : List (Nat × Nat)) : List Byte :=
  (List.range 32).flatMap (fun n =>
    let e := ((es.find? (fun x => x.1 == symExp n)).map (·.2)).getD 0
    natLe 2 (l.getD n 0 ^^^ e))

/-- The pattern of a poisoned line (R244). -/
def poisonPattern : List Nat := [0x8001, 0x4002, 0x2004, 0x1008, 0x0810, 0x0420, 0x0240, 0x0180]

/-! ## Encoding (R243, R244) -/

/-- A polynomial, lowest coefficient first, times (x - α^i). -/
def timesRoot (g : List Nat) (i : Nat) : List Nat :=
  ((0 :: g).zip ((g.map (fun c => gfXpow c i)) ++ [0])).map (fun e => e.1 ^^^ e.2)

/-- g(x): the coefficients below x^8. -/
def generator : List Nat := ((List.range 8).foldl timesRoot [1]).take 8

/-- One step of the division by g(x): the remainder after one more data symbol, highest first. -/
def divideStep (rem : List Nat) (d : Nat) : List Nat :=
  let f := d ^^^ rem.getD 7 0
  ((0 :: rem.take 7).zip generator).map (fun e => e.1 ^^^ gfMul f e.2)

/-- The data symbols of a line. -/
def dataSymbols (l : List Byte) : List Nat := (List.range 32).map (fun n => leNat ((l.drop (2 * n)).take 2))

/-- The check symbols c_0 to c_7: d(x) x^8 mod g(x). -/
def checkSymbols (d : List Nat) : List Nat := d.reverse.foldl divideStep (List.replicate 8 0)

/-- The stored word of a line: its codeword, with P added to the check symbols where the line is poisoned. -/
def codeword (l : List Byte) (poisoned : Bool) : List Nat :=
  let d := dataSymbols l
  d ++ (if poisoned then ((checkSymbols d).zip poisonPattern).map (fun e => e.1 ^^^ e.2) else checkSymbols d)

/-- The 16 beats of a word: bit `n` of beat `t` is bit `t` of symbol `n`, on DQ pin n mod 16 of data device n / 16, or CB pin n - 32. -/
def beats (w : List Nat) : List (BitVec 40) :=
  (List.range 16).map (fun t => BitVec.ofNat 40 ((w.zipIdx.map (fun e => e.1 / 2 ^ t % 2 * 2 ^ e.2)).sum))

/-- A burst of the line at `a` on a chip select (R240, R243). -/
def State.burst (s : State) (write : Bool) (cs a : Nat) (word : List Nat) : State :=
  let p := s.placeOf a
  s.emit (.burst p.ch p.sub write cs (s.bank16 p) (s.rowNo p) (s.columnNo p) (a / 64) (if write then beats word else []))

/-- The word that memory holds of a line. -/
def State.storedWord (s : State) (a : Nat) : List Nat := codeword (s.bytes a 64) (s.isPoisoned (a / 64))

/-- What a read decodes to (R244). -/
inductive Decoded where
  | data (bytes : List Byte) (symbols : Nat)
  | poisoned
  | uncorrectable
  deriving DecidableEq, Repr

def decodeLine (l : List Nat) : Decoded :=
  match findErrors (syndromes l) with
  | some es => .data (correctedBytes l es) es.length
  | none =>
    let m := l.take 32 ++ (List.range 8).map (fun j => l.getD (32 + j) 0 ^^^ poisonPattern.getD j 0)
    match findErrors (syndromes m) with
    | some _ => .poisoned
    | none => .uncorrectable

/-! ## Self-refresh (R258) -/

/-- Whether a head, layer, ingest port or the monitor is enabled. -/
def State.memoryUsers (s : State) : Bool :=
  s.heads'.any s.headOn || (List.range 2).any (fun p => s.flag (HD_INGEST_CTRL_enable p)) || s.flag HD_MON0_enable ||
  (List.range 16).any (fun q => s.flag (HD_LAYER_CTRL_enable (q / 4) (q % 4)))

/-! ## Queues (R246 to R249) -/

/-- Whether the queues of a subchannel hold a request of class A. -/
def SubCh.hasA (x : SubCh) : Bool := (x.reads ++ x.writes ++ x.entry).any (fun q => reqClass q.r == 0)

/-- Whether a request can enter its queue now (R248). -/
def SubCh.room (x : SubCh) (q : Req) : Bool :=
  if q.write then
    decide (x.writes.length < 64) && (reqClass q.r == 0 || decide ((x.writes.filter (fun w => reqClass w.r != 0)).length < 48))
  else decide (x.reads.length < 64)

/-- The writes that a read waits for: those to its line, and older ones to the same bank (R247). -/
def State.waitsFor (s : State) (x : SubCh) (q : Req) : List Nat :=
  match (x.writes.filter (fun w => w.addr == q.addr)).getLast? with
  | none => []
  | some w =>
    (x.writes.filter (fun v => decide (v.id ≤ w.id) && s.bankNo (s.placeOf v.addr) == s.bankNo (s.placeOf q.addr))).map (·.id)

/-- A request enters its queue: a write is complete from here on, a read of a pending line waits. -/
def State.enter (s : State) (k : Nat) (q : Req) : State :=
  let x := s.sub k
  if q.write then
    let n := x.writes.length + 1
    let t := s.setSub k { x with writes := x.writes ++ [q], drain := if s.fld GR_SCHED_wq_high ≤ n then 1 else x.drain }
    t.store q.addr q.data
  else
    let w := s.waitsFor x q
    let t := s.setSub k { x with reads := x.reads ++ [{ q with after := w }]
                                 drain := if w ≠ [] ∧ x.drain ≠ 1 then 2 else if x.drain = 3 then 0 else x.drain }
    t.doIf (w != []) (·.count (GR_CHAN8_raw_waits (k / 2)) 1)

/-- Requests at the entry point enter as far as there is room, in order. -/
def State.takeIn (s : State) (k : Nat) : Nat → State
  | 0 => s
  | fuel + 1 =>
    let x := s.sub k
    match x.entry.find? (fun q => x.room q) with
    | some q => ((s.setSub k { x with entry := x.entry.filter (fun e => e.id != q.id) }).enter k q).takeIn k fuel
    | none => s

/-- Whether a request carries the urgent flag: a layer's fetch while its line buffer holds `fill` lines, fewer than its watermark
(R77). -/
def State.urgentFetch (s : State) (r fill : Nat) : Bool :=
  decide (r < 16) && decide (fill < s.fld (HD_LAYER_CTRL_watermark (r / 4) (r % 4)))

/-- GRANARY_REQUEST, R77, R242, R246 to R249, R258, R387, R388: a line request comes to its subchannel. The Gleaner issues nothing
to a channel that it is held off, nor in self-refresh, and what it has corrected is written back only where nothing has
written the line since. -/
def execGranaryRequest (r : Fin 37) (addr : BitVec 40) (write : Bool) (fill : Fin 9) (data : List Byte) (s : State) : Result :=
  let a := addr.toNat / 64 * 64
  if s.capacity ≤ a then
    .next ((s.outOfRange r).doIf (!write) (·.emit (.lineData r (a / 64) (some (List.replicate 64 0)))))
  else
    let p := s.placeOf a
    let k := 2 * p.ch + p.sub
    if r.val = 32 ∧ ((s.chan p.ch).gleanerHeld ∨ s.flag GR_CTRL_in_sr ∨ (write ∧ !s.patrol.contains (a / 64))) then .next s
    else
      let t := s.wake
      let q : Req := { id := t.serial, r := r, addr := a, urgent := t.urgentFetch r fill, write := write, data := data,
                       tick := t.tick, after := [] }
      let t := { t with serial := t.serial + 1 }
      let t := t.doIf (decide (reqClass r < 2)) (fun u => (u.modChan p.ch (fun c => { c with gleanerHeld := true })).glStates)
      .next ((t.modSub k (fun x => { x with entry := x.entry ++ [q] })).takeIn k 1)

/-! ## Row disturbance (R257) -/

def rowKey (bank row : Nat) : Nat := bank * 2 ^ 17 + row
def pairKey (bank r : Nat) : Nat := bank * 64 + r

def cnt (t : Tab Nat) (k : Nat) : Nat := tabGet (fun _ => 0) t k

/-- The activations of a row by each requester in the window, the requester with the most first; the lower number on a
tie. -/
def topActivator (c : Chan) (bank row : Nat) (ok : Nat → Bool) : Option Nat :=
  let l := ((List.range 37).filter ok).filter (fun r => decide (0 < cnt c.acts (rowKey bank row * 64 + r)))
  l.foldl (fun (best : Option Nat) r => match best with
    | none => some r
    | some b => if cnt c.acts (rowKey bank row * 64 + b) < cnt c.acts (rowKey bank row * 64 + r) then some r else some b) none

/-- A requester's rate to a bank halved once more. -/
def State.halve (s : State) (ch bank r : Nat) : State :=
  let c := s.chan ch
  let k := pairKey bank r
  let mean := (s.tick - cnt c.windowAt bank) / max 1 (cnt c.reqs k)
  let n := cnt c.halvings k
  if 8 ≤ n then s
  else
    let sp := if n = 0 then 2 * mean else 2 * cnt c.spacing k
    let t := s.setChan ch { c with halvings := tabSet (fun _ => 0) c.halvings k (n + 1)
                                   spacing := tabSet (fun _ => 0) c.spacing k sp }
    (t.count (GR_REQ3_rh_throttles r) 1).raise2 GR_RH_THROTTLE r (ch * 16 + bank % 16)

/-- The rows of a bank that its tracker holds, and the activations of one of them. -/
def Chan.tracked (c : Chan) (bank : Nat) : List Nat :=
  ((c.acts.filter (fun e => e.1 / 2 ^ 23 == bank)).map (fun e => e.1 / 64 % 2 ^ 17)).dedup

def Chan.rowCount (c : Chan) (bank row : Nat) : Nat := ((List.range 37).map (fun q => cnt c.acts (rowKey bank row * 64 + q))).sum

/-- The tracker takes an activation. Of its 32 entries a row without one takes that of the row with the fewest activations, the lowest
row on a tie (DESIGN CHOICE, log 82). -/
def Chan.track (c : Chan) (bank row r : Nat) : Chan :=
  let l := sortUp (c.tracked bank)
  let least := l.foldl (fun (best : Option Nat) x => match best with
    | none => some x
    | some b => if c.rowCount bank x < c.rowCount bank b then some x else some b) none
  let acts := if l.contains row || decide (l.length < 32) then c.acts
    else c.acts.filter (fun e => least != some (e.1 / 64 % 2 ^ 17) || e.1 / 2 ^ 23 != bank)
  let k := rowKey bank row * 64 + r
  { c with acts := tabSet (fun _ => 0) acts k (cnt acts k + 1) }

/-- A row of a bank activated by a requester, with the trackers on. -/
def State.activate (s : State) (ch bank row r : Nat) : State :=
  if !s.flag GR_RH_rh_en then s
  else
  let t := s.modChan ch (·.track bank row r)
  let c := t.chan ch
  let total := c.rowCount bank row
  let th := s.fld GR_RH_rh_thresh
  let half := max 1 (th / 2)
  if total < th ∨ (total - th) % half ≠ 0 then t
  else
    let known := cnt c.hot (rowKey bank row)
    if 0 < known then t.halve ch bank (known - 1)
    else match topActivator c bank row (fun q => reqClass q != 0) with
      | some q =>
        (t.modChan ch (fun x => { x with hot := tabSet (fun _ => 0) x.hot (rowKey bank row) (q + 1) })).halve ch bank q
      | none => t.raise2 GR_RH_HOT_A ((topActivator c bank row (fun _ => true)).getD r) (ch * 16 + bank % 16)

/-- RH_WINDOW_END, R257: the trackers of the bank clear; a throttle whose row was not hot in the window ends. The bank is
rank * 16 + bank group * 4 + bank, on both subchannels. -/
def execRhWindowEnd (ch : Fin 8) (bank : Fin 64) (s : State) : Result :=
  .next (s.doAll [bank.val, 64 + bank.val] (fun t b =>
    t.modChan ch (fun c =>
      let keep := fun r => c.hot.any (fun e => e.1 / 2 ^ 17 == b && e.2 == r + 1)
      { c with acts := c.acts.filter (fun e => e.1 / 2 ^ 23 != b), hot := c.hot.filter (fun e => e.1 / 2 ^ 17 != b)
               reqs := c.reqs.filter (fun e => e.1 / 64 != b), windowAt := tabSet (fun _ => 0) c.windowAt b s.tick
               halvings := c.halvings.filter (fun e => e.1 / 64 != b || keep (e.1 % 64))
               spacing := c.spacing.filter (fun e => e.1 / 64 != b || keep (e.1 % 64)) })))

/-! ## The scheduler (R246, R251) -/

/-- Whether a request may issue now: a read whose writes have issued, at the spacing of R257. -/
def State.eligible (s : State) (ch : Nat) (x : SubCh) (q : Req) : Bool :=
  let c := s.chan ch
  let k := pairKey (s.bankNo (s.placeOf q.addr)) q.r
  q.after.all (fun i => !x.writes.any (fun w => w.id == i)) &&
    (cnt c.halvings k == 0 || decide (cnt c.lastAt k + cnt c.spacing k ≤ s.tick))

/-- The precedence of a request in its queue: urgent class A, then A, B, C. -/
def Req.rankIn (q : Req) : Nat := if q.urgent then 0 else 1 + reqClass q.r

/-- The request that a queue issues next: the oldest of the highest precedence. -/
def State.nextOf (s : State) (ch : Nat) (x : SubCh) (l : List Req) : Option Req :=
  (l.filter (s.eligible ch x)).foldl (fun (best : Option Req) q => match best with
    | none => some q
    | some b => if q.rankIn < b.rankIn then some q else some b) none

/-- What the service of a request counts (R251), and what it does to its bank (R257). Rows stay open while queued requests
hit them. -/
def State.serve (s : State) (ch sub : Nat) (q : Req) : State :=
  let wait := s.tick - q.tick
  let t := s.doIf (decide (s.fld GR_SCHED_wait_us * 800 < wait)) (fun u =>
    (u.count (GR_REQ0_wait_count q.r) 1).setFld (GR_REQ1_max_wait q.r) (max (s.fld (GR_REQ1_max_wait q.r)) (min (2 ^ 32 - 1) (wait / 8))))
  let p := s.placeOf q.addr
  let bank := s.bankNo p
  let row := s.rowNo p
  let k := pairKey bank q.r
  let fresh := cnt (s.chan ch).openRows bank != row + 1
  let t := t.modChan ch (fun c => { c with reqs := tabSet (fun _ => 0) c.reqs k (cnt c.reqs k + 1)
                                           lastAt := tabSet (fun _ => 0) c.lastAt k s.tick })
  let t := t.doIf fresh (·.activate ch bank row q.r)
  let x := t.sub (2 * ch + sub)
  let stay := (x.reads ++ x.writes).any (fun e => e.id != q.id && t.bankNo (t.placeOf e.addr) == bank && t.rowNo (t.placeOf e.addr) == row)
  let t := t.modChan ch (fun c => { c with openRows := tabSet (fun _ => 0) c.openRows bank (if stay then row + 1 else 0) })
  t.doAll (s.route261 p q.write) (fun u cs => u.burst q.write cs q.addr (codeword q.data false))

/-- The drain mode after a write has issued (R246). -/
def State.drainAfter (s : State) (k : Nat) : State :=
  let x := s.sub k
  let blocked := x.reads.any (fun q => q.after.any (fun i => x.writes.any (fun w => w.id == i)))
  let d := if x.drain = 1 then (if x.writes.length ≤ s.fld GR_SCHED_wq_low then (if blocked then 2 else 0) else 1)
    else if x.drain = 2 then (if blocked then 2 else 0)
    else if x.writes.isEmpty then 0 else x.drain
  s.setSub k { x with drain := d }

/-- One request issued. -/
def State.issue (s : State) (ch sub : Nat) (q : Req) : State :=
  let k := 2 * ch + sub
  let t := s.serve ch sub q
  let t := if q.r = 32 ∧ !q.write then { t with patrol := q.addr / 64 :: t.patrol } else t
  let t := t.modSub k (fun x => if q.write then { x with writes := x.writes.filter (fun e => e.id != q.id) }
    else { x with reads := x.reads.filter (fun e => e.id != q.id) })
  (t.doIf q.write (·.drainAfter k)).takeIn k 64

/-- A refresh of every rank of a channel: it closes every row. ZQ calibration and DQS-oscillator tracking that are due go to every
rank within its stall (R239). -/
def State.refresh (s : State) (ch : Nat) : State :=
  let t := (s.modChan ch (fun c => { c with openRows := [], zqDue := false })).emit (.dram ch 0 0 0)
  t.doIf (s.chan ch).zqDue (fun u => u.doAll (List.range (u.fld (GR_CHAN0_ranks ch))) (fun v cs =>
    (v.emit (.dram ch 0 3 cs)).emit (.dram ch 0 7 cs)))

/-! ## Self-refresh entry (R258) -/

/-- A queued request completed at self-refresh entry: a write at the entry point is stored first. -/
def State.complete (s : State) (ch sub : Nat) (q : Req) : State :=
  let t := s.doIf (q.write && (s.sub (2 * ch + sub)).entry.any (fun e => e.id == q.id)) (·.store q.addr q.data)
  let t := t.serve ch sub q
  if q.r = 32 ∧ !q.write then { t with patrol := q.addr / 64 :: t.patrol } else t

/-- The queued requests of a subchannel completed, the oldest first. -/
def State.completeAll (s : State) (ch sub : Nat) : State :=
  let x := s.sub (2 * ch + sub)
  let t := s.doAll ((x.reads ++ x.writes ++ x.entry).insertionSort (fun a b => a.id ≤ b.id)) (·.complete ch sub ·)
  t.setSub (2 * ch + sub) SubCh.reset

/-- Self-refresh entered: queued requests are completed, and migration pauses where it stands (R258). -/
def State.sleep (s : State) : State :=
  ((s.setFld GR_CTRL_in_sr 1).doAll s.channels (fun t c =>
    let st := t.chState c
    let t := (t.completeAll c 0).completeAll c 1
    ((t.modChan c (fun x => { x with resume := st, refreshNow := 0, openRows := [] })).setFld (GR_CHAN1_state c) CH_SR).emit
      (.dram c 0 5 0))).glStates

/-! ## Command issue -/

/-- SUBCHANNEL_COMMAND_ISSUE, R246, R254, R255: catch-up refreshes, a refresh due, writes in drain mode, reads. The refreshes
owed issue back to back while no class A request is queued on the channel. -/
def execSubchannelCommandIssue (ch : Fin 8) (sub : Fin 2) (s : State) : Result :=
  let owed := s.fld (GR_CHAN1_owed ch)
  let k := 2 * ch.val + sub
  let x := s.sub k
  if s.chState ch ≠ CH_RUN ∧ s.chState ch ≠ CH_MIGRATING then .next s
  else if 4 < owed then .next ((s.refresh ch).setFld (GR_CHAN1_owed ch) (owed - 1))
  else if 0 < (s.chan ch).refreshNow then
    .next ((s.refresh ch).modChan ch (fun c => { c with refreshNow := c.refreshNow - 1 }))
  else if 0 < owed ∧ !(s.sub (2 * ch)).hasA ∧ !(s.sub (2 * ch + 1)).hasA then
    .next ((s.refresh ch).setFld (GR_CHAN1_owed ch) (owed - 1))
  else match (if x.drain = 0 then none else s.nextOf ch x x.writes) with
    | some q => .next (s.issue ch sub q)
    | none =>
      match s.nextOf ch x x.reads with
      | some q => .next (s.issue ch sub q)
      | none => .next s

/-- IDLE_DRAIN, R246: no read has been queued for idle_drain tCK; 0 never drains. -/
def execIdleDrain (ch : Fin 8) (sub : Fin 2) (s : State) : Result :=
  let k := 2 * ch.val + sub
  let x := s.sub k
  if s.fld GR_SCHED_idle_drain = 0 ∨ !x.reads.isEmpty ∨ x.writes.isEmpty ∨ x.drain ≠ 0 then .next s
  else .next (s.setSub k { x with drain := 3 })

/-! ## Refresh (R254, R255) -/

/-- REFRESH_TICK, R254: postponed while a real-time burst is in flight or a class A request is queued on the channel, up to 4 owed. -/
def execRefreshTick (ch : Fin 8) (burst : Bool) (s : State) : Result :=
  let owed := s.fld (GR_CHAN1_owed ch)
  if s.chState ch ≠ CH_RUN ∧ s.chState ch ≠ CH_MIGRATING then .next s
  else if (burst ∨ (s.sub (2 * ch)).hasA ∨ (s.sub (2 * ch + 1)).hasA) ∧ owed < 4 then .next (s.setFld (GR_CHAN1_owed ch) (owed + 1))
  else .next (s.modChan ch (fun c => { c with refreshNow := c.refreshNow + 1 }))

/-! ## Failures and sparing (R259 to R263) -/

/-- A record in the error log of a channel. -/
def State.logError (s : State) (ch addr kind symbols cs : Nat) : State :=
  let t := s.modChan ch (fun c => { c with log := ((addr, kind, symbols, cs, s.tick) :: c.log).take 16 })
  ((((t.setFld (GR_CHAN9_err_addr_lo ch) addr).setFld (GR_CHAN10_err_addr_hi ch) (addr / 2 ^ 32)).setFld
    (GR_CHAN10_err_kind ch) kind).setFld (GR_CHAN10_err_symbols ch) symbols).setFld (GR_CHAN10_err_cs ch) cs

/-- The record of failed ranks of a channel. The layout of its payload is the model's: rank and spare (log 40). -/
def rankRecord (ch : Nat) : Nat := 3 + ch

/-- Whether a spare is there to be used. -/
def State.spareFree (s : State) (ch : Nat) : Bool :=
  s.flag (GR_CHAN0_spare_en ch) && !s.flag (GR_CHAN1_spare_used ch) && s.chState ch != CH_MIGRATING

/-- Migration of a logical rank starts (R260). -/
def State.startMigration (s : State) (ch k : Nat) : State :=
  let t := s.ownWrite (rankRecord ch) [1, BitVec.ofNat 32 k, BitVec.ofNat 32 (s.fld (GR_CHAN0_spare_cs ch))]
  let t := ((t.setFld (GR_CHAN1_state ch) CH_MIGRATING).setFld (GR_CHAN2_ptr ch) 0).setFld (GR_CHAN2_mig_rank ch) k
  ((t.setFld (GR_CHAN3_progress_pm ch) 0).setFld (GR_CHAN3_poisoned_lines ch) 0).raise2 GR_SPARE_START ch k

/-- A rank fails (R259). -/
def State.failRank (s : State) (ch cs kind symbols addr : Nat) : State :=
  let t := s.logError ch addr kind symbols cs
  let k := (s.rankAt ch cs).getD (s.fld (GR_CHAN2_mig_rank ch))
  if !s.spareFree ch then t.raise2 GR_NO_SPARE ch k
  else if s.flag GR_ECC_auto_spare && (s.rankAt ch cs).isSome then t.startMigration ch k else t

/-- A corrected read of a chip select (R244, R259). -/
def State.corrected (s : State) (ch cs symbols addr : Nat) : State :=
  let n := s.fld GR_ECC_ce_thresh
  let l := (s.tick :: tabGet (fun _ => []) (s.chan ch).ceTimes cs).take n
  let full := decide (n ≤ l.length) && decide (s.tick - l.getLastD s.tick ≤ s.fld GR_ECC_ce_window_s * 800000000)
  let t := (s.count (GR_CHAN_CE_ce_count ch cs) 1).modChan ch (fun c =>
    { c with ceTimes := tabSet (fun _ => []) c.ceTimes cs (if full then [] else l) })
  t.doIf full (fun u => u.failRank ch cs 5 symbols addr)

/-- A read that returns E_POISON to a requester (R262). The row of a plane fetch is replaced as it is sent (R111). -/
def State.poisonRead (s : State) (r a : Nat) : State :=
  let p := s.placeOf a
  let t := s.emit (.lineData r (a / 64) none)
  if r = 32 ∨ r = 33 then t
  else
    let t := t.replacedLine r
    t.doIf ([30, 31, 35, 36].contains r) (·.logError p.ch a 2 7 ((s.route261 p false).headD 0))

/-- READ_DECODE, R244, R259, R262: the word that a read of a line returns: 32 data symbols, then 8 check symbols. -/
def execReadDecode (r : Fin 37) (addr : BitVec 40) (symbols : List (BitVec 16)) (s : State) : Result :=
  let a := addr.toNat / 64 * 64
  let p := s.placeOf a
  let cs := (s.route261 p false).headD 0
  match decodeLine (symbols.map (·.toNat)) with
  | .data bytes n =>
    .next ((s.emit (.lineData r (a / 64) (some bytes))).doIf (decide (0 < n)) (·.corrected p.ch cs n a))
  | .poisoned => .next ((s.poison (a / 64)).poisonRead r a)
  | .uncorrectable =>
    let t := ((s.poison (a / 64)).count (GR_CHAN_CE_ue_count p.ch cs) 1).raise2 GR_UE p.ch cs
    .next ((t.poisonRead r a).failRank p.ch cs 2 7 a)

/-- ALERT_N, R259: a write-CRC error on a chip select; one that persists after 4 retries fails the rank. -/
def execAlertN (ch : Fin 8) (rank : Fin 4) (addr : BitVec 40) (persists : Bool) (s : State) : Result :=
  let a := addr.toNat / 64 * 64
  let again := s.burst true rank a (s.storedWord a)
  if persists then .next (again.failRank ch rank 3 0 a) else .next again

/-- MR4_POLL, R255, R259: the refresh-rate field of each chip select, and those whose read-back mismatches. -/
def execMr4Poll (ch : Fin 8) (op : List (BitVec 3)) (readbackBad : BitVec 4) (s : State) : Result :=
  if s.chState ch ≠ CH_RUN ∧ s.chState ch ≠ CH_MIGRATING then .next s
  else
    let n := s.fld (GR_CHAN0_ranks ch)
    let ops := (op.take n).map (·.toNat)
    let hot := ops.any (fun o => decide (4 ≤ o))
    let was := s.flag (GR_CHAN1_trefi_half ch)
    let top := ops.foldl max 0
    let t := s.doAll (List.range n) (fun u cs => u.emit (.dram ch 0 4 cs))
    let t := t.setFlag (GR_CHAN1_trefi_half ch) hot
    let owed := 2 * s.fld (GR_CHAN1_owed ch)
    let t := if hot ∧ !was then
        let u := t.setFld (GR_CHAN1_owed ch) owed
        if 4 < owed then (u.count (GR_CHAN8_refresh_catchup ch) (owed - 4)).raise2 GR_REFRESH_CATCHUP ch (owed - 4) else u
      else t
    let t := t.doIf (hot != was || decide (6 ≤ top)) (·.raise2 GR_MR4_HOT ch top)
    .next (t.doAll ((List.range n).filter (fun cs => readbackBad.getLsbD cs)) (fun u cs => u.failRank ch cs 4 0 0))

/-- ZQ_CALIBRATION, R239: ZQ calibration and DQS-oscillator tracking fall due on every running channel, for its next refresh. -/
def execZqCalibration (s : State) : Result :=
  .next (s.doAll (s.channels.filter (fun c => s.chState c == CH_RUN || s.chState c == CH_MIGRATING)) (fun t c =>
    t.modChan c (fun x => { x with zqDue := true })))

/-- Migration ends: the spare takes the logical rank (R260). -/
def State.endMigration (s : State) (ch : Nat) : State :=
  let k := s.fld (GR_CHAN2_mig_rank ch)
  let old := s.csOf ch k
  let t := s.setFld ⟨GR_CHAN1 ch, 9 + 2 * k, 2⟩ (s.fld (GR_CHAN0_spare_cs ch))
  let t := t.setFld ⟨GR_CHAN1 ch, 17 + old, 1⟩ 1
  ((t.setFld (GR_CHAN1_spare_used ch) 1).setFld (GR_CHAN1_state ch) CH_RUN).raise2 GR_SPARE_DONE ch
    (min 32767 (t.fld (GR_CHAN3_poisoned_lines ch)))

/-- A line written to the spare, poisoned where it is, and the line's content from then on (R260). -/
def State.copyLine (s : State) (ch a : Nat) (l : List Byte) (bad : Bool) : State :=
  let t := (s.burst true (s.fld (GR_CHAN0_spare_cs ch)) a (codeword l bad)).store a l
  t.doIf bad (fun u => (u.count (GR_CHAN3_poisoned_lines ch) 1).poison (a / 64))

/-- The pointer moves past the line copied. -/
def State.copied (s : State) (ch : Nat) : State :=
  let n := s.fld (GR_CHAN2_ptr ch) + 1
  let t := (s.setFld (GR_CHAN2_ptr ch) n).setFld (GR_CHAN3_progress_pm ch) (n * 1000 / s.rankLines)
  t.doIf (decide (s.rankLines ≤ n)) (·.endMigration ch)

/-- MIGRATION_LINE_COPY, R244, R259, R260, R262: the next line of the rank is read, decoded and written to the spare: its data as it
decodes, else as read and poisoned; it waits for a write that is pending to it. -/
def execMigrationLineCopy (ch : Fin 8) (symbols : List (BitVec 16)) (s : State) : Result :=
  if s.chState ch ≠ CH_MIGRATING then .next s
  else
    let k := s.fld (GR_CHAN2_mig_rank ch)
    let p := s.rankPlace ch k (s.fld (GR_CHAN2_ptr ch))
    let a := s.addrOf p
    let cs := s.csOf ch k
    let x := s.sub (2 * ch.val + p.sub)
    let word := symbols.map (·.toNat)
    let raw := (word.take 32).flatMap (natLe 2)
    if x.writes.any (fun w => w.addr == a) then
      .next ((s.count (GR_CHAN8_raw_waits ch) 1).modSub (2 * ch.val + p.sub) (fun y => { y with drain := max 1 y.drain }))
    else
      let t := s.burst false cs a []
      match decodeLine word with
      | .data l n => .next (((t.doIf (decide (0 < n)) (·.corrected ch cs n a)).copyLine ch a l false).copied ch)
      | .poisoned => .next ((t.copyLine ch a raw true).copied ch)
      | .uncorrectable =>
        let t := (t.count (GR_CHAN_CE_ue_count ch cs) 1).raise2 GR_UE ch cs
        .next (((t.failRank ch cs 2 7 a).copyLine ch a raw true).copied ch)

end Sys2Proof.Machine
end

