-- ==== Sys2Proof/Machine/Fields.lean ====
section
/-!
DEFINITION. The rules of one field (R273 step 1, R294): range rules, rules between the fields of one word, fields that
the present state closes, and when a block is active (R10, R279).
-/

namespace Sys2Proof.Machine

/-! ## Range rules -/

/-- The code of a range rule for a value, 0 where the value is taken. -/
def Chk.code (c : Chk) (v : Nat) : Nat :=
  match c with
  | .any => 0
  | .nonzero => if v = 0 then E_ZERO else 0
  | .nonzeroRange lo hi => if v = 0 then E_ZERO else if v < lo ∨ hi < v then E_RANGE else 0
  | .range lo hi => if v < lo ∨ hi < v then E_RANGE else 0
  | .badOutside lo hi => if v < lo ∨ hi < v then E_BAD_ARG else 0
  | .group => if 4 ≤ v ∧ v ≤ 6 then E_RANGE else 0
  | .aligned n => if v % 2 ^ n ≠ 0 then E_BAD_ARG else 0

/-! ## Where a word lies -/

/-- Words of the blocks that belong to one head (R1). -/
def Blk.ofHead (b : Blk) : Bool := [Blk.rvh, .cpHead, .ts, .sq, .sqWin, .lm, .lmCode].contains b

/-- Words of the blocks that belong to one group. -/
def Blk.ofGroup (b : Blk) : Bool := [Blk.layer, .raster, .cpGroup, .cpLut].contains b

def unitOf (ns : List Nat) : Nat := ns.headD 0

/-- Whether a word belongs to a head that the part lacks (R1). -/
def State.absent (s : State) (b : Blk) (ns : List Nat) : Bool := b.ofHead && decide (s.nHeads ≤ unitOf ns)

/-- A head whose group's raster runs. -/
def State.groupRuns (s : State) (h : Nat) : Bool := decide (h < s.nHeads) && s.rasterOn (s.groupOf h)

/-- Whether a block is active, so that its SO fields change only through a sheaf (R10, R14, R59, R76, R98, R116, R157,
R159, R203, R236, R279). A head, bank or matrix in no group is idle (R271). -/
def State.active (s : State) (b : Blk) (ns : List Nat) : Bool :=
  let n := unitOf ns
  match b with
  | .topology => s.heads'.any s.headOn
  | .ingest => s.flag (HD_INGEST_CTRL_enable n)
  | .rvh => s.headOn n && decide (s.groupOf n < 4)
  | .layer | .raster | .cpGroup | .cpLut => s.rasterOn n
  | .monitor => s.flag HD_MON0_enable
  | .cpHead | .ts | .sq | .sqWin | .lm | .lmCode => s.groupRuns n
  | .string => s.bankOn (s.strBank n)
  | .bank | .ccBank => s.bankOn n && decide (s.bankGroup n < 4)
  | .dbPort => s.dbOn n
  | .matrix => s.matrixOn n && decide (s.groupOf (s.fld (ZN_MAT0_head n)) < 4)
  | .triad => s.flag (CC_TRIAD0_enable n)
  | .ccGroup => s.flag (CC_GROUP0_enable n)
  | .loop => s.loopOn n
  | .pg => s.genOn n
  | .lw => (s.lwMembers n).any (fun e => s.loopOn e.1)
  | .inj => s.flag (CE_INJ0_running n)
  | .cap => s.fld CE_CAP4_state == CAP_ARMED || s.fld CE_CAP4_state == CAP_RUNNING
  | _ => false

/-! ## Rules of fields and words -/

/-- Whether an on-die or XTS sensor number may stand in a neighbour field of sensor `n` (R330). -/
def neighbourCode (n v : Nat) : Nat := if v = n ∨ (36 ≤ v ∧ v ≤ 62) then E_RANGE else 0

/-- Whether every Granary channel is OFF (R264). -/
def State.granaryOff (s : State) : Bool := (List.range 8).all (fun c => s.chState c == CH_OFF)

/-- Whether the levels of a context come from the split of its matrix's head (R195). -/
def State.splitLevel (s : State) (c : Nat) : Bool :=
  match s.zoneMatrix c with
  | some z => s.flag (CP_HEAD_CTRL_split_en (s.fld (ZN_MAT0_head z)))
  | none => false

/-- The part of a field's rule that its unit and the present state decide: `v` is the value to be written. -/
def State.fieldState (s : State) (b : Blk) (n : Nat) (f : FieldRow) (v : Nat) : Nat :=
  if f.offOnly then (if s.granaryOff then 0 else E_STATE)
  else
    match b, f.name with
    | .topology, "head2_group" => if s.nHeads ≤ 2 ∧ v ≠ 7 then E_RANGE else 0
    | .topology, "head3_group" => if s.nHeads ≤ 2 ∧ v ≠ 7 then E_RANGE else 0
    | .bank, "head" | .matrix, "head" | .triad, "head" => if s.nHeads ≤ v then E_RANGE else 0
    | .lm, name => if name.startsWith "len_" ∧ s.nHeads ≤ v ∧ v < 4 then E_RANGE else 0
    | .sensor, "nb0" | .sensor, "nb1" | .sensor, "nb2" | .sensor, "nb3" => neighbourCode n v
    | .fw, "stage_lo" | .fw, "stage_hi" => if s.fld FW_STATE_phase = 0 then 0 else E_STATE
    | .pg, "target" => if s.owned n then E_STATE else 0
    | .zoneCtx, "level" => if s.splitLevel n then E_STATE else 0
    | .crc, "still_frames" => if v ≠ 0 ∧ s.groupLine n then E_CONFLICT else 0
    | _, _ => 0

/-- Whether the named bits of a Granary address may stand for bank groups, banks and ranks (R241). -/
def State.mapCode (s : State) : Nat :=
  let ranks := (s.channels.map s.dataRanks).foldl max 1
  let bg := [s.fld GR_FIELDS_bg0, s.fld GR_FIELDS_bg1, s.fld GR_FIELDS_ba0, s.fld GR_FIELDS_ba1]
  let rk := if ranks = 1 then [] else if ranks = 2 then [s.fld GR_FIELDS_rk0] else [s.fld GR_FIELDS_rk0, s.fld GR_FIELDS_rk1]
  let width := (if s.flag GR_CTRL_density then 27 else 26) + rk.length
  if !(bg ++ rk).Nodup ∨ (bg ++ rk).any (fun b => decide (width ≤ b)) then E_RANGE
  else if ranks = 3 ∧ rk.any (fun b => decide (b + 2 < width)) then E_RANGE
  else 0

/-- Rules between the fields of one word, on the state with the word written: R20, R156, R159, R237, R246, R265, R241. -/
def State.wordCode (s : State) (name : String) (n : Nat) : Nat :=
  match name with
  | "TH_AVS_LIMITS" => if s.fld TH_AVS_LIMITS_vmax_mv < s.fld TH_AVS_LIMITS_vmin_mv then E_RANGE else 0
  | "LM_FREQ" => if s.fld (LM_FREQ_f_max n) < s.fld (LM_FREQ_f_min n) then E_RANGE else 0
  | "LS_BANK1" => if s.fld (LS_BANK1_short_code n) < s.fld (LS_BANK1_open_code n) then 0 else E_RANGE
  | "CE_CAP1" => if s.fld CE_CAP1_length < s.fld CE_CAP1_pre then E_RANGE else 0
  | "GR_SCHED" => if s.fld GR_SCHED_wq_low < s.fld GR_SCHED_wq_high ∧ s.fld GR_SCHED_wq_high ≤ 64 then 0 else E_RANGE
  | "GR_CHAN0" => if s.flag (GR_CHAN0_spare_en n) ∧ s.fld (GR_CHAN0_ranks n) = 1 then E_RANGE else s.mapCode
  | "GR_CTRL" | "GR_FIELDS" => s.mapCode
  | _ => 0

/-- Whether a field counts as written by a plain write: RW and SO fields that change (R294). -/
def FieldRow.changed (f : FieldRow) (old new : Word) : Bool :=
  (f.acc == .rw || f.acc == .so) && getBits old f.lo f.width != getBits new f.lo f.width

/-- The first failing field rule among `fs` for the word `new`. -/
def State.fieldCodes (s : State) (b : Blk) (n : Nat) (new : Word) (fs : List FieldRow) : Nat :=
  firstCode (fs.map (fun f =>
    let v := getBits new f.lo f.width
    firstCode [f.chk.code v, s.fieldState b n f v]))

/-- The bits of the fields with one of the given accesses. -/
def accMask (r : WordRow) (l : List Acc) : Word :=
  (r.fields.filter (fun f => l.contains f.acc)).foldl (fun m f => m ||| fieldMask f.lo f.width) 0

/-- The index of the word as it stands in the tables: windows address the bank that is not in use (R86, R136, R151). -/
def State.storeKey (s : State) (k : Nat) : Nat :=
  match locate k with
  | some (r, ns) =>
    let n := unitOf ns
    let bank := match r.blk with
      | .cpLut => some (1 - s.fld (CP_CTRL_lut_bank n))
      | .sqWin => some (1 - s.fld (SQ_CTRL_seq_bank n))
      | .lmCode => some (1 - s.fld (LM_CTRL_code_bank n))
      | _ => none
    match bank with
    | some b => winBase + b * winBank + k
    | none => k
  | none => k

/-- The bits of a sensor word that a write leaves: on-die sensors ignore enable = 0 and every bit of word 3 (R330). -/
def fixedBits (r : WordRow) (k : Nat) : Word :=
  if 16 ≤ (k - 0x70100) / 4 then
    (if r.name = "TH_SENSOR0" then fieldMask 24 1 else if r.name = "TH_SENSOR3" then 0xFFFFFFFF else 0)
  else 0

/-- A word with the RW and SO bits of a mask written. -/
def State.writeBits (s : State) (r : WordRow) (k : Nat) (mask value : Word) : State :=
  let key := s.storeKey k
  s.setWord key (maskWord (s.word key) (mask &&& accMask r [.rw, .so] &&& ~~~fixedBits r k) value)

/-- Step 1 of R273 for one entry, on the state as the entries before it leave it. -/
def State.entryCode (s : State) (e : Entry) : Nat :=
  match locate e.index with
  | none => E_BAD_ARG
  | some (r, ns) =>
    if s.absent r.blk ns then E_RANGE
    else
      let n := unitOf ns
      let all := accMask r [.ro, .rw, .w1c, .wo, .so]
      if e.mask &&& e.value &&& ~~~all ≠ 0 ∨ e.mask &&& accMask r [.ro] ≠ 0 then E_BAD_ARG
      else
        let t := s.writeBits r e.index e.mask e.value
        let fs := r.fields.filter (fun f => (f.acc == .rw || f.acc == .so) && getBits e.mask f.lo f.width != 0)
        firstCode [s.fieldCodes r.blk n (t.word (s.storeKey e.index)) fs, if fs.isEmpty then 0 else t.wordCode r.name n]

end Sys2Proof.Machine
end

