-- ==== Sys2Proof/Machine/Checks.lean ====
section
/-!
DEFINITION. The consistency, admission and capacity rules of the chapters (R273 step 4, R279), each judged on the state
words as a commit or an enable would leave them, in ascending order of their labels. A rule is judged where the commit
or enable changes a word of a block that it names.
-/

namespace Sys2Proof.Machine

/-- The words that follow from others of the same commit: the look-ahead of the split (R92). -/
def State.lookWords (s : State) : State :=
  s.doAll s.heads' (fun t h =>
    (t.setFld (CP_HEAD_STATUS_lookahead h) (t.lookaheadOf h)).setFld (CP_HEAD_STATUS_reach_v h) (t.reachV h))

/-- The first failing code over a list of units. -/
def codeOver {α : Type} (l : List α) (f : α → Nat) : Nat := firstCode (l.map f)

/-- E_CONFLICT, or any code, where a condition holds. -/
def failIf (c : Bool) (code : Nat) : Nat := if c then code else 0

/-- Whether a list names something twice. -/
def repeats {α : Type} [BEq α] : List α → Bool
  | [] => false
  | a :: t => t.contains a || repeats t

/-- Whether two of a list of ranges, first and one past the last, overlap. -/
def overlaps : List (Nat × Nat) → Bool
  | [] => false
  | a :: t => t.any (fun b => decide (a.1 < b.2) && decide (b.1 < a.2) && decide (a.1 < a.2) && decide (b.1 < b.2)) ||
      overlaps t

/-! ## Heads -/

/-- The words of the head block of `h`, at their places and behind its windows. -/
def State.headRegs (s : State) (h : Nat) : Tab Word :=
  s.regs.filter (fun e => decide (0x10000 + h * 0x4000 ≤ e.1 % winBank) && decide (e.1 % winBank < 0x14000 + h * 0x4000))

/-- The configuration of a head that its rules read: group and mode, the words of its block, the raster words of its group,
and its banks. -/
def State.headView (s : State) (h : Nat) : Nat × Bool × Tab Word × List Word × List (Nat × Word) :=
  let g := s.groupOf h
  (g, s.lineMode h, s.headRegs h,
   [HD_RASTER0 g, HD_RASTER1 g, HD_RASTER2 g, HD_RASTER3 g, HD_RASTER4 g, HD_RASTER5 g, HD_RASTER6 g].map s.word,
   ((List.range 8).filter (fun b => s.bankOn b && s.fld (LS_BANK0_head b) == h)).map (fun b => (b, s.word (LS_BANK0 b))))

/-- Whether the rules of a head are judged in view `v` of state `s`: it is enabled, in a group, and the group's raster runs,
the head is being enabled, or its configuration changes (R41, R120). -/
def State.judged (s v : State) (h : Nat) : Bool :=
  v.headOn h && decide (v.groupOf h < 4) &&
    (v.rasterOn (v.groupOf h) || !s.headOn h || decide (s.headView h ≠ v.headView h))

def State.planeHeads (s v : State) : List Nat := v.heads'.filter (fun h => s.judged v h && !v.lineMode h)
def State.lineHeads (s v : State) : List Nat := v.heads'.filter (fun h => s.judged v h && v.lineMode h)

/-- The slots that a head would play (R120). -/
def State.slotsOf (s : State) (h : Nat) : List Slot := s.slots h (s.fld (SQ_CTRL_seq_bank h))

/-- R12: a head in no group is not enabled. -/
def State.r12 (s v : State) : Nat :=
  codeOver v.heads' (fun h => failIf (v.headOn h && !s.headOn h && decide (4 ≤ v.groupOf h)) E_CONFLICT)

/-- Whether the heads of a group differ in mode, or in band count in plane mode (R13). -/
def State.mixed (s : State) (g : Nat) : Bool :=
  let l := s.headsOf g
  (l.any s.lineMode && l.any (fun h => !s.lineMode h)) ||
  (l.all (fun h => !s.lineMode h) && decide (1 < ((l.map s.nBands).dedup).length))

/-- What R13 judges of a group: its heads, their modes and their bands. -/
def State.mixture (s : State) (g : Nat) : List (Nat × Bool × Nat) := (s.headsOf g).map (fun h => (h, s.lineMode h, s.nBands h))

/-- R13: an enable into a mixed group, or a commit that changes what a group is made of and leaves it mixed. -/
def State.r13 (s v : State) : Nat :=
  codeOver (List.range 4) (fun g => failIf (v.mixed g && (decide (s.mixture g ≠ v.mixture g) ||
    (v.headsOf g).any (fun h => v.headOn h && !s.headOn h))) E_CONFLICT)

/-- The bytes of a frame of a layer, chroma included. -/
def State.layerBytes (s : State) (g l : Nat) : Nat :=
  let f := s.layerFormat g l
  s.layerWidth g l * bytesPerPixel f * (s.layerHeight g l + chromaLines f (s.layerHeight g l))

/-- The frame rate of a group in Hz. DESIGN CHOICE, log 125: a line-mode group with no measured half period is taken at the
highest line rate that its LM_FREQ.f_max allows. -/
def State.groupRate (s : State) (g : Nat) : Rat :=
  if s.groupLine g then
    if s.groupFrameTu g ≠ 0 then (16000000000000 : Rat) / (s.groupFrameTu g : Nat)
    else match s.headsOf g with
      | h :: _ => (2 * s.fld (LM_FREQ_f_max h) : Nat) / (s.sweepsPerFrame h : Nat)
      | [] => 0
  else s.frameRate g

/-- The enabled layers (R26, R425). -/
def State.liveLayers (s : State) : List (Nat × Nat) :=
  (List.range 4).flatMap (fun g => ((List.range 4).filter (s.layerOn g)).map (fun l => (g, l)))

/-- The enabled plane-mode heads of groups: R26 and R115 count them whether or not their raster runs. -/
def State.planesOn (s : State) : List Nat := s.heads'.filter s.threshes

/-- Class A demand of a head: writes of its Granary planes, and the loads of its list that read them (R26). -/
def State.planeDemand (s : State) (h : Nat) : Rat :=
  let g := s.groupOf h
  let loads := ((s.slotsOf h).filter (fun k => k.op == opLight && !k.hold && !s.lofted h k.plane)).length
  (((s.nGranary h + loads) * s.hActive g * s.vActive g : Nat) : Rat) / 8 * s.frameRate g

def State.classA (v : State) : Rat :=
  (v.liveLayers.map (fun e => (v.layerBytes e.1 e.2 : Rat) * v.groupRate e.1)).sum +
  (v.planesOn.map v.planeDemand).sum

def State.classB (v : State) : Rat :=
  ((v.liveLayers.filter (fun e => v.ingestFed e.1 e.2)).map (fun e => (v.layerBytes e.1 e.2 : Rat) * v.groupRate e.1)).sum

/-- The configured peak in bytes per second. -/
def State.peak (s : State) : Rat :=
  ((s.channels.length * 8 * (if s.fld GR_CTRL_rate = 0 then 4800 else if s.fld GR_CTRL_rate = 1 then 5600 else 6400)
    * 1000000 : Nat) : Rat)

/-- R26: admission to the Granary. -/
def State.r26 (_ v : State) : Nat :=
  failIf (decide (v.peak < 2 * v.classA) || decide (v.peak * 65 < 100 * (v.classA + v.classB))) E_CAPACITY

/-- R41: a configuration that exceeds valid CAPS. -/
def State.r41 (s v : State) : Nat :=
  codeOver (s.planeHeads v ++ s.lineHeads v) (fun h =>
    failIf (v.flag (HD_RVH_STATUS_caps_valid h) && v.capsFail h (v.port (h + 2)).caps) E_CONFLICT)

/-! ## Layers and rasters -/

def allLayers : List (Nat × Nat) := (List.range 4).flatMap (fun g => (List.range 4).map (fun l => (g, l)))

/-- R54: L2 and L3 take packed formats only, at a layer enable or a commit that sets the format. -/
def State.r54 (s v : State) : Nat :=
  codeOver allLayers (fun e => failIf (decide (2 ≤ e.2) && isYc (v.layerFormat e.1 e.2) &&
    (v.layerOn e.1 e.2 || v.layerFormat e.1 e.2 != s.layerFormat e.1 e.2)) E_BAD_ARG)

/-- R56: an enabled layer: its even sizes, and the ring of an ingest-fed one. -/
def State.r56 (_ v : State) : Nat :=
  codeOver allLayers (fun e => failIf (v.layerOn e.1 e.2 && (!v.evenSize e.1 e.2 || v.ingestFed e.1 e.2 &&
    !v.bufferGood e.1 e.2 (v.ringBase e.1 e.2) (v.ringStride e.1 e.2))) E_BAD_ARG)

def State.rasters (s : State) : List Nat := (List.range 4).filter s.rasterOn

/-- R73: least blanking of a plane-mode raster. -/
def State.r73 (_ v : State) : Nat :=
  codeOver v.rasters (fun g => failIf (!v.groupLine g && (decide (v.hBlank g < 16) || decide (v.vBlank g < 8))) E_RANGE)

/-- R74: no variable blanking and no still mode in a line-mode group. -/
def State.r74 (_ v : State) : Nat :=
  codeOver v.rasters (fun g => failIf (v.groupLine g && (v.vrr g || v.fld (HD_STILL_CTRL_still_frames g) != 0)) E_CONFLICT)

/-- R75: variable blanking. -/
def State.r75 (_ v : State) : Nat :=
  codeOver (v.rasters.filter v.vrr) (fun g =>
    let l := v.fld (HD_RASTER0_vrr_layer g)
    firstCode [failIf (!(decide (v.vTotal g ≤ v.fld (HD_RASTER6_min_lines g)) &&
        decide (v.fld (HD_RASTER6_min_lines g) ≤ v.fld (HD_RASTER6_max_lines g)))) E_RANGE,
      failIf (!(v.layerOn g l && v.ingestFed g l)) E_CONFLICT])

/-- R83: the rate of an enabled monitor output. -/
def State.r83 (_ v : State) : Nat :=
  let g := v.fld HD_MON0_group
  let d : Rat := (2 ^ v.fld HD_MON0_decimate : Nat)
  let bits : Rat := if v.flag HD_MON0_rgb10 then 30 else 24
  let need := (11 : Rat) / 10 * ((v.hActive g : Nat) / d) * ((v.vActive g : Nat) / d) * bits * v.groupRate g /
    (v.fld HD_MON0_refresh_div : Nat)
  failIf (v.flag HD_MON0_enable &&
    decide (((v.fld HD_MON0_lanes * v.fld HD_MON1_lane_mbps * 1000000 : Nat) : Rat) < need)) E_CAPACITY

/-! ## Colour pipeline, Thresher and plane store -/

/-- R89: the split. -/
def State.r89 (s v : State) : Nat :=
  codeOver (s.planeHeads v ++ s.lineHeads v) (fun h =>
    if !v.flag (CP_HEAD_CTRL_split_en h) then 0
    else
      let g := v.groupOf h
      let fits := match v.matrixOf h with
        | some z => decide ((v.zx z - 1) * v.zoneW h < v.hActive g) && decide (v.hActive g ≤ v.zx z * v.zoneW h) &&
            decide ((v.zy z - 1) * v.zoneH h < v.vActive g) && decide (v.vActive g ≤ v.zy z * v.zoneH h)
        | none => false
      firstCode [failIf (v.lineMode h) E_CONFLICT, failIf ((v.comps h).length != 1) E_CONFLICT, failIf (!fits) E_CONFLICT,
        failIf ([false, true].any (fun d => [false, true].any (fun b => v.phaseSum h d b == 0))) E_BAD_ARG,
        failIf (decide (512 < v.lookaheadOf h)) E_RANGE,
        failIf (decide (v.fld (TS_LOFT_WIN_win_size h) < v.delayBytes h / 65536)) E_CAPACITY])

/-- R102: plane ranges of the components that a head shows. -/
def State.r102 (s v : State) : Nat :=
  codeOver (s.planeHeads v) (fun h =>
    firstCode [codeOver (v.comps h) (fun c => firstCode [failIf (v.nPlanes h c == 0) E_ZERO,
        failIf (decide (24 < v.nPlanes h c)) E_RANGE, failIf (decide (64 < v.planeBase h c + v.nPlanes h c)) E_RANGE]),
      failIf (overlaps ((v.comps h).map (fun c => (v.planeBase h c, v.planeBase h c + v.nPlanes h c)))) E_CONFLICT])

/-- R106: no band without rows. -/
def State.r106 (s v : State) : Nat :=
  codeOver (s.planeHeads v) (fun h =>
    failIf (decide (v.vActive (v.groupOf h) ≤ (v.nBands h - 1) * v.bandRows h)) E_RANGE)

/-- The ranges of old regions of other heads that are still in use (R113): plane stores, and loft windows. -/
def State.oldStores (s : State) (h : Nat) : List (Nat × Nat) :=
  (s.heads'.filter (· != h)).flatMap (fun k => (s.headOf k).oldRegions.map (fun r => (r.1, r.2.1)))
def State.oldWindows (s : State) (h : Nat) : List (Nat × Nat) :=
  (s.heads'.filter (· != h)).flatMap (fun k => (s.headOf k).oldRegions.map (fun r => (r.2.2.1, r.2.2.2)))

def State.storeRange (s : State) (h : Nat) : Nat × Nat := (s.storeBase h, s.storeBase h + s.storeSize h)
def State.window (s : State) (h : Nat) : Nat × Nat :=
  (s.fld (TS_LOFT_WIN_win_base h), s.fld (TS_LOFT_WIN_win_base h) + s.fld (TS_LOFT_WIN_win_size h))

/-- Heads with a plane store and a loft window. -/
def State.storeHeads (s : State) : List Nat := s.planesOn

/-- R108: plane stores of two heads do not overlap. -/
def State.r108 (_ v : State) : Nat :=
  failIf (overlaps (v.storeHeads.map v.storeRange) ||
    v.storeHeads.any (fun h => (v.oldStores h).any (fun o => overlaps [v.storeRange h, o]))) E_CONFLICT

/-- R115: the loft. -/
def State.r115 (_ v : State) : Nat :=
  let l := v.storeHeads
  firstCode [failIf (l.any (fun h => decide (2048 < (v.window h).2))) E_RANGE,
    failIf (overlaps (l.map v.window) || l.any (fun h => (v.oldWindows h).any (fun o => overlaps [v.window h, o]))) E_CONFLICT,
    failIf (l.any (fun h => decide (v.fld (TS_LOFT_WIN_win_size h) < v.loftNeed h))) E_CAPACITY,
    failIf (decide ((4640000000000 : Rat) < (v.planesOn.map v.loftDemand).sum)) E_CAPACITY]

/-! ## Sequences -/

/-- R119 again at a commit or enable. -/
def State.r119 (s v : State) : Nat :=
  codeOver (s.planeHeads v) (fun h => (v.seqRefusal h (v.fld (SQ_CTRL_seq_bank h))).1)

/-- The number of positions of a head's pixel shift (R135). -/
def State.shiftPositions (s : State) (h : Nat) : Nat := 2 ^ s.fld (SQ_CTRL_shift_positions h)

/-- R135: the SHIFT slots of a list. -/
def State.shiftCode (v : State) (h : Nat) (l : List Slot) : Nat :=
  let n := v.shiftPositions h
  let sh := (l.filter (fun k => k.op == opShift)).map (·.plane)
  firstCode [failIf (sh.length != (if n = 1 then 0 else n) || repeats sh || sh.any (fun p => decide (n ≤ p))) E_BAD_ARG,
    failIf (!sh.isEmpty && !v.globalPhase h) E_CONFLICT]

/-- The list of the bank that a running head plays now, where a commit swaps it (R130). -/
def State.oldSlots (s v : State) (h : Nat) : List Slot :=
  if s.headOn h && s.rasterOn (s.groupOf h) then s.slotsOf h else v.slotsOf h

/-- R120, with R125, R130 and R135. -/
def State.r120 (s v : State) : Nat :=
  codeOver (s.planeHeads v) (fun h =>
    let l := v.slotsOf h
    let caps := (v.port (h + 2)).caps.toNat
    let known := v.flag (HD_RVH_STATUS_caps_valid h)
    firstCode [failIf (l.any (fun k => k.op == opLight && !(v.planes h).contains k.plane)) E_BAD_ARG,
      failIf (l.any (fun k => (v.banksOf h k.prim).isEmpty)) E_CONFLICT,
      failIf (v.nBands h == 0) E_ZERO, failIf (decide (32 < v.nBands h)) E_RANGE,
      failIf (known && decide (bits caps 32 8 < v.nBands h)) E_CONFLICT,
      failIf (known && v.globalPhase h && !bitOf caps 50) E_CONFLICT,
      failIf (!v.zoneLit h && decide (1 < v.nBands h) && !v.globalPhase h) E_CONFLICT,
      failIf (decide (v.minTicks h < v.listTicks h l)) E_RANGE,
      failIf (decide (v.scheduleSlack h l l < 0) || decide (v.scheduleSlack h (s.oldSlots v h) l < 0)) E_CAPACITY,
      v.shiftCode h l])

/-- R122: a slot that resets outlasts the settle. -/
def State.r122 (s v : State) : Nat :=
  codeOver (s.planeHeads v) (fun h => failIf ((v.slotsOf h).any (fun k =>
    k.op == opLight && !k.hold && decide (k.duration ≤ v.fld (SQ_SETTLE_settle_ticks h)))) E_RANGE)

/-- The lit time in ticks of a slot that lights: LIGHT and MEASURE slots. -/
def State.windowTicks (s : State) (h : Nat) (k : Slot) : Nat := if k.op = opMeasure then k.duration else s.litTicks h k

/-- R163: a lit window has at least 2 ticks. -/
def State.r163 (s v : State) : Nat :=
  codeOver (s.planeHeads v) (fun h => failIf ((v.slotsOf h).any (fun k =>
    (k.op == opLight || k.op == opMeasure) && decide (v.windowTicks h k < 2))) E_RANGE)

/-! ## Line mode -/

def State.planeComps (s : State) (h : Nat) : List Nat := s.comps h

/-- R142. -/
def State.r142 (s v : State) : Nat :=
  codeOver (s.lineHeads v) (fun h =>
    let g := v.groupOf h
    let fb := v.fld (LM_SCAN_flyback_sweeps h)
    firstCode [failIf (v.vActive g % v.fld (LM_CTRL_beams h) != 0) E_RANGE, failIf (fb == 0) E_ZERO, failIf (fb == 1) E_RANGE,
      failIf (v.hActive g != v.tableCount h (v.fld (LM_CTRL_table_bank h))) E_CONFLICT,
      failIf ((List.range (v.fld (LM_CTRL_channels h))).any (fun c => !(v.comps h).contains (v.chanComp h c))) E_CONFLICT])

/-- R143. -/
def State.r143 (s v : State) : Nat :=
  codeOver (s.lineHeads v) (fun h =>
    let bank := v.fld (LM_CTRL_table_bank h)
    let last := v.emission h bank (v.tableCount h bank - 1) + (v.sfld (LM_TRIM_rev_trim h)).natAbs
    let centre := v.fld (LM_CENTRE_centre_fs h)
    firstCode [failIf (decide (v.halfMinTu h ≤ ((max centre last * tuFine : Nat) : Rat))) E_RANGE,
      failIf (v.flag (HD_RVH_STATUS_caps_valid h) && v.sweepFail h (v.tAct h)) E_CAPACITY])

/-! ## Strings and banks -/

def State.banksOn (s : State) : List Nat := (List.range 8).filter s.bankOn
def State.stringsOn (s : State) : List Nat := (List.range 64).filter (fun n => s.flag (LS_STRING0_enable n))

/-- R158. -/
def State.r158 (_ v : State) : Nat :=
  firstCode [failIf (v.banksOn.any (fun b => decide (16 < (v.members b).length))) E_CAPACITY,
    failIf (repeats (v.stringsOn.map (fun n =>
      (v.fld (LS_STRING0_port n), v.fld (LS_STRING0_addr n), v.fld (LS_STRING0_chan n))))) E_CONFLICT,
    failIf (v.banksOn.any (fun b => decide (4 ≤ v.bankGroup b) || v.lineMode (v.fld (LS_BANK0_head b)))) E_CONFLICT]

/-- R159: bus limits of an enabled bank. -/
def State.r159 (_ v : State) : Nat :=
  codeOver v.banksOn (fun b => firstCode [failIf (v.fld (LS_BANK3_vbus_max_mv b) == 0) E_ZERO,
    failIf (decide (v.fld (LS_BANK3_vbus_max_mv b) < v.fld (LS_BANK3_vbus_min_mv b))) E_RANGE])

/-- R160: mask bits beyond the members. -/
def State.r160 (_ v : State) : Nat :=
  codeOver v.banksOn (fun b => failIf ((List.range 15).any (fun w =>
    decide (2 ^ (v.members b).length ≤ v.fld (LS_LEVEL_mask b w)))) E_BAD_ARG)

/-- The timed outputs in use: strings, selects and PWM outputs (R161, R192, R223). -/
def State.outUsers (s : State) : List Nat :=
  s.stringsOn.map s.strOut ++ ((List.range 4).filter s.matrixOn).flatMap s.selects ++
  ((List.range 64).filter (fun l => s.loopOn l && s.fld (CE_LOOP00_out_kind l) == 2)).map
    (fun l => s.fld (CE_LOOP05_out_index l))

/-- R161: one user to a timed output. -/
def State.r161 (_ v : State) : Nat := failIf (repeats v.outUsers) E_CONFLICT

/-- R165: one enabled bank, and no loops, to a lowest-wins group. -/
def State.r165 (_ v : State) : Nat :=
  failIf (repeats (v.banksOn.map (fun b => v.fld (LS_BANK7_lw_group b))) ||
    v.banksOn.any (fun b => !(v.lwMembers (v.fld (LS_BANK7_lw_group b))).isEmpty)) E_CONFLICT

/-- R168: the bus converter of a bank being enabled reports the linear mode. -/
def State.r168 (s v : State) : Nat :=
  codeOver v.banksOn (fun b => failIf (!s.bankOn b && decide (32 ≤ (v.voutMode b).toNat)) E_CONFLICT)

/-! ## Matrices -/

def State.matricesOn (s : State) : List Nat := (List.range 4).filter s.matrixOn
def State.matHead (s : State) (z : Nat) : Nat := s.fld (ZN_MAT0_head z)

/-- R189: each matrix has a plane-mode head of its own, lit by its supply bank alone. -/
def State.r189 (_ v : State) : Nat :=
  failIf (repeats (v.matricesOn.map v.matHead) ||
    v.matricesOn.any (fun z => v.lineMode (v.matHead z) ||
      v.fld (LS_BANK0_head (v.fld (ZN_MAT0_supply_bank z))) != v.matHead z ||
      v.banksOn.any (fun b => b != v.fld (ZN_MAT0_supply_bank z) && v.fld (LS_BANK0_head b) == v.matHead z))) E_CONFLICT

/-- R191: band-locked. -/
def State.r191 (_ v : State) : Nat :=
  codeOver v.matricesOn (fun z =>
    let h := v.matHead z
    failIf (v.zy z % v.nBands h != 0 || v.zb z * v.zoneH h != v.bandRows h || v.zb z % v.mux z != 0) E_CONFLICT)

/-- R193: the drivers of a matrix. -/
def State.r193 (_ v : State) : Nat :=
  codeOver v.matricesOn (fun z =>
    let own := (v.zoneDrvs z).map (v.zoneDriver z)
    let others := (v.stringsOn.map (fun n => (v.fld (LS_STRING0_port n), v.fld (LS_STRING0_addr n)))) ++
      (v.matricesOn.filter (· != z)).flatMap (fun y => (v.zoneDrvs y).map (v.zoneDriver y))
    firstCode [failIf (v.zx z * v.groupRows z % v.fld (ZN_MAT4_chans z) != 0) E_CONFLICT,
      failIf (own.any (fun d => decide (7 < d.1) || decide (0x7E < d.2))) E_RANGE,
      failIf (own.any others.contains) E_CONFLICT])

/-- R194: the contexts of a matrix. -/
def State.r194 (_ v : State) : Nat :=
  let range := fun z => (v.fld (ZN_MAT2_ctx_base z), v.fld (ZN_MAT2_ctx_base z) + v.zx z * v.zy z)
  firstCode [failIf (v.matricesOn.any (fun z => decide (40960 < (range z).2))) E_CAPACITY,
    failIf (overlaps (v.matricesOn.map range)) E_CONFLICT]

/-! ### The schedule of a matrix on the driver bus (R199) -/

/-- A bit time of a port in tu. -/
def State.bitTu (s : State) (p : Nat) : Nat := 40000 * 2 ^ s.fld (DB_PORT0_rate p)

/-- The wire time of `n` bytes on a port. -/
def State.bytesTu (s : State) (p n : Nat) : Nat :=
  ceilDiv n (if s.flag (DB_PORT0_lanes4 p) then 4 else 1) * 8 * s.bitTu p

/-- The least gap before the device's next frame (R174). -/
def State.gapTu (s : State) (p : Nat) : Nat := 16 * s.bitTu p

/-- An exchange of a request of `n` payload bytes that is answered at once with an ACK, with the gap after it. -/
def State.exchangeTu (s : State) (p n : Nat) : Nat :=
  s.bytesTu p (n + 5) + 8 * s.bitTu p + s.bytesTu p 6 + s.gapTu p

/-- The starts of a band's slots in a frame, in ticks from A_n. -/
def slotStarts : List Slot → Nat → List (Slot × Nat)
  | [], _ => []
  | k :: t, a => (k, a) :: slotStarts t (a + k.duration)

/-- The largest latch delay of the drivers of a band, in tu; IDENT gives it in units of 100 ns (R175). -/
def State.bandDelay (s : State) (z b : Nat) : Nat :=
  ((s.bandDrvs z b).map (fun d => let pa := s.zoneDriver z d
    (s.driver (drvKey pa.1 pa.2)).delay)).foldl max 0 * 100 * tuNs

/-- The instants at which the ZONE_STEPs of band `b` end, in tu from A_n. -/
def State.stepEnds (s : State) (z b : Nat) : List Int :=
  let h := s.matHead z
  (slotStarts (s.slotsOf h) (s.bandStart h b)).flatMap (fun e =>
    let k := e.1
    if k.op = opLight ∨ k.op = opMeasure then
      let on := if k.op = opLight ∧ !k.hold then e.2 + s.fld (SQ_SETTLE_settle_ticks h) else e.2
      (s.rowWindows z k (32 * on) (32 * s.windowTicks h k)).map (fun r =>
        ((r.2.1 * tuFine : Nat) : Int) - (s.winnowFine z * tuFine + s.bandDelay z b : Nat))
    else [])

/-- Whether a sorted list of frames of length `len` that must end at given instants leaves the gap between them. -/
def stepsFit (len gap : Int) : List Int → Bool
  | a :: b :: t => decide (a + gap + len ≤ b) && stepsFit len gap (b :: t)
  | _ => true

/-- The end of an exchange that may start at `at0`, held back from the frames that it would delay. -/
def heldEnd (len stepLen gap : Int) : List Int → Int → Int
  | [], at0 => at0 + len
  | e :: t, at0 => if e + gap ≤ at0 ∨ at0 + len ≤ e - stepLen then heldEnd len stepLen gap t at0
      else heldEnd len stepLen gap t (e + gap)

/-- The enabled matrices of the group of a matrix: their frames begin together. -/
def State.matricesWith (s : State) (z : Nat) : List Nat :=
  s.matricesOn.filter (fun y => s.groupOf (s.matHead y) == s.groupOf (s.matHead z))

/-- The ZONE_STEPs on port `p` in the frame before and in this one, in rising order: those of the matrices that share the frame
and are in line scan. -/
def State.portSteps (s : State) (z p : Nat) : List Int :=
  let l := ((s.matricesWith z).filter (fun y => !s.flag (ZN_MAT0_scan_mode y))).flatMap (fun y =>
    ((List.range (s.nBands (s.matHead y))).filter (fun b => (s.bandPorts y b).contains p)).flatMap (s.stepEnds y))
  let frame : Int := s.frameTu (s.groupOf (s.matHead z))
  ((l.map (· - frame)) ++ l).insertionSort (· ≤ ·)

/-- When the codes of zone row `m` are fixed, in tu from A_n (R197). -/
def State.rowFixed (s : State) (z m : Nat) : Int :=
  let h := s.matHead z
  let g := s.groupOf h
  if s.flag (CP_HEAD_CTRL_split_en h) then (s.linesTu g (min (s.vActive g) ((m + 1) * s.zoneH h)) : Nat)
  else -((s.linesTu g (s.vBlank g) : Nat) : Int)

/-- The exchanges of a matrix on a port in the order of the rows: when each may start, its length, and the decision instant of
the band it serves. -/
def State.levelJobs (s : State) (z p : Nat) : List (Int × Int × Int) :=
  let h := s.matHead z
  (List.range (s.zy z)).flatMap (fun m =>
    (levelRuns (s.fld (ZN_MAT4_chans z)) (s.zx z) (s.zoneQ z 0 m) (s.zx z) 0).filterMap (fun e =>
      if (s.zoneDriver z e.1).1 = p then
        some (s.rowFixed z m, ((s.exchangeTu p (4 + 3 * e.2.2.2) : Nat) : Int),
          ((s.bandStart h (m / max 1 (s.zb z)) : Int) - s.leadTicks h) * tuTick)
      else none))

/-- The exchanges of the matrices that share a frame and a port, in the order in which they may start. -/
def State.portJobs (s : State) (z p : Nat) : List (Int × Int × Int) :=
  ((s.matricesWith z).flatMap (fun y => s.levelJobs y p)).insertionSort (fun a b => a.1 ≤ b.1)

/-- Whether every exchange ends by its decision instant, where the port is free from `free` on. -/
def levelsFit (stepLen gap : Int) (steps : List Int) : List (Int × Int × Int) → Int → Bool
  | [], _ => true
  | j :: t, free =>
    let done := heldEnd j.2.1 stepLen gap steps (max j.1 free)
    decide (done - gap ≤ j.2.2) && levelsFit stepLen gap steps t done

/-- The ports of a matrix. -/
def State.matPorts (s : State) (z : Nat) : List Nat := ((s.zoneDrvs z).map (fun d => (s.zoneDriver z d).1)).dedup

/-- R199: the windows of a matrix, and its schedule. -/
def State.r199 (_ v : State) : Nat :=
  codeOver v.matricesOn (fun z =>
    let h := v.matHead z
    let tw := v.fld (ZN_MAT3_winnow_ticks z)
    let lit := (v.slotsOf h).filter (fun k => k.op == opLight || k.op == opMeasure)
    let len := fun k => 32 * v.windowTicks h k
    let scan := v.flag (ZN_MAT0_scan_mode z)
    firstCode [failIf (decide (1 < v.mux z) && decide (tw < 160)) E_RANGE,
      failIf (decide (v.fld (SQ_SETTLE_settle_ticks h) < tw)) E_RANGE,
      failIf (!scan && lit.any (fun k => decide (2560 * v.slotFrac z k k.w < (v.stepWeight z k k.w (len k) : Nat)))) E_RANGE,
      failIf (!scan && lit.any (fun k => decide (v.slice z k (len k) < 64))) E_RANGE,
      failIf ((v.matPorts z).any (fun p =>
        let steps := v.portSteps z p
        !stepsFit (v.bytesTu p 12 : Nat) (v.gapTu p : Nat) steps ||
        !levelsFit (v.bytesTu p 12 : Nat) (v.gapTu p : Nat) steps (v.portJobs z p)
          (-(v.linesTu (v.groupOf h) (v.vBlank (v.groupOf h)) : Nat)))) E_CAPACITY])

/-- R201: self-scan. -/
def State.r201 (_ v : State) : Nat :=
  codeOver (v.matricesOn.filter (fun z => v.flag (ZN_MAT0_scan_mode z))) (fun z =>
    let h := v.matHead z
    let step := v.fld (ZN_MAT5_step_ticks z)
    let lit := (v.slotsOf h).filter (fun k => k.op == opLight)
    firstCode [failIf (!v.scanPorts z) E_CONFLICT,
      failIf (decide (step < v.fld (ZN_MAT3_winnow_ticks z) + 2)) E_RANGE,
      failIf (lit.any (fun k => decide (v.gateTicks z k k.w (32 * v.windowTicks h k) < v.mux z * step))) E_RANGE])

/-! ## Colour constancy -/

/-- R208: at least 8 samples at 2 MS/s in a MEASURE slot. -/
def State.r208 (s v : State) : Nat :=
  codeOver (s.planeHeads v) (fun h =>
    let skip := v.fld (CC_GROUP0_skip_us (v.groupOf h))
    failIf ((v.slotsOf h).any (fun k => k.op == opMeasure && decide (k.duration < 800 * (skip + 1) + 8 * 400))) E_RANGE)

/-- R216: no loop for a line-mode group. -/
def State.r216 (_ v : State) : Nat :=
  codeOver (List.range 4) (fun g => failIf (v.flag (CC_GROUP0_enable g) && v.groupLine g) E_CONFLICT)

/-! ## Control engine -/

def State.loopsOn (s : State) : List Nat := (List.range 64).filter s.loopOn

/-- R217. -/
def State.r217 (_ v : State) : Nat :=
  codeOver v.loopsOn (fun l => firstCode [failIf (decide (v.period l ≤ v.fld (CE_LOOP02_offset_ticks l))) E_RANGE,
    failIf (decide (v.period l < 160) || (v.fld (CE_LOOP00_out_kind l) == 1 && decide (v.period l < 400))) E_RANGE])

/-- R218: loops of one analogue input share their instants. -/
def State.r218 (_ v : State) : Nat :=
  let l := (v.loopsOn.filter (fun l => v.fld (CE_LOOP04_in_kind l) == 0)).map (fun l =>
    (v.fld (CE_LOOP04_in_index l) % 16, v.period l, v.fld (CE_LOOP02_offset_ticks l)))
  failIf (l.any (fun a => l.any (fun b => a.1 == b.1 && a != b))) E_CONFLICT

/-- R219: the load of a lane. -/
def State.r219 (_ v : State) : Nat :=
  codeOver [0, 1] (fun m => failIf (decide ((4 : Rat) / 5 < v.laneLoad m)) E_CAPACITY)

/-- The line-mode heads. -/
def State.scanHeads (s : State) : List Nat := s.heads'.filter s.scans

/-- R220: the loops of a line-mode head. -/
def State.r220 (_ v : State) : Nat :=
  codeOver v.scanHeads (fun h => failIf ([v.fastLoop h, v.slowLoop h].any (fun l =>
    decide (v.fld (CE_LOOP03_phase_ticks l) < v.wcrTicks l) || decide (960 < v.fld (CE_LOOP03_phase_ticks l)))) E_CAPACITY)

/-- R223: a DAC has one loop; a PWM has a period. -/
def State.r223 (_ v : State) : Nat :=
  firstCode [failIf (v.loopsOn.any (fun l => v.fld (CE_LOOP00_out_kind l) == 2 && v.fld (CE_LOOP06_pwm_ticks l) == 0)) E_ZERO,
    failIf (repeats ((v.loopsOn.filter (fun l => v.fld (CE_LOOP00_out_kind l) == 1)).map
      (fun l => v.fld (CE_LOOP05_out_index l)))) E_CONFLICT]

/-- The plane-mode heads with a pixel shift. -/
def State.shiftHeads (s : State) : List Nat :=
  s.heads'.filter (fun h => s.headOn h && !s.lineMode h && s.fld (SQ_CTRL_shift_positions h) != 0)

/-- Whether an enabled head or a lowest-wins group names a loop (R225). -/
def State.loopNamed (s : State) (l : Nat) : Bool :=
  s.scanHeads.any (fun h => s.fastLoop h == l || s.slowLoop h == l) ||
  s.shiftHeads.any (fun h => s.fld (CE_PG0_loop (s.fld (SQ_CTRL_shift_pg h))) == l) ||
  (List.range 16).any (fun n => (s.lwMembers n).any (fun e => e.1 == l))

/-- R225: a loop in use is not disabled. -/
def State.r225 (s v : State) : Nat :=
  codeOver (List.range 64) (fun l => failIf (s.loopOn l && !v.loopOn l && v.loopNamed l) E_STATE)

/-- R226: thresholds further apart than the hysteresis. -/
def State.r226 (_ v : State) : Nat :=
  codeOver v.loopsOn (fun l => failIf ((List.range (v.fld (CE_LOOP00_n_sets l) - 2)).any (fun k =>
    decide (v.sfld (CE_LOOP_TH_th l (k + 1)) - v.sfld (CE_LOOP_TH_th l k) ≤ 2 * (v.fld (CE_LOOP0E_hyst l) : Int)))) E_RANGE)

/-- R227: limits. -/
def State.r227 (_ v : State) : Nat :=
  codeOver v.loopsOn (fun l =>
    let lo := v.sfld (CE_LOOP08_out_min l)
    let hi := v.sfld (CE_LOOP09_out_max l)
    let safe := v.sfld (CE_LOOP0A_out_safe l)
    failIf (!(decide (lo < hi) && decide (lo ≤ safe) && decide (safe ≤ hi))) E_RANGE)

/-- Whether a generator drives a loop. -/
def State.drivesLoop (s : State) (g l : Nat) : Bool :=
  s.genOn g && s.fld (CE_PG0_loop g) == l && s.flag (CE_LOOP00_sp_src l)

/-- The generators that heads name. -/
def State.namedGens (s : State) : List Nat :=
  (s.heads'.filter (fun h => s.headOn h && decide (s.groupOf h < 4))).flatMap s.headGens

/-- R228: generators. -/
def State.r228 (_ v : State) : Nat :=
  firstCode [failIf (repeats (((List.range 8).filter v.genOn).map (fun g => v.fld (CE_PG0_loop g)))) E_CONFLICT,
    failIf (v.loopsOn.any (fun l => v.flag (CE_LOOP00_sp_src l) && (v.gensOf l).isEmpty)) E_CONFLICT,
    failIf (v.scanHeads.any (fun h => !v.drivesLoop (v.fld (LM_CTRL_slow_pg h)) (v.slowLoop h)) ||
      v.shiftHeads.any (fun h => let g := v.fld (SQ_CTRL_shift_pg h)
        !v.drivesLoop g (v.fld (CE_PG0_loop g)))) E_CONFLICT,
    failIf (repeats v.namedGens) E_CONFLICT]

/-- R231: the slow loop of a line-mode head is supervised. -/
def State.r231 (_ v : State) : Nat :=
  codeOver v.scanHeads (fun h => failIf (v.fld (CE_LOOP0F_fe_limit (v.slowLoop h)) == 0) E_CONFLICT)

/-- What the members of a group share. -/
def State.loopShape (s : State) (l : Nat) : Nat × Nat × Nat × Nat :=
  (s.fld (CE_LOOP00_lane l), s.period l, s.fld (CE_LOOP02_offset_ticks l), s.fld (CE_LOOP03_phase_ticks l))

/-- R233: groups of loops. An enable of one loop judges the members that are enabled, a commit all of them. -/
def State.r233 (commit : Bool) (_ v : State) : Nat :=
  codeOver (List.range 16) (fun n =>
    let all := (v.lwMembers n).map (·.1)
    let on := all.filter v.loopOn
    let l := if commit then all else on
    if l.isEmpty then 0
    else failIf (!l.all v.loopOn || decide (1 < ((l.map v.loopShape).dedup).length) ||
      (all.drop 1).any (fun k => l.contains k && v.fld (CE_LOOP00_out_kind k) != 0)) E_CONFLICT)

/-! ## Sensors -/

/-- The XTS inputs that enabled banks name, and those that enabled loops read. -/
def State.xtsNamed (s : State) (i : Nat) : Bool :=
  s.banksOn.any (fun b => bitOf (s.fld (LS_BANK6_xts_mask b)) i) ||
  s.loopsOn.any (fun l => s.fld (CE_LOOP04_in_kind l) == 3 && s.fld (CE_LOOP04_in_index l) == i)

/-- R318: a bank names enabled inputs; an input in use is not disabled. -/
def State.r318 (s v : State) : Nat :=
  codeOver (List.range 16) (fun i =>
    let on := v.flag (TH_SENSOR0_enable i)
    firstCode [failIf (s.flag (TH_SENSOR0_enable i) && !on && v.xtsNamed i) E_STATE,
      failIf (!on && v.banksOn.any (fun b => bitOf (v.fld (LS_BANK6_xts_mask b)) i)) E_CONFLICT])

/-! ## The rules in order -/

/-- A rule: the blocks whose words bring it to be judged, and its code for a present state and a view. -/
abbrev Rule := List Blk × (State → State → Nat)

/-- Rules of labels 12 to 115, ascending. -/
def rulesPicture : List Rule :=
  [([.rvh], State.r12), ([.topology, .rvh, .sq], State.r13),
   ([.topology, .rvh, .layer, .raster, .cpHead, .ts, .sq, .sqWin], State.r26),
   ([.topology, .rvh, .raster, .sq, .lm], State.r41), ([.layer], State.r54), ([.layer], State.r56),
   ([.raster, .topology], State.r73), ([.raster, .topology], State.r74), ([.raster, .layer], State.r75),
   ([.monitor, .raster, .lm], State.r83),
   ([.topology, .rvh, .raster, .cpHead, .ts, .matrix], State.r89),
   ([.topology, .rvh, .raster, .cpHead, .ts], State.r102), ([.topology, .rvh, .raster, .sq], State.r106),
   ([.topology, .rvh, .raster, .cpHead, .ts, .sq], State.r108),
   ([.topology, .rvh, .layer, .raster, .cpHead, .ts, .sq, .sqWin], State.r115)]

/-- Rules of labels 119 to 194, ascending. -/
def rulesSequence : List Rule :=
  [([.topology, .rvh, .raster, .cpHead, .ts, .sq, .sqWin, .bank, .matrix], State.r119),
   ([.topology, .rvh, .raster, .cpHead, .ts, .sq, .sqWin, .bank, .matrix], State.r120),
   ([.topology, .rvh, .raster, .sq, .sqWin], State.r122),
   ([.topology, .rvh, .raster, .cpHead, .lm], State.r142), ([.topology, .rvh, .raster, .lm], State.r143),
   ([.string, .bank, .topology], State.r158), ([.bank], State.r159), ([.string, .bank], State.r160),
   ([.string, .bank, .matrix, .loop, .sq], State.r161), ([.topology, .rvh, .raster, .sq, .sqWin], State.r163),
   ([.bank, .lw], State.r165), ([.bank], State.r168),
   ([.bank, .matrix, .topology], State.r189), ([.matrix, .sq, .cpHead, .raster, .topology], State.r191),
   ([.matrix, .string, .sq], State.r193), ([.matrix], State.r194)]

/-- Rules of labels 199 to 318, ascending. -/
def rulesLoops (commit : Bool) : List Rule :=
  [([.matrix, .sq, .sqWin, .raster, .cpHead, .dbPort, .topology, .rvh], State.r199),
   ([.matrix, .sq, .sqWin, .string, .bank], State.r201), ([.topology, .rvh, .raster, .sq, .sqWin, .ccGroup], State.r208),
   ([.ccGroup, .topology], State.r216), ([.loop], State.r217), ([.loop], State.r218), ([.loop], State.r219),
   ([.loop, .lm, .rvh, .topology], State.r220), ([.loop], State.r223), ([.loop], State.r225), ([.loop], State.r226),
   ([.loop], State.r227), ([.loop, .pg, .lm, .sq, .rvh, .topology], State.r228), ([.loop, .lm, .rvh, .topology], State.r231),
   ([.loop, .lw], State.r233 commit), ([.bank, .sensor], State.r318)]

/-- The rules in ascending label. -/
def rules (commit : Bool) : List Rule := rulesPicture ++ (rulesSequence ++ rulesLoops commit)

/-- The first failing rule among those that name one of the blocks changed. -/
def State.ruleCode (s v : State) (commit : Bool) (blks : List Blk) : Nat :=
  let w := v.lookWords
  firstCode ((rules commit).map (fun r => if r.1.any blks.contains then r.2 s w else 0))

/-- The words that R26, R115 and R219 are judged on (R275). -/
def admissionBlks : List Blk := [.topology, .rvh, .layer, .raster, .cpHead, .ts, .sq, .sqWin, .loop]

/-- The field whose rise is the enable of a block. -/
def Blk.enables (b : Blk) : Bool :=
  [Blk.ingest, .rvh, .layer, .raster, .monitor, .bank, .matrix, .dbPort, .triad, .ccGroup, .loop, .pg, .sensor].contains b

end Sys2Proof.Machine
end

