-- ==== Sys2Proof/Machine/Thermal.lean ====
section
/-!
DEFINITION. "Temperature sensing and throttling": sensors, their cross-checks and substitutes, tracked temperatures, the
plane-load budget, the hold, the alarm and the write window (R317 to R329). The device's timers reach this block as the
commands that mark their ends; runs that a rule counts in samples are counted by the sample period (log 41).
-/

namespace Sys2Proof.Machine

/-- The sample period in ms (R317). -/
def samplePeriod (n : Nat) : Nat := if n < 16 then 4 else 1

def State.sensorOn (s : State) (n : Nat) : Bool := s.flag (TH_SENSOR0_enable n)

/-- Whether a sensor is trusted and has converted. -/
def State.trusted (s : State) (n : Nat) : Bool := s.flag (TH_SENSOR2_trusted n) && (s.sensor n).converted

/-- An enabled sensor that has failed a test. -/
def State.suspect (s : State) (n : Nat) : Bool := s.sensorOn n && (s.sensor n).converted && !s.flag (TH_SENSOR2_trusted n)

/-- The values in use: those of sensors that are enabled and have converted (R318). -/
def State.sensorUsed (s : State) (n : Nat) : Bool := s.sensorOn n && (s.sensor n).converted

def State.tempReading (s : State) (n : Nat) : Int := s.sfld (TH_SENSOR1_reading n)
def State.tempValue (s : State) (n : Nat) : Int := s.sfld (TH_SENSOR1_value n)

/-- The readings of a sensor's trusted neighbours. -/
def State.neighbours (s : State) (n : Nat) : List Int :=
  ([s.fld (TH_SENSOR0_nb0 n), s.fld (TH_SENSOR0_nb1 n), s.fld (TH_SENSOR0_nb2 n), s.fld (TH_SENSOR0_nb3 n)].filter
    (fun k => decide (k < 36) && s.trusted k)).map s.tempReading

/-- Twice the median: with an even count the mean of the two middle readings (R319). -/
def twiceMedian (l : List Int) : Option Int :=
  let v := l.insertionSort (· ≤ ·)
  if v.isEmpty then none
  else if v.length % 2 = 1 then (v[v.length / 2]?).map (· * 2)
  else some (v.getD (v.length / 2 - 1) 0 + v.getD (v.length / 2) 0)

/-- A run of a condition: 0 while it does not hold, else its length in ms plus 1. -/
def runOn (c : Bool) (old period : Nat) : Nat := if !c then 0 else if old = 0 then 1 else old + period

/-- What a sensor's runs become with a reading, the last reading and twice the neighbour median (R319). -/
def Sensor.runs (x : Sensor) (period : Nat) (old new : Int) (bad : Bool) (med : Option Int) : Sensor :=
  let x := { x with rangeRun := if bad then x.rangeRun + 1 else 0, converted := true }
  let x := if new = old && x.stuckMs != 0 then { x with stuckMs := x.stuckMs + period }
    else { x with stuckMs := 1, stuckLow := 1, stuckHigh := 0 }
  match med with
  | none => { x with diffMs := 0, nearMs := 0 }
  | some m =>
    let far : Nat := (2 * new - m).natAbs
    let x := if x.stuckHigh < x.stuckLow then { x with stuckLow := m, stuckHigh := m }
      else { x with stuckLow := min x.stuckLow m, stuckHigh := max x.stuckHigh m }
    { x with diffMs := runOn (decide (128 < far)) x.diffMs period, nearMs := runOn (decide (64 < far)) x.nearMs period }

/-- The test a sensor fails: 1 range, 2 stuck, 3 neighbour, 0 none; `tight` has the neighbour limit at 4 °C. One that is `alone`,
with no trusted neighbour, is tested for range only. -/
def Sensor.fails (x : Sensor) (tight alone : Bool) : Nat :=
  if 3 ≤ x.rangeRun then 1
  else if alone then 0
  else if 30000 < x.stuckMs ∧ x.stuckLow + 32 ≤ x.stuckHigh then 2
  else if 201 < (if tight then x.nearMs else x.diffMs) then 3
  else 0

/-- A sensor is excluded (R319, R325). -/
def State.exclude (s : State) (n cause : Nat) : State :=
  let t := ((s.setFlag (TH_SENSOR2_trusted n) false).setFld (TH_SENSOR2_cause n) cause).modSensor n
    (fun x => { x with passMs := 0, last := s.tempValue n })
  (((t.count (TH_SENSOR2_suspect_count n) 1).count TH_GLOBAL5_exclusions 1).setFlag TH_GLOBAL3_hold true).raise
    TH_SENSOR_SUSPECT n

/-- The substitute of a suspect sensor (R321). -/
def State.tempSubst (s : State) (n : Nat) : Int :=
  match (s.neighbours n).max? with
  | some v => v + s.sfld (TH_SENSOR2_offset n)
  | none =>
    let kin := ((List.range 36).filter (fun k => (decide (k < 16) == decide (n < 16)) && s.trusted k)).map s.tempReading
    (kin.max?.getD (s.sensor n).last) + 64

/-- The value of every sensor (R321). A STALE sensor keeps its last value. -/
def State.sensorValues (s : State) : State :=
  let t := s.doAll ((List.range 36).filter (fun n => s.trusted n && !s.measuring 6 n)) (fun u n =>
    u.setInt (TH_SENSOR1_value n) (u.tempReading n))
  t.doAll ((List.range 36).filter (fun n => s.suspect n && !s.measuring 6 n)) (fun u n =>
    u.setInt (TH_SENSOR1_value n) (clampI (t.tempSubst n) (-2048) 2047))

/-- A tracked temperature with a new measured one (R323): the tracked one, and whether a stay below it has begun. -/
def trackStep (tt t hyst : Int) : Int × Bool := if tt < t then (t, false) else (tt, decide (t < tt - hyst))

def State.hyst (s : State) : Int := 8 * s.fld TH_GLOBAL1_hyst_c

/-- The on-die sensors that have converted. -/
def State.dieSensors (s : State) : List Nat := ((List.range 20).map (· + 16)).filter s.sensorUsed

/-- T_die, T_min, hottest, Tt, and the write window (R323, R328). -/
def State.dieWords (s : State) : State :=
  let l := s.dieSensors.map (fun n => (s.tempValue n, n))
  match (l.map (·.1)).max?, (l.map (·.1)).min? with
  | some hi, some lo =>
    let hot := ((l.find? (fun e => e.1 == hi)).map (·.2)).getD 0
    let (tt, below) := trackStep (s.sfld TH_GLOBAL4_die_tracked) hi s.hyst
    let t := (((s.setInt TH_GLOBAL3_die_max hi).setInt TH_GLOBAL4_die_min lo).setFld TH_GLOBAL3_hottest hot).setInt
      TH_GLOBAL4_die_tracked tt
    let soak := if hi ≤ lo + 12 then t.thermal.soak.or (some t.tick) else none
    ({ t with thermal := { t.thermal with below := below, soak := soak } }).setFlag TH_GLOBAL3_nv_window (decide (0 ≤ lo) && decide (hi ≤ 720))
  | _, _ => s

/-- Member 2 of a bank falls at once with its formula (R326). -/
def State.memberFall (s : State) (b : Nat) : State :=
  s.modBank b (fun k => { k with member2 := min k.member2 (s.derate b) })

/-- The tracked temperature of a bank (R326). -/
def State.bankTrack (s : State) (b : Nat) : State :=
  match s.bankTemp b with
  | some t =>
    let (tt, below) := trackStep (s.bank b).kneeTracked t s.hyst
    (s.modBank b (fun k => { k with kneeTracked := tt, below := below })).memberFall b
  | none => s

/-- The alarm threshold of a sensor (R327). -/
def State.alarmLevel (s : State) (n : Nat) : Int :=
  8 * (if n < 16 then s.sfld TH_GLOBAL2_alarm_ext_c else s.sfld TH_GLOBAL2_alarm_die_c)

/-- The alarm after a sample of sensor `n` (R327): raised once its run reaches dwell_ms; ended when every value has stayed
below its threshold minus hyst_c for dwell_ms. -/
def State.alarmStep (s : State) (n : Nat) : State :=
  let v := s.tempValue n
  let lim := s.alarmLevel n
  let dwell := s.fld TH_GLOBAL1_dwell_ms
  let x := s.sensor n
  let up := runOn (decide (lim ≤ v)) x.alarmMs (samplePeriod n)
  let down := runOn (decide (v < lim - s.hyst)) x.clearMs (samplePeriod n)
  let newly := decide (dwell < up) && !x.alarm
  let t := s.setSensor n { x with alarmMs := up, clearMs := down, alarm := x.alarm || newly }
  let t := t.doIf newly (fun u => u.raise2 TH_ALARM n (unsigned 15 (lim / 8)))
  if ((List.range 36).filter t.sensorUsed).all (fun k => decide (dwell < (t.sensor k).clearMs)) then
    t.doAll (List.range 36) (fun u k => u.doIf (u.sensor k).alarm (·.modSensor k (fun y => { y with alarm := false })))
  else t

/-- A conversion in 0.125 °C: the number itself, or the resistance of an NTC input by its beta model (R318); then the gain
and offset of calibration (R317, R331). -/
def State.converted (s : State) (n : Nat) (raw : Int) : Int :=
  let t := if n < 16 ∧ s.flag (TH_SENSOR3_type n) then
      Config.ntc raw.toNat (s.fld (TH_SENSOR3_ohm25 n)) (s.fld (TH_SENSOR3_beta_k n))
    else raw
  let cal := tabGet (fun _ => []) s.calUse (6 * 64 + n)
  let t := if n < 16 then ((t : Rat) * (cal.getD 1 32768 : Int) / 32768 + 1 / 2).floor else t
  t + cal.getD 0 0

/-- SENSOR_SAMPLE (R319, R321, R323, R325, R327, R328). -/
def execSensorSample (n : Fin 36) (raw : Int) (convFault : Bool) (s : State) : Result :=
  let n := n.val
  if !s.sensorOn n || s.measuring 6 n then .next s
  else
    let t := s.converted n raw
    let bad := convFault || decide (t < -360) || decide (1200 < t)
    let new := clampI t (-2048) 2047
    let first := !(s.sensor n).converted
    let alone := (s.neighbours n).isEmpty
    let x := (s.sensor n).runs (samplePeriod n) (s.tempReading n) new bad (twiceMedian (s.neighbours n))
    let u := (s.setInt (TH_SENSOR1_reading n) new).setSensor n x
    let u := u.doIf first (·.setFlag (TH_SENSOR2_trusted n) true)
    let u := if u.flag (TH_SENSOR2_trusted n) then
        (if x.fails false alone = 0 then u else u.exclude n (x.fails false alone))
      else u.modSensor n (fun y => { y with passMs := runOn (y.fails true alone == 0) y.passMs (samplePeriod n) })
    let u := u.sensorValues.dieWords
    let u := u.doAll ((List.range 8).filter (fun b => bitOf (s.fld (LS_BANK6_xts_mask b)) n || decide (16 ≤ n))) (·.bankTrack ·)
    .next (u.alarmStep n)

/-- A sensor becomes trusted again (R322): no hold starts, and its runs go on. -/
def State.restoreSensor (s : State) (n : Nat) : State :=
  if s.suspect n then
    ((s.setFlag (TH_SENSOR2_trusted n) true).modSensor n (fun x => { x with passMs := 0 })).sensorValues.dieWords
  else s

/-- SENSOR_AUTO_RESTORE (R322). -/
def execSensorAutoRestore (n : Fin 36) (s : State) : Result :=
  .next (s.doIf (s.flag (TH_SENSOR0_auto_restore n.val) && decide (60000 < (s.sensor n.val).passMs)) (·.restoreSensor n.val))

/-- OFFSET_RECORD: once a second the difference of a trusted sensor and its highest trusted neighbour (R320). -/
def execOffsetRecord (n : Fin 36) (s : State) : Result :=
  let n := n.val
  .next (match (s.neighbours n).max? with
    | some m =>
      if s.trusted n && !s.measuring 6 n then
        let l := ((s.tempReading n - m) :: (s.sensor n).records).take 60
        (s.modSensor n (fun x => { x with records := l })).setInt (TH_SENSOR2_offset n)
          (((l.sum : Int) : Rat) / ((l.length : Nat) : Rat) + 1 / 2).floor
      else s
    | none => s)

/-- TRACKED_DWELL_EXPIRY: the die (none) or a bank has stayed below its tracked temperature for dwell_ms (R323). -/
def execTrackedDwellExpiry (bank : Option (Fin 8)) (s : State) : Result :=
  .next (match bank with
    | none =>
      if s.thermal.below then
        ({ s with thermal := { s.thermal with below := false } }).setInt TH_GLOBAL4_die_tracked
          (clampI (s.sfld TH_GLOBAL3_die_max + s.hyst) (-2048) 2047)
      else s
    | some b =>
      match (s.bank b.val).below, s.bankTemp b.val with
      | true, some t => s.modBank b.val (fun k => { k with kneeTracked := t + s.hyst, below := false })
      | _, _ => s)

/-- The target budget in per mille (R324). -/
def State.budgetTarget (s : State) : Nat :=
  let above : Int := s.sfld TH_GLOBAL4_die_tracked - 8 * s.fld TH_GLOBAL0_knee_c
  if s.fld TH_GLOBAL0_slope_pm = 0 ∨ above ≤ 0 then 1000
  else max (s.fld TH_GLOBAL0_floor_pm) (1000 - s.fld TH_GLOBAL0_slope_pm * above.toNat / 8)

/-- The budget set, in thousandths of a per mille; TH_THROTTLE is raised on each entry below 1000 (R324). -/
def State.setBudget (s : State) (milli : Nat) : State :=
  let t := ({ s with thermal := { s.thermal with fraction := milli % 1000 } }).setFld TH_GLOBAL3_budget_pm (milli / 1000)
  t.doIf (s.fld TH_GLOBAL3_budget_pm == 1000 && decide (milli / 1000 < 1000)) (·.raise TH_THROTTLE (milli / 1000))

/-- Member 2 of a bank after one more ms (R326). -/
def State.memberRise (s : State) (b : Nat) : State :=
  let goal := s.derate b
  let k := s.bank b
  if k.member2 < goal then
    s.doIf (!s.flag TH_GLOBAL3_hold) (·.setBank b
      { k with member2 := min goal (k.member2 + ((s.fld TH_GLOBAL1_release_pm : Nat) : Rat) / 1000000) })
  else if goal < k.member2 then s.setBank b { k with member2 := goal }
  else s

/-- BUDGET_UPDATE: every 1 ms (R324 to R326). -/
def execBudgetUpdate (s : State) : Result :=
  let now := s.fld TH_GLOBAL3_budget_pm * 1000 + s.thermal.fraction
  let goal := s.budgetTarget * 1000
  let t := if goal < now then s.setBudget goal
    else if now < goal ∧ !s.flag TH_GLOBAL3_hold then s.setBudget (min goal (now + s.fld TH_GLOBAL1_release_pm))
    else s
  .next (t.doAll (List.range 8) (·.memberRise ·))

/-- THROTTLE_HOLD_END: 10 s after the last exclusion (R325). -/
def execThrottleHoldEnd (s : State) : Result := .next (s.setFlag TH_GLOBAL3_hold false)

/-- NV_WINDOW_OPEN: the deferred writes are made in the order first deferred (R329). -/
def execNvWindowOpen (s : State) : Result := .next (s.doIf s.nvOpen (·.undefer))

/-- Enable or disable of an XTS input: the learned offset, the cause and what the tests have counted start anew, and the
input is trusted from its first conversion (R318). -/
def State.sensorSwitch (s : State) (n : Nat) : State :=
  (((s.setWord (TH_SENSOR1 n) 0).setSensor n Sensor.reset).setFld (TH_SENSOR2_offset n) 0).setFlag (TH_SENSOR2_trusted n)
    false |>.setFld (TH_SENSOR2_cause n) 0

end Sys2Proof.Machine
end

