-- ==== Sys2Proof/Machine/Apply.lean ====
section
/-!
DEFINITION. What written words do (R10, R279, R294): the write itself, the effect of each block's change, the acts of
write-only bits, and the words that follow from others. Plain writes and sheaves share it.
-/

namespace Sys2Proof.Machine

/-! ## Counters cleared -/

/-- The indices of a row's words whose repetition begins with the given numbers. -/
def keysUnder : List (Nat × Nat) → List Nat → Nat → List Nat
  | [], _, base => [base]
  | (_, st) :: ds, n :: ns, base => keysUnder ds ns (base + n * st)
  | (c, st) :: ds, [], base => (List.range c).flatMap (fun i => keysUnder ds [] (base + i * st))

/-- The counters of a block's unit cleared. -/
def State.clearCounts (s : State) (b : Blk) (ns : List Nat) : State :=
  s.doAll (wordTable.filter (fun r => r.blk == b)) (fun t r =>
    t.doAll (r.fields.filter (·.count)) (fun u f =>
      u.doAll (keysUnder r.dims ns r.base) (fun v k => v.setFld ⟨k, f.lo, f.width⟩ 0)))

/-! ## Heads and groups -/

/-- In global phase the load tags of all bands are equal: they follow band 0's (R128). -/
def State.evenTags (s : State) (h : Nat) : State :=
  s.doIf (s.globalPhase h) (fun t => t.doAll (List.range 32) (fun u b => u.modBandOf (h * 32 + b) (fun x =>
    { x with tag := (s.bandOf (h * 32)).tag })))

/-- Every band of a head begins anew. -/
def State.bandsReset (s : State) (h : Nat) : State :=
  (s.doAll (List.range 32) (fun t b => t.modBandOf (h * 32 + b) (fun x =>
    { Band.reset with tag := x.tag, lastTag := x.lastTag, staleDone := x.staleDone }))).evenTags h

/-- MODE for a change of a head's configuration: sent at once, or once the port is ACTIVE again (R41, R76, R148). -/
def State.remode (s : State) (h : Nat) : State :=
  if s.portUp (h + 2) then (s.sendMode h).doIf (s.lineMode h) (·.sendTiming h)
  else s.modPort (h + 2) (fun q => { q with modeDue := true, timingDue := q.timingDue || s.lineMode h })

/-- The line mode of a head begins anew, unlocked. -/
def State.lineReset (s : State) (h : Nat) : State := (s.setLine h Line.reset).setFld (LM_STATUS_locked h) 0

/-- A topology change (R15, R155): a head that changes group or mode goes dark until the next frame boundary of its group (log 47), and
its modulator is sent MODE again (log 46). -/
def State.topologyEffect (s0 s : State) (h : Nat) : State :=
  let group := s0.groupOf h != s.groupOf h
  let mode := s0.lineMode h != s.lineMode h
  if !group && !mode then s
  else
    let t := (s.doIf (s0.headOn h) (·.lowOuts (s0.headOuts h))).bandsReset h
    let t := ((t.gate h).doIf group (·.disarm h)).lineReset h
    let t := t.modHeadOf h (fun x =>
      { x with darkFrames := (s0.headOn h).toNat, splitFresh := true, oldRegions := []
               oldWords := [], heldWindows := [], shiftWaiting := false })
    t.doIf (decide (t.groupOf h < 4) && t.headOn h) (·.remode h)

/-- An ingest port's CTRL word (R34, R53). -/
def State.ingestEffect (s0 s : State) (p : Nat) : State :=
  let was := s0.flag (HD_INGEST_CTRL_enable p)
  let on := s.flag (HD_INGEST_CTRL_enable p)
  if !was && on then (s.streamsReset p).portEnable p
  else if was && !on then s.portDisable p
  else if on && s0.fld (HD_INGEST_CTRL_lanes p) != s.fld (HD_INGEST_CTRL_lanes p) then s.portRetrain p
  else s

/-- A head is enabled (R12, R34): it starts with no frame of its own. -/
def State.headEnable (s : State) (h : Nat) : State :=
  let t := ((s.bandsReset h).lineReset h).modHeadOf h (fun x => { Head.reset with frame := x.frame })
  (t.setFld (HD_RVH_RESULT_enable_result h) S_OK).portEnable (h + 2)

/-- A head is disabled: its light and its laser enables fall (R12, R153). -/
def State.headDisable (s0 s : State) (h : Nat) : State :=
  ((((s.lowOuts (s0.headOuts h)).gate h).portDisable (h + 2)).bandsReset h).lineReset h

/-- A head port's CTRL word (R12, R34, R53). -/
def State.rvhEffect (s0 s : State) (h : Nat) : State :=
  let was := s0.headOn h
  let on := s.headOn h
  if !was && on then s.headEnable h
  else if was && !on then s0.headDisable s h
  else if on && s0.fld (HD_RVH_CTRL_lanes h) != s.fld (HD_RVH_CTRL_lanes h) then s.portRetrain (h + 2)
  else s

/-- What makes the frames of an ingest ring no longer fit. -/
def State.ringShape (s : State) (g l : Nat) : List Nat :=
  [s.fld (HD_LAYER_CTRL_enable g l), s.fld (HD_LAYER_CTRL_source g l), s.layerFormat g l, s.layerHeight g l,
   s.fld (HD_LAYER_CTRL_ingest_port g l), s.fld (HD_LAYER_CTRL_ingest_stream g l), s.fld (HD_LAYER_CTRL_ring_count g l),
   s.ringBase g l, s.ringStride g l]

/-- A layer's words (R59, R60): its ring starts empty where it no longer fits. -/
def State.layerEffect (s0 s : State) (g l : Nat) : State :=
  if s0.ringShape g l = s.ringShape g l then s
  else (s.setRing (4 * g + l) []).modGroup g (fun x => { x with stillBroken := true })

/-- A group's raster words (R73, R76). -/
def State.rasterEffect (s0 s : State) (g : Nat) : State :=
  let was := s0.rasterOn g
  let on := s.rasterOn g
  if !was && on then
    ((s.setFld (HD_RASTER_STATUS_frame g) 0).modGroup g (fun x =>
      { Group.reset with learn := x.learn, latchPending := x.latchPending, stillBroken := true })).doAll (s.headsOf g)
      (fun t h => (t.bandsReset h).modHeadOf h (fun x => { x with dither := 0 }))
  else if was && !on then
    (s.setFld (HD_STILL_STATUS_in_still g) 0).doAll (s0.headsOf g) (fun t h =>
      (((t.lowOuts (s0.headOuts h)).dropLoads h).bandsReset h).modHeadOf h (fun x => { x with need := [], clipRow := 0 }))
  else if on && (s0.hActive g != s.hActive g || s0.vActive g != s.vActive g) then
    s.doAll ((s.headsOf g).filter (fun h => !s.lineMode h)) (fun t h =>
      let t := ((t.darkHead h).bandsReset h).modHeadOf h (fun x =>
        { x with darkFrames := 1, splitFresh := true, oldRegions := [], oldWords := [] })
      t.remode h)
  else s

/-! ## The plane layout (R112, R113) -/

/-- The words that make the plane layout of a head. -/
def layoutKeys (h : Nat) : List Nat :=
  [SQ_CTRL h, CP_HEAD_CTRL h, TS_COMP h 0, TS_COMP h 1, TS_COMP h 2, TS_LOFT_MASK4 h, TS_LOFT_MASK5 h, TS_STORE6 h,
   TS_STORE7 h, TS_LOFT_WIN h]

/-- What R112 counts as the layout. -/
def State.layoutOf (s : State) (h : Nat) : List Nat :=
  [s.nBands h, s.fld (CP_HEAD_CTRL_comp_mask h), s.planeBase h 0, s.nPlanes h 0, s.planeBase h 1, s.nPlanes h 1,
   s.planeBase h 2, s.nPlanes h 2, s.loftMask h, s.storeBase h, s.fld (TS_LOFT_WIN_win_base h), s.fld (TS_LOFT_WIN_win_size h)]

/-- A commit that changes the layout (R112, R113). Old copies stay readable in their own layout until they are replaced;
where a region that moves overlaps its old place the head is dark for one whole frame. -/
def State.layoutEffect (s0 s : State) (h : Nat) : State :=
  if s0.layoutOf h = s.layoutOf h then s
  else if !(s.threshes h && s.groupRuns h) then s.bandsReset h
  else
    let a := s0.storeRange h
    let b := s.storeRange h
    let c := s0.window h
    let d := s.window h
    let clash := (a != b && overlaps [a, b]) || (c != d && overlaps [c, d])
    let moved := a != b || c != d
    let t := s.modHeadOf h (fun x =>
      { x with oldRegions := if moved then (a.1, a.2, c.1, c.2) :: x.oldRegions else x.oldRegions
               oldWords := (layoutKeys h).map (fun k => (k, s0.word k)) })
    let t := t.doAll (List.range 32) (fun u i => u.modBandOf (h * 32 + i) (fun x =>
      { x with readyOnce := false, old0 := true, old1 := true, writing := false, curOk := false, otherOk := false }))
    if clash then
      (((t.darkHead h).bandsReset h).count (TS_CNTD_layout_dark h) 1).modHeadOf h (fun x => { x with darkFrames := 1, oldWords := [] })
    else t

/-- A head's colour, Thresher and sequencer words (R91, R112, R137). -/
def State.planeEffect (s0 s : State) (h : Nat) : State :=
  let split := fun x : State => (x.fld (CP_HEAD_CTRL_split_en h), x.zoneW h, x.zoneH h)
  let t := s.doIf (split s0 != split s) (·.modHeadOf h (fun x => { x with splitFresh := true }))
  let t := t.doIf (s0.globalPhase h != s.globalPhase h) (·.evenTags h)
  let t := t.doIf (s0.fld (SQ_CTRL_seq_bank h) != s.fld (SQ_CTRL_seq_bank h) && s.groupRuns h)
    (·.modHeadOf h (fun x => { x with swapAt := x.frame + 1 }))
  s0.layoutEffect t h

/-! ## Line mode -/

/-- LM_LEN_MAP (R155, log 30): the map is one; an output that changes head goes low, and both heads are disarmed. -/
def State.lenMapEffect (s0 s : State) (h : Nat) : State :=
  let w := s.word (LM_LEN_MAP h)
  let old := fun n : Nat => s0.fld ⟨LM_LEN_MAP 0, 4 * n, 3⟩
  let new := fun n : Nat => getBits w (4 * n) 3
  let moved := (List.range 8).filter (fun n => old n != new n)
  if moved.isEmpty then s
  else
    let heads := (moved.flatMap (fun n => [old n, new n])).dedup.filter (· < s.nHeads)
    let t := s.doAll heads (fun u k => (u.doAll (s0.lensOf k) (fun v n => v.setLen n false)).setFld (LM_STATUS_armed k) 0)
    let t := t.doAll s.heads' (fun u k => u.setWord (LM_LEN_MAP k) w)
    t.doAll heads (fun u k => u.disarm k)

/-- A head's line-mode words: a table swap sends LOAD_TIMING (R148). -/
def State.lmEffect (s0 s : State) (h : Nat) : State :=
  let t := if s0.word (LM_LEN_MAP h) = s.word (LM_LEN_MAP h) then s else s0.lenMapEffect s h
  if s0.fld (LM_CTRL_table_bank h) = s.fld (LM_CTRL_table_bank h) ∨ !s.scans h then t
  else if s.groupRuns h then t.modLine h (fun x => { x with timingSwap := true })
  else if s.portUp (h + 2) then t.sendTiming h
  else t.modPort (h + 2) (fun q => { q with timingDue := true })

/-! ## Lamps and zones -/

/-- A string's words (R161, R182). A string that is taken into use on an enabled bank has its driver asked (log 32). -/
def State.stringEffect (s0 s : State) (n : Nat) : State :=
  let place := fun x : State => (x.strBank n, x.fld (LS_STRING0_port n), x.fld (LS_STRING0_addr n), x.strOut n)
  let t := s.doIf (s0.strOut n != s.strOut n) (·.lowOuts [s0.strOut n])
  let t := t.strSync n
  if s.strOn n ∧ (!s0.strOn n ∨ place s0 ≠ place s) then
    t.busSend (s.fld (LS_STRING0_port n)) (s.fld (LS_STRING0_addr n)) 0x01 []
  else t

/-- A bank's words (R160, R161, R182). -/
def State.bankEffect (s0 s : State) (b : Nat) : State :=
  let was := s0.bankOn b
  let on := s.bankOn b
  if !was && on then s.bankEnable b
  else if was && !on then (s.lowOuts ((s0.members b).map s0.strOut)).bankDisable b
  else
    let own := fun w => s0.levelMask b w != s.levelMask b w
    (s.rebuildEff b own own).doIf on (·.memberFall b)

/-- A driver-bus port's words: a port that is disabled drops what waits; one that is enabled asks its drivers (log 32). -/
def State.dbEffect (s0 s : State) (p : Nat) : State :=
  let was := s0.dbOn p
  let on := s.dbOn p
  if was && !on then s.modDbPort p (fun x => { x with queue := [], inFlight := none, tries := 0 })
  else if !was && on then
    let t := s.doAll (s.portStringDrivers p) (fun u a => u.busSend p a 0x01 [])
    t.doAll ((List.range 4).filter s.matrixOn) (fun u z =>
      let mine := (u.zoneDrvs z).filter (fun d => (u.zoneDriver z d).1 == p)
      let u := u.doAll mine (fun v d => v.busSend p (v.zoneDriver z d).2 0x01 [])
      u.doIf (!mine.isEmpty) (·.zoneCfg z))
  else s

/-- The geometry of a matrix. -/
def State.matrixShape (s : State) (z : Nat) : List Word := [s.word (ZN_MAT0 z) &&& 0x1FE, s.word (ZN_MAT1 z), s.word (ZN_MAT2 z),
  s.word (ZN_MAT3 z), s.word (ZN_MAT4 z), s.word (ZN_MAT5 z) &&& 0xFFFF]

/-- A matrix's words (R193, R194, R202, R203). -/
def State.matrixEffect (s0 s : State) (z : Nat) : State :=
  let was := s0.matrixOn z
  let on := s.matrixOn z
  if !was && on then s.matrixEnable z
  else if was && !on then (s.lowOuts (s0.selects z)).matrixDisable z
  else if on then
    let t := s.doIf (s0.flag (ZN_MAT0_scan_mode z) != s.flag (ZN_MAT0_scan_mode z)) (·.scanMode z)
    if s0.matrixShape z = s.matrixShape z then t
    else
      let t := (t.lowOuts (s0.selects z)).setFld (ZN_MAT6_n_drv z) (s.zoneDrivers z)
      ((t.zoneCfg z).countFaulted z).modHeadOf (s.matHead z) (fun x => { x with splitFresh := true })
  else s

/-- A group's colour-constancy words (R206, R213, R214). -/
def State.ccEffect (s0 s : State) (g : Nat) : State :=
  let was := s0.flag (CC_GROUP0_enable g)
  let on := s.flag (CC_GROUP0_enable g)
  if !was && on then s.ccEnable g else if was && !on then s.ccDisable g else if on then s.ccShow g else s

/-! ## The control engine -/

/-- The coefficients of the set in use. -/
def State.coefs (s : State) (l : Nat) : List Int := (List.range 7).map (fun i => s.coef l (s.fld (CE_LOOP30_set l)) i)

/-- A loop's words (R224, R225, R227). -/
def State.loopEffect (s0 s : State) (l : Nat) : State :=
  let was := s0.loopOn l
  let on := s.loopOn l
  if !was && on then s.loopEnable l
  else if was && !on then s.loopDisable l
  else if on then
    let v := (s.loop l).outPrev
    let t := s.doIf (s0.coefs l != s.coefs l) (·.modLoop l (fun x => { x with newSet := true }))
    let lim := fun x : State => (x.sfld (CE_LOOP08_out_min l), x.sfld (CE_LOOP09_out_max l))
    t.doIf (lim s0 != lim s && (decide (v < (lim s).1) || decide ((lim s).2 < v)))
      (·.modLoop l (fun x => { x with limStep := true }))
  else s

/-! ## Sensors and the Granary -/

/-- A sensor's words (R318, R330). -/
def State.sensorEffect (s0 s : State) (n : Nat) : State :=
  if s0.sensorOn n != s.sensorOn n then s.sensorSwitch n
  else s.doIf (s0.word (TH_SENSOR0 n) &&& 0xFFFFFF != s.word (TH_SENSOR0 n) &&& 0xFFFFFF)
    (·.modSensor n (fun x => { x with diffMs := 0, nearMs := 0 }))

/-- The effect of a change to one unit of a block: numbers `n` and, for layers, `m`. -/
def State.blockEffect (s0 s : State) (b : Blk) (n m : Nat) : State :=
  match b with
  | .topology => s.doAll s.heads' (fun t h => s0.topologyEffect t h)
  | .ingest => s0.ingestEffect s n
  | .rvh => s0.rvhEffect s n
  | .layer => s0.layerEffect s n m
  | .raster => s0.rasterEffect s n
  | .monitor => s.doIf (!s0.flag HD_MON0_enable && s.flag HD_MON0_enable) (fun t =>
      { t with mon := { t.mon with waiting := false, frames := 0, sums := [], picture := [] } })
  | .cpHead | .ts | .sq => s0.planeEffect s n
  | .lm => s0.lmEffect s n
  | .string => s0.stringEffect s n
  | .bank => s0.bankEffect s n
  | .dbPort => s0.dbEffect s n
  | .matrix => s0.matrixEffect s n
  | .ccGroup => s0.ccEffect s n
  | .loop => s0.loopEffect s n
  | .sensor => s0.sensorEffect s n
  | .granary | .grChan => s.setFld GR_CAPACITY_capacity_gib s.capacityGib
  | _ => s

/-! ## Write-only bits -/

/-- Injector start and stop (R234). -/
def State.injStart (s : State) (k : Nat) : State :=
  ((s.setInj k Inj.reset).setFld (CE_INJ0_running k) 1).capTrigger 1 k

/-- clear_counts of a word, with the blocks that share it. -/
def State.clearAll (s : State) (b : Blk) (ns : List Nat) : State :=
  match b with
  | .granary => ((s.clearCounts .granary []).clearCounts .grChan []).clearCounts .grReq []
  | .layer | .thermal | .cal | .gl => s.clearCounts b ns
  | _ => s.clearCounts b (ns.take 1)

/-- The act of a write-only field with value `v`, not 0. -/
def State.act (s : State) (b : Blk) (name : String) (ns : List Nat) (v : Nat) : State :=
  let n := unitOf ns
  match b, name with
  | _, "clear_counts" => s.clearAll b ns
  | .ingest, "retrain" => s.portRetrain n
  | .rvh, "retrain" => s.portRetrain (n + 2)
  | .crc, "learn" => s.modGroup n (fun x => { x with learn := x.learn ||| BitVec.ofNat 16 v })
  | .lm, "arm" => s.arm n
  | .string, "clear_fault" => s.strClear n
  | .bank, "rearm" => (s.rearm n).doIf (decide (s.bankGroup n < 4)) (·.ccShow (s.bankGroup n))
  | .bank, "fade_cmd" => s.fadeWrite n v
  | .zoneCtx, "clear_fault" => s.zonesClear [n]
  | .triad, "clear_suspect" => s.triadClear n
  | .ccGroup, "learn" => s.ccLearn n
  | .loop, "clear_fault" => s.loopClear n
  | .inj, "start" => s.injStart n
  | .inj, "stop" => s.injEnd n
  | .cap, "arm" => s.capArm
  | .cap, "abort" => s.setFld CE_CAP4_state CAP_IDLE
  | .sensor, "clear_suspect" => s.restoreSensor n
  | _, _ => s

/-- The refusal of an act on the state with the word written, 0 where it is taken (R188, R234). -/
def State.actCode (s : State) (b : Blk) (name : String) (n : Nat) : Nat :=
  match b, name with
  | .bank, "rearm" => s.rearmCode n
  | .inj, "start" => s.injCode n
  | _, _ => 0

/-- The write-only fields of a word that a write sets, with their values. -/
def woSet (r : WordRow) (w : Word) : List (String × Nat) :=
  (r.fields.filter (fun f => f.acc == .wo && getBits w f.lo f.width != 0)).map (fun f => (f.name, getBits w f.lo f.width))

/-! ## A write -/

/-- What the effective weights of a head rest on: its banks, and which of their entries have been measured (R105). -/
def State.weightsOn (s : State) (h : Nat) : List (Nat × Nat × List Bool) :=
  (s.banksOfHead h).map (fun b => (b, s.fld (LS_BANK0_prim b), levelEntries.map (s.measured b)))

/-- Whether the effective weights of a head are computed again: at its enable, at a sequence swap, and where the light of an entry
counts anew (R105, R160). -/
def State.weightsDue (s0 s : State) (h : Nat) : Bool :=
  (!s0.headOn h && s.headOn h) || s0.fld (SQ_CTRL_seq_bank h) != s.fld (SQ_CTRL_seq_bank h) || s0.weightsOn h != s.weightsOn h

/-- The heads, banks and strings that are enabled. -/
def State.lampsOn (s : State) : List Nat × List Nat × List Bool :=
  (s.heads'.filter s.headOn, s.banksOn, (List.range 64).map s.strOn)

/-- The words that follow from others (R92, R105, R107, R184, R190, R206, R220, R228) after a change to blocks `l` of state `s0`; at
a commit, members are classed and lists rebuilt. -/
def State.derived (s0 s : State) (commit : Bool) (l : List Blk) : State :=
  let any := fun bs : List Blk => bs.any l.contains
  let head := any [.topology, .rvh, .raster, .cpHead, .ts, .sq, .lm]
  let t := s.doIf head (fun u => u.lookWords.doAll u.heads' (fun v h =>
    (v.planeWords h).seqWords h (s0.slots h (s0.fld (SQ_CTRL_seq_bank h)))))
  let t := t.doIf (any [.topology, .rvh, .sq, .bank, .ccBank]) (fun u => u.doAll (u.heads'.filter (s0.weightsDue u)) (·.updateWeights ·))
  let t := t.doIf (any [.loop, .topology, .rvh, .lm]) (·.loopWords)
  let t := t.doIf (any [.topology, .rvh, .sq, .lm]) (·.ownWords)
  let t := t.doIf (any [.bank]) (fun u => u.doAll (List.range 16) (fun v n =>
    v.setFlag (CE_LW1_bank_owned n) (u.banksOn.any (fun b => u.fld (LS_BANK7_lw_group b) == n))))
  let lamps := any [.topology, .rvh, .sq, .bank, .string, .matrix]
  let t := t.doIf (lamps && (commit || s0.lampsOn != t.lampsOn)) (fun u => u.doAll (u.heads'.filter u.headOn) (·.classify ·))
  let t := t.doIf lamps (fun u => u.doAll (u.heads'.filter u.headOn) (·.supplySync ·))
  let t := t.doIf (any [.topology, .sq, .bank, .ccGroup, .ccBank]) (fun u => u.doAll (List.range 4) (s0.ccCommit · ·))
  let t := t.doIf (any [.topology, .rvh, .lm, .loop]) (·.gates)
  let t := t.doIf (any [.gl]) (·.glStates)
  (t.doIf t.memoryUsers (·.wake)).abortStopped

/-- The RW, SO and W1C bits of one entry written. -/
def State.putEntry (s : State) (e : Entry) : State :=
  match locate e.index with
  | some (r, ns) =>
    if s.absent r.blk ns then s
    else
      let t := s.writeBits r e.index e.mask e.value
      t.setWord e.index (t.word e.index &&& ~~~(e.mask &&& e.value &&& accMask r [.w1c]))
  | none => s

/-- The block and unit of an entry's word, where the entry changes it. -/
def State.touched (s0 s : State) (e : Entry) : Option (Blk × Nat × Nat) :=
  match locate e.index with
  | some (r, ns) =>
    let key := s0.storeKey e.index
    if key = e.index ∧ s0.word key ≠ s.word key then some (r.blk, unitOf ns, if r.blk = .layer then ns.getD 1 0 else 0) else none
  | none => none

/-- The acts of one entry: its write-only fields, and the command that a write of a generator's target is (R229). -/
def State.actEntry (s : State) (e : Entry) : State :=
  match locate e.index with
  | some (r, ns) =>
    if s.absent r.blk ns then s
    else if r.name = "CE_PG1" then
      s.doIf (e.mask != 0) (·.genCommand (unitOf ns) (s.sfld (CE_PG1_target (unitOf ns))))
    else s.doAll (woSet r (e.mask &&& e.value)) (fun t a => t.act r.blk a.1 ns a.2)
  | none => s

/-- Units whose changes have one effect together. -/
def Blk.effectOf (b : Blk) : Blk := if b = .cpHead ∨ b = .sq then .ts else b

/-- A slot-list window closed by a sequence swap that is not complete (R136). -/
def State.windowBusy (s : State) (b : Blk) (n : Nat) : Bool := b == .sqWin && (s.headOf n).swapPending

/-- The head whose closed slot-list window an entry names. The swap of the sheaf that carries the entry counts (log 127). -/
def State.closedWindow (s : State) (e : Entry) : Option Nat :=
  match locate e.index with
  | some (r, ns) => if s.windowBusy r.blk (unitOf ns) then some (unitOf ns) else none
  | none => none

/-- An entry that writes scan_mode of an enabled matrix sets its mode, also where the word keeps its value (R202). -/
def State.scanEntry (s : State) (e : Entry) : State :=
  match (List.range 4).find? (fun z => e.touches (ZN_MAT0_scan_mode z)) with
  | some z => s.doIf (s.matrixOn z) (·.scanMode z)
  | none => s

/-- Entries written together, by a commit or a plain write: the bits, the effect of each block they change, the acts, and the words
that follow. An entry of a closed slot-list window has no effect but the event (R136). -/
def State.applyWrites (s0 : State) (commit : Bool) (entries : List Entry) : State :=
  let l := entries.filter (fun e => (s0.closedWindow e).isNone)
  let s := s0.doAll l (·.putEntry ·)
  let units := (l.filterMap (s0.touched s)).dedup
  let t := s.doAll ((units.map (fun e => (e.1.effectOf, e.2))).dedup) (fun u e => s0.blockEffect u e.1 e.2.1 e.2.2)
  let t := t.doIf commit (·.doAll l (·.scanEntry ·))
  let t := t.doAll l (·.actEntry ·)
  let t := if units.isEmpty then t else s0.derived t commit (units.map (·.1)).dedup
  t.doAll (entries.filterMap s0.closedWindow) (fun u h => u.raise SEQ_WINDOW_BUSY h)

/-! ## Plain writes (R10, R12, R294) -/

def ifaceBit (i : Iface) : Nat := match i with | .pcie => 0 | .spi => 1

/-- A refused plain write: HI_WERR and its event (R10, R294). -/
def State.refuseWrite (s : State) (i : Iface) (idx code : Nat) : State :=
  let t := { s with hi := { s.hi with werrIndex := idx, werrIface := ifaceBit i, werrCode := code
                                      werrCount := min 65535 (s.hi.werrCount + 1) } }
  t.raise2 (if code = E_COUPLED then SH_COUPLED_WRITE else STATE_WRITE_REFUSED) (idx % 65536) (idx / 65536)

/-- The code of a plain write of a word, 0 where it is taken: field rules, rules of the word, coupled fields, the rules of an
enable, and acts. -/
def State.plainCode (s : State) (r : WordRow) (ns : List Nat) (idx : Nat) (v : Word) : Nat :=
  let n := unitOf ns
  let key := s.storeKey idx
  let t := s.writeBits r idx 0xFFFFFFFF v
  let old := s.word key
  let new := t.word key
  let fs := r.fields.filter (fun f => f.changed old new)
  let up := fs.any (fun f => f.name == "enable" && getBits new f.lo f.width == 1)
  let down := fs.any (fun f => f.name == "enable" && getBits new f.lo f.width == 0)
  firstCode [s.fieldCodes r.blk n new fs, if fs.isEmpty then 0 else t.wordCode r.name n,
    if s.active r.blk ns && fs.any (fun f => f.acc == .so) then E_COUPLED else 0,
    if up && r.blk.enables then s.ruleCode t false [r.blk] else 0,
    if down && r.blk == .loop then s.r225 t else if down && r.blk == .sensor then s.r318 t else 0,
    firstCode ((woSet r v).map (fun a => t.actCode r.blk a.1 n))]

/-- A write that sets the enable of a head from 0 to 1 is refused: the code is the result of the enable check (R12). -/
def State.enableRefused (s : State) (idx : Nat) (v : Word) (code : Nat) : State :=
  match s.heads'.find? (fun h => HD_RVH_CTRL h == idx) with
  | some h => s.doIf (v.getLsbD 0 && !s.headOn h) (·.setFld (HD_RVH_RESULT_enable_result h) code)
  | none => s

/-- A plain 32-bit write of state-map word `idx` (R9, R10, R12, R136, R294, R353). Before RUNNING and in fallow mode every index is
refused alike, one that no chapter assigns and one of an absent head as well: DESIGN CHOICE, log 126. -/
def State.plainWrite (s : State) (i : Iface) (idx : Nat) (v : Word) : State :=
  if s.boot.phase = FALLOW then (s.enableRefused idx v E_FALLOW).refuseWrite i idx E_FALLOW
  else if !s.running then (s.enableRefused idx v E_STATE).refuseWrite i idx E_STATE
  else
    match locate idx with
    | none => s
    | some (r, ns) =>
      let n := unitOf ns
      if s.absent r.blk ns then s
      else if s.windowBusy r.blk n then s.raise SEQ_WINDOW_BUSY n
      else
        let code := s.plainCode r ns idx v
        if code = 0 then
          let t := s.applyWrites false [{ index := idx, mask := 0xFFFFFFFF, value := v }]
          t.doIf (r.name == "ZN_MAT0") (·.modMatrix n (fun x => { x with iface := ifaceBit i }))
        else (s.enableRefused idx v code).refuseWrite i idx code

end Sys2Proof.Machine
end

