-- ==== Sys2Proof/Machine/Settings.lean ====
section
/-!
DEFINITION. Writes of a host or of the supervisor to the Granary (R245), and the settings (R371 to R375): which words
they are, how they are kept in the root cellar, restored, exported and imported.
-/

namespace Sys2Proof.Machine

/-! ## Writes of part of a line (R245) -/

/-- The lines that a range covers in part and that are poisoned. -/
def State.poisonEdges (s : State) (a n : Nat) : List Nat :=
  if n = 0 then []
  else ([a / 64, (a + n - 1) / 64].dedup).filter (fun l =>
    s.isPoisoned l && !(decide (a ≤ l * 64) && decide (l * 64 + 64 ≤ a + n)))

/-- Bytes written by requester `r`: whole lines lose their poison, a poisoned line written in part keeps it and counts. -/
def State.writeBy (s : State) (r a : Nat) (l : List Byte) : State :=
  (s.store a l).doAll (s.poisonEdges a l.length) (fun t _ => (t.count (GR_REQ2_drops r) 1).reqRaise GR_POISON r)

/-! ## The settings words (R371) -/

/-- The bits of a word that are settings: RW and SO fields without the levels of the zones, and without their ages, which are not
stored across power cycles (R195). -/
def settingsMask (r : WordRow) : Word :=
  (r.fields.filter (fun f => (f.acc == .rw || f.acc == .so) && !(r.name == "ZN_CTX0" && f.name == "level") &&
    !(r.name == "ZN_CTX1" && f.name == "age"))).foldl
    (fun m f => m ||| fieldMask f.lo f.width) 0

/-- The enable bits of a word. -/
def enableMask (r : WordRow) : Word :=
  (r.fields.filter (fun f => f.name == "enable" && (f.acc == .rw || f.acc == .so))).foldl
    (fun m f => m ||| fieldMask f.lo f.width) 0

/-- The index at which the state map shows a word of the tables, if it does now. -/
def State.indexOf (s : State) (k : Nat) : Option Nat :=
  let i := if k < winBase then k else (k - winBase) % winBank
  if s.storeKey i = k then some i else none

/-- The settings that differ from their reset values, in ascending index. -/
def State.settings (s : State) : List (Nat × Word) :=
  (s.regs.filterMap (fun (e : Nat × Word) =>
    (s.indexOf e.1).bind (fun i => (locate i).bind (fun p =>
      let m := settingsMask p.1
      if (e.2 &&& m) = (resetWord i &&& m) then none else some (i, e.2 &&& m))))).insertionSort (fun a b => a.1 ≤ b.1)

/-- A plain write without a host: taken or left. -/
def State.quietWrite (s : State) (idx : Nat) (v : Word) : State × Bool :=
  match locate idx with
  | none => (s, false)
  | some (r, ns) =>
    if s.absent r.blk ns || s.windowBusy r.blk (unitOf ns) || s.plainCode r ns idx v != 0 then (s, false)
    else (s.applyWrites false [{ index := idx, mask := 0xFFFFFFFF, value := v }], true)

/-- Words written one after another, and the indices of those refused. -/
def State.quietWrites (s : State) (l : List (Nat × Word)) : State × List Nat :=
  l.foldl (fun (p : State × List Nat) e =>
    let (t, ok) := p.1.quietWrite e.1 e.2
    (t, if ok then p.2 else p.2 ++ [e.1])) (s, [])

def enablesOf (idx : Nat) : Word :=
  match locate idx with
  | some (r, _) => enableMask r
  | none => 0

/-- Settings written, the enables last in ascending index (R371, R375), and the indices of those refused. -/
def State.putSettings (s : State) (l : List (Nat × Word)) : State × List Nat :=
  let (t, bad) := s.quietWrites (l.map (fun e => (e.1, e.2 &&& ~~~(enablesOf e.1))))
  let (u, bad2) := t.quietWrites ((l.filter (fun e => (e.2 &&& enablesOf e.1) != 0)).insertionSort (fun a b => a.1 ≤ b.1))
  (u, (bad ++ bad2).dedup)

/-! ## Settings in the root cellar (R371, R372) -/

def SETTINGS_DIR : Nat := 0x7000

/-- The words of up to 6 pairs. -/
def pairWords (l : List (Nat × Word)) : List Word := l.flatMap (fun e => [BitVec.ofNat 32 e.1, e.2])

/-- A list cut into pieces of 6. -/
def sixes {α : Type} (l : List α) : List (List α) :=
  (List.range ((l.length + 5) / 6)).map (fun i => (l.drop (6 * i)).take 6)

/-- The records of an area: header and data. The payload of the header is the model's: pairs and level. -/
def areaRecords (area level : Nat) (l : List (Nat × Word)) : List (Nat × List Word) :=
  let l := l.take (6 * 0x2FFF)
  (area, [BitVec.ofNat 32 l.length, BitVec.ofNat 32 level]) ::
    ((sixes l).zipIdx.map (fun (e : List (Nat × Word) × Nat) => (area + 1 + e.2, pairWords e.1)))

/-- The settings directory. -/
def State.directory (s : State) : Nat × List Word :=
  (SETTINGS_DIR, [BitVec.ofNat 32 s.fw.area, BitVec.ofNat 32 s.fw.settingsLevel,
    BitVec.ofNat 32 ((s.fw.attic.map (·.1)).getD 0xFFFFFFFF), BitVec.ofNat 32 ((s.fw.attic.map (·.2)).getD 0)])

/-- The records of the current area. -/
def State.savedRecords (s : State) : List (Nat × List Word) := areaRecords s.fw.area s.fw.settingsLevel s.settings

/-- The current settings written as one set; the writes are deferred while the window is closed (R329, R371). -/
def State.saveSettings (s : State) : State :=
  let l := s.savedRecords ++ [s.directory]
  if s.nvOpen then s.writeSet l else s.doAll l (fun t e => t.ownWrite e.1 e.2)

/-- What is to be read of a record: a deferred write is the newest content. -/
def State.newest (s : State) (n : Nat) : List Word :=
  match s.deferred.find? (fun e => e.1 == n) with
  | some e => e.2
  | none => ((s.record n).map (·.payload)).getD []

/-- The pairs of a data record. -/
def wordPairs : List Word → List (Nat × Word)
  | i :: v :: t => (i.toNat, v) :: wordPairs t
  | _ => []

/-- The settings that an area holds. -/
def State.areaSettings (s : State) (area : Nat) : List (Nat × Word) :=
  let n := ((s.newest area).getD 0 0).toNat
  (((List.range ((n + 5) / 6)).flatMap (fun i => wordPairs ((s.newest (area + 1 + i)).take 12))).take n).insertionSort
    (fun a b => a.1 ≤ b.1)

/-- Areas and levels from the directory, for firmware of an interface level: its own level, in the current area or in
the attic, and the current area where neither is (R371, R372). -/
def State.openSettings (s : State) (level : Nat) : State :=
  match s.newest SETTINGS_DIR with
  | area :: lv :: attic :: alv :: _ =>
    let a := if attic = 0xFFFFFFFF then none else some (attic.toNat, alv.toNat)
    let inAttic := lv.toNat != level && attic != 0xFFFFFFFF && alv.toNat == level
    { s with fw := { s.fw with area := if inAttic then attic.toNat else area.toNat, settingsLevel := level,
                               attic := if inAttic then none else a } }
  | _ => { s with fw := { s.fw with area := 0x1000, settingsLevel := level, attic := none } }

/-- The settings restored before RUNNING (R371). -/
def State.restoreSettings (s : State) : State := (s.putSettings (s.areaSettings s.fw.area)).1

/-! ## The commands -/

/-- SET.SAVE, R371. A set whose write fails ends it with E_STATE (DESIGN CHOICE, log 100). -/
def execSetSave (m : Fin 8) (s : State) : Result :=
  .next (s.withCmd m 0x0707 (fun t _ =>
    if !t.nvOpen then t.outcome0 m E_TEMP_WINDOW
    else
      let u := t.saveSettings
      if u.committed = t.committed then u.outcome0 m E_STATE
      else u.setOutcome m S_OK [BitVec.ofNat 32 t.savedRecords.length]))

def SET_MAGIC : Nat := 0x54534E50

/-- A settings file (R373). -/
def settingsFile (level : Nat) (l : List (Nat × Word)) : List Byte :=
  let body := natLe 4 SET_MAGIC ++ natLe 4 level ++ natLe 4 l.length ++ natLe 4 0 ++
    l.flatMap (fun e => natLe 4 e.1 ++ wordBytes e.2)
  body ++ natLe 4 (crc32 body)

/-- SET.EXPORT, R373. -/
def execSetExport (m : Fin 8) (s : State) : Result :=
  .next (s.withCmd m 0x0708 (fun t c =>
    let f := settingsFile t.fw.settingsLevel t.settings
    match c.addr 0 with
    | none => t.outcome0 m E_BAD_ARG
    | some a =>
      if t.capacity < a + f.length then (t.outOfRange 30).outcome0 m E_RANGE
      else (t.wake.writeBy 30 a f).setOutcome m S_OK [BitVec.ofNat 32 f.length]))

/-- The pairs of a settings file: none where its magic, its length or its crc is wrong (R373). -/
def readSettingsFile (l : List Byte) : Option (Nat × List (Nat × Word)) :=
  let n := numAt l 8 4
  if numAt l 0 4 = SET_MAGIC ∧ l.length = 20 + 8 * n ∧ crc32 (l.take (16 + 8 * n)) = numAt l (16 + 8 * n) 4 then
    some (numAt l 4 4, (List.range n).map (fun i => (numAt l (16 + 8 * i) 4, BitVec.ofNat 32 (numAt l (20 + 8 * i) 4))))
  else none

/-- Every head, raster, port, bank, matrix, loop and monitor disabled (R375). -/
def State.disableAll (s : State) : State :=
  let off := fun (u : State) (f : Field) => (u.quietWrite f.key (u.word f.key &&& ~~~(fieldMask f.lo f.width))).1
  let t := s.doAll ((List.range 4).map HD_RVH_CTRL_enable) off
  let t := t.doAll ((List.range 4).map HD_RASTER0_enable) off
  let t := t.doAll ((List.range 2).map HD_INGEST_CTRL_enable) off
  let t := t.doAll ((List.range 8).map LS_BANK0_enable) off
  let t := t.doAll ((List.range 4).map ZN_MAT0_enable) off
  let t := t.doAll ((List.range 8).map DB_PORT0_enable) off
  let t := t.doAll ((List.range 64).map CE_LOOP00_enable) off
  off t HD_MON0_enable

/-- An import (R375): what is on goes dark, every other settings word takes its reset value, the words are written, and
the result is the current settings set. -/
def State.importSettings (s : State) (l : List (Nat × Word)) : State × Nat × Nat :=
  let t := s.disableAll
  let gone := (t.settings.map (·.1)).filter (fun i => !(l.any (fun e => e.1 == i)))
  let (t, _) := t.quietWrites (gone.map (fun i => (i, resetWord i)))
  let (t, bad) := t.putSettings l
  let (t, _) := t.quietWrites (bad.map (fun i => (i, resetWord i)))
  (t.saveSettings, l.length - bad.length, gone.length + bad.length)

/-- SET.IMPORT, R373 to R375. -/
def execSetImport (m : Fin 8) (s : State) : Result :=
  .next (s.withCmd m 0x0709 (fun t c =>
    t.withImage m 30 c 0 1 (c.arg 2) (fun t a =>
      let file := t.bytes a (c.arg 2)
      let done := fun (l : List (Nat × Word)) =>
        let (u, k, r) := t.wake.importSettings l
        u.setOutcome m S_OK [BitVec.ofNat 32 k, BitVec.ofNat 32 r]
      if c.arg 3 = 0 then
        match readSettingsFile file with
        | none => t.outcome0 m E_BAD_ARG
        | some (level, l) =>
          if level ≤ t.fw.settingsLevel + 1 ∧ t.fw.settingsLevel ≤ level + 1 then done l else t.outcome0 m E_COMPAT
      else if c.arg 3 = 1 then
        match Config.pn6220 file with
        | none => t.outcome0 m E_BAD_ARG
        | some l => done (l.map (fun e => (e.1, BitVec.ofNat 32 e.2)))
      else t.outcome0 m E_BAD_ARG)))

end Sys2Proof.Machine
end

