-- ==== Sys2Proof/Machine/Start.lean ====
section
/-!
DEFINITION. Resets, the resident loader, fallow mode and the boot words (R345 to R355).
-/

namespace Sys2Proof.Machine

/-! ## Identity (R377) -/

def State.idPart (s : State) : Nat :=
  0x9440 + (if s.fuses.pn9440 then 15 else 3) * 2 ^ 16 + 0xB1 * 2 ^ 20 + s.fuses.marginClass % 4 * 2 ^ 28 +
    s.fuses.gradeE.toNat * 2 ^ 30

/-- The four identity words. -/
def State.identity (s : State) : List Word :=
  let f := s.fuses
  [BitVec.ofNat 32 s.idPart, BitVec.ofNat 32 (leNat (f.lot.take 4)),
   BitVec.ofNat 32 (leNat ((f.lot.drop 4).take 3) + f.wafer % 32 * 2 ^ 24),
   BitVec.ofNat 32 (f.dieX.toNat + f.dieY.toNat * 2 ^ 8 + f.testProg % 65536 * 2 ^ 16)]

/-- An upper-case hexadecimal digit in ASCII. -/
def hexDigit (n : Nat) : Byte := BitVec.ofNat 8 (if n < 10 then 0x30 + n else 0x37 + n)

/-- The serial string in ASCII (R379). -/
def State.serialString (s : State) : List Byte :=
  let f := s.fuses
  let hex := fun (b : Byte) => [hexDigit (b.toNat / 16), hexDigit (b.toNat % 16)]
  f.lot.take 7 ++ [0x2D] ++ [hexDigit (f.wafer / 10 % 10), hexDigit (f.wafer % 10)] ++ [0x2D] ++ hex f.dieX ++ hex f.dieY

/-! ## Calibration instances (R335, R344) -/

/-- The state of a calibration instance that is not being measured (R344): tracked, stored, or uncalibrated. -/
def State.calState (s : State) (item i : Nat) : Nat :=
  if item = 1 ∧ (tabGet (fun _ => []) s.calTrack (calKey 1 i)).isEmpty = false then 3
  else if (tabGet (fun _ => []) s.calUse (calKey item i)).isEmpty then 0 else 1

/-- Instances of an item are being measured, and their inputs carry STALE, or no longer (R335, R344). -/
def State.setMeasuring (s : State) (item : Nat) (units : List Nat) (b : Bool) : State :=
  (s.setStale item units b).doAll units (fun t i => t.setFld (CL_INST_state item i) (if b then 2 else t.calState item i))

/-! ## Counting failed starts (R345, R350) -/

/-- Record 0x0002 with a deferred write of it: its payload is the model's (log 40). -/
def State.bootRecord (s : State) : List Word := s.newest 2

def State.bootCount (s : State) : Nat := bits ((s.bootRecord.getD 0 0).toNat) 0 8

/-- The effective count (R345). -/
def State.attempts (s : State) : Nat := if s.boot.deferred then s.boot.shadow else max s.boot.shadow s.bootCount

/-- Record 0x0002 written from the boot words: count and reason, detail, expiries, starts. -/
def State.writeBoot (s : State) (fails : Bool) : State :=
  let b := s.boot
  let payload := [BitVec.ofNat 32 (b.shadow + b.reason * 256), BitVec.ofNat 32 b.detail, BitVec.ofNat 32 b.expiries,
    BitVec.ofNat 32 b.starts]
  if fails then
    { s with deferred := deferIn 2 payload s.deferred, boot := { s.boot with deferred := true } }
  else s.ownWrite 2 payload

/-- A failure recorded: count, reason and detail (R350). -/
def State.recordFailure (s : State) (reason detail : Nat) (fails : Bool) : State :=
  let n := min 255 (s.attempts + 1)
  ({ s with boot := { s.boot with shadow := n, reason := reason, detail := detail
                                  expiries := min 65535 (s.boot.expiries + (if reason = FR_WATCHDOG then 1 else 0)) } }).writeBoot
    fails

/-- The count set to 0 (R351, R354). -/
def State.clearAttempts (s : State) : State := ({ s with boot := { s.boot with shadow := 0 } }).writeBoot false

/-! ## Resets (R345, R346, R402) -/

/-- The boot words that are read from record 0x0002 (R355). -/
def State.loadBoot (s : State) : State :=
  let w := fun i : Nat => (s.bootRecord.getD i 0).toNat
  { s with boot := { s.boot with reason := bits (w 0) 8 3, detail := w 1 % 65536, expiries := w 2 % 65536
                                 starts := w 3 % 65536 } }

/-- A reset: every block returns to its reset state. What the reset does not reach is kept: the fuses, the flash, the root
cellar, the memories (log 5), the pins that others drive, and the attempt shadow, force_fallow and the deferred writes
through every cause but POR. -/
def State.resetAll (s : State) (cause : Nat) : State :=
  let por := cause == CAUSE_POR
  let t : State :=
    { State.reset with
      pending := s.pending
      free := s.free
      serial := s.serial
      out := s.out
      wire := s.wire
      mem := s.mem
      poisoned := s.poisoned
      loft := s.loft
      flash := s.flash
      cellar := s.cellar
      badSlots := s.badSlots
      deferred := if por then [] else s.deferred
      fuses := s.fuses
      pcie := { Pcie.reset with perstLow := s.pcie.perstLow }
      ilkHigh := s.ilkHigh
      converters := s.converters
      jtag := if por then Jtag.reset else s.jtag
      boot := { Boot.reset with
        lastReset := cause
        porLow := s.boot.porLow
        rstLow := s.boot.rstLow
        shadow := if por then 0 else s.boot.shadow
        deferred := !por && s.boot.deferred
        forceFallow := !por && s.boot.forceFallow
        wdogFailed := !por && (s.boot.wdogFailed || cause == CAUSE_WATCHDOG) } }
  t.loadBoot

/-! ## The start sequence (R347) -/

/-- Loader step 1: outputs driven low, the margin class read, and the class start voltage requested (R19, R402). -/
def State.step1 (s : State) : State :=
  let t := { s with boot := { s.boot with loaderStep := 1, highZ := false } }
  (t.setFld TH_AVS_STATUS_margin_class s.fuses.marginClass).avsRequest (avsStart s.fuses.marginClass)

/-- What fails at loader step 2: the number of a record. -/
def State.step2Fail (s : State) (env : StartEnv) : Option Nat :=
  if s.cellar.any (fun e => e.2.good && decide (s.committed < e.2.setId)) && env.cellarWriteFails then
    ((s.cellar.find? (fun (e : Nat × CellarSlot) => e.2.good && decide (s.committed < e.2.setId))).map (·.1 / 2))
  else if ((s.record 0).map (·.payload.getD 0 0)) ≠ some 0x00010001 then some 0
  else if (s.record 2).isNone then some 2
  else none

/-- An expiry of the watchdog is recorded at the start that follows (R350). -/
def State.recordExpiry (s : State) (env : StartEnv) : State :=
  if s.boot.wdogFailed then
    ({ s with boot := { s.boot with wdogFailed := false } }).recordFailure FR_WATCHDOG 0 env.cellarWriteFails
  else s

/-- The items of calibration and their records (R343). -/
def calItems : List (Nat × Nat × Nat) :=
  [(1, 0x10, 37), (2, 0x40, 64), (3, 0x80, 16), (4, 0x90, 16), (5, 0xA0, 12), (6, 0xB0, 36)]

/-- The values that the payload of a calibration record holds: how many, and which are signed (R331). -/
def calPayload (item inst : Nat) (p : List Word) : List Int :=
  let w := fun i : Nat => (p.getD i 0)
  match item with
  | 1 => ((List.range (if inst < 32 then 4 else if inst = 32 then 8 else 1)).map (fun i => ((w i).toNat : Int)))
  | 5 => ((List.range 4).map (fun i => ((w i).toNat : Int)))
  | 6 => if inst < 16 then [(w 0).toInt, ((w 1).toNat : Int)] else [(w 0).toInt]
  | _ => [(w 0).toInt, ((w 1).toNat : Int)]

/-- One calibration record applied (R339). -/
def State.applyCal (s : State) (item base inst : Nat) : State :=
  let n := base + inst
  match s.record n with
  | some c =>
    let t := { s with calUse := tabSet (fun _ => []) s.calUse (calKey item inst) (calPayload item inst c.payload) }
    t.setFld (CL_INST_state item inst) 1
  | none =>
    if s.recordBad n then (s.count CL_STATUS_records_lost 1).raise CELLAR_ERR n else s

/-- The measurement of an edge generator at a start (R338): its values are free. -/
def State.measureEdge (s : State) (i : Nat) : State :=
  let k := if i < 32 then 4 else if i = 32 then 8 else 1
  let (l, t) := (List.range k).foldl (fun (p : List Int × State) _ =>
    let (v, u) := p.2.draw
    (p.1 ++ [(v : Int)], u)) ([], s)
  ({ t with calTrack := tabSet (fun _ => []) t.calTrack (calKey 1 i) l }).setFld (CL_INST_state 1 i) 3

/-- The equalisation that a port's SERDES records hold (R35, R331): presets by lane. -/
def State.applySerdes (s : State) (port item : Nat) : State :=
  match s.record (0xE0 + 4 * item) with
  | some _ =>
    let lanes := (List.range 4).flatMap (fun j => ((s.record (0xE0 + 4 * item + j)).map (·.payload)).getD [])
    (s.modPort port (fun x => { x with stored := some ((lanes.take (portRecordLanes port)).map (·.toNat)) })).setFld
      (CL_INST_state 7 item) 1
  | none => s

/-- Loader step 4: PCIe starts, calibration records apply, edge generators are measured (R338, R339, R348). -/
def State.step4 (s : State) (env : StartEnv) : State :=
  let t := { s with pcie := { s.pcie with training := !s.pcie.perstLow }, boot := { s.boot with loaderStep := 4 } }
  let t := t.doAll (calItems.flatMap (fun e => (List.range e.2.2).map (fun i => (e.1, e.2.1, i)))) (fun u e =>
    u.applyCal e.1 e.2.1 e.2.2)
  let t := t.doAll [(0, 0), (1, 1), (2, 4), (3, 5), (4, 6), (5, 7)] (fun u e => u.applySerdes e.1 e.2)
  t.doAll ((List.range 37).filter (fun i => !env.edgeFail.getLsbD i)) (·.measureEdge ·)

/-- What an image holds, where its verification succeeds; else the failure's reason and detail (R356, R357). -/
def State.takeImage (s : State) (l : List Byte) : Option (Nat × Nat) × State :=
  match imgVerify l with
  | some f => (some f.reason, s)
  | none =>
    (none, { s with fw := { s.fw with run := imgComps l s.nHeads, idle := imgComps l s.nHeads, drv := imgDrvs l,
                                      idleDrv := imgDrvs l, booted := imgDrvs l } })

/-- Loader step 5: the outcome of the verification, and on success what the image holds (R356, R357, R384). -/
def State.step5 (s : State) : Option (Nat × Nat) × State :=
  { s with boot := { s.boot with loaderStep := 5 } }.takeImage s.flashImage

/-- One pair of the boot settings: the OFF-only Granary words alone (R358). -/
def State.bootPair (s : State) (idx : Nat) (v : Word) : State :=
  match locate idx with
  | some (r, _) =>
    if r.name ∈ ["GR_CTRL", "GR_FIELDS", "GR_TIMING8", "GR_TIMING9", "GR_TIMINGA", "GR_TIMINGB", "GR_CHAN0"] then
      s.writeBits r idx 0xFFFFFFFF v
    else s
  | none => s

/-- The subsystem IDs and the Granary words of the boot settings (R289, R358). -/
def State.applyBootSettings (s : State) : State :=
  let l := s.bootSettings
  if bootGood l then
    let t := { s with pcie := { s.pcie with subVendor := numAt l 8 2, subDevice := numAt l 10 2 } }
    t.doAll (bootPairs l) (fun u e => u.bootPair e.1 e.2)
  else s

/-- A rank that the root cellar records as failed is mapped out, and the spare takes its place (R263). -/
def State.mapOut (s : State) (ch : Nat) : State :=
  match s.newest (3 + ch) with
  | f :: k :: cs :: _ =>
    if f = 1 then
      let old := bits (s.fld (GR_CHAN1_rank_map ch)) (2 * (k.toNat % 4)) 2
      ((s.setFld ⟨GR_CHAN1 ch, 9 + 2 * (k.toNat % 4), 2⟩ cs.toNat).setFld ⟨GR_CHAN1 ch, 17 + old, 1⟩ 1).setFld
        (GR_CHAN1_spare_used ch) 1
    else s
  | _ => s

/-- The mask of the enabled channels that fail training. -/
def State.badChannels (s : State) (env : StartEnv) : Nat :=
  (s.channels.map (fun c => if env.dramFail.getLsbD c then 2 ^ c else 0)).sum

/-- Every enabled channel trained; the mask of those that fail is 0 (R239). -/
def State.trained (s : State) : State :=
  let t := s.doAll s.channels (fun u c => (u.setFld (GR_CHAN1_state c) 2).mapOut c)
  let t := t.setFld GR_CAPACITY_capacity_gib t.capacityGib
  { t with boot := { t.boot with granaryOk := true } }

/-- Channels that have failed training show it (R265). -/
def State.trainFailed (s : State) (env : StartEnv) : State :=
  s.doAll s.channels (fun u c => u.setFld (GR_CHAN1_state c) (if env.dramFail.getLsbD c then 5 else 2))

/-- Fallow mode is entered (R352, R353). -/
def State.enterFallow (s : State) (reason : Nat) (env : StartEnv) : State :=
  let t := { s with boot := { s.boot with phase := FALLOW, reason := reason, loaderStep := 3 } }
  if reason = FR_DRAM_TRAIN ∨ reason = FR_CELLAR then t.startHeads
  else
    let t := t.applyBootSettings
    (if t.badChannels env = 0 then t.trained else t.trainFailed env).startHeads

/-- The firmware sets RUNNING (R347, R349, R355, R371). -/
def State.enterRunning (s : State) (env : StartEnv) : State :=
  let sf := tabGet (fun _ => Comp.reset) s.fw.run 7
  let t := { s with boot := { s.boot with phase := RUNNING, reason := s.boot.reason, loaderStep := 8, wdogMs := 1000
                                          startMs := min 65535 env.startMs } }
  let t := (t.openSettings sf.level).restoreSettings
  (t.doIf (s.boot.lastReset == CAUSE_WATCHDOG) (·.raise SF_WATCHDOG 0)).glStates.startHeads

/-- The start counted, at loader step 2. -/
def State.countStart (s : State) : State :=
  { s with boot := { s.boot with loaderStep := 2, starts := min 65535 (s.boot.starts + 1) } }

/-- Loader step 2 has failed on a record: the failure recorded, and fallow mode (R350, R352). -/
def State.cellarFailed (s : State) (env : StartEnv) (rec : Nat) : State :=
  let t := (s.recordExpiry env).recordFailure FR_CELLAR rec env.cellarWriteFails
  ({ t with boot := { t.boot with cellarOk := false } }.doIf (env.cellarWriteFails) (·.raise CELLAR_ERR rec)).enterFallow
    FR_CELLAR env

/-- Loader step 2 done: uncommitted records go, an expiry is recorded, and the wear is known; loader step 3. -/
def State.cellarRead (s : State) (env : StartEnv) : State :=
  let t := s.dropUncommitted.recordExpiry env
  let t := t.setFld CL_STATUS_wear_pm (min 1000 t.wear)
  { t with boot := { t.boot with loaderStep := 3 } }

/-- A failure at loader steps 5 to 7: it is recorded and the device resets; true: it starts again (R350). -/
def State.retry (s : State) (env : StartEnv) (reason detail : Nat) : State × Bool :=
  ((s.recordFailure reason detail env.cellarWriteFails).resetAll CAUSE_RETRY, true)

/-- Loader step 7: the firmware starts, and a boundary test ends (R395); where the firmware does not run, the watchdog expires (R347,
R349). -/
def State.startFirmware (s : State) (env : StartEnv) : State × Bool :=
  let u := { s with boot := { s.boot with phase := FW_START, loaderStep := 7 }
                    jtag := { s.jtag with driving := false, highz := false } }
  if env.firmwareRuns then (u.enterRunning env, false) else (u.resetAll CAUSE_WATCHDOG, true)

/-- Loader step 6: the boot settings apply and the Granary trains (R239, R358). -/
def State.train (s : State) (env : StartEnv) : State × Bool :=
  let u := { s with boot := { s.boot with loaderStep := 6 } }.applyBootSettings
  let bad := u.badChannels env
  if bad ≠ 0 then u.retry env FR_DRAM_TRAIN bad else u.trained.startFirmware env

/-- Loader steps 3 to 7 (R348 to R352). -/
def State.startOn (s : State) (env : StartEnv) : State × Bool :=
  if s.boot.forceFallow || env.spiHeld then (s.enterFallow FR_HOST env, false)
  else if 3 ≤ s.attempts then (s.enterFallow s.boot.reason env, false)
  else
    let r := (s.step4 env).step5
    match r.1 with
    | some e => r.2.retry env e.1 e.2
    | none => r.2.train env

/-- One start from loader step 1; true: the device has reset and starts again (R347). -/
def State.startOnce (s : State) (env : StartEnv) : State × Bool :=
  let t := ((s.setFlag TH_GLOBAL3_nv_window env.nvOpen).step1).countStart
  match t.step2Fail env with
  | some rec => (t.cellarFailed env rec, false)
  | none => (t.cellarRead env).startOn env

/-- Starts, one after another (R347 to R352). A failure at steps 5 to 7 resets the device and starts again; the count leads
to fallow mode at the latest at the fourth start. -/
def State.loader (env : StartEnv) : Nat → State → State
  | 0, s => s
  | fuel + 1, s =>
    let r := s.startOnce env
    if r.2 then State.loader env fuel r.1 else r.1

/-- Whether the device waits to be started. -/
def State.inReset (s : State) : Bool := s.boot.phase == LOADER && s.boot.loaderStep == 0

/-! ## The commands -/

/-- POR, R345: POR_N falls. -/
def execPor (s : State) : Result := .next ({ s with boot := { s.boot with porLow := true } }.resetAll CAUSE_POR)

/-- RST_N, R345: RST_N falls. -/
def execRstN (s : State) : Result :=
  let t := { s with boot := { s.boot with rstLow := true } }
  .next (if s.boot.porLow then t else t.resetAll CAUSE_RST_N)

/-- RESET_RELEASE, R347: POR_N and RST_N are high, and the resident loader runs. -/
def execResetRelease (env : StartEnv) (s : State) : Result :=
  if s.inReset then
    .next (State.loader env 5 { s with boot := { s.boot with porLow := false, rstLow := false } })
  else .next s

/-- WATCHDOG_EXPIRY, R349, R350: the supervisor watchdog runs from loader step 7 on. -/
def execWatchdogExpiry (s : State) : Result :=
  if s.running || s.boot.phase == FW_START then .next (s.resetAll CAUSE_WATCHDOG) else .next s

/-- START_STABLE, R351: RUNNING for 30 s. -/
def execStartStable (s : State) : Result :=
  if s.running && !s.boot.stable then
    .next ({ s with boot := { s.boot with stable := true } }.clearAttempts)
  else .next s

/-- DEV_RESET_DELAY_EXPIRY, R345: 1 ms after DEV.RESET is DONE. -/
def execDevResetDelayExpiry (s : State) : Result :=
  .next (if s.boot.resetPending then s.resetAll CAUSE_DEV_RESET else s)

/-- PCIE_PERST_RELEASE, R348: the endpoint starts training in every start that does not enter fallow mode. -/
def execPciePerstRelease (s : State) : Result :=
  let trains := s.running || decide (4 ≤ s.boot.loaderStep)
  .next { s with pcie := { s.pcie with perstLow := false, training := s.pcie.training || trains } }

/-! ## The boot words (R355) -/

def State.devStatus (s : State) : Word :=
  let b := s.boot
  BitVec.ofNat 32 (b.phase + b.stable.toNat * 2 ^ 3 + b.reason * 2 ^ 4 + b.deferred.toNat * 2 ^ 7 +
    min 3 s.attempts * 2 ^ 8 + b.lastReset * 2 ^ 10 + b.granaryOk.toNat * 2 ^ 13 + b.forceFallow.toNat * 2 ^ 15 +
    b.loaderStep * 2 ^ 16)

/-- A word of BAR0 offsets 0x100 to 0x1FF. -/
def State.bootWord (s : State) (off : Nat) : Word :=
  let b := s.boot
  match off with
  | 0x100 => s.devStatus
  | 0x104 => BitVec.ofNat 32 (b.wdogMs + b.expiries * 2 ^ 16)
  | 0x108 => BitVec.ofNat 32 b.startMs
  | 0x10C => BitVec.ofNat 32 (b.detail + b.starts * 2 ^ 16)
  | _ => 0

/-- The write of a boot word: force_fallow alone (R355). -/
def State.writeBootWord (s : State) (off : Nat) (v : Word) : State :=
  if off = 0x100 then { s with boot := { s.boot with forceFallow := v.getLsbD 15 } } else s

end Sys2Proof.Machine
end

