-- ==== Sys2Proof/Machine/CalBase.lean ====
section
/-!
DEFINITION. Calibration runs (R331 to R337): limits, attempts, how an instance ends, and the set that a run commits.
-/

namespace Sys2Proof.Machine

/-! ## Limits (R331) -/

/-- The default values of an instance (R339). -/
def calDefaults (item i : Nat) : List Int :=
  match item with
  | 1 => List.replicate (if i < 32 then 4 else if i = 32 then 8 else 1) (32 * 256)
  | 5 => [0, 0, 0, 0]
  | 6 => if i < 16 then [0, 0x8000] else [0]
  | 7 => []
  | _ => [0, 0x8000]

/-- Tolerance and plausible range of value `k` of an instance, all in thousandths of the value's unit. -/
def calLimits (item i k : Nat) : Int × Int × Int :=
  match item with
  | 1 => (128000, 20 * 256000, 64 * 256000)
  | 2 => if k = 0 then (32000, -3200000, 3200000) else (65536, 29491200, 36044800)
  | 3 => if k = 0 then (64000, -16000000, 16000000) else (16384, 31129600, 34406400)
  | 4 => if k = 0 then (64000, -16000000, 16000000) else (16384, 31129600, 34406400)
  | 5 => (if k < 3 then 8000 else 32000, 0, 2048000)
  | _ => if k = 0 then (2000, -80000, 80000) else if i < 16 then (32768, 31129600, 34406400) else (0, 0, 0)

/-- Whether the two measurements of an attempt agree and are plausible (R334). -/
def attemptGood (item i : Nat) (m : CalMeasure) : Bool :=
  let n := (calDefaults item i).length
  m.first.length == n && m.second.length == n &&
  (List.range n).all (fun k =>
    let (tol, lo, hi) := calLimits item i k
    let a := 1000 * m.first.getD k 0
    let b := 1000 * m.second.getD k 0
    decide (lo ≤ a) && decide (a ≤ hi) && decide (lo ≤ b) && decide (b ≤ hi) && decide (a - b ≤ tol) && decide (b - a ≤ tol))

/-- The mean of the two, halves upward (log 14). -/
def attemptMean (m : CalMeasure) : List Int := (m.first.zip m.second).map (fun p => (p.1 + p.2 + 1) / 2)

/-! ## A run (R333 to R337) -/

/-- The record of an instance. -/
def calRecord (item : Nat) : Nat := ((calItems.find? (fun (e : Nat × Nat × Nat) => e.1 == item)).map (·.2.1)).getD 0

def intWords (l : List Int) : List Word := l.map (BitVec.ofInt 32)

/-- The instances of an item's run under way. -/
def State.calRunOf (s : State) (item : Nat) : List CalEnd := tabGet (fun _ => []) s.calRuns item

def State.setCalRun (s : State) (item : Nat) (l : List CalEnd) : State :=
  { s with calRuns := tabSet (fun _ => []) s.calRuns item l }

/-- Whether an instance has been accepted or rejected. -/
def CalEnd.over (e : CalEnd) : Bool := e.values.isSome || decide (3 ≤ e.attempts)

/-- Whether an instance is measured in the next step: TOUT groups of one quadrant go one after another (R333). -/
def calNow (item : Nat) (l : List CalEnd) (e : CalEnd) : Bool :=
  !e.over && !(item == 1 && decide (e.unit < 32) &&
    l.any (fun x => decide (x.unit < e.unit) && x.unit / 8 == e.unit / 8 && !x.over))

/-- An attempt at an instance: its values, where the two measurements agree and are plausible (R334). -/
def CalEnd.attempt (item : Nat) (ms : List CalMeasure) (e : CalEnd) : CalEnd :=
  match ms.find? (fun m => m.unit == e.unit) with
  | none => e
  | some m =>
    if attemptGood item e.unit m then
      { e with attempts := e.attempts + 1, values := some (attemptMean m), shown := (attemptMean m).getD 0 0 }
    else { e with attempts := e.attempts + 1, shown := m.second.getD 0 0 }

/-- The end of one instance: its partial record and its word, and STALE is cleared (R335, R336). -/
def State.calInstance (s : State) (m item : Nat) (e : CalEnd) : State :=
  let code := if e.values.isSome then S_OK else E_MISMATCH
  let t := s.addPartial m [BitVec.ofNat 32 (e.unit + code * 2 ^ 16), BitVec.ofInt 32 e.shown]
  let t := (t.setFld (CL_INST_attempts item e.unit) e.attempts).setFld (CL_INST_last_code item e.unit) code
  t.setMeasuring item [e.unit] false

/-- The instances that a change of a run puts under measurement. -/
def State.calMark (s : State) (item : Nat) (before : List CalEnd) : State :=
  let l := s.calRunOf item
  s.setMeasuring item ((l.filter (fun e => calNow item l e && !calNow item before e)).map (·.unit)) true

/-- A run starts: its first instances are under measurement (R335). -/
def State.calStart (s : State) (item : Nat) (units : List Nat) : State :=
  (s.setCalRun item (units.map (fun i => { unit := i, attempts := 0, values := none, shown := 0 }))).calMark item []

/-- One step of a run: an attempt at the instances measured together. -/
def State.calStep (s : State) (m item : Nat) (ms : List CalMeasure) : State :=
  let l := s.calRunOf item
  let l' := l.map (fun e => if calNow item l e then e.attempt item ms else e)
  let ended := ((l.zip l').filter (fun p => !p.1.over && p.2.over)).map (·.2)
  ((s.setCalRun item l').doAll ended (fun u e => u.calInstance m item e)).calMark item l

/-- The values that a run has accepted. -/
def State.calGood (s : State) (item : Nat) : List (Nat × List Int) :=
  (s.calRunOf item).filterMap (fun e => e.values.map (fun v => (e.unit, v)))

/-- New values of an instance taken up. -/
def State.takeCal (s : State) (item i : Nat) (v : List Int) : State :=
  let k := calKey item i
  ({ s with calUse := tabSet (fun _ => []) s.calUse k v, calTrack := tabSet (fun _ => []) s.calTrack k []
            calPend := tabSet (fun _ => []) s.calPend k [] }).setFld (CL_INST_state item i) 1

/-- What a run has accepted is written as one set and taken up, while the write window is open; CL_DONE (R336). -/
def State.calTake (s : State) (item : Nat) : State :=
  let good := s.calGood item
  if good.isEmpty || !s.nvOpen then s
  else
    let t := s.writeSet (good.map (fun e => (calRecord item + e.1, intWords e.2)))
    if t.committed = s.committed then t
    else (t.doAll good (fun u e => u.takeCal item e.1 e.2)).raise CL_DONE item

/-- The end of a run (R336). A set whose write fails ends it with E_STATE (DESIGN CHOICE, log 100). -/
def State.calFinish (s : State) (m item : Nat) : State :=
  let n := (s.calGood item).length
  let bad := (s.calRunOf item).length - n
  let t := (s.calTake item).setCalRun item []
  let r := [BitVec.ofNat 32 n, BitVec.ofNat 32 bad]
  if n ≠ 0 ∧ !s.nvOpen then t.setOutcome m E_TEMP_WINDOW [0, BitVec.ofNat 32 bad]
  else if n ≠ 0 ∧ t.committed = s.committed then t.setOutcome m E_STATE [0, BitVec.ofNat 32 bad]
  else if bad = 0 then t.setOutcome m S_OK r
  else (t.raise2 CL_REJECT item E_MISMATCH).setOutcome m E_MISMATCH r

/-- A run goes on by a step, and ends with its last instance. -/
def State.calGo (s : State) (m item : Nat) (ms : List CalMeasure) : State :=
  let t := s.calStep m item ms
  let l := t.calRunOf item
  if l.all (·.over) then t.calFinish m item
  else t.modHead m (fun c => { c with progress := (l.countP (·.over)) * 1000 / l.length })

/-- An abort of a run (R337): what has been accepted is committed, and STALE is cleared. The second part is r0. -/
def State.calAbort (s : State) (item : Nat) : State × Word :=
  let l := s.calRunOf item
  let t := (s.setMeasuring item ((l.filter (calNow item l)).map (·.unit)) false).calTake item
  (t.setCalRun item [], BitVec.ofNat 32 (if t.committed = s.committed then 0 else (s.calGood item).length))

end Sys2Proof.Machine
end

