-- ==== Sys2Proof/Machine/Sheaf.lean ====
section
/-!
DEFINITION. Sheaves (R267 to R281): handles, staging, validation, boundaries, conflicts, application and completion.
-/

namespace Sys2Proof.Machine

/-! ## Handles and the pool (R268, R269) -/

/-- Whether a sheaf's entries are out of the pool. -/
def Sheaf.holds (x : Sheaf) : Bool := x.state == SH_OPEN || x.state == SH_VALIDATING || x.state == SH_PENDING

/-- Entries of a range of handles that are out of the pool. -/
def State.entriesHeld (s : State) (l : List Nat) : Nat :=
  ((l.filter (fun n => (s.sheaf n).holds)).map (fun n => (s.sheaf n).entries.length)).sum

def hostHandles : List Nat := List.range 14

def State.freeHandles (s : State) : List Nat := hostHandles.filter (fun n => (s.sheaf n).state == SH_FREE)

/-- A handle allocated: the value of SH_ALLOC, and the state after the read. -/
def State.allocHandle (s : State) (i : Iface) : Word × State :=
  match s.freeHandles with
  | n :: _ => (BitVec.ofNat 32 (n + 2 ^ 31), s.setSheaf n { Sheaf.reset with state := SH_OPEN, spi := i == .spi })
  | [] => (0, { s with allocFails := min 65535 (s.allocFails + 1) })

/-- SH_ALLOC_READ, R281. -/
def execShAllocRead (i : Iface) (s : State) : Result :=
  s.host i (fun t => (t.allocHandle i).2.respond (wordBytes (t.allocHandle i).1))

/-- A bad entry breaks the handle; the first one's position and code are kept (R269). -/
def Sheaf.badEntry (x : Sheaf) (code : Nat) : Sheaf :=
  if x.broken then x else { x with broken := true, brokenCode := code, failEntry := x.entries.length }

/-- A write of SH_VALUE on an OPEN handle stages an entry. -/
def State.stage (s : State) (n : Nat) (v : Word) : State :=
  let x := s.sheaf n
  if x.state ≠ SH_OPEN then s
  else if (locate x.index).isNone then s.setSheaf n (x.badEntry E_BAD_ARG)
  else if 1792 ≤ s.entriesHeld hostHandles then s.setSheaf n (x.badEntry E_CAPACITY)
  else s.setSheaf n { x with entries := x.entries ++ [{ index := x.index, mask := x.mask, value := v }] }

/-- SH_VALUE_WRITE, R269. -/
def execShValueWrite (i : Iface) (n : Fin 14) (v : Word) (s : State) : Result := s.host i (fun t => t.stage n v)

/-! ## Commit (R273, R288) -/

/-- The commands issued on a mailbox that have not completed. -/
def State.openCmds (s : State) (m : Nat) : List Nat :=
  ((s.mbox m).cmds.filter (fun c => c.state == MB_QUEUED || c.state == MB_RUNNING)).map (·.id)

/-- The word of a boundary: kind, target, band and bound mailbox. -/
def boundaryWord (kind target band mailbox : Nat) : Word :=
  BitVec.ofNat 32 (kind + target * 2 ^ 4 + band * 2 ^ 10 + mailbox * 2 ^ 15)

/-- A write of commit = 1. -/
def State.commit (s : State) (n : Nat) : State :=
  let x := s.sheaf n
  if x.state ≠ SH_OPEN then s
  else { s with serial := s.serial + 1 }.setSheaf n
    { x with state := SH_VALIDATING, result := S_QUEUED, waits := s.openCmds (getBits x.bnd 15 3), order := s.serial
             kind := getBits x.bnd 0 3, target := getBits x.bnd 4 6, band := getBits x.bnd 10 5, mailbox := getBits x.bnd 15 3 }

/-- SHEAF_COMMIT, R273. -/
def execSheafCommit (i : Iface) (n : Fin 14) (s : State) : Result := s.host i (fun t => t.commit n)

/-! ## Step 1: fields (R273) -/

/-- The first failing entry of a list by R273 step 1, from position `i`: its code and position, and (0, _) where none fails.
Acts are checked on the words as the entries leave them. -/
def State.entryFail (s : State) : List Entry → Nat → Nat × Nat
  | [], i => (0, i)
  | e :: t, i =>
    let act := match locate e.index with
      | some (r, ns) => firstCode ((woSet r (e.mask &&& e.value)).map (fun a => (s.putEntry e).actCode r.blk a.1 (unitOf ns)))
      | none => 0
    let code := firstCode [s.entryCode e, act]
    if code = 0 then (s.putEntry e).entryFail t (i + 1) else (code, i)

/-! ## Step 2: boundaries (R270, R271, R276) -/

/-- Whether a boundary's kind, target and band may stand (R270). -/
def State.boundaryCode (s : State) (x : Sheaf) : Nat :=
  let k := x.kind
  if k = 7 then E_BAD_ARG
  else if (k = 2 ∨ k = 3 ∨ k = 6) ∧ 4 ≤ x.target then E_RANGE
  else if k = 4 ∨ k = 5 then
    if s.nHeads ≤ x.target then E_RANGE
    else if s.lineMode x.target then E_CONFLICT
    else if k = 4 ∧ s.nBands x.target ≤ x.band then E_RANGE
    else 0
  else 0

/-- Whether a kind names a group's boundary. -/
def groupKind (k : Nat) : Bool := k == 2 || k == 3 || k == 6

/-- The SO fields that an entry masks. -/
def soMasked (r : WordRow) (m : Word) : List FieldRow := r.fields.filter (fun f => f.acc == .so && getBits m f.lo f.width != 0)

/-- Whether an entry changes fields that need a frame boundary while their block is active (R53, R59, R76, R98, R116, R137,
R148, R159, R203). -/
def needsFrame (r : WordRow) (m : Word) : Bool :=
  let so := soMasked r m
  if [Blk.ingest, .rvh].contains r.blk then so.any (fun f => f.name == "lanes")
  else !so.isEmpty && [Blk.topology, .layer, .raster, .cpGroup, .cpHead, .ts, .sq, .lm, .bank, .matrix].contains r.blk

/-- The groups that a head's words belong to at a sheaf's boundary: as the entries leave it, or as it stands before. -/
def State.headGroups (s v : State) (h : Nat) : List Nat := [if v.groupOf h < 4 then v.groupOf h else s.groupOf h].filter (· < 4)

/-- The groups whose boundary an entry's block belongs to; none where no target rule applies. -/
def State.entryGroups (s v : State) (b : Blk) (n : Nat) : Option (List Nat) :=
  match b with
  | .layer | .raster | .cpGroup | .cpLut | .crc => some [n]
  | .rvh | .cpHead | .ts | .sq | .sqWin | .lm | .lmCode => some (s.headGroups v n)
  | .bank => some (s.headGroups v (v.fld (LS_BANK0_head n)))
  | .matrix => some (s.headGroups v (v.matHead n))
  | .topology => some (((s.heads'.filter (fun h => s.groupOf h != v.groupOf h || s.lineMode h != v.lineMode h)).flatMap
      (fun h => [s.groupOf h, v.groupOf h])).filter (· < 4))
  | _ => none

/-- Whether a change of the topology affects an enabled head (R15). -/
def State.topologyLive (s v : State) : Bool :=
  s.heads'.any (fun h => s.headOn h && (s.groupOf h != v.groupOf h || s.lineMode h != v.lineMode h))

/-- R271 for one entry of a sheaf: 0 or E_COUPLED. -/
def State.coupledCode (s v : State) (x : Sheaf) (e : Entry) : Nat :=
  match locate e.index with
  | none => 0
  | some (r, ns) =>
    let b := r.blk
    let n := unitOf ns
    let live := if b = .topology then s.topologyLive v else s.active b ns
    if !live then 0
    else
      let kindOk := x.kind == 3 ||
        (x.kind == 6 && [Blk.string, .bank, .dbPort, .dbGlobal, .matrix, .zoneCtx, .triad, .ccGroup, .ccBank].contains b)
      if needsFrame r e.mask && !kindOk then E_COUPLED
      else if groupKind x.kind then
        match s.entryGroups v b n with
        | some (g :: l) => if (g :: l).contains x.target then 0 else E_COUPLED
        | _ => 0
      else 0

/-- The first entry that breaks R271, with its position. -/
def State.coupledFail (s v : State) (x : Sheaf) : List Entry → Nat → Nat × Nat
  | [], i => (0, i)
  | e :: t, i => if s.coupledCode v x e = 0 then s.coupledFail v x t (i + 1) else (E_COUPLED, i)

/-! ## Step 3: conflicts (R274) -/

/-- The boundary of a sheaf without the fields that its kind does not use. -/
def Sheaf.boundary (x : Sheaf) : Nat × Nat × Nat :=
  (x.kind, if x.kind = 0 then 0 else x.target, if x.kind = 4 then x.band else 0)

/-- Whether an entry masks a bit that an entry of a PENDING sheaf with another boundary masks. -/
def State.entryClash (s : State) (x : Sheaf) (e : Entry) : Bool :=
  s.pendingSheaves.any (fun n =>
    (s.sheaf n).boundary != x.boundary &&
    (s.sheaf n).entries.any (fun f => f.index == e.index && f.mask &&& e.mask != 0))

/-! ## Step 4 (R273, R275) -/

/-- The blocks of the words that differ between two states, among those that entries name. -/
def State.changedBlks (s v : State) (l : List Entry) : List Blk :=
  (l.filterMap (fun e =>
    if s.word (s.storeKey e.index) = v.word (s.storeKey e.index) then none else (locate e.index).map (·.1.blk))).dedup

/-- Whether entries name an admission word. -/
def admits (l : List Entry) : Bool := l.any (fun e => match locate e.index with
  | some (r, _) => admissionBlks.contains r.blk
  | none => false)

/-- The running configuration with every PENDING admission sheaf applied, in order. -/
def State.admitted (s : State) : State :=
  s.doAll (s.pendingSheaves.filter (fun n => (s.sheaf n).admission)) (fun t n => t.doAll (s.sheaf n).entries (·.putEntry ·))

/-- The code of a sheaf's validation, and the position of the failing entry (R273). -/
def State.validateCode (s : State) (x : Sheaf) : Nat × Nat :=
  let es := x.entries
  let s1 := if admits es then s.admitted else s
  let v := s1.doAll es (·.putEntry ·)
  let e1 := s.entryFail es 0
  let b2 := s.boundaryCode x
  let c2 := s.coupledFail v x es 0
  if x.broken then (x.brokenCode, x.failEntry)
  else if e1.1 ≠ 0 then e1
  else if b2 ≠ 0 then (b2, 0xFFF)
  else if c2.1 ≠ 0 then c2
  else if !s.targetRuns x.kind x.target then (E_STATE, 0xFFF)
  else
    match es.zipIdx.find? (fun p => s.entryClash x p.1) with
    | some p => (E_CONFLICT, p.2)
    | none => if es.isEmpty then (0, 0xFFF) else (s1.ruleCode v true (s1.changedBlks v es), 0xFFF)

/-- The heads whose enable a list of entries sets from 0 to 1 (R12). -/
def State.risingHeads (s : State) (l : List Entry) : List Nat :=
  let v := s.doAll l (·.putEntry ·)
  s.heads'.filter (fun h => !s.headOn h && v.headOn h)

/-- Whether the commands that a sheaf waits for have completed (R273). -/
def State.waitsOver (s : State) (x : Sheaf) : Bool := x.waits.all (fun id => !(s.openCmds x.mailbox).contains id)

/-- SHEAF_VALIDATE, R273, R288: nothing is validated during a supervisor handover. -/
def execSheafValidate (n : Fin 16) (s : State) : Result :=
  let n := n.val
  let x := s.sheaf n
  if x.state ≠ SH_VALIDATING ∨ !s.running ∨ s.fw.handover.isSome ∨ !s.waitsOver x then .next s
  else
    let (code, fail) := s.validateCode x
    if code ≠ 0 then
      let t := s.doAll (s.risingHeads x.entries) (fun u h => u.setFld (HD_RVH_RESULT_enable_result h) code)
      .next (t.refuseSheaf n code fail)
    else
      let before := (List.range 16).filter (fun k =>
        let y := s.sheaf k
        (y.state == SH_PENDING || y.state == SH_APPLIED) && y.mailbox == x.mailbox)
      .next (({ s with serial := s.serial + 1 }.setSheaf n
        { x with state := SH_PENDING, result := S_RUNNING, order := s.serial, admission := admits x.entries
                 after := before.map (fun k => (s.sheaf k).order), waits := [] }).swapWords)

/-! ## Abort and release (R276, R268) -/

/-- The outcome of an abort kept. -/
def State.abortOutcome (s : State) (n code : Nat) : State := s.modSheaf n (fun x => { x with abortResult := code })

/-- A write of abort = 1. The result of the aborted sheaf is the code of R299 for "aborted". -/
def State.abortWrite (s : State) (n : Nat) : State :=
  let x := s.sheaf n
  let go := fun t : State => (t.abortSheaf n E_STATE).abortOutcome n S_OK
  if x.state = SH_OPEN ∨ x.state = SH_VALIDATING then go s
  else if x.state = SH_PENDING then
    let later := s.pendingSheaves.any (fun k => (s.sheaf k).admission && decide (x.order < (s.sheaf k).order))
    if later then s.abortOutcome n E_STATE else go s
  else if x.state = SH_APPLIED ∨ x.state = SH_DONE then s.abortOutcome n E_STATE
  else s

/-- SHEAF_ABORT, R276. -/
def execSheafAbort (i : Iface) (n : Fin 14) (s : State) : Result := s.host i (fun t => t.abortWrite n)

/-- A write of release = 1. -/
def State.releaseHandle (s : State) (n : Nat) : State :=
  let st := (s.sheaf n).state
  if st = SH_DONE ∨ st = SH_REFUSED_ST ∨ st = SH_ABORTED_ST then s.setSheaf n Sheaf.reset else s

/-- SHEAF_RELEASE, R268. -/
def execSheafRelease (i : Iface) (n : Fin 14) (s : State) : Result := s.host i (fun t => t.releaseHandle n)

/-! ## Application and completion (R270, R275, R277, R278) -/

/-- Whether a sheaf changes what a running reader goes on reading for a time: a LUT, table or code bank. -/
def Sheaf.switches (x : Sheaf) : Bool := x.entries.any (fun e =>
  (List.range 4).any (fun h => e.touches (CP_CTRL_lut_bank h) || e.touches (TS_CTRL_table_bank h) || e.touches (LM_CTRL_code_bank h)))

/-- The head of a layout word. -/
def layoutHead (e : Entry) : Option Nat := (List.range 4).find? (fun h => (layoutKeys h).contains e.index)

/-- Whether every reader of what a sheaf replaced has ended, as far as the state shows it. -/
def State.readersDone (s : State) (x : Sheaf) : Bool :=
  (List.range 4).all (fun h =>
    let seq := x.entries.any (·.touches (SQ_CTRL_seq_bank h)) && s.groupRuns h && s.threshes h
    let tab := x.entries.any (·.touches (LM_CTRL_table_bank h)) && s.groupRuns h && s.scans h
    let lay := x.entries.any (fun e => layoutHead e == some h) && s.threshes h && s.groupRuns h
    (!seq || (List.range (s.nBands h)).all (fun b =>
      (s.bandOf (h * 32 + b)).playBank == (s.fld (SQ_CTRL_seq_bank h) == 1))) &&
    (!tab || !((s.line h).timingSwap || (s.line h).skipFrame)) &&
    (!lay || (s.headOf h).oldRegions.isEmpty))

/-- A fence waits for the sheaves that were PENDING before it on its mailbox (R278). -/
def State.fenceDone (s : State) (x : Sheaf) : Bool :=
  !x.entries.isEmpty || !(List.range 16).any (fun k =>
    let y := s.sheaf k
    (y.state == SH_PENDING || y.state == SH_APPLIED) && x.after.contains y.order)

/-- Entries that have changed a sequence or a bank hold the group's constancy loop for a frame: the one that begins for a frame
boundary, the present one for a latch (R214). -/
def State.ccHold (s0 s : State) (x : Sheaf) : State :=
  if !(s0.changedBlks s x.entries).any [Blk.sq, .bank, .string, .ccBank].contains then s
  else if x.kind = 3 then s.modCcGroup x.target (fun c => { c with holdNext := true })
  else if x.kind = 6 then (s.modCcGroup x.target (fun c => { c with holdFrame := true })).ccShow x.target
  else s

/-- A PENDING sheaf applied at the present instant: its entries, SH_STAMP, and its completion where no reader goes on using a
replaced value. -/
def State.applySheaf (s : State) (n : Nat) : State :=
  let x := s.sheaf n
  let t := s.modSheaf n (fun y => { y with state := SH_APPLIED, stamp := s.tick % 2 ^ 32, staged := 0 })
  let t := t.doIf ((x.kind == 2 || x.kind == 3) && !x.entries.isEmpty) (·.modGroup x.target (fun g => { g with sheafHit := true }))
  let t := (t.ccHold (t.applyWrites true x.entries) x).swapWords
  t.doIf (!x.switches && t.readersDone x && t.fenceDone x) (·.completeSheaf n)

/-- Whether a sheaf may be applied now: PENDING, after every earlier admission sheaf (R275), and, for a latch, with its frames
latched (R272). -/
def State.mayApply (s : State) (n : Nat) : Bool :=
  let x := s.sheaf n
  x.state == SH_PENDING && x.staged / 256 != 1 &&
  !(x.admission && s.pendingSheaves.any (fun k => (s.sheaf k).admission && decide ((s.sheaf k).order < x.order)))

/-- SHEAF_APPLY, R270: the sheaf's boundary comes. -/
def execSheafApply (n : Fin 16) (s : State) : Result := .next (s.doIf (s.mayApply n) (·.applySheaf n))

/-- SHEAF_COMPLETION, R277: the last reader of a replaced value has ended. -/
def execSheafCompletion (n : Fin 16) (s : State) : Result :=
  let x := s.sheaf n
  .next (s.doIf (x.state == SH_APPLIED && s.readersDone x && s.fenceDone x) (·.completeSheaf n))

/-- The frame-boundary sheaves of a group applied, in the order they became PENDING. -/
def State.frameSheaves (s : State) (g : Nat) : State :=
  s.doAll (s.pendingSheaves.filter (fun n => (s.sheaf n).kind == 3 && (s.sheaf n).target == g)) (fun t n =>
    t.doIf (t.mayApply n) (·.applySheaf n))

/-! ## Mailbox-built sheaves (R280) -/

/-- The command that is head of mailbox `m` builds its sheaf in the supervisor's reserve, or is refused with E_CAPACITY. -/
def State.buildSheaf (s : State) (m kind target band : Nat) (l : List Entry) : State :=
  match [14, 15].find? (fun n => (s.sheaf n).state == SH_FREE) with
  | some n =>
    if s.entriesHeld [14, 15] + l.length ≤ 256 then
      ({ s with serial := s.serial + 1 }.setSheaf n
        { Sheaf.reset with state := SH_VALIDATING, result := S_QUEUED, kind := kind, target := target, band := band
                           mailbox := m, entries := l, order := s.serial, bnd := boundaryWord kind target band m }).modHead m
        (fun c => { c with begun := true, sheaf := some n })
    else s.outcome0 m E_CAPACITY
  | none => s.outcome0 m E_CAPACITY

/-! ## The registers of the sheaf block (R281) -/

/-- A register of a handle, by its offset within the handle. -/
def State.handleReg (s : State) (n off : Nat) : Word :=
  let x := s.sheaf n
  match off / 4 with
  | 0 => BitVec.ofNat 32 x.index
  | 1 => x.mask
  | 3 => x.bnd
  | 5 => BitVec.ofNat 32 (x.state + x.broken.toNat * 8 + x.entries.length * 2 ^ 4 + x.result * 2 ^ 16)
  | 6 => BitVec.ofNat 32 (x.failEntry + x.abortResult * 2 ^ 12)
  | 7 => BitVec.ofNat 32 x.stamp
  | _ => 0

/-- A read of the sheaf block at offset `off` from its base, SH_ALLOC apart. -/
def State.sheafReg (s : State) (off : Nat) : Word :=
  if off = 4 then BitVec.ofNat 32 (s.freeHandles.length + (1792 - s.entriesHeld hostHandles) * 2 ^ 16)
  else if off = 8 then BitVec.ofNat 32 (s.allocFails + s.shRefused * 2 ^ 16)
  else if 0x100 ≤ off ∧ off < 0x300 then s.handleReg ((off - 0x100) / 32) (off % 32)
  else 0

/-- A write to a register of a host handle. SH_INDEX, SH_MASK and SH_BOUNDARY take writes in every state; only an OPEN handle
stages and commits from them. -/
def State.writeHandle (s : State) (n off : Nat) (v : Word) : State :=
  let x := s.sheaf n
  match off / 4 with
  | 0 => s.setSheaf n { x with index := getBits v 0 24 }
  | 1 => s.setSheaf n { x with mask := v }
  | 2 => s.stage n v
  | 3 => s.setSheaf n { x with bnd := v &&& 0x3FFF7#32 }
  | 4 => ((s.doIf (v.getLsbD 0) (·.commit n)).doIf (v.getLsbD 1) (·.abortWrite n)).doIf (v.getLsbD 2) (·.releaseHandle n)
  | _ => s

/-- A write of the sheaf block. -/
def State.writeSheafBlock (s : State) (off : Nat) (v : Word) : State :=
  if off = 0xC ∧ v.getLsbD 0 then { s with allocFails := 0, shRefused := 0 }
  else if 0x100 ≤ off ∧ off < 0x300 ∧ (off - 0x100) / 32 < 14 then s.writeHandle ((off - 0x100) / 32) (off % 32) v
  else s

end Sys2Proof.Machine
end

