-- ==== Sys2Proof/Machine/HostIf.lean ====
section
/-!
DEFINITION. The host interfaces (R289 to R298, R311 to R316): BAR0 and BAR2, the SPI target, and the PCIe endpoint.
-/

namespace Sys2Proof.Machine

/-! ## Reads of BAR0 (R291, R292) -/

/-- A word of the state map as it reads: reset values before RUNNING and in fallow mode (R9, R348, R353). -/
def State.readIndex (s : State) (idx : Nat) : Word :=
  match locate idx with
  | none => 0
  | some (r, ns) =>
    if s.absent r.blk ns then 0
    else (if s.running then s.word (s.storeKey idx) else resetWord idx) &&& ~~~(accMask r [.wo])

/-- A host-interface register (R294). -/
def State.hiWord (s : State) (off : Nat) : Word :=
  let h := s.hi
  match off with
  | 0x200 => BitVec.ofNat 32 h.apertureGib.toNat
  | 0x204 => BitVec.ofNat 32 (s.pcie.gen + s.pcie.width * 2 ^ 3 + h.spiSeen.toNat * 2 ^ 6)
  | 0x208 => BitVec.ofNat 32 (h.werrIndex + h.werrIface * 2 ^ 24)
  | 0x20C => BitVec.ofNat 32 (h.werrCode + h.werrCount * 2 ^ 16)
  | 0x210 => BitVec.ofNat 32 (h.sizeErrs + h.spiCrcErrs * 2 ^ 16)
  | _ => 0

/-- A word of the event block by its offset from 0x3000 (R315, R316). -/
def State.evWord (s : State) (off : Nat) : Word :=
  if off < 0x80 then
    let g := off / 16
    let group := fun (p : Nat → Bool) => BitVec.ofNat 32 (((List.range 32).map (fun b =>
      if isSource (32 * g + b) && p (32 * g + b) then 2 ^ b else 0)).sum)
    match off % 16 with
    | 0 => group s.evStatus
    | 4 => group s.latched
    | 8 => group s.evEnabled
    | _ => 0
  else if off = 0x80 then s.evSummary
  else if 0x400 ≤ off ∧ off < 0x800 then s.evData ((off - 0x400) / 4)
  else if 0x800 ≤ off ∧ off < 0xC00 then s.route ((off - 0x800) / 4)
  else 0

/-- A flip-queue register by its offset within the queue, HD_FQ_RETIRED apart (R63). -/
def State.fqReg (s : State) (q off : Nat) : Word :=
  let x := s.fqueue q
  if off = 0x04 then
    BitVec.ofNat 32 (x.waiting.length + (x.current.getD 0) * 2 ^ 3 + x.current.isSome.toNat * 2 ^ 6 +
      (x.held.getD 0) * 2 ^ 7 + x.held.isSome.toNat * 2 ^ 10 + x.lastResult * 2 ^ 16)
  else if off = 0x0C then BitVec.ofNat 32 (x.presented + x.presentedFrame % 65536 * 2 ^ 16)
  else if 0x40 ≤ off ∧ off < 0xC0 then
    let sl := x.slot ((off - 0x40) / 16)
    match off % 16 with
    | 0 => BitVec.ofNat 32 sl.base.toNat
    | 4 => BitVec.ofNat 32 (sl.base.toNat / 2 ^ 32 + sl.valid.toNat * 2 ^ 31)
    | 8 => BitVec.ofNat 32 sl.stride.toNat
    | _ => sl.gen
  else 0

/-- A word of the MSI-X table (R289): the last word of an entry is its mask. -/
def State.msixWord (s : State) (k : Nat) : Word :=
  if k % 4 = 3 then BitVec.ofNat 32 (s.pcie.masked.getLsbD (k / 4)).toNat else tabGet (fun _ => 0) s.pcie.table k

/-- A read of the aligned BAR0 word at `off`, and the state after it: SH_ALLOC, HD_FQ_RETIRED and MB_STATUS act on a read. -/
def State.bar0Read (s : State) (i : Iface) (off : Nat) : Word × State :=
  if off < 0x100 then (s.identity.getD (off / 4) 0, s)
  else if off < 0x200 then (s.bootWord off, s)
  else if off < 0x300 then (s.hiWord off, s)
  else if 0x1000 ≤ off ∧ off < 0x2000 then (s.mbWord ((off - 0x1000) / 0x200) (off % 0x200 / 4), s)
  else if 0x2000 ≤ off ∧ off < 0x2100 then
    let m := (off - 0x2000) / 0x20
    (s.mbRegister m (off % 0x20), if off % 0x20 = 4 then s.readStatus m else s)
  else if 0x3000 ≤ off ∧ off < 0x4000 then (s.evWord (off - 0x3000), s)
  else if off = 0x4000 then s.allocHandle i
  else if 0x4000 < off ∧ off < 0x6000 then (s.sheafReg (off - 0x4000), s)
  else if 0x6000 ≤ off ∧ off < 0x7000 then
    let q := (off - 0x6000) / 0x100
    if off % 0x100 = 8 then s.fqPop q else (s.fqReg q (off % 0x100), s)
  else if 0x8000 ≤ off ∧ off < 0x8200 then (s.msixWord ((off - 0x8000) / 4), s)
  else if off = 0x9000 then (s.pcie.pending, s)
  else if 0x1000000 ≤ off ∧ off < 0x5000000 then (s.readIndex ((off - 0x1000000) / 4), s)
  else (0, s)

/-! ## Mailbox control (R303, R305) -/

/-- The commands that can be aborted at all. -/
def MbCmd.abortable (c : MbCmd) : Bool := (cmdRow c.code).any (·.abort)

/-- What is left of a command's work when it is aborted, and the work done in its own unit (R305). -/
def State.stopWork (s : State) (m : Nat) (c : MbCmd) : State × Word :=
  match c.code with
  | 0x0201 =>
    (s.modPort (2 + c.arg 0 % 4) (fun x => { x with awaited := x.awaited.filter (fun a => a.2.1 != 2 + m) }), 0)
  | 0x0401 => (s, (s.moveResult (c.arg 0 % 8)).headD 0)
  | 0x0501 => (s, BitVec.ofNat 32 c.done)
  | 0x0502 => (s, BitVec.ofNat 32 c.done)
  | 0x0601 => s.calAbort (c.arg 0)
  | 0x0701 => (s.unstage, 0)
  | 0x0901 => (s, BitVec.ofNat 32 (s.task (c.arg 0 % 8)).steps)
  | _ => (s, 0)

/-- A demand pass that ends or is aborted lets the background pass of its task resume where it stopped (R389). -/
def State.endDemand (s : State) (t : Nat) : State :=
  (s.modTask t (fun x => { x with steps := x.bgSteps, passFails := x.bgFails, started := x.bgStarted })).glStates

/-- An abort of the head: one that is QUEUED ends at once; the work of one that is RUNNING stops. Work that has ended stands. -/
def State.abortHead (s : State) (m : Nat) : State :=
  match s.cmdHead m with
  | some c =>
    if !c.abortable then s
    else if c.state = MB_QUEUED then s.finishHead m c E_STATE [0]
    else if c.state = MB_RUNNING ∧ c.outcome = none then
      let r := s.stopWork m c
      let t := r.1.finishHead m c E_STATE [r.2]
      if c.code = 0x0901 ∧ c.begun then t.endDemand (c.arg 0 % 8) else t
    else s
  | none => s

/-- A write of MB_CTRL: both fields are judged against the head as it stands (R305). -/
def State.mbCtrl (s : State) (m : Nat) (v : Word) : State :=
  match s.cmdHead m with
  | some c =>
    if c.state = MB_DONE_ST ∨ c.state = MB_FAILED then (if v.getLsbD 0 then s.ackHead m else s)
    else if v.getLsbD 1 then s.abortHead m else s
  | none => s

/-- MAILBOX_ACK, R303: MB_CTRL written with ack = 1. -/
def execMailboxAck (i : Iface) (m : Fin 8) (v : Word) (s : State) : Result := s.host i (fun t => t.mbCtrl m (v ||| 1))

/-- MAILBOX_ABORT, R305: MB_CTRL written with abort = 1. -/
def execMailboxAbort (i : Iface) (m : Fin 8) (v : Word) (s : State) : Result := s.host i (fun t => t.mbCtrl m (v ||| 2))

/-- MB_STATUS_READ, R300. -/
def execMbStatusRead (i : Iface) (m : Fin 8) (s : State) : Result :=
  s.host i (fun t => (t.readStatus m).respond (wordBytes (t.mbStatus m)))

/-! ## MSI-X vectors (R313) -/

/-- The pending bit of a vector that can be sent now goes out, unless its set has become empty. -/
def State.sendPending (s : State) (vec : Nat) : State :=
  if s.pcie.pending.getLsbD vec then
    let clear := { s with pcie := { s.pcie with pending := s.pcie.pending &&& ~~~(1#32 <<< vec) } }
    if !s.setNonEmpty vec then clear
    else if s.msixReady vec then clear.emit (.msix vec)
    else s
  else s

/-- A write of a word of the MSI-X table. -/
def State.writeMsix (s : State) (k : Nat) (v : Word) : State :=
  if k % 4 = 3 then
    let bit := 1#32 <<< (k / 4)
    if v.getLsbD 0 then { s with pcie := { s.pcie with masked := s.pcie.masked ||| bit } }
    else ({ s with pcie := { s.pcie with masked := s.pcie.masked &&& ~~~bit } }).sendPending (k / 4)
  else { s with pcie := { s.pcie with table := tabSet (fun _ => 0) s.pcie.table k v } }

/-- MSIX_VECTOR_UNMASK, R313. -/
def execMsixVectorUnmask (vec : Fin 32) (s : State) : Result := s.host .pcie (fun t => t.writeMsix (4 * vec + 3) 0)

/-! ## Writes of BAR0 (R291 to R294) -/

/-- A write of the event block by its offset from 0x3000 (R311, R315). -/
def State.writeEvents (s : State) (off : Nat) (v : Word) : State :=
  if off < 0x80 then
    match off % 16 with
    | 4 => s.clearLatches (off / 16) v
    | 8 => s.writeEnables (off / 16) v
    | _ => s
  else if 0x800 ≤ off ∧ off < 0xC00 then s.writeRoute ((off - 0x800) / 4) v
  else s

/-- A write of a flip-queue register. -/
def State.writeFq (s : State) (q off : Nat) (v : Word) : State :=
  if off = 0 then s.fqSubmit q v
  else if 0x40 ≤ off ∧ off < 0xC0 then
    s.fqWrite q ((off - 0x40) / 16) (match off % 16 with | 0 => .baseLo | 4 => .baseHi | 8 => .stride | _ => .gen) v
  else s

/-- A write of a host-interface register (R294). -/
def State.writeHi (s : State) (off : Nat) (v : Word) : State :=
  if off = 0x200 then { s with hi := { s.hi with apertureGib := BitVec.ofNat 10 v.toNat } }
  else if off = 0x214 ∧ v.getLsbD 0 then { s with hi := { s.hi with werrCount := 0, sizeErrs := 0, spiCrcErrs := 0 } }
  else s

/-- A write of the aligned BAR0 word at `off`. -/
def State.bar0Write (s : State) (i : Iface) (off : Nat) (v : Word) : State :=
  if off < 0x100 then s
  else if off < 0x200 then s.writeBootWord off v
  else if off < 0x300 then s.writeHi off v
  else if 0x1000 ≤ off ∧ off < 0x2000 then
    let w := off % 0x200 / 4
    if w < 64 then s.modMbox ((off - 0x1000) / 0x200) (fun b => { b with request := tabSet (fun _ => 0) b.request w v }) else s
  else if 0x2000 ≤ off ∧ off < 0x2100 then
    let m := (off - 0x2000) / 0x20
    match off % 0x20 with
    | 0x00 => if v.getLsbD 0 then s.submit m (i == .spi) else s
    | 0x0C => s.mbCtrl m v
    | _ => s
  else if 0x3000 ≤ off ∧ off < 0x4000 then s.writeEvents (off - 0x3000) v
  else if 0x4000 ≤ off ∧ off < 0x6000 then s.writeSheafBlock (off - 0x4000) v
  else if 0x6000 ≤ off ∧ off < 0x7000 then s.writeFq ((off - 0x6000) / 0x100) (off % 0x100) v
  else if 0x8000 ≤ off ∧ off < 0x8200 then s.writeMsix ((off - 0x8000) / 4) v
  else if 0x1000000 ≤ off ∧ off < 0x5000000 then s.plainWrite i ((off - 0x1000000) / 4) v
  else s

/-- An access of a size or at an offset that BAR0 does not take (R292). -/
def State.sizeError (s : State) : State := { s with hi := { s.hi with sizeErrs := min 65535 (s.hi.sizeErrs + 1) } }

/-- STATE_WORD_WRITE, R292, R294: a write of `size` bytes at a BAR0 offset. -/
def execStateWordWrite (i : Iface) (size : Nat) (off : Nat) (v : Word) (s : State) : Result :=
  s.host i (fun t => if size = 4 ∧ off % 4 = 0 then t.bar0Write i off v else t.sizeError)

/-- EV_LATCH_WRITE, R311, R313. -/
def execEvLatchWrite (i : Iface) (g : Fin 8) (v : Word) (s : State) : Result := s.host i (fun t => t.clearLatches g v)

/-- EV_ENABLE_WRITE, R312. -/
def execEvEnableWrite (i : Iface) (g : Fin 8) (v : Word) (s : State) : Result := s.host i (fun t => t.writeEnables g v)

/-! ## BAR2 (R295) -/

def BAR2_REQ : Nat := 31

def State.bar2Addr (s : State) (off : Nat) : Nat := s.hi.apertureGib.toNat * 2 ^ 30 + off

/-- The lines of a range. -/
def rangeLines (a n : Nat) : List Nat := if n = 0 then [] else (List.range ((a + n - 1) / 64 - a / 64 + 1)).map (· + a / 64)

/-- The lines of a range at or above the capacity are not sent to memory (R242). -/
def State.rangeLost (s : State) (r a n : Nat) : State :=
  s.doAll ((rangeLines a n).filter (fun l => decide (s.capacity ≤ l * 64))) (fun t _ => t.outOfRange r)

/-- A read of a poisoned line by a host: the line is counted, and its address goes to the error log (R262). -/
def State.hostPoison (s : State) (r l : Nat) : State :=
  let p := s.placeOf (l * 64)
  (s.replacedLine r).logError p.ch (l * 64) 2 7 ((s.route261 p false).headD 0)

/-- A read through the aperture: the bytes, a status code, and the state after it. All ones stand for what cannot be read. -/
def State.bar2Get (s : State) (off n : Nat) : List Byte × Nat × State :=
  let a := s.bar2Addr off
  if !s.boot.granaryOk then (List.replicate n 0xFF, E_STATE, s)
  else
    let t := (s.wake).rangeLost BAR2_REQ a n
    let bad := (rangeLines a n).filter (fun l => decide (l * 64 < s.capacity) && s.isPoisoned l)
    let t := t.doAll bad (·.hostPoison BAR2_REQ ·)
    ((List.range n).map (fun i =>
      if s.capacity ≤ a + i ∨ s.isPoisoned ((a + i) / 64) then 0xFF else s.byte (a + i)),
     if bad.isEmpty then S_OK else E_POISON, t)

/-- A write through the aperture, and its status code. -/
def State.bar2Put (s : State) (off : Nat) (l : List Byte) : Nat × State :=
  let a := s.bar2Addr off
  if !s.boot.granaryOk then (E_STATE, s)
  else (S_OK, ((s.wake).rangeLost BAR2_REQ a l.length).writeBy BAR2_REQ a (l.take (s.capacity - a)))

/-- BAR2_READ, R242, R262, R295. -/
def execBar2Read (i : Iface) (off : BitVec 30) (size : Nat) (s : State) : Result :=
  s.host i (fun t => (t.bar2Get off.toNat size).2.2.respond (t.bar2Get off.toNat size).1)

/-- BAR2_WRITE, R242, R245, R295. -/
def execBar2Write (i : Iface) (off : BitVec 30) (data : List Byte) (s : State) : Result :=
  s.host i (fun t => (t.bar2Put off.toNat data).2)

/-! ## The SPI target (R296, R297) -/

/-- The code of an address and a count (R297). -/
def spiCode (addr count : Nat) : Nat :=
  let bar2 := bitOf addr 31
  if addr % 4 ≠ 0 ∨ (if bar2 then bitOf addr 30 else bits addr 27 4 != 0) then E_BAD_ARG
  else if count = 0 then E_ZERO
  else if 64 < count then E_RANGE
  else 0

/-- What the device sends after the turnaround and the fill: the marker, the status, the data of a good read, and the crc of
a read. -/
def spiAnswer (code : Nat) (data : List Byte) (read : Bool) : List Byte :=
  let body := natBe 2 code ++ data
  0xA5 :: (if read then body ++ natBe 2 (crcSpi body) else body)

/-- What the device drives while it sends bytes: in single mode SPIT_IO1, most significant bit first; in quad mode SPIT_IO0 to
SPIT_IO3, high nibble first (R296). -/
def spiPins (quad : Bool) (l : List Byte) : List (BitVec 4 × BitVec 4) :=
  l.flatMap (fun b =>
    if quad then [(15#4, BitVec.ofNat 4 (b.toNat / 16)), (15#4, BitVec.ofNat 4 b.toNat)]
    else (List.range 8).map (fun i => (2#4, BitVec.ofNat 4 (2 * (b.toNat / 2 ^ (7 - i) % 2)))))

/-- What an SPI transaction returns; what is driven ahead of it, the turnaround and the fill, is time alone (log 1). -/
def State.spiSend (s : State) (quad : Bool) (l : List Byte) : State :=
  { s with hi := { s.hi with response := l, pins := spiPins quad l } }

/-- How the host carries out a READ or WRITE: in quad mode or not, and with CS_N rising before the marker or not (R296, R297). -/
structure SpiWay where
  quad : Bool
  early : Bool
  deriving DecidableEq, Repr

/-- The end of a READ or WRITE: READ_STATUS reports its code. Where CS_N has risen before the marker nothing is sent (log 156). -/
def State.spiEnd (s : State) (w : SpiWay) (code : Nat) (data : List Byte) (read : Bool) : State :=
  ({ s with hi := { s.hi with spiStatus := code, spiSeen := s.hi.spiSeen || code == S_OK } }).spiSend w.quad
    (if w.early then [] else spiAnswer code data read)

/-- The words of BAR0 from `off` on, and the state after the reads. -/
def State.bar0Reads (s : State) (off : Nat) : Nat → List Byte × State
  | 0 => ([], s)
  | n + 1 =>
    let r := s.bar0Read .spi off
    let q := r.2.bar0Reads (off + 4) n
    (wordBytes r.1 ++ q.1, q.2)

/-- Words written to BAR0 from `off` on. -/
def State.bar0Writes (s : State) (off : Nat) : List Word → State
  | [] => s
  | v :: t => (s.bar0Write .spi off v).bar0Writes (off + 4) t

/-- A READ. -/
def State.spiGet (s : State) (w : SpiWay) (addr count : Nat) : State :=
  let code := spiCode addr count
  if code ≠ 0 then s.spiEnd w code [] true
  else if bitOf addr 31 then
    let r := s.bar2Get (addr % 2 ^ 30) (4 * count)
    r.2.2.spiEnd w r.2.1 (if r.2.1 = S_OK then r.1 else []) true
  else
    let r := s.bar0Reads (addr % 2 ^ 27) count
    r.2.spiEnd w S_OK r.1 true

/-- A WRITE: a crc that fails writes nothing. -/
def State.spiPut (s : State) (w : SpiWay) (addr count : Nat) (data : List Byte) (crc : Nat) : State :=
  if crcSpi (natBe 4 addr ++ natBe 1 count ++ data) ≠ crc then
    ({ s with hi := { s.hi with spiCrcErrs := min 65535 (s.hi.spiCrcErrs + 1) } }).spiEnd w E_BAD_ARG [] false
  else
    let code := spiCode addr count
    if code ≠ 0 then s.spiEnd w code [] false
    else if bitOf addr 31 then
      let r := s.bar2Put (addr % 2 ^ 30) (data.take (4 * count))
      r.2.spiEnd w r.1 [] false
    else (s.bar0Writes (addr % 2 ^ 27) (bytesWords (data.take (4 * count)))).spiEnd w S_OK [] false

/-- SPI_READ, R297. -/
def execSpiRead (addr : Word) (count : Byte) (early : Bool) (s : State) : Result := s.host .spi (fun t => t.spiGet { quad := false, early := early } addr.toNat count.toNat)

/-- SPI_QUAD_READ, R296, R297: the bytes are those of SPI_READ. -/
def execSpiQuadRead (addr : Word) (count : Byte) (early : Bool) (s : State) : Result := s.host .spi (fun t => t.spiGet { quad := true, early := early } addr.toNat count.toNat)

/-- SPI_WRITE, R297. -/
def execSpiWrite (addr : Word) (count : Byte) (data : List Byte) (crc : BitVec 16) (early : Bool) (s : State) : Result :=
  s.host .spi (fun t => t.spiPut { quad := false, early := early } addr.toNat count.toNat data crc.toNat)

/-- SPI_QUAD_WRITE, R296, R297. -/
def execSpiQuadWrite (addr : Word) (count : Byte) (data : List Byte) (crc : BitVec 16) (early : Bool) (s : State) : Result :=
  s.host .spi (fun t => t.spiPut { quad := true, early := early } addr.toNat count.toNat data crc.toNat)

/-- A good transaction has been seen. -/
def State.spiGood (s : State) : State := { s with hi := { s.hi with spiSeen := true } }

/-- READ_STATUS, R297: the status of the last READ or WRITE, and flags; no access is in progress between steps. -/
def execReadStatus (s : State) : Result :=
  s.host .spi (fun t => t.spiGood.spiSend false (natBe 2 t.hi.spiStatus ++ natBe 1 (t.boot.phase == FALLOW).toNat))

/-- READ_ID, R297. -/
def execReadId (s : State) : Result :=
  s.host .spi (fun t => t.spiGood.spiSend false
    [0x94, 0x40, 0xB1, if t.boot.phase = FALLOW then 0x02 else if t.running then 0x01 else 0x00])

/-- SPI_UNKNOWN_OPCODE, R297: nothing is driven, and READ_STATUS reports E_BAD_ARG. -/
def execSpiUnknownOpcode (op : Byte) (s : State) : Result :=
  s.host .spi (fun t => if [0x0B, 0xEB, 0x02, 0x38, 0x05, 0x9F].contains op.toNat then t
    else { t with hi := { t.hi with spiStatus := E_BAD_ARG, response := [], pins := [] } })

/-! ## The PCIe endpoint (R289, R290) -/

/-- A command that came by PCIe and has not started. -/
def MbCmd.gone (c : MbCmd) : Bool := !c.spi && c.state == MB_QUEUED

/-- A command that a link event leaves: one that came by PCIe and runs has its reply discarded, and a DMA that runs stops. -/
def MbCmd.afterLink (c : MbCmd) : MbCmd :=
  if !c.spi && c.state == MB_RUNNING then
    { c with orphan := true
             outcome := if c.code = 0x0501 ∧ c.outcome = none then some (E_TIMEOUT, [BitVec.ofNat 32 c.done, 0, 0]) else c.outcome }
  else c

/-- The commands of a mailbox that came by PCIe (R290): those that have not started go. -/
def State.dropPcie (s : State) (m : Nat) : State :=
  s.modMbox m (fun b => { b with cmds := (b.cmds.filter (fun c => !c.gone)).map MbCmd.afterLink })

/-- The mailboxes whose head goes and which hold another command. -/
def State.headsGone (s : State) : List Nat :=
  (List.range 8).filter (fun m => (s.cmdHead m).any (·.gone) && (s.mbox m).cmds.any (fun c => !c.gone))

/-- The effects of D3hot, a function-level reset, a hot reset and a link-down event (R290). -/
def State.linkReset (s : State) : State :=
  let t := { s with pcie := { s.pcie with memDecode := false, busMaster := false, msixEnable := false } }
  let t := (t.doAll (List.range 8) (·.dropPcie ·)).doAll s.headsGone (·.newHead ·)
  let t := t.doAll hostHandles (fun u n =>
    u.doIf ((u.sheaf n).state == SH_OPEN && !(u.sheaf n).spi) (·.setSheaf n Sheaf.reset))
  t.raise PCIE_LINK_RESET 0

def State.linkUp (s : State) : Bool := s.pcie.gen != 0

/-- D3HOT_ENTRY, R290. -/
def execD3hotEntry (s : State) : Result :=
  .next (s.doIf (s.linkUp && !s.pcie.d3hot) (fun t =>
    { t.linkReset with pcie := { t.linkReset.pcie with d3hot := true } }))

/-- FUNCTION_LEVEL_RESET, R290. -/
def execFunctionLevelReset (s : State) : Result :=
  .next (s.doIf s.linkUp (fun t => { t.linkReset with pcie := { t.linkReset.pcie with d3hot := false } }))

/-- HOT_RESET, R290. -/
def execHotReset (s : State) : Result :=
  .next (s.doIf s.linkUp (fun t => { t.linkReset with pcie := { t.linkReset.pcie with d3hot := false } }))

/-- LINK_DOWN, R290. -/
def execLinkDown (s : State) : Result :=
  .next (s.doIf s.linkUp (fun t =>
    { t.linkReset with pcie := { t.linkReset.pcie with gen := 0, width := 0, d3hot := false } }))

/-- PCIE_LINK_UP, R289, R294: the link has trained, at 2.5, 5, 8 or 16 GT/s on 1, 2 or 4 lanes. -/
def execPcieLinkUp (gen : Fin 4) (width : Fin 3) (s : State) : Result :=
  .next (if s.pcie.training && !s.pcie.perstLow && s.boot.phase != FALLOW then
    { s with pcie := { s.pcie with gen := gen + 1, width := 2 ^ width.val } } else s)

/-- CONFIGURATION_SPACE_WRITE, R289, R290, R313: memory space, bus mastering and MSI-X enable, and a return from D3hot.
Messages that were pending go out as soon as they can. -/
def execConfigurationSpaceWrite (memory master msix : Bool) (leaveD3 : Bool) (s : State) : Result :=
  .next (s.doIf s.linkUp (fun t =>
    let u := { t with pcie := { t.pcie with memDecode := memory, busMaster := master, msixEnable := msix
                                            d3hot := t.pcie.d3hot && !leaveD3 } }
    u.doAll (List.range 32) (fun w vec => w.doIf (w.msixReady vec) (·.sendPending vec))))

end Sys2Proof.Machine
end

