-- ==== Sys2Proof/Machine/Cmds.lean ====
section
/-!
DEFINITION. The mailbox commands of the device, of heads, light, capture and memory (R300 to R308 and the catalogue),
and TEST.EVENT.
-/

namespace Sys2Proof.Machine

/-! ## Device commands -/

/-- DEV_PING. -/
def execDevPing (m : Fin 8) (s : State) : Result :=
  .next (s.withCmd m 0x0101 (fun t _ => t.setOutcome m S_OK [BitVec.ofNat 32 t.tick, BitVec.ofNat 32 (t.tick / 2 ^ 32)]))

/-- A version and interface level as DEV.INFO gives them. -/
def infoWord (version level : Nat) : Word := BitVec.ofNat 32 (version + level * 2 ^ 16)

/-- The word of the first driver body of a list, 0 where there is none. -/
def drvInfo : List DrvBody → Word
  | b :: _ => infoWord b.version b.level
  | [] => 0

/-- The words of DEV.INFO after DEV_STATUS: SF, SQ, CE, GL, DB (R353, R426). -/
def State.infoWords (s : State) : List Word :=
  let of := fun (l : Tab Comp) (c : Nat) => let x := tabGet (fun _ => Comp.reset) l c; infoWord x.version x.level
  if s.boot.phase = FALLOW then
    let l := s.flashImage
    if imgFormat l && imgCrcOk l then
      let c := imgComps l s.nHeads
      [of c 7, of c 3, of c 1, of c 0, drvInfo (imgDrvs l)]
    else [0, 0, 0, 0, 0]
  else [of s.fw.run 7, of s.fw.run 3, of s.fw.run 1, of s.fw.run 0, drvInfo (s.fw.drv.filter s.serves)]

/-- DEV_INFO, R426. -/
def execDevInfo (m : Fin 8) (s : State) : Result :=
  .next (s.withCmd m 0x0102 (fun t _ => t.setOutcome m S_OK (t.devStatus :: t.infoWords)))

/-- DEV_RESET, R345, R354: the reset follows 1 ms after DONE. In fallow mode the count and force_fallow are cleared first. -/
def execDevReset (m : Fin 8) (s : State) : Result :=
  .next (s.withCmd m 0x0103 (fun t c =>
    if c.arg 0 ≠ 0x9440 then t.outcome0 m E_BAD_ARG
    else
      let t := if t.boot.phase = FALLOW then
          let u := t.clearAttempts
          { u with boot := { u.boot with forceFallow := false } }
        else t
      ({ t with boot := { t.boot with resetPending := true } }).outcome0 m S_OK))

/-- DEV_FENCE, R278: an empty sheaf with the command's boundary. -/
def execDevFence (m : Fin 8) (s : State) : Result :=
  .next (s.withCmd m 0x0104 (fun t c => t.buildSheaf m c.kind c.target c.band []))

/-- The entries of DEV.STATE_WRITE. -/
def MbCmd.entries (c : MbCmd) : List Entry :=
  (List.range (c.arg 0)).map (fun i =>
    { index := c.arg (1 + 3 * i), mask := BitVec.ofNat 32 (c.arg (2 + 3 * i)), value := BitVec.ofNat 32 (c.arg (3 + 3 * i)) })

/-- DEV_STATE_WRITE, R280. -/
def execDevStateWrite (m : Fin 8) (s : State) : Result :=
  .next (s.withCmd m 0x0105 (fun t c => t.buildSheaf m c.kind c.target c.band c.entries))

/-! ## Heads and monitor -/

/-- HEAD_CMD, R306: the packet is sent in order with the device's own traffic, once the port is trained. -/
def execHeadCmd (m : Fin 8) (s : State) : Result :=
  .next (s.withCmd m 0x0201 (fun t c =>
    let h := c.arg 0 % 4
    let op := bits (c.arg 1) 0 16
    if t.nHeads ≤ h then t.outcome0 m E_RANGE
    else if t.headState h = DISABLED ∨ t.headState h = FAILED then t.outcome0 m E_STATE
    else if op = 0x0002 ∨ op = 0x0006 then t.outcome0 m E_BAD_ARG
    else
      let u := t.beginHead m
      if u.portUp (h + 2) then u.sendHeadCmd m h else u))

/-- MON_DCS: a DSI command; the end of one with a read waits for the response, and so does the command after it (log 157). -/
def execMonDcs (m : Fin 8) (s : State) : Result :=
  .next (s.withCmd m 0x0205 (fun t c =>
    let read := bitOf (c.arg 0) 16
    if !t.flag HD_MON0_enable then t.outcome0 m E_STATE
    else if t.mon.dcs.isSome then t
    else
      let u := t.emit (.dsi (bits (c.arg 0) 0 8) (c.args.drop 1) read)
      if read then ({ u with mon := { u.mon with dcs := some m.val } }).beginHead m else u.setOutcome m S_OK [0]))

/-- DCS_READ_RESPONSE: the end of MON.DCS. -/
def execDcsReadResponse (dataType : Byte) (payload : List Byte) (s : State) : Result :=
  match s.mon.dcs with
  | none => .next s
  | some m => .next (({ s with mon := { s.mon with dcs := none } }).setOutcome m S_OK
      (BitVec.ofNat 32 (dataType.toNat + payload.length % 256 * 2 ^ 8) :: bytesWords payload))

/-- DCS_RESPONSE_TIMEOUT: no response within 10 ms. -/
def execDcsResponseTimeout (s : State) : Result :=
  match s.mon.dcs with
  | none => .next s
  | some m => .next (({ s with mon := { s.mon with dcs := none } }).outcome0 m E_TIMEOUT)

/-! ## Light -/

/-- LIGHT_FADE, R169, R271: a sheaf with the frame boundary of the banks' group. -/
def execLightFade (m : Fin 8) (s : State) : Result :=
  .next (s.withCmd m 0x0301 (fun t c =>
    let banks := maskBits (c.arg 0) 8
    if c.arg 1 < 1 ∨ 4 < c.arg 1 then t.outcome0 m E_BAD_ARG
    else match (banks.map t.bankGroup).dedup with
      | [] => t.outcome0 m S_OK
      | [g] =>
        if 4 ≤ g then t.outcome0 m E_STATE
        else t.buildSheaf m 3 g 0 (banks.map (fun b =>
          { index := LS_BANK9 b, mask := 7, value := BitVec.ofNat 32 (c.arg 1) }))
      | _ => t.outcome0 m E_COUPLED))

def stringMask (l : List Nat) : Nat := (l.map (fun n => 2 ^ n)).sum

/-- The command waits, and its arguments are replaced by what it will report. -/
def State.beginWith (s : State) (m : Nat) (args : List Word) : State :=
  s.modHead m (fun c => { c with begun := true, args := args })

/-- LIGHT_CLEAR_FAULT, R188: it completes at the frame boundary at which its effects begin. -/
def execLightClearFault (m : Fin 8) (s : State) : Result :=
  .next (s.withCmd m 0x0302 (fun t c =>
    let l := (maskStrings (c.arg 0) (c.arg 1)).filter t.strFaulted
    let k := stringMask l
    if l.isEmpty then t.setOutcome m S_OK [0, 0]
    else (t.doAll l (·.strClear ·)).beginWith m [BitVec.ofNat 32 k, BitVec.ofNat 32 (k / 2 ^ 32)]))

/-- LIGHT_REARM, R188. -/
def execLightRearm (m : Fin 8) (s : State) : Result :=
  .next (s.withCmd m 0x0303 (fun t c =>
    let banks := maskBits (c.arg 0) 8
    if banks.any (fun b => t.rearmCode b != 0) then t.outcome0 m E_STATE
    else
      let l := banks.filter t.tripped
      (t.doAll l (·.rearm ·)).setOutcome m S_OK [BitVec.ofNat 32 (stringMask l)]))

/-- ZN_CLEAR_FAULT, R200. -/
def execZnClearFault (m : Fin 8) (s : State) : Result :=
  .next (s.withCmd m 0x0304 (fun t c =>
    if 40960 < c.arg 0 + c.arg 1 then t.outcome0 m E_RANGE
    else
      let l := ((List.range (c.arg 1)).map (· + c.arg 0)).filter (fun n => t.zoneFaulted n && (t.zoneMatrix n).isSome)
      if l.isEmpty then t.setOutcome m S_OK [0]
      else (t.zonesClear l).beginWith m [BitVec.ofNat 32 (c.arg 0), BitVec.ofNat 32 (c.arg 1), BitVec.ofNat 32 l.length]))

/-- At a frame boundary: LIGHT.CLEAR_FAULT and ZN.CLEAR_FAULT commands whose clears have all taken effect end. -/
def State.clearsDone (s : State) : State :=
  s.doAll (List.range 8) (fun t m => match t.cmdHead m with
    | none => t
    | some c =>
      if c.state = MB_RUNNING ∧ c.begun ∧ c.outcome = none then
        if c.code = 0x0302 ∧ !((maskStrings (c.arg 0) (c.arg 1)).any (fun n => (t.str n).clearing)) then
          t.setOutcome m S_OK (c.args.take 2)
        else if c.code = 0x0304 ∧ !(t.zoneClear.any (fun n => decide (c.arg 0 ≤ n) && decide (n < c.arg 0 + c.arg 1))) then
          t.setOutcome m S_OK [BitVec.ofNat 32 (c.arg 2)]
        else t
      else t)

/-! ## Capture and memory -/

/-- A word range that a command names, checked by R242: an address, or a code; a refusal for range is counted. -/
def State.rangeArg (s : State) (m r : Nat) (addr : Option Nat) (n : Nat) (f : State → Nat → State) : State :=
  match addr with
  | none => s.outcome0 m E_BAD_ARG
  | some a => if s.capacity < a + n then (s.outOfRange r).outcome0 m E_RANGE else f s.wake a

/-- The bytes of the capture buffer, oldest sample first (R235). -/
def State.captureBytes (s : State) : List Byte :=
  s.cap.buf.reverse.flatMap (fun x => x.flatMap (fun v => natLe 4 (unsigned 32 v)))

/-- CE_CAPTURE_READ, R235. -/
def execCeCaptureRead (m : Fin 8) (s : State) : Result :=
  .next (s.withCmd m 0x0402 (fun t c =>
    if c.arg 0 % 64 ≠ 0 then t.outcome0 m E_BAD_ARG
    else t.rangeArg m 35 (c.addr 0) t.captureBytes.length (fun u a =>
      (u.writeBy 35 a u.captureBytes).setOutcome m (if u.cap.triggered then S_OK else S_PARTIAL)
        [BitVec.ofNat 32 u.cap.buf.length, BitVec.ofNat 32 (u.fld CE_CAP1_pre)])))

def addrWords (a : Nat) : List Word := [BitVec.ofNat 32 a, BitVec.ofNat 32 (a / 2 ^ 32)]

/-- A step of a DMA toward the Granary (R245): what the host has delivered of its `k` bytes is written. -/
def State.dmaIn (s : State) (m : Nat) (c : MbCmd) (a k : Nat) (host : List Byte) (ok : Bool) : State :=
  let l := if ok then (List.range k).map (fun i => host.getD i 0) else host.take k
  let n := c.done + l.length
  let bad := s.poisonEdges a n
  let t := s.writeBy 30 (a + c.done) l
  if ok ∧ n < c.arg 5 then t.moved m k (c.arg 5)
  else
    let code := if !ok then E_TIMEOUT else if bad.isEmpty then S_OK else E_POISON
    t.setOutcome m code (BitVec.ofNat 32 n :: addrWords (((bad.min?).getD 0) * 64))

/-- A step of a DMA toward the host (R262): it ends ahead of the first poisoned line. -/
def State.dmaOut (s : State) (m : Nat) (c : MbCmd) (a k host : Nat) : State :=
  match s.firstPoison (a + c.done) k with
  | some p =>
    let n := p - (a + c.done)
    let t := (s.emit (.hostData (host + c.done) (s.bytes (a + c.done) n))).hostPoison 30 (p / 64)
    t.setOutcome m E_POISON (BitVec.ofNat 32 (c.done + n) :: addrWords p)
  | none =>
    let t := s.emit (.hostData (host + c.done) (s.bytes (a + c.done) k))
    if c.done + k < c.arg 5 then t.moved m k (c.arg 5) else t.setOutcome m S_OK [BitVec.ofNat 32 (c.done + k), 0, 0]

/-- MEM_DMA, R242, R245, R253, R262, R305: a step of at most `n` bytes. `host` is what the host supplies for it, `hostOk` that it
completes every request of the device; writes toward the host are posted and draw no completion. -/
def execMemDma (m : Fin 8) (n : Nat) (host : List Byte) (hostOk : Bool) (s : State) : Result :=
  .next (s.workOn m 0x0501 (fun t c =>
    let total := c.arg 5
    if c.spi then t.outcome0 m E_STATE
    else if total = 0 then t.setOutcome m S_OK [0, 0, 0]
    else t.rangeArg m 30 (c.addr 3) total (fun u a =>
      let k := c.chunk a total n
      if bitOf (c.arg 0) 0 then u.dmaOut m c a k (c.arg 1 + c.arg 2 * 2 ^ 32) else u.dmaIn m c a k host hostOk)))

/-- MEM_FILL, R245, R253, R305: a step of at most `n` bytes; byte x of the range takes byte x mod 4 of the pattern. -/
def execMemFill (m : Fin 8) (n : Nat) (s : State) : Result :=
  .next (s.workOn m 0x0502 (fun t c =>
    let total := c.arg 2
    if total = 0 then t.setOutcome m S_OK [0]
    else t.rangeArg m 30 (c.addr 0) total (fun u a =>
      let k := c.chunk a total n
      let bad := u.poisonEdges a total
      let u := u.writeBy 30 (a + c.done) ((List.range k).map (fun i => BitVec.ofNat 8 (bits (c.arg 3) (8 * ((a + c.done + i) % 4)) 8)))
      if c.done + k < total then u.moved m k total
      else u.setOutcome m (if bad.isEmpty then S_OK else E_POISON) [BitVec.ofNat 32 total])))

/-- The record of a failed rank that MEM.SPARE may clear. -/
def State.rankRecorded (s : State) (ch k : Nat) : Bool :=
  match s.newest (rankRecord ch) with
  | f :: r :: _ => f == 1 && r.toNat == k
  | _ => false

/-- MEM_SPARE, R259, R263. -/
def execMemSpare (m : Fin 8) (s : State) : Result :=
  .next (s.withCmd m 0x0503 (fun t c =>
    let ch := c.arg 0
    let k := c.arg 1
    if !(t.channels.contains ch) ∨ t.dataRanks ch ≤ k then t.outcome0 m E_RANGE
    else if 1 < c.arg 2 then t.outcome0 m E_BAD_ARG
    else
      let t := t.wake
      if t.chState ch = CH_MIGRATING then t.outcome0 m E_STATE
      else if c.arg 2 = 0 then
        (if t.spareFree ch then (t.startMigration ch k).outcome0 m S_OK else t.outcome0 m E_CAPACITY)
      else if t.rankRecorded ch k then (t.ownWrite (rankRecord ch) [0, 0, 0]).outcome0 m S_OK
      else t.outcome0 m E_STATE))

/-- MEM_SELF_REFRESH, R258. -/
def execMemSelfRefresh (m : Fin 8) (s : State) : Result :=
  .next (s.withCmd m 0x0504 (fun t _ =>
    if t.memoryUsers then t.outcome0 m E_STATE
    else if t.flag GR_CTRL_in_sr then t.outcome0 m S_OK
    else t.sleep.outcome0 m S_OK))

/-- MEM_ERRLOG: three words a record, newest first. -/
def execMemErrlog (m : Fin 8) (s : State) : Result :=
  .next (s.withCmd m 0x0505 (fun t c =>
    if 8 ≤ c.arg 0 then t.outcome0 m E_RANGE
    else
      let l := (t.chan (c.arg 0)).log
      t.setOutcome m S_OK (BitVec.ofNat 32 l.length :: l.flatMap (fun e =>
        [BitVec.ofNat 32 e.1, BitVec.ofNat 32 (e.1 / 2 ^ 32 + e.2.1 * 2 ^ 8 + e.2.2.1 * 2 ^ 11 + e.2.2.2.1 * 2 ^ 14),
         BitVec.ofNat 32 e.2.2.2.2]))))

/-- TEST_EVENT, R310: the event is raised as its source would raise it. -/
def execTestEvent (m : Fin 8) (s : State) : Result :=
  .next (s.withCmd m 0x0903 (fun t c =>
    if isSource (c.arg 0) then (t.raiseData (c.arg 0) 0x7FFFFFFF).outcome0 m S_OK else t.outcome0 m E_RANGE))

/-! ## Identity (R378 to R384) -/

/-- ID_READ, R378. -/
def execIdRead (m : Fin 8) (s : State) : Result :=
  .next (s.withCmd m 0x0801 (fun t _ =>
    if t.boot.cellarOk ∧ (t.record 0x100).map (·.payload.take t.identity.length) = some t.identity then t.setOutcome m S_OK t.identity
    else t.outcome0 m E_STATE))

/-- The record that keeps the certificates or the key from use (R381). -/
def State.badCertificate (s : State) : Option Nat :=
  match ((List.range 0xF0).map (· + 0x110)).find? s.recordBad with
  | some n => some n
  | none => if Config.keyMatches then none else some 0x101

/-- ID_CERT, R381. -/
def execIdCert (m : Fin 8) (s : State) : Result :=
  .next (s.withCmd m 0x0803 (fun t c =>
    let l := Config.certificates.1 ++ Config.certificates.2
    t.rangeArg m 30 (c.addr 0) l.length (fun u a =>
      match u.badCertificate with
      | some n => (u.raise CELLAR_ERR n).outcome0 m E_STATE
      | none => (u.writeBy 30 a l).setOutcome m S_OK [BitVec.ofNat 32 l.length, 2])))

/-- An entry of the report (R384). -/
def attestEntry (type inst : Nat) (x : Comp) (flag : Bool) (drvType drvClass : Nat) : List Byte :=
  natLe 1 type ++ natLe 1 inst ++ natLe 1 x.level ++ natLe 1 flag.toNat ++ natLe 2 x.version ++ natLe 2 drvType ++
    natLe 1 drvClass ++ List.replicate 7 0 ++ (x.digest ++ List.replicate 32 0).take 32

def pairBefore (a b : Nat × Nat) : Bool := decide (a.1 < b.1) || (a.1 == b.1 && decide (a.2 ≤ b.2))

/-- The classes and types of the drivers in use, in ascending order. -/
def State.driverKinds (s : State) : List (Nat × Nat) :=
  (((s.liveDrivers.map (fun d => let x := s.driver (drvKey d.1 d.2); (x.kind, x.type))).filter (·.1 != 0)).dedup).insertionSort
    (fun a b => pairBefore a b = true)

/-- The entry of a class and type of driver: one that no running body covers has the reported version and no digest. -/
def State.drvEntry (s : State) (k : Nat × Nat) : List Byte :=
  let applied := bitOf (s.fld FW_STATE_applied) 2
  match s.fw.drv.find? (fun b => b.cls == k.1 && b.type == k.2) with
  | some b => attestEntry DB_TYPE 0 { level := b.level, version := b.version, digest := b.digest } applied k.2 k.1
  | none =>
    let x := ((s.liveDrivers.map (fun d => s.driver (drvKey d.1 d.2))).find? (fun x => x.kind == k.1 && x.type == k.2)).getD
      Driver.reset
    attestEntry DB_TYPE 0 { level := x.level, version := x.version, digest := [] } false k.2 k.1

/-- The entries in update order (R384). -/
def State.attestEntries (s : State) : List (List Byte) :=
  let one := fun (c inst : Nat) =>
    attestEntry (compType c) inst (tabGet (fun _ => Comp.reset) s.fw.run c) (bitOf (s.fld FW_STATE_applied) c) 0 0
  [one 0 0, one 1 0] ++ s.driverKinds.map s.drvEntry ++ s.heads'.map (fun h => one (3 + h) h) ++ [one 7 0]

/-- The report up to its signature (R382). -/
def State.attestBody (s : State) (nonce : List Word) : List Byte :=
  let es := s.attestEntries
  natLe 4 0x54414E50 ++ natLe 2 1 ++ natLe 2 es.length ++ natLe 4 (152 + 48 * es.length) ++ natLe 4 0 ++
    wordsBytes s.identity ++ wordsBytes nonce ++ natLe 8 s.tick ++ wordBytes s.devStatus ++ wordBytes (s.word FW_STATE) ++
    natLe 4 s.fw.settingsLevel ++ natLe 4 s.fw.reports ++ es.flatten

/-- ID_ATTEST, R381 to R384. -/
def execIdAttest (m : Fin 8) (s : State) : Result :=
  .next (s.withCmd m 0x0802 (fun t c =>
    t.rangeArg m 36 (c.addr 8) (152 + 48 * t.attestEntries.length) (fun u a =>
      match u.badCertificate with
      | some n => (u.raise CELLAR_ERR n).outcome0 m E_STATE
      | none =>
        let u := { u with fw := { u.fw with reports := u.fw.reports + 1 } }
        let body := u.attestBody (c.args.take 8)
        let rep := body ++ (Config.sm2Sign body ++ List.replicate 64 0).take 64
        (u.writeBy 36 a rep).setOutcome m S_OK [BitVec.ofNat 32 rep.length])))

end Sys2Proof.Machine
end

