-- ==== Sys2Proof/Machine/Cal.lean ====
section
/-!
DEFINITION. Calibration (R331 to R338): preconditions, CAL.RUN, CAL.READ and the tracking of the edge generators.
-/

namespace Sys2Proof.Machine

/-! ## Items (R331) -/

/-- Whether an item has an instance on the part; CAL.READ also names the centre sensor and the SERDES ports. -/
def State.calHas (s : State) (item i : Nat) : Bool :=
  match item with
  | 1 => decide (i < 37) && (decide (i < 33) || decide (i - 33 < s.nHeads))
  | 2 => decide (i < 64)
  | 3 => decide (i < 16)
  | 4 => decide (i < 16)
  | 5 => decide (i < 12)
  | 6 => decide (i < 36)
  | 7 => decide (i < 2) || (decide (4 ≤ i) && decide (i - 4 < s.nHeads))
  | _ => false

/-! ## Preconditions (R331, R332) -/

/-- An LSI input's light is dark: banks faded out or tripped, and the head disabled or parked. -/
def State.lightDark (s : State) (i : Nat) : Bool :=
  let t := i / 3
  let on := s.flag (CC_TRIAD0_enable t)
  let h := s.fld (CC_TRIAD0_head t)
  let dark := fun b => s.fld (LS_BANK12_fade_state b) == FADE_OFF || s.tripped b
  ((List.range 8).filter s.bankOn).all (fun b => (on && s.fld (LS_BANK0_head b) != h) || dark b) &&
    (!on || !s.headOn h || (s.port (h + 2)).parked)

/-- Every head is disabled, and T_die - T_min has been at most 1.5 degC for 60 s. -/
def State.soaked (s : State) : Bool :=
  !(s.heads'.any s.headOn) && s.thermal.soak.any (fun t => decide (60 * 800000000 ≤ s.tick - t))

/-- The fast and slow loops of armed heads (R155). -/
def State.armedLoops (s : State) : List Nat :=
  (s.heads'.filter (fun h => s.flag (LM_STATUS_armed h))).flatMap (fun h =>
    [s.fld (LM_CTRL_fast_loop h), s.fld (LM_CTRL_slow_loop h)])

/-- The precondition of an instance. -/
def State.calReady (s : State) (item i : Nat) : Bool :=
  match item with
  | 2 => !s.flag (LS_STRING0_enable i) ||
      (decide (s.fld (LS_STRING4_code_active i) * 100 < s.fld (LS_STRING1_base_code i)) && !s.tout.getLsbD (s.strOut i))
  | 3 => !(s.armedLoops.any (fun l => s.fld (CE_LOOP04_in_kind l) == 0 && s.fld (CE_LOOP04_in_index l) == i))
  | 4 => !((List.range 64).any (fun l =>
      s.flag (CE_LOOP00_enable l) && s.fld (CE_LOOP00_out_kind l) == 1 && s.fld (CE_LOOP05_out_index l) == i))
  | 5 => s.lightDark i
  | 6 => (decide (i < 16) || s.soaked) && !(s.armedLoops.any (fun l => s.fld (CE_LOOP04_in_kind l) == 3 &&
      (s.fld (CE_LOOP04_in_index l) == i || (s.fld (CE_LOOP04_in_index l) == 36 && decide (16 ≤ i)))))
  | _ => true

/-! ## CAL.RUN and CAL.READ (R331 to R337, R344) -/

/-- The instances that a CAL.RUN names. -/
def MbCmd.calUnits (c : MbCmd) : List Nat := maskStrings (c.arg 1) (c.arg 2)

/-- CAL_RUN, R331 to R337: a step of the command. The first checks the command and starts the run; `measures` is what the attempts of
the step bring, none where it makes none yet. The step with which the last instance ends writes the set (log 153). -/
def execCalRun (m : Fin 8) (measures : List CalMeasure) (s : State) : Result :=
  .next (s.workOn m 0x0601 (fun t c =>
    let item := c.arg 0
    let units := c.calUnits
    if c.begun then t.calGo m item measures
    else if item = 0 ∨ 6 < item then t.outcome0 m E_BAD_ARG
    else if units.any (fun i => !t.calHas item i || (item == 6 && i == 35)) then t.outcome0 m E_RANGE
    else if units.isEmpty then t.setOutcome m S_OK [0, 0]
    else
      let failing := units.filter (fun i => !t.calReady item i)
      if !failing.isEmpty then t.setOutcome m E_PRECOND [0, BitVec.ofNat 32 failing.length]
      else if !t.nvOpen then t.setOutcome m E_TEMP_WINDOW [0, 0]
      else ((t.calStart item units).beginHead m).calGo m item measures))

/-- CAL_READ, R344: the stored values in the order of R331. -/
def execCalRead (m : Fin 8) (s : State) : Result :=
  .next (s.withCmd m 0x0602 (fun t c =>
    let item := c.arg 0
    let i := c.arg 1
    if !t.calHas item i then t.outcome0 m E_RANGE
    else if !t.boot.cellarOk then t.outcome0 m E_STATE
    else if item = 7 then
      t.setOutcome m S_OK (((List.range 4).flatMap (fun j => ((t.record (0xE0 + 4 * i + j)).map (·.payload)).getD [])).take
        (if i < 2 then 17 else 43))
    else
      t.setOutcome m S_OK (intWords (match t.record (calRecord item + i) with
        | some r => calPayload item i r.payload
        | none => calDefaults item i))))

/-! ## Tracking (R338) -/

/-- EDGE_TRACK, R338: an edge generator measured while the device runs; a CAL.RUN of it takes precedence. -/
def execEdgeTrack (unit : Fin 37) (measure : CalMeasure) (s : State) : Result :=
  if s.running && s.flag CL_AUTO_edge_track && s.calHas 1 unit && s.fld (CL_INST_state 1 unit) != 2 && attemptGood 1 unit measure then
    .next { s with calPend := tabSet (fun _ => []) s.calPend (calKey 1 unit) (attemptMean measure) }
  else .next s

/-- The timed outputs of an EDGE instance that have edges placed ahead. -/
def edgeOuts (unit : Nat) : List Nat := if unit < 32 then (List.range 4).map (· + 4 * unit) else []

/-- EDGE_TRACK_SWITCH, R338: the result is switched in while no output of the instance has an edge within 2 ticks. -/
def execEdgeTrackSwitch (unit : Fin 37) (s : State) : Result :=
  let k := calKey 1 unit
  let v := tabGet (fun _ => []) s.calPend k
  let close := s.edges.any (fun e => (edgeOuts unit).contains e.out && decide (s.tick * 32 ≤ e.fine + 64) &&
    decide (e.fine ≤ s.tick * 32 + 64))
  if v.isEmpty || close then .next s
  else .next (({ s with calTrack := tabSet (fun _ => []) s.calTrack k v
                        calPend := tabSet (fun _ => []) s.calPend k [] }).setFld (CL_INST_state 1 unit) 3)

end Sys2Proof.Machine
end

