-- ==== Sys2Proof/Machine/Fw.lean ====
section
/-!
DEFINITION. Firmware update (R359 to R372): staging, applying, handover, confirmation and rollback, and the boot flash.
-/

namespace Sys2Proof.Machine

/-! ## The words (R376) -/

def pendingBit (c : Nat) : Field := ⟨FW_STATE, 4 + c, 1⟩
def appliedBit (c : Nat) : Field := ⟨FW_STATE, 12 + c, 1⟩

def State.comp (l : Tab Comp) (c : Nat) : Comp := tabGet (fun _ => Comp.reset) l c

/-- The components in update order (R361). -/
def updateOrder : List Nat := [0, 1, 2, 3, 4, 5, 6, 7]

/-- The components other than DB of the part. -/
def State.compNumbers (s : State) : List Nat := [0, 1] ++ s.heads'.map (· + 3) ++ [7]

/-! ## Compatibility (R360, R361) -/

/-- Whether two components go together: type and level of each. -/
def compatible (excl : List ((Nat × Nat) × (Nat × Nat))) (a b : Nat × Nat) : Bool :=
  decide (a.2 ≤ b.2 + 1) && decide (b.2 ≤ a.2 + 1) && !(excl.any (fun e => e == (a, b) || e == (b, a)))

/-- Levels reported in IDENT by drivers that no staged body serves, and those of all drivers. -/
def State.driverLevels (s : State) (bodies : List DrvBody) : List Nat :=
  ((s.liveDrivers.filter (fun d => (s.bodyFor bodies (drvKey d.1 d.2)).isNone)).map (fun d =>
    (s.driver (drvKey d.1 d.2)).level)).dedup

/-- The set after the steps of the components `done`: type and level of each component. -/
def State.setAfter (s : State) (new : Tab Comp) (drvs : List DrvBody) (done : List Nat) : List (Nat × Nat) :=
  s.compNumbers.map (fun c => (compType c, (State.comp (if done.contains c then new else s.fw.run) c).level)) ++
  (if done.contains 2 then drvs.map (fun b => (DB_TYPE, b.level)) ++ (s.driverLevels drvs).map (fun l => (DB_TYPE, l))
   else (s.driverLevels []).map (fun l => (DB_TYPE, l)))

/-- Whether every step in update order leaves a compatible set. -/
def State.stepsFit (s : State) (excl : List ((Nat × Nat) × (Nat × Nat))) (new : Tab Comp) (drvs : List DrvBody)
    (pending : List Nat) : Bool :=
  (List.range pending.length).all (fun k =>
    pairwiseNot (fun a b => !compatible excl a b) (s.setAfter new drvs (pending.take (k + 1))))

/-- The components whose staged version differs from the version running (R359). -/
def State.pendingComps (s : State) (new : Tab Comp) (drvs : List DrvBody) : List Nat :=
  updateOrder.filter (fun c =>
    if c = 2 then s.liveDrivers.any (fun d => (s.bodyFor drvs (drvKey d.1 d.2)).any (fun b =>
      b.version != (s.driver (drvKey d.1 d.2)).version))
    else s.compNumbers.contains c && (State.comp new c).version != (State.comp s.fw.run c).version)

/-! ## FW.STAGE (R359) -/

/-- An image in the staging region is verified and checked; its code, and what it brings. -/
def State.stageImage (s : State) (m n : Nat) : State :=
  let l := s.bytes s.stageBase n
  let u := s.unstage
  if n ≠ imgBytes l then u.outcome0 m E_BAD_ARG
  else match imgVerify l with
    | some f => u.outcome0 m f.code
    | none =>
      let new := imgComps l s.nHeads
      let drvs := imgDrvs l
      let p := u.pendingComps new drvs
      if !u.stepsFit (imgExcluded l) new drvs p then u.outcome0 m E_COMPAT
      else
        let mask := (p.map (2 ^ ·)).sum
        let t := { u with fw := { u.fw with staged := new, stagedDrv := drvs, stagedBytes := n } }
        let t := ((t.setFld FW_STATE_pending mask).setFld FW_VERSION_staged_version (imgVersion l)).setFld FW_STATE_phase
          PH_STAGED
        let w := fun c => let x := State.comp new c; infoWord x.version x.level
        t.setOutcome m S_OK ([BitVec.ofNat 32 mask, w 7, w 3, w 1, w 0] ++
          [match drvs.filter t.serves with
           | b :: _ => infoWord b.version b.level
           | [] => 0])

/-- FW_STAGE, R359 to R361. -/
def execFwStage (m : Fin 8) (s : State) : Result :=
  .next (s.withCmd m 0x0701 (fun t c =>
    let n := c.arg 2
    let b := t.stageBase
    match c.addr 0 with
    | none => t.outcome0 m E_BAD_ARG
    | some a =>
      if n = 0 then t.outcome0 m E_ZERO
      else if t.capacity < a + n then (t.outOfRange 36).outcome0 m E_RANGE
      else if a ≠ b ∧ a < b + 2 ^ 24 ∧ b < a + n then t.outcome0 m E_BAD_ARG
      else if t.capacity < b + n then (t.outOfRange 36).outcome0 m E_RANGE
      else if 2 ^ 24 < n then t.outcome0 m E_BAD_ARG
      else if t.rangePoisoned a n then t.outcome0 m E_POISON
      else
        let t := t.wake
        (if a = b then t else t.writeBy 36 b (t.bytes a n)).stageImage m n))

/-! ## The switch of a component (R362, R363) -/

/-- What is staged for a component, measured as it is loaded (R384). -/
def State.stagedComp (s : State) (c : Nat) : Comp :=
  let l := s.bytes s.stageBase s.fw.stagedBytes
  match (imgEntries l).find? (fun e => e.type == compType c) with
  | some e => { State.comp s.fw.staged c with digest := Config.sm3 (imgBody l e) }
  | none => State.comp s.fw.staged c

/-- A component runs the staged program, and its idle copy keeps the one before. -/
def State.switchIn (s : State) (c : Nat) : State :=
  if c = 2 then { s with fw := { s.fw with idleDrv := s.fw.drv, drv := s.fw.stagedDrv } }
  else
    { s with fw := { s.fw with
      idle := tabSet (fun _ => Comp.reset) s.fw.idle c (State.comp s.fw.run c)
      run := tabSet (fun _ => Comp.reset) s.fw.run c (s.stagedComp c) } }

/-- A component runs its idle copy again (R369). -/
def State.switchBack (s : State) (c : Nat) : State :=
  if c = 2 then { s with fw := { s.fw with idleDrv := s.fw.drv, drv := s.fw.idleDrv } }
  else
    { s with fw := { s.fw with
      idle := tabSet (fun _ => Comp.reset) s.fw.idle c (State.comp s.fw.run c)
      run := tabSet (fun _ => Comp.reset) s.fw.run c (State.comp s.fw.idle c) } }

/-- The end of a successful FW.APPLY. -/
def State.applied (s : State) (m c : Nat) : State :=
  let t := { s with fw := { s.fw with applying := none, switched := false, activated := [] } }
  ((((t.setFld (pendingBit c) 0).setFld (appliedBit c) 1).restPhase).raise FW_ACCEPTED (compType c)).setOutcome m S_OK []

/-! ## Rollback (R369) -/

/-- The settings of the old format are current again (R369, R372). -/
def State.atticBack (s : State) : State :=
  match s.fw.attic with
  | none => s
  | some (a, l) =>
    let t := { s with fw := { s.fw with area := a, settingsLevel := l, attic := none } }
    t.ownWrite t.directory.1 t.directory.2

/-- The end of FW.ROLLBACK; the staged image is kept, and the components that differ from it are pending. -/
def State.rolledBack (s : State) (m : Nat) : State :=
  let t := { s.atticBack with fw := { s.atticBack.fw with applying := none, switched := false, activated := [] } }
  let mask := ((t.pendingComps t.fw.staged t.fw.stagedDrv).map (2 ^ ·)).sum
  let t := (t.setFld FW_STATE_pending (if t.fw.stagedBytes = 0 then 0 else mask)).setFld FW_STATE_phase PH_IDLE
  (t.raise FW_ROLLBACK 0xFF).setOutcome m S_OK []

/-- The drivers that run a body of the running set go back to their other bank. -/
def State.revertDrivers (s : State) : State :=
  let l := s.liveDrivers.filterMap (fun d =>
    let key := drvKey d.1 d.2
    let x := s.driver key
    if (s.bodyFor s.fw.drv key).any (fun b => b.version == x.version) && s.dbOn d.1 then
      some (key, match s.bodyFor s.fw.idleDrv key with
        | some b => b.version
        | none => x.otherVersion)
    else none)
  { s with fw := { s.fw with reverting := s.fw.reverting ++ l } }

def State.dbIdle (s : State) : Bool :=
  s.fw.loading.isEmpty && s.fw.checked.isEmpty && s.fw.awaitVersion.isEmpty && s.fw.reverting.isEmpty

/-- A component has been switched back. -/
def State.backDone (s : State) (c : Nat) : State :=
  let t := { s with fw := { s.fw with applying := none, switched := false, rolling := s.fw.rolling.drop 1 } }
  t.setFld (appliedBit c) 0

/-- FW.ROLLBACK goes on with the components that are left, as far as it need not wait. -/
def State.rollOn (m : Nat) : Nat → State → State
  | 0, s => s
  | fuel + 1, s =>
    match s.fw.rolling with
    | [] => s.rolledBack m
    | c :: _ =>
      let wait := { s with fw := { s.fw with applying := some (m, c) } }
      if c = 7 then { s with fw := { s.fw with handover := some m } }
      else if c = 2 then
        let t := wait.revertDrivers
        if t.dbIdle then State.rollOn m fuel ((t.switchBack c).backDone c) else t
      else if 3 ≤ c ∧ s.headOn (c - 3) then wait
      else State.rollOn m fuel ((s.switchBack c).backDone c)

/-- FW_ROLLBACK, R369. -/
def execFwRollback (m : Fin 8) (s : State) : Result :=
  .next (s.withCmd m 0x0704 (fun t _ =>
    if t.appliedMask = 0 then t.outcome0 m E_STATE
    else
      let l := (updateOrder.filter (fun c => t.flag (appliedBit c))).reverse
      let u := { t with fw := { t.fw with rolling := l } }
      State.rollOn m 9 ((u.setFld FW_STATE_phase PH_ROLLING_BACK).beginHead m)))

/-! ## Driver firmware under way (R364 to R366) -/

/-- FW.APPLY of DB, or the DB step of FW.ROLLBACK, is over once no driver is under way. -/
def State.dbSettle (s : State) : State :=
  match s.fw.applying with
  | some (m, 2) =>
    if !s.dbIdle then s
    else if s.fw.rolling.isEmpty then (s.switchIn 2).applied m 2
    else State.rollOn m 9 ((s.switchBack 2).backDone 2)
  | _ => s

/-- A driver drops out of every list. -/
def State.dropDriver (s : State) (key : Nat) : State :=
  let keep := fun (e : Nat × Nat) => e.1 != key
  (({ s with fw := { s.fw with
      loading := s.fw.loading.filter keep
      checked := s.fw.checked.filter keep
      awaitVersion := s.fw.awaitVersion.filter keep
      reverting := s.fw.reverting.filter keep } }).modDriver key (fun x => { x with fwTag := none })).busNext (key / 128)

/-- Frames that load or switch firmware leave the queue of a port. -/
def State.dropFwFrames (s : State) (p : Nat) : State :=
  s.modDbPort p (fun x => { x with queue := x.queue.filter (fun f => !([0x31, 0x32, 0x33, 0x34].contains (frameOp f.2))) })

/-- FW.APPLY of DB fails: nothing more is loaded or activated, and the drivers already switched go back at the next latch
(R364, R366). -/
def State.dbFail (s : State) (m : Nat) : State :=
  let back := s.fw.activated.filterMap (fun key =>
    if (s.liveDrivers.contains (key / 128, key % 128)) && !(s.driver key).comms then
      some (key, match s.bodyFor s.fw.drv key with
        | some b => b.version
        | none => (s.driver key).otherVersion)
    else none)
  let t := (s.doAll (List.range 8) (·.dropFwFrames ·)).doAll (s.fw.loading ++ s.fw.checked) (fun u e =>
    u.modDriver e.1 (fun x => { x with fwTag := none }))
  let t := { t with fw := { t.fw with loading := [], checked := [], awaitVersion := [], activated := [], applying := none
                                      reverting := t.fw.reverting ++ back } }
  (t.doAll (List.range 8) (·.busNext ·)).restPhase.outcome0 m E_COMPAT

/-- A driver cannot be loaded or switched: FW.APPLY of DB fails; a rollback, and a start, go on without it. -/
def State.fwFail (s : State) (key : Nat) : State :=
  let mine := fun (e : Nat × Nat) => e.1 == key
  if (s.fw.loading ++ s.fw.checked ++ s.fw.awaitVersion ++ s.fw.reverting).any mine then
    match s.fw.applying with
    | some (m, 2) =>
      if s.fw.rolling.isEmpty && !s.fw.reverting.any mine then (s.dropDriver key).dbFail m else (s.dropDriver key).dbSettle
    | _ => s.dropDriver key
  else s

/-- Drivers that are no longer in use drop out. -/
def State.fwPrune (s : State) : State :=
  let live := s.liveDrivers.map (fun d => drvKey d.1 d.2)
  let gone := ((s.fw.loading ++ s.fw.checked ++ s.fw.awaitVersion ++ s.fw.reverting).map (·.1)).filter (fun k => !live.contains k)
  if gone.isEmpty then s else (s.doAll gone (·.dropDriver ·)).dbSettle

/-! ## SQ at frame boundaries (R363) -/

/-- The head of the SQ switch under way has reached the end of its old frame, or is disabled. -/
def State.sqDone (s : State) (m c : Nat) : State :=
  if s.fw.rolling.isEmpty then s.applied m c else State.rollOn m 9 (s.backDone c)

def State.sqSwitch (s : State) (c : Nat) : State :=
  let t := if s.fw.rolling.isEmpty then s.switchIn c else s.switchBack c
  { t with fw := { t.fw with switched := true } }

/-- A frame boundary of group `g`: the head's microcode switches, and at the next boundary the switch is over. -/
def State.fwFrame (s : State) (g : Nat) : State :=
  let s := s.fwPrune
  match s.fw.applying with
  | some (m, c) =>
    if 3 ≤ c ∧ c ≤ 6 ∧ s.groupOf (c - 3) = g then
      if s.fw.switched then s.sqDone m c else s.sqSwitch c
    else s
  | none => s

/-- A switch that waits for a head that has been disabled since is made at once, and drivers disabled since drop out. -/
def State.fwSettle (s : State) : State :=
  let s := s.fwPrune
  match s.fw.applying with
  | some (m, c) =>
    if 3 ≤ c ∧ c ≤ 6 ∧ !s.headOn (c - 3) then ((if s.fw.switched then s else s.sqSwitch c).sqDone m c)
    else s
  | none => s

/-! ## FW.APPLY (R362, R363, R367) -/

/-- The component that FW.APPLY names; none where it names none of the part. -/
def State.applyComp (s : State) (c : MbCmd) : Option Nat :=
  if c.arg 0 = SQ_TYPE then (if c.arg 1 < s.nHeads then some (3 + c.arg 1) else none)
  else if c.arg 0 = SF_TYPE then some 7
  else some (c.arg 0)

/-- The load of every enabled driver that a staged body serves (R364). -/
def State.loadAll (s : State) : State :=
  s.doAll (s.liveDrivers.filter (fun d => s.dbOn d.1)) (fun t d =>
    match t.bodyFor t.fw.stagedDrv (drvKey d.1 d.2) with
    | some b => t.loadDriver (drvKey d.1 d.2) b
    | none => t)

/-- A component that may be applied is switched, or its switch begins. -/
def State.applyBegin (s : State) (m c : Nat) : State :=
  let t := (s.setFld FW_STATE_phase PH_APPLYING).beginHead m
  let wait := { t with fw := { t.fw with applying := some (m, c), switched := false, activated := [] } }
  if c = 7 then
    if (t.stagedComp 7).digest = (State.comp t.fw.staged 7).digest then { t with fw := { t.fw with handover := some m } }
    else t.restPhase.outcome0 m E_SIG
  else if c = 2 then wait.loadAll.dbSettle
  else if 3 ≤ c ∧ t.headOn (c - 3) then wait
  else (t.switchIn c).applied m c

/-- FW_APPLY, R362. -/
def execFwApply (m : Fin 8) (s : State) : Result :=
  .next (s.withCmd m 0x0702 (fun t c =>
    if 4 < c.arg 0 then t.outcome0 m E_BAD_ARG
    else match t.applyComp c with
      | none => t.outcome0 m E_RANGE
      | some k =>
        if !t.flag (pendingBit k) then t.outcome0 m E_STATE
        else if (updateOrder.take k).any (fun j => t.flag (pendingBit j)) then t.outcome0 m E_COMPAT
        else t.wake.applyBegin m k))

/-! ## Handover of SF (R288, R367, R372) -/

/-- Settings of another level go into the other area, and the old area becomes the attic; an attic that is there is kept. -/
def State.acceptSettings (s : State) : State :=
  let level := (State.comp s.fw.run 7).level
  if level = s.fw.settingsLevel then s
  else if s.fw.attic.isSome then { s with fw := { s.fw with settingsLevel := level } }.saveSettings
  else
    { s with fw := { s.fw with attic := some (s.fw.area, s.fw.settingsLevel)
                               area := if s.fw.area = 0x1000 then 0x4000 else 0x1000
                               settingsLevel := level } }.saveSettings

/-- SF_ACCEPTANCE, R367: the new firmware accepts and resumes work. -/
def execSfAcceptance (acceptUs : Nat) (s : State) : Result :=
  match s.fw.handover with
  | none => .next s
  | some m =>
    let t := { s with fw := { s.fw with handover := none } }.setFld FW_ACCEPT_accept_us (min 65535 acceptUs)
    if t.fw.rolling.isEmpty then .next (((t.switchIn 7).acceptSettings).applied m 7).startHeads
    else .next (State.rollOn m 9 (((t.switchBack 7).raise FW_ACCEPTED SF_TYPE).backDone 7)).startHeads

/-- HANDOVER_TIMEOUT, R367: the old half resumes. -/
def execHandoverTimeout (s : State) : Result :=
  match s.fw.handover with
  | none => .next s
  | some m =>
    let t := { s with fw := { s.fw with handover := none, rolling := [] } }
    .next ((((t.count FW_ACCEPT_rollbacks 1).raise FW_ROLLBACK SF_TYPE).restPhase).outcome0 m E_COMPAT).startHeads

/-! ## FW.CONFIRM (R368) -/

/-- The bytes of a sector that no read-back has found good are unknown: free values. -/
def State.badSector (s : State) (a : Nat) : State :=
  ({ s with free := s.free + 4096 }).setFlash a ((List.range 4096).map (fun i => BitVec.ofNat 8 (Config.freeValue (s.free + i))))

/-- Sectors of the image region written from the staging region, the last filled with ones (R368). -/
def State.confirmSectors (s : State) (first k : Nat) : State :=
  let l := s.bytes (s.stageBase + 4096 * first) (min (4096 * k) (s.fw.stagedBytes - 4096 * first))
  s.setFlash (4096 * first) (l ++ List.replicate (4096 * k - l.length) 0xFF#8)

/-- The end of an FW.CONFIRM that has written every sector: the attic copy goes, and nothing is applied any more (R368, R370). -/
def State.confirmed (s : State) (m : Nat) : State :=
  let u := { s with fw := { s.fw with attic := none, booted := s.fw.stagedDrv } }
  let u := u.doIf s.fw.attic.isSome (fun v => v.ownWrite v.directory.1 v.directory.2)
  ((u.setFld FW_STATE_applied 0).setFld FW_STATE_phase PH_IDLE).outcome0 m S_OK

/-- FW_CONFIRM, R328, R368: a step of at most `sectors` sectors; `flashOk` is whether each of them reads back in the end, and the last of
the step is the one that does not (log 55). After the start check, sectors wait while the write window is closed. -/
def execFwConfirm (m : Fin 8) (sectors : Nat) (flashOk : Bool) (s : State) : Result :=
  .next (s.workOn m 0x0703 (fun t c =>
    if !c.begun ∧ (t.pendingMask ≠ 0 ∨ t.appliedMask = 0) then t.outcome0 m E_STATE
    else if !c.begun ∧ !t.nvOpen then t.outcome0 m E_TEMP_WINDOW
    else if !t.nvOpen then t
    else
      let t := t.wake.setFld FW_STATE_phase PH_CONFIRMING
      let total := ceilDiv t.fw.stagedBytes 4096
      let k := min sectors (total - c.done)
      if !flashOk ∧ 0 < k then
        (((t.confirmSectors c.done (k - 1)).badSector (4096 * (c.done + k - 1))).restPhase).outcome0 m E_STATE
      else if c.done + k < total then (t.confirmSectors c.done k).moved m k total
      else (t.confirmSectors c.done k).confirmed m))

/-! ## The boot flash (R328, R358) -/

/-- FW_FLASH_ERASE. -/
def execFwFlashErase (m : Fin 8) (s : State) : Result :=
  .next (s.withCmd m 0x0705 (fun t c =>
    if c.arg 0 % 4096 ≠ 0 ∨ c.arg 1 % 4096 ≠ 0 then t.outcome0 m E_BAD_ARG
    else if !t.nvOpen ∧ c.arg 1 ≠ 0 then t.outcome0 m E_TEMP_WINDOW
    else (t.setFlash (c.arg 0) (List.replicate (c.arg 1) 0xFF#8)).outcome0 m S_OK))

/-- FW_FLASH_WRITE. -/
def execFwFlashWrite (m : Fin 8) (s : State) : Result :=
  .next (s.withCmd m 0x0706 (fun t c =>
    if !t.nvOpen ∧ c.arg 1 ≠ 0 then t.outcome0 m E_TEMP_WINDOW
    else (t.setFlash (c.arg 0) (((c.args.drop 2).flatMap wordBytes).take (c.arg 1))).outcome0 m S_OK))

/-! ## The end of commands (R302) -/

/-- MAILBOX_COMMAND_COMPLETE, R302: the reply of a running head whose work has ended, and of one that fails R306. -/
def execMailboxCommandComplete (m : Fin 8) (s : State) : Result :=
  if !s.serving then .next s
  else
    let t := s.fwSettle
    match t.cmdHead m with
    | none => .next t
    | some c =>
      if c.state ≠ MB_RUNNING then .next t
      else match c.outcome with
        | some (code, results) => .next (t.finishHead m c code results)
        | none =>
          let e := c.refusal (t.boot.phase == FALLOW)
          if e = 0 then .next t else .next (t.finishHead m c e [])

end Sys2Proof.Machine
end

