-- ==== Sys2Proof/Machine/BusRows.lean ====
section
/-!
DEFINITION. The driver bus from outside (R172 to R179, R193, R197, R364 to R366, R370): responses, their absence, and polls.
-/

namespace Sys2Proof.Machine

/-! ## Tries and their end (R176, R365) -/

/-- A driver has failed every try: it is in COMMS, and what waits for it is dropped. -/
def State.driverLost (s : State) (p addr : Nat) : State :=
  let t := (s.count (DB_PORT2_no_resp p) 1).raise2 DB_NO_RESPONSE p addr
  let t := t.modDbPort p (fun x => { x with
    queue := x.queue.filter (fun f => f.1 != addr)
    inFlight := x.inFlight.filter (fun f => f.1 != addr) })
  let t := ((t.stringsComms p addr).zonesComms p addr).fwFail (drvKey p addr)
  t.busNext p

/-- The frame in flight goes out again, or has failed every try. A driver that activates firmware is given its time, and
no try is counted. -/
def State.busRetry (s : State) (p : Nat) : State :=
  let x := s.dbPort p
  match x.inFlight with
  | none => s
  | some f =>
    if s.quiet p f.1 then s.busEmit p f.2
    else if x.tries < s.fld (DB_PORT0_retries p) then
      ((s.setDbPort p { x with tries := x.tries + 1 }).count (DB_PORT3_resent p) 1).busEmit p f.2
    else s.driverLost p f.1

/-- DB_RESPONSE_TIMEOUT, R176: no response within resp_wait. -/
def execDbResponseTimeout (p : Fin 8) (s : State) : Result := .next (s.busRetry p)

/-- A response on port `p` to a frame in flight of one of the opcodes `ops`: `f` gets the driver's address, the frame sent and
the payload. One with a bad crc is discarded and counted, and the frame goes out again (R173, R176). -/
def State.response (s : State) (p : Nat) (ops : List Nat) (frame : List Byte)
    (f : State → Nat → List Byte → List Byte → State) : Result :=
  match (s.dbPort p).inFlight with
  | none => .next s
  | some q =>
    match parseResponse frame with
    | none => .next ((s.count (DB_PORT2_crc_errs p) 1).busRetry p)
    | some (a, op, pl) =>
      if a = q.1 ∧ op = frameOp q.2 ∧ ops.contains op then .next (f s a q.2 pl) else .next s

/-! ## ACK (R175, R176) -/

/-- What a driver that has done a frame's work has done. -/
def State.ackDone (s : State) (p addr : Nat) (sent : List Byte) : State :=
  let key := drvKey p addr
  match frameOp sent with
  | 0x08 =>
    let t := s.doAll (s.driverStrings p addr) (fun u n => u.setFld (LS_STRING4_code_active n) 0)
    t.modDriver key (fun x => { x with codes := [], active := [], mask := 0, activeMask := 0 })
  | 0x21 => s.levelsAcked p addr (byteAt sent 4) (byteAt sent 7)
  | _ => s

/-- ACK, R175, R176: status 3 sends the frame again; a frame that loads or switches firmware and is refused fails. -/
def execAck (p : Fin 8) (frame : List Byte) (s : State) : Result :=
  s.response p [0x02, 0x03, 0x08, 0x20, 0x21, 0x31, 0x32, 0x34, 0x35] frame (fun t a sent pl =>
    let st := byteAt pl 0
    if st = 3 then t.busRetry p
    else
      let u := t.busDone p
      if st = 0 then u.ackDone p a sent
      else u.doIf ([0x31, 0x32, 0x34, 0x35].contains (frameOp sent)) (·.fwFail (drvKey p a)))

/-! ## IDENT (R175, R193, R370) -/

/-- An enabled matrix whose driver is not what the matrix says: the enable is refused after all (R193, R294). -/
def State.zoneIdent (s : State) (p addr : Nat) : State :=
  match s.zoneAt p addr with
  | none => s
  | some (z, _) =>
    let x := s.driver (drvKey p addr)
    if x.kind = 2 ∧ x.chans = s.fld (ZN_MAT4_chans z) then s
    else
      let i : Iface := if (s.matrix z).iface = 0 then .pcie else .spi
      ((s.matrixDisable z).setFld (ZN_MAT0_enable z) 0).refuseWrite i (ZN_MAT0 z) E_CONFLICT

/-- IDENT, R175, R193, R370, R407: the driver is known from here on, with the sampling phase found in its response, in eighths of a
bit time, and its firmware version is asked for. -/
def execIdent (p : Fin 8) (frame : List Byte) (phase : Fin 8) (s : State) : Result :=
  s.response p [0x01] frame (fun t a _ pl =>
    let u := (t.busDone p).modDriver (drvKey p a) (fun x => { x with
      type := halfAt pl 0, kind := byteAt pl 2, chans := byteAt pl 3, level := byteAt pl 4, delay := byteAt pl 5
      phase := phase })
    (u.busSend p a 0x30 []).zoneIdent p a)

/-! ## TELEM and ZONE_FAULTS (R179, R197, R202) -/

/-- TELEM_POLL, R179, R197: every driver the port serves is polled; one that activates firmware is left alone (R365). -/
def execTelemPoll (p : Fin 8) (s : State) : Result :=
  if !s.dbOn p ∨ s.fld (DB_PORT0_telem_us p) = 0 then .next s
  else
    let zones := ((List.range 4).filter s.matrixOn).flatMap (fun z =>
      ((s.zoneDrvs z).map (s.zoneDriver z)).filter (fun d => d.1 == p.val && !s.quiet d.1 d.2))
    let t := s.doAll ((s.portStringDrivers p).filter (fun a => !s.quiet p a)) (fun u a => u.busSend p a 0x05 [])
    .next (t.doAll zones (fun u d => u.busSend p d.2 0x24 []))

/-- TELEM, R175, R179, R183, R407. -/
def execTelem (p : Fin 8) (frame : List Byte) (phase : Fin 8) (s : State) : Result :=
  s.response p [0x05] frame (fun t a _ pl =>
    ((t.modDriver (drvKey p a) (fun x => { x with phase := phase })).telemReport p a pl).busDone p)

/-- ZONE_FAULTS, R197, R200, R202, R407. -/
def execZoneFaults (p : Fin 8) (frame : List Byte) (phase : Fin 8) (s : State) : Result :=
  s.response p [0x24] frame (fun t a _ pl =>
    let u := match t.zoneAt p a with
      | some (z, d) => t.zoneReport z d pl
      | none => t
    (u.modDriver (drvKey p a) (fun x => { x with comms := false, phase := phase })).busDone p)

/-! ## Firmware of drivers (R364, R366, R370) -/

/-- A driver that is not under way and runs another version than the running set's body goes back to it (R370). -/
def State.startVersion (s : State) (key : Nat) : State :=
  let x := s.driver key
  let busy := (s.fw.loading ++ s.fw.checked ++ s.fw.awaitVersion ++ s.fw.reverting).any (fun e => e.1 == key)
  match s.bodyFor s.fw.drv key with
  | some b =>
    if busy ∨ x.version = b.version ∨ s.fw.applying.any (fun e => e.2 == 2) then s
    else if x.otherVersion = b.version then { s with fw := { s.fw with reverting := s.fw.reverting ++ [(key, b.version)] } }
    else s.loadDriver key b
  | none => s

/-- FW_QUERY, R366, R370: a driver that was to switch has done so once it reports the version, and is identified anew. -/
def execFwQuery (p : Fin 8) (frame : List Byte) (s : State) : Result :=
  s.response p [0x30] frame (fun t a _ pl =>
    let key := drvKey p a
    let u := (t.busDone p).modDriver key (fun x => { x with version := halfAt pl 0, otherVersion := halfAt pl 2 })
    match u.fw.awaitVersion.find? (fun e => e.1 == key) with
    | some e =>
      if (u.driver key).version = e.2 then
        let v := { u with fw := { u.fw with awaitVersion := u.fw.awaitVersion.filter (fun e => e.1 != key) } }
        ((v.busNext p).busSend p a 0x01 []).dbSettle
      else u.busSend p a 0x30 []
    | none => u.startVersion key)

/-- FW_CHECK, R364: a body that is whole is ready for its activation; one that is not is checked again, up to `retries`
times. -/
def execFwCheck (p : Fin 8) (frame : List Byte) (s : State) : Result :=
  s.response p [0x33] frame (fun t a _ pl =>
    let key := drvKey p a
    let x := t.dbPort p
    if byteAt pl 0 = 0 then
      let mine := fun (e : Nat × Nat) => e.1 == key
      ({ t with fw := { t.fw with checked := t.fw.checked ++ t.fw.loading.filter mine
                                  loading := t.fw.loading.filter (fun e => !mine e) } }).busDone p
    else if x.tries < t.fld (DB_PORT0_retries p) then t.busRetry p
    else (t.busDone p).fwFail key)

/-- DRIVER_VERSION_TIMEOUT, R366: a driver has not reported its new version within 10 ms. -/
def execDriverVersionTimeout (p : Fin 8) (addr : BitVec 7) (s : State) : Result :=
  if s.quiet p addr.toNat then .next (s.driverLost p addr.toNat) else .next s

end Sys2Proof.Machine
end

