-- ==== Sys2Proof/Machine/Gleaner.lean ====
section
/-!
DEFINITION. The Gleaner (R386 to R392) and the TAP (R385, R393 to R395).
-/

namespace Sys2Proof.Machine

/-! ## Instances and passes (R386, R389) -/

def PATROL : Nat := 1
def SPARE_TEST : Nat := 2
def LOFT_MARCH : Nat := 3
def EYE_SCAN : Nat := 4
def ADC_REF : Nat := 5
def DARK_CHECK : Nat := 6
def EDGE_LOOP : Nat := 7

/-- The enabled channels of a mask, 0 for all. -/
def State.maskChannels (s : State) (mask : Nat) : List Nat := s.channels.filter (fun c => mask == 0 || bitOf mask c)

/-- A loft unit of 64 KiB is free: outside every head's window, which holds its delay line, and every region still in
use. -/
def State.loftFree (s : State) (u : Nat) : Bool :=
  let inside := fun (r : Nat × Nat) => decide (r.1 ≤ u) && decide (u < r.2)
  !((s.storeHeads.map s.window).any inside) &&
  !(s.heads'.any (fun h => (s.headOf h).oldRegions.any (fun r => inside (r.2.2.1, r.2.2.2))))

/-- The lanes that EYE_SCAN covers on a port of its mask: ingest lane 16, and head spare lanes that are free. -/
def State.eyeLanes (s : State) (bit : Nat) : Nat :=
  if bit < 2 then 1
  else if 4 ≤ bit ∧ bit - 4 < s.nHeads then
    [s.fld (HD_RVH_STATUS_spare0_for (bit - 4)), s.fld (HD_RVH_STATUS_spare1_for (bit - 4))].count 63
  else 0

/-- The steps of a whole pass of a task with mask `a1`. -/
def State.passSteps (s : State) (task a1 : Nat) : Nat :=
  if task = PATROL then ((s.maskChannels a1).map (fun c => s.dataRanks c * s.rankLines / 64)).sum
  else if task = SPARE_TEST then
    (((s.maskChannels a1).filter s.spareFree).map (fun _ => s.rankLines / 64)).sum
  else if task = LOFT_MARCH then ((List.range 2048).filter s.loftFree).length
  else if task = EYE_SCAN then ((maskBits a1 8).map s.eyeLanes).sum
  else if task = ADC_REF then ((maskBits a1 11).map (fun b => if b < 8 then 8 else if b = 8 then 12 else 16)).sum
  else if task = DARK_CHECK then
    ((maskBits a1 4).filter (fun t => s.flag (CC_TRIAD0_enable t) && !s.lineMode (s.fld (CC_TRIAD0_head t)))).length
  else 136

/-- A task whose tests need the Granary. -/
def memoryTask (task : Nat) : Bool := task == PATROL || task == SPARE_TEST

/-! ## GL.RUN and GL.RESULTS (R389, R390) -/

/-- A pass begins; the background pass of the task is put aside. -/
def State.beginPass (s : State) (t : Nat) : State :=
  s.modTask t (fun x => { x with bgSteps := x.steps, bgFails := x.passFails, bgStarted := x.started
                                 steps := 0, passFails := 0, started := s.tick })

/-- GL_RUN, R386, R389, R353; a port mask names no head that the part lacks (R1, R306). -/
def execGlRun (m : Fin 8) (s : State) : Result :=
  .next (s.withCmd m 0x0901 (fun t c =>
    let k := c.arg 0
    if k = 0 ∨ 7 < k then t.outcome0 m E_RANGE
    else if k = EYE_SCAN ∧ 2 ^ (4 + t.nHeads) ≤ c.arg 1 % 256 then t.outcome0 m E_RANGE
    else if memoryTask k ∧ !t.boot.granaryOk then t.outcome0 m E_STATE
    else
      let t := if memoryTask k then t.wake else t
      if t.passSteps k (c.arg 1) = 0 then t.setOutcome m S_OK [0, 0]
      else ((t.beginPass k).beginHead m).glStates))

/-- GL_RESULTS, R390. -/
def execGlResults (m : Fin 8) (s : State) : Result :=
  .next (s.withCmd m 0x0902 (fun t c =>
    if c.arg 0 = 0 ∨ 7 < c.arg 0 then t.outcome0 m E_RANGE
    else
      let x := t.task (c.arg 0)
      t.setOutcome m S_OK ([x.allPasses, x.allFails, x.lastMs, x.lastFailTick].map (BitVec.ofNat 32))))

/-! ## Steps (R386 to R391) -/

/-- The mask of the pass under way: that of GL.RUN, or all. -/
def State.passMask (s : State) (task : Nat) : Nat :=
  match (s.demandOf task).bind s.cmdHead with
  | some c => c.arg 1
  | none => if memoryTask task then 0 else 0x7FF

/-- The task whose turn the next background step is: the next in ascending number, and round again, of those that run a pass with steps
in it (R389). -/
def State.glNext (s : State) : Option Nat :=
  ((List.range 7).map (fun i => (s.glTurn + i) % 7 + 1)).find? (fun t =>
    s.fld (GL_TASK0_state t) == 1 && s.passSteps t (s.passMask t) != 0)

/-- Whether a task's next step can run: a pass of GL.RUN, or its turn in the background; and a memory task is not held off its
channel. -/
def State.glRuns (s : State) (task unit : Nat) : Bool :=
  let st := s.fld (GL_TASK0_state task)
  (st == 1 && s.glNext == some task || st == 2) && !(memoryTask task && (s.chan unit).gleanerHeld)

/-- A step of LOFT_MARCH on a unit that a commit has taken is abandoned uncounted (R387). -/
def State.glAbandoned (s : State) (task : Nat) (g : GleanerStep) : Bool := task == LOFT_MARCH && g.kind ≤ 1 && !s.loftFree g.unit

/-- Whether a line of an address lies in a rank that is migrating. -/
def State.migrates (s : State) (a : Nat) : Bool :=
  let p := s.placeOf a
  s.chState p.ch == CH_MIGRATING && s.fld (GR_CHAN2_mig_rank p.ch) == s.rankOf p

/-- Whether a converter's zero or reference is off (R386): beyond 16 codes, or beyond 0.5 % of the reference's calibrated value. -/
def adcOff (l : List Int) : Bool :=
  decide (16 < |l.getD 0 0|) || decide (5 * |l.getD 2 0| < 1000 * |l.getD 1 0 - l.getD 2 0|)

/-- Whether an input of a triad reads beyond its stored dark code by more than 4 times the tolerance of R331, in the range that it was
sampled in (R386). -/
def State.darkOff (s : State) (t : Nat) (l : List Int) : Bool :=
  let r := (l.getD 3 0).toNat
  (List.range 3).any (fun j => decide (4 * (if r < 3 then 8 else 32) < l.getD j 0 - (s.calValues 5 (3 * t + j)).getD r 0))

/-- How a step has turned out: 0 good, 1 failed, 2 skipped, 3 preempted. PATROL skips a rank that migrates, and SPARE_TEST leaves a
channel that does (R387). EYE_SCAN, EDGE_LOOP, ADC_REF and DARK_CHECK are judged by what was measured, against the limits of R386. -/
def State.glKind (s : State) (task : Nat) (g : GleanerStep) : Nat :=
  if 2 ≤ g.kind then g.kind
  else if task = PATROL ∧ s.migrates g.location then 2
  else if task = SPARE_TEST ∧ s.chState g.unit = CH_MIGRATING then 3
  else if task = ADC_REF then (adcOff g.codes).toNat
  else if task = DARK_CHECK then (s.darkOff g.unit g.codes).toNat
  else if task = EYE_SCAN then
    (decide (g.measured % 2 ^ 16 < s.fld GL_LIMITS_eye_min_w) || decide (g.measured / 2 ^ 16 % 2 ^ 16 < s.fld GL_LIMITS_eye_min_h)).toNat
  else if task = EDGE_LOOP then (decide ((s.fld GL_LIMITS_edge_tol : Int) < |signed 32 g.measured|)).toNat
  else g.kind

/-- What a step counts and, in a pass of GL.RUN, records. -/
def State.glCount (s : State) (task : Nat) (g : GleanerStep) : State :=
  let kind := s.glKind task g
  let ran := decide (kind ≤ 1)
  let fail := kind == 1
  let t := s.modTask task (fun x => { x with
    steps := x.steps + ran.toNat, passFails := x.passFails + fail.toNat, allFails := x.allFails + fail.toNat
    lastFailTick := if fail then s.tick else x.lastFailTick })
  let t := t.doIf fail (·.count (GL_TASK1_failures task) 1)
  let t := t.doIf (decide (2 ≤ kind)) (·.count (GL_TASK1_skipped task) 1)
  match t.demandOf task with
  | some m =>
    if kind = 0 then t
    else t.addPartial m [BitVec.ofNat 32 (task + (kind - 1) % 256 * 2 ^ 8 + g.unit % 65536 * 2 ^ 16),
      BitVec.ofNat 32 g.location, BitVec.ofNat 32 (g.location / 2 ^ 32), BitVec.ofNat 32 g.measured]
  | none => t

/-- Progress of the pass. -/
def State.glProgress (s : State) (task : Nat) : State :=
  let n := s.passSteps task (s.passMask task)
  let pm := if n = 0 then 0 else min 1000 ((s.task task).steps * 1000 / n)
  let t := s.setFld (GL_TASK0_progress_pm task) pm
  match t.demandOf task with
  | some m => t.modHead m (fun c => { c with progress := pm })
  | none => t

/-- The end of a pass (R390, R391). -/
def State.endPass (s : State) (task : Nat) : State :=
  let x := s.task task
  let t := s.modTask task (fun y => { y with
    allPasses := y.allPasses + 1, lastMs := (s.tick - y.started) / 800000, steps := 0, passFails := 0, started := s.tick })
  let t := (t.count (GL_TASK0_passes task) 1).doIf (decide (0 < x.passFails)) (·.raise2 GL_FAIL task x.passFails)
  match t.demandOf task with
  | some m =>
    let u := (t.raise GL_DONE task).setOutcome m S_OK [BitVec.ofNat 32 x.steps, BitVec.ofNat 32 x.passFails]
    (u.modHead m (fun c => { c with begun := false })).endDemand task
  | none => t

/-- GLEANER_STEP, R386 to R391: one step of a task, as it turned out. The reads and writes of a memory task reach the Granary
as requests of requester 32. -/
def execGleanerStep (task : Fin 8) (g : GleanerStep) (s : State) : Result :=
  if task.val = 0 ∨ !s.glRuns task g.unit then .next s
  else
    let s := if s.fld (GL_TASK0_state task) = 1 then { s with glTurn := task } else s
    let t := if s.glAbandoned task g then s else (s.glCount task g).glProgress task
    .next (if g.last then t.endPass task else t)

/-- GLEANER_RESUME, R388: no class A or B request has been queued on the channel for 2 us. -/
def execGleanerResume (ch : Fin 8) (s : State) : Result :=
  .next ((s.modChan ch (fun c => { c with gleanerHeld := false })).glStates)

/-! ## The TAP (R385, R393 to R395) -/

def IDCODE_WORD : Word := 0x19440FFD

/-- Test instructions act only while the phase reads LOADER or FALLOW. -/
def State.testAllowed (s : State) : Bool := s.boot.phase == LOADER || s.boot.phase == FALLOW

/-- What the instruction register captures (R393): bit 2 tells that test instructions are blocked. -/
def State.irCapture (s : State) : Byte := if s.testAllowed then 0x01 else 0x05

/-- An instruction in the register: the pins return to functional control unless it drives them or floats them. -/
def State.tapLoad (s : State) (ir : Byte) (driving highz : Bool) : State :=
  { s with jtag := { s.jtag with ir := ir, blocked := !s.testAllowed, driving := driving, highz := highz } }

/-- A test instruction, and what it acts as outside LOADER and FALLOW: BYPASS. -/
def State.tapTest (s : State) (ir : Byte) (driving highz : Bool) (cells : Option (List Bool)) : State :=
  if s.testAllowed then
    let t := s.tapLoad ir driving highz
    match cells with
    | some l => { t with jtag := { t.jtag with cells := l } }
    | none => t
  else s.tapLoad ir false false

/-- TAP_RESET, R385, R395. -/
def execTapReset (s : State) : Result :=
  .next { s with jtag := { Jtag.reset with cells := s.jtag.cells, blocked := s.jtag.blocked } }

/-- EXTEST, R393, R395: `cells` is what the boundary register is updated with. -/
def execExtest (cells : List Bool) (s : State) : Result := .next (s.tapTest 0x00 true false (some cells))

/-- IDCODE, R385. -/
def execIdcode (s : State) : Result :=
  let t := s.tapLoad 0x01 false false
  .next { t with jtag := { t.jtag with tdo := IDCODE_WORD } }

/-- SAMPLE_PRELOAD, R393: the pins are sampled into the boundary register, and `cells` is preloaded. -/
def execSamplePreload (cells : List Bool) (s : State) : Result :=
  let t := s.tapLoad 0x02 false false
  .next { t with jtag := { t.jtag with cells := cells, captured := s.jtag.cells } }

/-- EXTEST_PULSE, R394. -/
def execExtestPulse (s : State) : Result := .next (s.tapTest 0x03 true false none)

/-- EXTEST_TRAIN, R394. -/
def execExtestTrain (s : State) : Result := .next (s.tapTest 0x04 true false none)

/-- CLAMP, R393. -/
def execClamp (s : State) : Result := .next (s.tapTest 0x05 true false none)

/-- HIGHZ, R393. -/
def execHighz (s : State) : Result := .next (s.tapTest 0x06 false true none)

/-- BYPASS, R393: its own code, and every code that names no other instruction. -/
def execBypass (code : Byte) (s : State) : Result := .next (s.tapLoad code false false)

end Sys2Proof.Machine
end

