-- ==== Sys2Proof/Machine/Frame.lean ====
section
/-!
DEFINITION. The frame boundary of a group (R66): what takes effect there, in order.
-/

namespace Sys2Proof.Machine

/-! ## Still mode (R81, R96) -/

/-- The frame that ends counts for still mode, and the group enters it or leaves it. -/
def State.stillFrame (s : State) (g : Nat) : State :=
  let x := s.group g
  let n := s.fld (HD_STILL_CTRL_still_frames g)
  let run := if x.stillBroken || x.sheafHit then 0 else min 255 (x.stillRun + 1)
  let was := s.flag (HD_STILL_STATUS_in_still g)
  let now := decide (n ≠ 0) && decide (n ≤ run)
  let t := s.modGroup g (fun y => { y with
    stillRun := run, stillBroken := false })
  let t := (t.setFlag (HD_STILL_STATUS_in_still g) now).doIf (now && !was) (·.count (HD_STILL_STATUS_entries g) 1)
  t.doIf (now != was) (·.raise2 STILL_CHANGE g now.toNat)

/-- The dither frame count of a head at a frame boundary: it advances outside still mode, and is held at 0 without temporal dither
(R96). -/
def State.ditherFrame (s : State) (h : Nat) : State :=
  let still := s.flag (HD_STILL_STATUS_in_still (s.groupOf h))
  let f := (s.headOf h).dither
  let f := if !s.flag (CP_HEAD_CTRL_temporal h) then 0 else if still then f else (f + 1) % 64
  s.modHeadOf h (fun x => { x with dither := f })

/-! ## CRC rectangles (R79) -/

/-- Position, size and expected value of the rectangles take effect. -/
def State.crcLatch (s : State) (g : Nat) : State :=
  s.modGroup g (fun x => { x with
    line := 0, fetching := false
    crcRects := (List.range 16).foldl (fun t r =>
      tabSet (fun _ => 0) (tabSet (fun _ => 0) (tabSet (fun _ => 0) t (2 * r) (s.word (HD_CRC_POS g r)))
        (2 * r + 1) (s.word (HD_CRC_SIZE g r))) (32 + r) (s.word (HD_CRC_EXPECT g r))) x.crcRects })

/-! ## Heads -/

/-- Once-per-frame events of a head may be raised again. -/
def State.headOnce (s : State) (h : Nat) : State :=
  let t := s.doAll [BAND_LATE, BAND_SKIPPED, SHIFT_LATE, SPLIT_CLIP, RV_LINE_ERR] (fun u e => u.clearOnce e h)
  t.doAll (List.range 32) (fun u b => u.clearOnce PLANE_POISON (h * 32 + b))

/-- The plane-load budget is taken, and thin slots that cannot meet it are reported (R139, R324). -/
def State.headBudget (s : State) (h : Nat) : State :=
  let beta := s.fld TH_GLOBAL3_budget_pm
  let t := s.modHeadOf h (fun x => { x with beta := beta, betaPrev := x.beta })
  if !t.threshes h then t
  else
    let l := t.slots h (t.fld (SQ_CTRL_seq_bank h))
    t.doIf (decide (thinCount l < thinNeed l beta)) (fun u => (u.count (SQ_CNT14_throttle_short h) 1).raise THROTTLE_SHORT h)

/-- A head at its frame boundary: it shows light again once its port is up (R36). -/
def State.headFrame (s : State) (h : Nat) : State :=
  let t := ((s.headOnce h).headBudget h).ditherFrame h
  let t := t.modHeadOf h (fun x => { x with frame := x.frame + 1 })
  let t := t.doAll (List.range (t.nBands h)) (fun u b => u.modBandOf (h * 32 + b) (fun x => { x with failed := false }))
  t.doIf (t.portUp (h + 2)) (·.modPort (h + 2) (fun q => { q with darkUntilFrame := false }))

/-- The dark frame that ends at a boundary: what a commit darkens from this boundary on stays dark to the next (R15, R76, R113). -/
def State.darkFrame (s : State) (g : Nat) : State :=
  s.doAll (s.headsOf g) (fun t h => t.modHeadOf h (fun x => { x with darkFrames := x.darkFrames - 1 }))

/-- What comes before the set-points of a group: sheaves, still mode, flips, rectangles, heads (R66 to R81). -/
def State.pictureFrame (s : State) (g : Nat) : State :=
  let t := (((s.darkFrame g).frameSheaves g).stillFrame g).countWrap (HD_RASTER_STATUS_frame g) 1
  let t := t.doAll (List.range 4) (fun u l => u.fqBoundary (4 * g + l))
  let t := (t.crcLatch g).clearOnce COLOUR_CLIP g
  let t := t.doAll (List.range 4) (fun u l => u.clearOnce LAYER_UNDERRUN (4 * g + l))
  t.doAll (t.headsOf g) (·.headFrame ·)

/-- The light of a group: banks, zones, the constancy loop, and the update that its next latch carries (R164, R197). -/
def State.lightFrame (s : State) (g : Nat) : State :=
  let t := s.doAll (s.banksOfGroup g) (·.bankFrame ·)
  let t := t.doAll ((List.range 4).filter (fun z => t.matrixOn z && t.groupOf (t.matHead z) == g)) (·.zoneFrame ·)
  let t := (t.doAll (t.headsOf g) (·.supplySync ·)).ccFrame g
  (t.modGroup g (fun x => { x with sheafHit := false })).updateFrame g

/-- A frame of the monitor's group counts toward its next refresh (R82). -/
def State.monFrame (s : State) (g : Nat) : State :=
  if s.flag HD_MON0_enable ∧ s.fld HD_MON0_group = g then { s with mon := { s.mon with since := min 255 (s.mon.since + 1) } } else s

/-- FRAME_BOUNDARY, R66: a group's frame boundary, which is also the first line boundary of its frame (R75). -/
def execFrameBoundary (g : Fin 4) (s : State) : Result :=
  if !s.rasterOn g then .next s
  else
    let t := (s.pictureFrame g).lightFrame g
    let t := t.doAll ((t.headsOf g).filter t.lineMode) (·.lineFrame ·)
    .next ((((t.clearsDone).fwFrame g).monFrame g).pace g)

end Sys2Proof.Machine
end

