-- ==== Sys2Proof/Machine/StateWrite.lean ====
section
/-!
DEFINITION. The host writes that have rows of their own: each is the plain write of its word, with the bit that the row
names set and the word's other bits as given (R9, R10, R294).
-/

namespace Sys2Proof.Machine

/-- A plain write of word `idx` with field `f` at all ones. -/
def State.writeSetting (s : State) (i : Iface) (idx : Nat) (f : Field) (v : Word) : Result :=
  s.host i (fun t => t.plainWrite i idx (v ||| fieldMask f.lo f.width))

/-- The mask of a named field of a word. -/
def namedMask (idx : Nat) (name : String) : Word :=
  match locate idx with
  | some (r, _) => ((r.fields.find? (fun f => f.name == name)).map (fun f => fieldMask f.lo f.width)).getD 0
  | none => 0

/-- CLEAR_COUNTS, R52. -/
def execClearCounts (i : Iface) (idx : BitVec 24) (v : Word) (s : State) : Result :=
  s.host i (fun t => t.plainWrite i idx.toNat (v ||| namedMask idx.toNat "clear_counts"))

/-- BLOCK_ENABLE, R279. -/
def execBlockEnable (i : Iface) (idx : BitVec 24) (v : Word) (s : State) : Result :=
  s.host i (fun t => t.plainWrite i idx.toNat (v ||| namedMask idx.toNat "enable"))

/-- HEAD_DISABLE, R41. -/
def execHeadDisable (i : Iface) (h : Fin 4) (v : Word) (s : State) : Result :=
  s.host i (fun t => t.plainWrite i (HD_RVH_CTRL h) (v &&& ~~~1#32))

/-- RETRAIN, R34: ports 0 and 1 are the ingest ports, 2 to 5 the head ports. -/
def execRetrain (i : Iface) (port : Fin 6) (v : Word) (s : State) : Result :=
  if port.val < 2 then s.writeSetting i (HD_INGEST_CTRL port) (HD_INGEST_CTRL_retrain port) v
  else s.writeSetting i (HD_RVH_CTRL (port - 2)) (HD_RVH_CTRL_retrain (port - 2)) v

/-- CRC_LEARN, R79. -/
def execCrcLearn (i : Iface) (g : Fin 4) (v : Word) (s : State) : Result :=
  s.host i (fun t => t.plainWrite i (HD_CRC_LEARN g) v)

/-- PG_TARGET_WRITE, R229. -/
def execPgTargetWrite (i : Iface) (g : Fin 8) (v : Word) (s : State) : Result :=
  s.host i (fun t => t.plainWrite i (CE_PG1 g) v)

/-- HEAD_ENABLE, R12. -/
def execHeadEnable (i : Iface) (h : Fin 4) (v : Word) (s : State) : Result := s.writeSetting i (HD_RVH_CTRL h) (HD_RVH_CTRL_enable h) v

/-- INGEST_ENABLE, R34. -/
def execIngestEnable (i : Iface) (p : Fin 2) (v : Word) (s : State) : Result := s.writeSetting i (HD_INGEST_CTRL p) (HD_INGEST_CTRL_enable p) v

/-- RASTER_ENABLE, R73. -/
def execRasterEnable (i : Iface) (g : Fin 4) (v : Word) (s : State) : Result := s.writeSetting i (HD_RASTER0 g) (HD_RASTER0_enable g) v

/-- MONITOR_ENABLE, R83. -/
def execMonitorEnable (i : Iface) (v : Word) (s : State) : Result := s.writeSetting i (HD_MON0) (HD_MON0_enable) v

/-- CC_LEARN, R215. -/
def execCcLearn (i : Iface) (g : Fin 4) (v : Word) (s : State) : Result := s.writeSetting i (CC_GROUP0 g) (CC_GROUP0_learn g) v

/-- TRIAD_CLEAR_SUSPECT, R211. -/
def execTriadClearSuspect (i : Iface) (t : Fin 4) (v : Word) (s : State) : Result := s.writeSetting i (CC_TRIAD0 t) (CC_TRIAD0_clear_suspect t) v

/-- LEN_ARM, R155. -/
def execLenArm (i : Iface) (h : Fin 4) (v : Word) (s : State) : Result := s.writeSetting i (LM_LEN_CTRL h) (LM_LEN_CTRL_arm h) v

/-- LEN_FORCE_OFF, R154. -/
def execLenForceOff (i : Iface) (h : Fin 4) (v : Word) (s : State) : Result := s.writeSetting i (LM_LEN_CTRL h) (LM_LEN_CTRL_force_off h) v

/-- LOOP_CLEAR_FAULT, R225. -/
def execLoopClearFault (i : Iface) (l : Fin 64) (v : Word) (s : State) : Result := s.writeSetting i (CE_LOOP00 l) (CE_LOOP00_clear_fault l) v

/-- INJECTOR_START, R234. -/
def execInjectorStart (i : Iface) (k : Fin 4) (v : Word) (s : State) : Result := s.writeSetting i (CE_INJ0 k) (CE_INJ0_start k) v

/-- INJECTOR_STOP, R234. -/
def execInjectorStop (i : Iface) (k : Fin 4) (v : Word) (s : State) : Result := s.writeSetting i (CE_INJ0 k) (CE_INJ0_stop k) v

/-- CAPTURE_ARM, R235. -/
def execCaptureArm (i : Iface) (v : Word) (s : State) : Result := s.writeSetting i (CE_CAP0) (CE_CAP0_arm) v

/-- CAPTURE_ABORT, R235. -/
def execCaptureAbort (i : Iface) (v : Word) (s : State) : Result := s.writeSetting i (CE_CAP0) (CE_CAP0_abort) v

/-- STRING_CLEAR_FAULT, R188. -/
def execStringClearFault (i : Iface) (n : Fin 64) (v : Word) (s : State) : Result := s.writeSetting i (LS_STRING5 n) (LS_STRING5_clear_fault n) v

/-- BANK_REARM, R188. -/
def execBankRearm (i : Iface) (b : Fin 8) (v : Word) (s : State) : Result := s.writeSetting i (LS_BANK0 b) (LS_BANK0_rearm b) v

/-- ZONE_CLEAR_FAULT, R200. -/
def execZoneClearFault (i : Iface) (c : Fin 40960) (v : Word) (s : State) : Result := s.writeSetting i (ZN_CTX1 c) (ZN_CTX1_clear_fault c) v

/-- SENSOR_CLEAR_SUSPECT, R322. -/
def execSensorClearSuspect (i : Iface) (n : Fin 36) (v : Word) (s : State) : Result := s.writeSetting i (TH_SENSOR0 n) (TH_SENSOR0_clear_suspect n) v

/-- FADE_IN, R169. -/
def execFadeIn (i : Iface) (b : Fin 8) (s : State) : Result := s.host i (fun t => t.plainWrite i (LS_BANK9 b) 1)

/-- FADE_OUT, R169. -/
def execFadeOut (i : Iface) (b : Fin 8) (s : State) : Result := s.host i (fun t => t.plainWrite i (LS_BANK9 b) 2)

/-- STANDBY, R169. -/
def execStandby (i : Iface) (b : Fin 8) (s : State) : Result := s.host i (fun t => t.plainWrite i (LS_BANK9 b) 3)

/-- BREATHE, R169. -/
def execBreathe (i : Iface) (b : Fin 8) (s : State) : Result := s.host i (fun t => t.plainWrite i (LS_BANK9 b) 4)

end Sys2Proof.Machine
end

