-- ==== Sys2Proof/Machine/Dispatch.lean ====
section
/-!
DEFINITION. One arm for each command: its meaning, or its rejection by name while it has none.
-/

namespace Sys2Proof.Machine

def exec (i : Instr) (s : State) : Host.Outcome State Fault Refusal :=
  match i with
  | .por => Sys2Proof.Machine.execPor s
  | .rstN => Sys2Proof.Machine.execRstN s
  | .resetRelease env => Sys2Proof.Machine.execResetRelease env s
  | .watchdogExpiry => Sys2Proof.Machine.execWatchdogExpiry s
  | .startStable => Sys2Proof.Machine.execStartStable s
  | .devResetDelayExpiry => Sys2Proof.Machine.execDevResetDelayExpiry s
  | .pciePerstRelease => Sys2Proof.Machine.execPciePerstRelease s
  | .d3hotEntry => Sys2Proof.Machine.execD3hotEntry s
  | .functionLevelReset => Sys2Proof.Machine.execFunctionLevelReset s
  | .hotReset => Sys2Proof.Machine.execHotReset s
  | .linkDown => Sys2Proof.Machine.execLinkDown s
  | .replicaMeasurement slowestPs => Sys2Proof.Machine.execReplicaMeasurement slowestPs s
  | .avsbusTransactionFail => Sys2Proof.Machine.execAvsbusTransactionFail s
  | .avsRetry ok => Sys2Proof.Machine.execAvsRetry ok s
  | .stateWordWrite iface size off v => Sys2Proof.Machine.execStateWordWrite iface size off v s
  | .clearCounts iface idx v => Sys2Proof.Machine.execClearCounts iface idx v s
  | .blockEnable iface idx v => Sys2Proof.Machine.execBlockEnable iface idx v s
  | .headEnable iface h v => Sys2Proof.Machine.execHeadEnable iface h v s
  | .headDisable iface h v => Sys2Proof.Machine.execHeadDisable iface h v s
  | .ingestEnable iface p v => Sys2Proof.Machine.execIngestEnable iface p v s
  | .retrain iface port v => Sys2Proof.Machine.execRetrain iface port v s
  | .rasterEnable iface g v => Sys2Proof.Machine.execRasterEnable iface g v s
  | .monitorEnable iface v => Sys2Proof.Machine.execMonitorEnable iface v s
  | .laneBlockLock port lane blocks => Sys2Proof.Machine.execLaneBlockLock port lane blocks s
  | .laneLossOfLock port lane blocks => Sys2Proof.Machine.execLaneLossOfLock port lane blocks s
  | .amColumn port column => Sys2Proof.Machine.execAmColumn port column s
  | .trainingTimeout port => Sys2Proof.Machine.execTrainingTimeout port s
  | .tallyLockAcquired h => Sys2Proof.Machine.execTallyLockAcquired h s
  | .tallyLoss h => Sys2Proof.Machine.execTallyLoss h s
  | .capsReceive h chars => Sys2Proof.Machine.execCapsReceive h chars s
  | .statusPacket h chars => Sys2Proof.Machine.execStatusPacket h chars s
  | .cmdStatusTimeout h ctag => Sys2Proof.Machine.execCmdStatusTimeout h ctag s
  | .loadTimingTimeout h => Sys2Proof.Machine.execLoadTimingTimeout h s
  | .eqReq h arg crc => Sys2Proof.Machine.execEqReq h arg crc s
  | .eqDone h arg crc => Sys2Proof.Machine.execEqDone h arg crc s
  | .deskewDone h arg crc => Sys2Proof.Machine.execDeskewDone h arg crc s
  | .laneLock h arg crc => Sys2Proof.Machine.execLaneLock h arg crc s
  | .laneHealth h arg crc => Sys2Proof.Machine.execLaneHealth h arg crc s
  | .laneMapSwitch h => Sys2Proof.Machine.execLaneMapSwitch h s
  | .bandOk h arg crc => Sys2Proof.Machine.execBandOk h arg crc s
  | .bandErr h arg crc => Sys2Proof.Machine.execBandErr h arg crc s
  | .bandStale h arg crc => Sys2Proof.Machine.execBandStale h arg crc s
  | .lineErr h arg crc => Sys2Proof.Machine.execLineErr h arg crc s
  | .fault h arg crc => Sys2Proof.Machine.execFault h arg crc s
  | .bandTallyTimeout h band => Sys2Proof.Machine.execBandTallyTimeout h band s
  | .receiveBadHeader p lane column => Sys2Proof.Machine.execReceiveBadHeader p lane column s
  | .videoLine p header payload trailer room => Sys2Proof.Machine.execVideoLine p header payload trailer room s
  | .packetBoundary h => Sys2Proof.Machine.execPacketBoundary h s
  | .resetColumn h band gap => Sys2Proof.Machine.execResetColumn h band gap s
  | .lineStartColumn h => Sys2Proof.Machine.execLineStartColumn h s
  | .frameBoundary g => Sys2Proof.Machine.execFrameBoundary g s
  | .fetchStart g => Sys2Proof.Machine.execFetchStart g s
  | .bandTagCheck g band => Sys2Proof.Machine.execBandTagCheck g band s
  | .lineBoundary g => Sys2Proof.Machine.execLineBoundary g s
  | .pixelDue g x y supplied => Sys2Proof.Machine.execPixelDue g x y supplied s
  | .lastActiveLineEnd g => Sys2Proof.Machine.execLastActiveLineEnd g s
  | .crcLearn iface g v => Sys2Proof.Machine.execCrcLearn iface g v s
  | .fqSubmit iface q v => Sys2Proof.Machine.execFqSubmit iface q v s
  | .fqSlotWrite iface q slot reg v => Sys2Proof.Machine.execFqSlotWrite iface q slot reg v s
  | .fqSlotRegister iface q slot v => Sys2Proof.Machine.execFqSlotRegister iface q slot v s
  | .fqSlotUnregister iface q slot v => Sys2Proof.Machine.execFqSlotUnregister iface q slot v s
  | .fqRetiredPop iface q => Sys2Proof.Machine.execFqRetiredPop iface q s
  | .colourPipelinePixel h x y r g b => Sys2Proof.Machine.execColourPipelinePixel h x y r g b s
  | .cellRowComplete h m => Sys2Proof.Machine.execCellRowComplete h m s
  | .threshPixel h x y => Sys2Proof.Machine.execThreshPixel h x y s
  | .bandCopyReady h band => Sys2Proof.Machine.execBandCopyReady h band s
  | .decisionInstant h band => Sys2Proof.Machine.execDecisionInstant h band s
  | .slotStart h band => Sys2Proof.Machine.execSlotStart h band s
  | .edgeInstant out => Sys2Proof.Machine.execEdgeInstant out s
  | .diagnosisSample n code => Sys2Proof.Machine.execDiagnosisSample n code s
  | .measureSlotEnd h band readings => Sys2Proof.Machine.execMeasureSlotEnd h band readings s
  | .ccLearn iface g v => Sys2Proof.Machine.execCcLearn iface g v s
  | .triadClearSuspect iface t v => Sys2Proof.Machine.execTriadClearSuspect iface t v s
  | .sweepStart h gap am => Sys2Proof.Machine.execSweepStart h gap am s
  | .crossingMiss h => Sys2Proof.Machine.execCrossingMiss h s
  | .ilkNFall lowNs => Sys2Proof.Machine.execIlkNFall lowNs s
  | .lenArm iface h v => Sys2Proof.Machine.execLenArm iface h v s
  | .lenForceOff iface h v => Sys2Proof.Machine.execLenForceOff iface h v s
  | .loopSample l raw => Sys2Proof.Machine.execLoopSample l raw s
  | .loopEvaluation l => Sys2Proof.Machine.execLoopEvaluation l s
  | .outputInstant l => Sys2Proof.Machine.execOutputInstant l s
  | .loopClearFault iface l v => Sys2Proof.Machine.execLoopClearFault iface l v s
  | .pgTargetWrite iface g v => Sys2Proof.Machine.execPgTargetWrite iface g v s
  | .injectorStart iface k v => Sys2Proof.Machine.execInjectorStart iface k v s
  | .injectorStop iface k v => Sys2Proof.Machine.execInjectorStop iface k v s
  | .injectionEnd k => Sys2Proof.Machine.execInjectionEnd k s
  | .captureArm iface v => Sys2Proof.Machine.execCaptureArm iface v s
  | .captureAbort iface v => Sys2Proof.Machine.execCaptureAbort iface v s
  | .captureFillEnd => Sys2Proof.Machine.execCaptureFillEnd s
  | .latchAll g => Sys2Proof.Machine.execLatchAll g s
  | .telemPoll p => Sys2Proof.Machine.execTelemPoll p s
  | .telem p frame phase => Sys2Proof.Machine.execTelem p frame phase s
  | .pmbusTransactionFail b => Sys2Proof.Machine.execPmbusTransactionFail b s
  | .ack p frame => Sys2Proof.Machine.execAck p frame s
  | .ident p frame phase => Sys2Proof.Machine.execIdent p frame phase s
  | .zoneFaults p frame phase => Sys2Proof.Machine.execZoneFaults p frame phase s
  | .fwQuery p frame => Sys2Proof.Machine.execFwQuery p frame s
  | .fwCheck p frame => Sys2Proof.Machine.execFwCheck p frame s
  | .dbResponseTimeout p => Sys2Proof.Machine.execDbResponseTimeout p s
  | .driverVersionTimeout p addr => Sys2Proof.Machine.execDriverVersionTimeout p addr s
  | .stringClearFault iface n v => Sys2Proof.Machine.execStringClearFault iface n v s
  | .bankRearm iface b v => Sys2Proof.Machine.execBankRearm iface b v s
  | .fadeIn iface b => Sys2Proof.Machine.execFadeIn iface b s
  | .fadeOut iface b => Sys2Proof.Machine.execFadeOut iface b s
  | .standby iface b => Sys2Proof.Machine.execStandby iface b s
  | .breathe iface b => Sys2Proof.Machine.execBreathe iface b s
  | .zoneStep z band row => Sys2Proof.Machine.execZoneStep z band row s
  | .zoneSwap z band => Sys2Proof.Machine.execZoneSwap z band s
  | .zoneClearFault iface c v => Sys2Proof.Machine.execZoneClearFault iface c v s
  | .monitorRefresh => Sys2Proof.Machine.execMonitorRefresh s
  | .dsiTeEdge falling => Sys2Proof.Machine.execDsiTeEdge falling s
  | .teTimeout => Sys2Proof.Machine.execTeTimeout s
  | .granaryRequest r addr write fill data => Sys2Proof.Machine.execGranaryRequest r addr write fill data s
  | .subchannelCommandIssue ch sub => Sys2Proof.Machine.execSubchannelCommandIssue ch sub s
  | .idleDrain ch sub => Sys2Proof.Machine.execIdleDrain ch sub s
  | .readDecode r addr symbols => Sys2Proof.Machine.execReadDecode r addr symbols s
  | .alertN ch rank addr persists => Sys2Proof.Machine.execAlertN ch rank addr persists s
  | .refreshTick ch burst => Sys2Proof.Machine.execRefreshTick ch burst s
  | .mr4Poll ch op readbackBad => Sys2Proof.Machine.execMr4Poll ch op readbackBad s
  | .zqCalibration => Sys2Proof.Machine.execZqCalibration s
  | .rhWindowEnd ch bank => Sys2Proof.Machine.execRhWindowEnd ch bank s
  | .migrationLineCopy ch symbols => Sys2Proof.Machine.execMigrationLineCopy ch symbols s
  | .bar2Read iface off size => Sys2Proof.Machine.execBar2Read iface off size s
  | .bar2Write iface off data => Sys2Proof.Machine.execBar2Write iface off data s
  | .spiRead addr count early => Sys2Proof.Machine.execSpiRead addr count early s
  | .spiQuadRead addr count early => Sys2Proof.Machine.execSpiQuadRead addr count early s
  | .spiWrite addr count data crc early => Sys2Proof.Machine.execSpiWrite addr count data crc early s
  | .spiQuadWrite addr count data crc early => Sys2Proof.Machine.execSpiQuadWrite addr count data crc early s
  | .readStatus => Sys2Proof.Machine.execReadStatus s
  | .readId => Sys2Proof.Machine.execReadId s
  | .spiUnknownOpcode op => Sys2Proof.Machine.execSpiUnknownOpcode op s
  | .mailboxDoorbell iface m v => Sys2Proof.Machine.execMailboxDoorbell iface m v s
  | .mailboxAck iface m v => Sys2Proof.Machine.execMailboxAck iface m v s
  | .mailboxAbort iface m v => Sys2Proof.Machine.execMailboxAbort iface m v s
  | .mbStatusRead iface m => Sys2Proof.Machine.execMbStatusRead iface m s
  | .mailboxCommandComplete m => Sys2Proof.Machine.execMailboxCommandComplete m s
  | .devPing m => Sys2Proof.Machine.execDevPing m s
  | .devInfo m => Sys2Proof.Machine.execDevInfo m s
  | .devReset m => Sys2Proof.Machine.execDevReset m s
  | .devFence m => Sys2Proof.Machine.execDevFence m s
  | .devStateWrite m => Sys2Proof.Machine.execDevStateWrite m s
  | .headCmd m => Sys2Proof.Machine.execHeadCmd m s
  | .seqLoad m => Sys2Proof.Machine.execSeqLoad m s
  | .tsLoadTable m => Sys2Proof.Machine.execTsLoadTable m s
  | .lmLoadTable m => Sys2Proof.Machine.execLmLoadTable m s
  | .monDcs m => Sys2Proof.Machine.execMonDcs m s
  | .lightFade m => Sys2Proof.Machine.execLightFade m s
  | .lightClearFault m => Sys2Proof.Machine.execLightClearFault m s
  | .lightRearm m => Sys2Proof.Machine.execLightRearm m s
  | .znClearFault m => Sys2Proof.Machine.execZnClearFault m s
  | .ceMove m => Sys2Proof.Machine.execCeMove m s
  | .ceCaptureRead m => Sys2Proof.Machine.execCeCaptureRead m s
  | .memDma m n host hostOk => Sys2Proof.Machine.execMemDma m n host hostOk s
  | .memFill m n => Sys2Proof.Machine.execMemFill m n s
  | .memSpare m => Sys2Proof.Machine.execMemSpare m s
  | .memSelfRefresh m => Sys2Proof.Machine.execMemSelfRefresh m s
  | .memErrlog m => Sys2Proof.Machine.execMemErrlog m s
  | .calRun m measures => Sys2Proof.Machine.execCalRun m measures s
  | .calRead m => Sys2Proof.Machine.execCalRead m s
  | .fwStage m => Sys2Proof.Machine.execFwStage m s
  | .fwApply m => Sys2Proof.Machine.execFwApply m s
  | .fwConfirm m sectors flashOk => Sys2Proof.Machine.execFwConfirm m sectors flashOk s
  | .fwRollback m => Sys2Proof.Machine.execFwRollback m s
  | .fwFlashErase m => Sys2Proof.Machine.execFwFlashErase m s
  | .fwFlashWrite m => Sys2Proof.Machine.execFwFlashWrite m s
  | .setSave m => Sys2Proof.Machine.execSetSave m s
  | .setExport m => Sys2Proof.Machine.execSetExport m s
  | .setImport m => Sys2Proof.Machine.execSetImport m s
  | .idRead m => Sys2Proof.Machine.execIdRead m s
  | .idAttest m => Sys2Proof.Machine.execIdAttest m s
  | .idCert m => Sys2Proof.Machine.execIdCert m s
  | .glRun m => Sys2Proof.Machine.execGlRun m s
  | .glResults m => Sys2Proof.Machine.execGlResults m s
  | .testEvent m => Sys2Proof.Machine.execTestEvent m s
  | .evLatchWrite iface g v => Sys2Proof.Machine.execEvLatchWrite iface g v s
  | .evEnableWrite iface g v => Sys2Proof.Machine.execEvEnableWrite iface g v s
  | .msixVectorUnmask vec => Sys2Proof.Machine.execMsixVectorUnmask vec s
  | .shAllocRead iface => Sys2Proof.Machine.execShAllocRead iface s
  | .shValueWrite iface n v => Sys2Proof.Machine.execShValueWrite iface n v s
  | .sheafCommit iface n => Sys2Proof.Machine.execSheafCommit iface n s
  | .sheafValidate n => Sys2Proof.Machine.execSheafValidate n s
  | .sheafAbort iface n => Sys2Proof.Machine.execSheafAbort iface n s
  | .sheafRelease iface n => Sys2Proof.Machine.execSheafRelease iface n s
  | .sheafApply n => Sys2Proof.Machine.execSheafApply n s
  | .sheafCompletion n => Sys2Proof.Machine.execSheafCompletion n s
  | .sfAcceptance acceptUs => Sys2Proof.Machine.execSfAcceptance acceptUs s
  | .handoverTimeout => Sys2Proof.Machine.execHandoverTimeout s
  | .sensorSample st raw convFault => Sys2Proof.Machine.execSensorSample st raw convFault s
  | .sensorAutoRestore st => Sys2Proof.Machine.execSensorAutoRestore st s
  | .sensorClearSuspect iface st v => Sys2Proof.Machine.execSensorClearSuspect iface st v s
  | .offsetRecord st => Sys2Proof.Machine.execOffsetRecord st s
  | .trackedDwellExpiry bank => Sys2Proof.Machine.execTrackedDwellExpiry bank s
  | .budgetUpdate => Sys2Proof.Machine.execBudgetUpdate s
  | .throttleHoldEnd => Sys2Proof.Machine.execThrottleHoldEnd s
  | .nvWindowOpen => Sys2Proof.Machine.execNvWindowOpen s
  | .edgeTrack unit measure => Sys2Proof.Machine.execEdgeTrack unit measure s
  | .edgeTrackSwitch unit => Sys2Proof.Machine.execEdgeTrackSwitch unit s
  | .gleanerStep task st => Sys2Proof.Machine.execGleanerStep task st s
  | .gleanerResume ch => Sys2Proof.Machine.execGleanerResume ch s
  | .tapReset => Sys2Proof.Machine.execTapReset s
  | .extest cells => Sys2Proof.Machine.execExtest cells s
  | .idcode => Sys2Proof.Machine.execIdcode s
  | .samplePreload cells => Sys2Proof.Machine.execSamplePreload cells s
  | .extestPulse => Sys2Proof.Machine.execExtestPulse s
  | .extestTrain => Sys2Proof.Machine.execExtestTrain s
  | .clamp => Sys2Proof.Machine.execClamp s
  | .highz => Sys2Proof.Machine.execHighz s
  | .bypass code => Sys2Proof.Machine.execBypass code s
  | .configurationSpaceWrite memory master msix leaveD3 => Sys2Proof.Machine.execConfigurationSpaceWrite memory master msix leaveD3 s
  | .pcieLinkUp gen width => Sys2Proof.Machine.execPcieLinkUp gen width s
  | .dcsReadResponse dataType payload => Sys2Proof.Machine.execDcsReadResponse dataType payload s
  | .dcsResponseTimeout => Sys2Proof.Machine.execDcsResponseTimeout s
  | .moveTimeout m => Sys2Proof.Machine.execMoveTimeout m s

end Sys2Proof.Machine
end

