-- ==== Sys2Proof/Machine/Step.lean ====
section
/-!
DEFINITION. One step of the block: the command at the front of the queue is done on the state whose queue is the rest.
-/

namespace Sys2Proof.Machine

/-- A step. With nothing in the queue the tick counter advances by one tick and nothing else happens
(DESIGN CHOICE, log 1). -/
def step (s : State) : Host.Outcome State Fault Refusal :=
  match s.pending with
  | [] => .next { s with tick := s.tick + 1 }
  | c :: rest => exec c { s with pending := rest }

/-- The state with the command that a word spells in front of its queue. No row of the table gives bits (log 2). -/
def State.withFetchWord (s : State) (nbits w : Nat) : State :=
  match Sys2Proof.decodeTableWord nbits w with
  | some c => { s with pending := c :: s.pending }
  | none => s

end Sys2Proof.Machine
end

