-- ==== Sys2Proof/Safety.lean ====
section
/-!
DEFINITION. Relations between a state and the state after a command, in which the claims are stated.
-/

namespace Sys2Proof.Machine

/-- The memories and the state words are in canonical form: the Granary, the loft, the boot flash and the words. -/
structure Canonical (s : State) : Prop where
  mem : Memory.wf memDefault s.mem = true
  loft : Memory.wf loftDefault s.loft = true
  flash : Memory.wf flashDefault s.flash = true
  regs : tabWf resetWord s.regs = true

/-- What no command touches: the queue of the commands that wait and the fuses; and the canonical forms are kept. -/
structure Keeps (s t : State) : Prop where
  pending : t.pending = s.pending
  fuses : t.fuses = s.fuses
  canonical : Canonical s → Canonical t

/-- Every state word outside `ks` reads in `t` as in `s`. -/
def OnlyWords (ks : List Nat) (s t : State) : Prop := ∀ k, k ∉ ks → t.word k = s.word k

/-- A field reads `v` in `t`, and outside its word nothing of the words has changed, nor the other bits of the word. -/
def OnlyField (f : Field) (v : Nat) (s t : State) : Prop :=
  t.fld f = v ∧ OnlyWords [f.key] s t ∧
    ∀ g : Field, g.lo + g.width ≤ 32 → g.lo + g.width ≤ f.lo ∨ f.lo + f.width ≤ g.lo → t.fld ⟨f.key, g.lo, g.width⟩ = s.fld ⟨f.key, g.lo, g.width⟩

/-- The latch and the data word of every event source outside `is` are in `t` as in `s`; enables and routes too. -/
def OnlyEvents (is : List Nat) (s t : State) : Prop :=
  (∀ i, i ∉ is → i < 256 → t.latched i = s.latched i ∧ t.evData i = s.evData i) ∧ t.ev.enable = s.ev.enable ∧ t.ev.route = s.ev.route

/-- Source `i` is raised from `s` to `t` with an instance and a second item: the latch is 1, and the data word holds both and
`again` (R310). -/
def Raised (i a b : Nat) (s t : State) : Prop :=
  t.latched i = true ∧
    t.evData i = BitVec.ofNat 32 (a % 2 ^ 16 + b % 2 ^ 15 * 2 ^ 16 + (if s.latched i then 2 ^ 31 else 0))

/-- Source `i` is raised for a unit at most once until the unit's mark is cleared: with the mark set, no latch and no data changes. -/
def RaisedOnce (i unit a b : Nat) (s t : State) : Prop :=
  if tabGet (fun _ => false) s.once (i * 0x10000 + unit) = true then t.ev = s.ev else Raised i a b s t

/-- A saturating counter has advanced by `n` (R52). -/
def Counted (f : Field) (n : Nat) (s t : State) : Prop := t.fld f = min (2 ^ f.width - 1) (s.fld f + n)

/-- The bytes `l` have been written from address `a` of the Granary on, as far as its capacity reaches; every other byte reads
as before. -/
def Stored (a : Nat) (l : List Byte) (s t : State) : Prop :=
  ∀ b, t.byte b = if a ≤ b ∧ b < a + l.length ∧ b < s.capacity then l.getD (b - a) 0 else s.byte b

/-- After a reset (R345, R346): every block is in its reset state, every word at its reset value, and every light output off.
What a reset does not reach stays: the memories, the flash, the root cellar, the fuses, and the pins that others drive; what
the model keeps for itself stays too (log 5). -/
def AtReset (s t : State) : Prop :=
  t = { State.reset with
    pending := s.pending, free := s.free, serial := s.serial, out := s.out, mem := s.mem, poisoned := s.poisoned, loft := s.loft,
    flash := s.flash, wire := s.wire, cellar := s.cellar, fuses := s.fuses, ilkHigh := s.ilkHigh, converters := s.converters,
    pcie := { Pcie.reset with perstLow := s.pcie.perstLow },
    deferred := t.deferred, jtag := t.jtag, boot := t.boot } ∧
  t.boot.phase = LOADER ∧ t.boot.loaderStep = 0 ∧ t.boot.highZ = true ∧ t.boot.stable = false ∧ t.boot.granaryOk = false ∧
  t.boot.resetPending = false ∧ t.boot.porLow = s.boot.porLow ∧ t.boot.rstLow = s.boot.rstLow

/-- What every reset but POR keeps beside (R345). -/
def ShadowKept (s t : State) : Prop :=
  t.boot.shadow = s.boot.shadow ∧ t.boot.forceFallow = s.boot.forceFallow ∧ t.boot.deferred = s.boot.deferred ∧
    t.deferred = s.deferred ∧ t.jtag = s.jtag

/-- Command `c` of code `code` is the head of mailbox `m`, runs, and its work has not begun; its arguments are as the catalogue
wants them (R302, R306). -/
def Runs (s : State) (m code : Nat) (c : MbCmd) : Prop :=
  s.cmdHead m = some c ∧ c.state = MB_RUNNING ∧ c.code = code ∧ c.outcome = none ∧ c.begun = false ∧ s.serving = true ∧
    c.refusal (s.boot.phase == FALLOW) = 0

/-- Command `c` of code `code` is the head of mailbox `m` and runs, whether its work has begun or not, and has not ended. -/
def Works (s : State) (m code : Nat) (c : MbCmd) : Prop :=
  s.cmdHead m = some c ∧ c.state = MB_RUNNING ∧ c.code = code ∧ c.outcome = none ∧ s.serving = true ∧
    c.refusal (s.boot.phase == FALLOW) = 0

/-- Command `c`, the head of mailbox `m`, has ended with a code and results, which MAILBOX_COMMAND_COMPLETE will write (R302). -/
def Ends (m code : Nat) (results : List Word) (c : MbCmd) (t : State) : Prop :=
  t.cmdHead m = some { c with outcome := some (code, results), progress := if code < 0x100 then 1000 else c.progress }

/-- Command `c` builds its sheaf on handle 14 with the entries `l` and waits for it (R280). -/
def Builds (m kind target band : Nat) (l : List Entry) (c : MbCmd) (s t : State) : Prop :=
  t.sheaf 14 = { Sheaf.reset with
    state := SH_VALIDATING, result := S_QUEUED, kind := kind, target := target, band := band, mailbox := m, entries := l
    order := s.serial, bnd := boundaryWord kind target band m } ∧
  t.cmdHead m = some { c with begun := true, sheaf := some 14 } ∧ (∀ n, n ≠ 14 → t.sheaf n = s.sheaf n) ∧
  t = { s with sheaves := t.sheaves, mb := t.mb, serial := s.serial + 1 }

/-! ## Plain writes -/

/-- A plain write of `v` to word `idx` reaches the device and every check takes it (R9, R12, R294). -/
def Takes (s : State) (i : Iface) (idx : Nat) (v : Word) : Prop :=
  s.hostUp i = true ∧ s.boot.phase = RUNNING ∧ ∃ r ns, locate idx = some (r, ns) ∧ s.absent r.blk ns = false ∧
    s.windowBusy r.blk (unitOf ns) = false ∧ s.plainCode r ns idx v = 0

/-- What a taken write does: the bits, the effects of the blocks they change, the acts of write-only bits, and the words that
follow; a write of ZN_MAT0 also notes the interface (R193). -/
def Written (s : State) (i : Iface) (idx : Nat) (v : Word) : State :=
  (s.applyWrites false [{ index := idx, mask := 0xFFFFFFFF, value := v }]).doIf
    ((locate idx).any (fun e => e.1.name == "ZN_MAT0"))
    (·.modMatrix ((locate idx).elim 0 (fun e => unitOf e.2)) (fun x => { x with iface := ifaceBit i }))

/-- The word `v` with a field at all ones. -/
def withOnes (f : Field) (v : Word) : Word := v ||| fieldMask f.lo f.width

/-! ## Driver bus -/

/-- A frame that goes out on a port of the driver bus, with the levels of its lanes (R171, R172). -/
def State.sent (s : State) (p : Nat) (f : List Byte) : Out := .dbFrame p f (onLanes (s.flag (DB_PORT0_lanes4 p)) f)

/-! ## Tally messages -/

/-- A tally message of a type with a good CRC-8, on a head port that is not DISABLED (R42). -/
def GoodTally (s : State) (h : Fin 4) (type : Nat) (arg : BitVec 48) (crc : Byte) : Prop :=
  s.headState h ≠ DISABLED ∧ crcTally (BitVec.ofNat 8 type :: natLe 6 arg.toNat) = crc.toNat

/-- The tally messages, by their rows. -/
def tallyOf (h : Fin 4) (arg : BitVec 48) (crc : Byte) : List (Nat × Instr) :=
  [(0x01, .bandOk h arg crc), (0x02, .bandErr h arg crc), (0x03, .bandStale h arg crc), (0x04, .laneLock h arg crc),
   (0x05, .laneHealth h arg crc), (0x06, .eqReq h arg crc), (0x07, .eqDone h arg crc), (0x08, .deskewDone h arg crc),
   (0x09, .lineErr h arg crc), (0x0A, .fault h arg crc)]

end Sys2Proof.Machine
end

