-- ==== Sys2Proof/Certificates/Slice0/Obligations.lean ====
section
/-!
DEFINITION. The statements.
-/

open Sys2Proof Sys2Proof.Machine

/-- A step on a queue with command `c` in front is exec of `c` on the state whose queue is the rest, whatever the outcome. -/
def Obligations.StepRunsFrontCommand : Prop := ∀ (c : Instr) (rest : List Instr) (s : State),
  step { s with pending := c :: rest } = exec c { s with pending := rest }

/-- The memories (the Granary, the loft, the boot flash) and the state words keep their canonical forms through every step. -/
def Obligations.StepKeepsCanonicalForms : Prop := ∀ s t : State, Canonical s → step s = .next t → Canonical t

/-- The state after reset has its memories and words in canonical form and nothing listed in them. On an empty queue a step advances the
tick counter and nothing else (the model's choice, log 1); no row of the table gives bits, so no word spells a command and `withFetchWord`
leaves every state as it is (log 2). -/
def Obligations.ResetIsCanonicalAndIdleStepsTick : Prop :=
  (Canonical State.reset ∧ State.reset.mem = [] ∧ State.reset.loft = [] ∧ State.reset.flash = [] ∧ State.reset.regs = [] ∧
    State.reset.pending = []) ∧
  (∀ (s : State) (n w : Nat),
    (s.pending = [] → step s = .next { s with tick := s.tick + 1 }) ∧ Sys2Proof.decodeTableWord n w = none ∧ s.withFetchWord n w = s)

/-- Every command answers a next state: none faults and none is refused; the queue of the commands that wait and the fuses are as they
were. -/
def Obligations.CommandsLeaveQueueAndFuses : Prop := ∀ (c : Instr) (s : State),
  ∃ t, exec c s = .next t ∧ t.pending = s.pending ∧ t.fuses = s.fuses

/-- The reset causes of R345 other than RETRY: POR_N and RST_N fall, the 1 ms after DEV.RESET ends, and the watchdog expires. Each
returns every block to its reset state and records its cause; only POR clears the attempt shadow, the deferred state and
force_fallow. RST_N while POR_N is low changes its own level alone. A start that has run for 30 s becomes stable (R351), and
PCIE_PERST_N rising starts the training of a running device (R348). -/
def Obligations.ResetCausesReturnTheBlocks : Prop := ∀ s : State,
  (∃ t, exec .por s = .next t ∧ AtReset { s with boot := { s.boot with porLow := true } } t ∧ t.boot.lastReset = CAUSE_POR ∧
    t.boot.shadow = 0 ∧ t.boot.forceFallow = false ∧ t.boot.deferred = false ∧ t.deferred = []) ∧
  (s.boot.porLow = false → ∃ t, exec .rstN s = .next t ∧ AtReset { s with boot := { s.boot with rstLow := true } } t ∧
    t.boot.lastReset = CAUSE_RST_N ∧ ShadowKept s t) ∧
  (s.boot.porLow = true → exec .rstN s = .next { s with boot := { s.boot with rstLow := true } }) ∧
  (s.boot.resetPending = true → ∃ t, exec .devResetDelayExpiry s = .next t ∧ AtReset s t ∧ t.boot.lastReset = CAUSE_DEV_RESET ∧
    ShadowKept s t) ∧
  ((s.boot.phase = RUNNING ∨ s.boot.phase = FW_START) → ∃ t, exec .watchdogExpiry s = .next t ∧ AtReset s t ∧
    t.boot.lastReset = CAUSE_WATCHDOG ∧ t.boot.wdogFailed = true ∧ ShadowKept s t) ∧
  (s.boot.phase = RUNNING → s.boot.stable = false → ∃ t, exec .startStable s = .next t ∧ t.boot.stable = true ∧ t.attempts = 0 ∧
    t.boot.phase = RUNNING ∧ t.ev = s.ev ∧ t.tout = s.tout) ∧
  (s.boot.phase = RUNNING → exec .pciePerstRelease s =
    .next { s with pcie := { s.pcie with perstLow := false, training := true } })

/-- The fallow decision of a start (R347, R352): a start that finds no fault in the root cellar enters fallow mode with FR_HOST where
force_fallow is 1 or SPIT_CS_N is held low, whatever the count, which stays; else with the reason of the last failure where the
effective count is at least 3. A start that step 2 ends enters fallow mode with FR_CELLAR whatever the host requested; the failure
is counted, and BOOT_FAIL.detail holds the record's number. A start without fallow request, with a count below 3, whose image
verifies, whose enabled channels train and whose firmware runs reaches RUNNING: the loader has ended, the Granary is there, the
watchdog window is 1 s and the start has taken its time (R347, R349, R355). No expiry of the watchdog waits to be recorded. -/
def Obligations.FallowDecisionOfAStart : Prop := ∀ (env : StartEnv) (s : State),
  s.boot.phase = LOADER → s.boot.loaderStep = 0 → s.boot.wdogFailed = false →
  (s.step2Fail env = none → (s.boot.forceFallow = true ∨ env.spiHeld = true) →
    ∃ t, exec (.resetRelease env) s = .next t ∧ t.boot.phase = FALLOW ∧ t.boot.reason = FR_HOST ∧ t.boot.shadow = s.boot.shadow ∧
      t.boot.starts = min 65535 (s.boot.starts + 1) ∧ t.boot.porLow = false ∧ t.boot.rstLow = false ∧ t.boot.highZ = false) ∧
  (s.step2Fail env = none → s.boot.forceFallow = false → env.spiHeld = false → 3 ≤ s.dropUncommitted.attempts →
    ∃ t, exec (.resetRelease env) s = .next t ∧ t.boot.phase = FALLOW ∧ t.boot.reason = s.boot.reason ∧
      t.boot.shadow = s.boot.shadow ∧ t.boot.starts = min 65535 (s.boot.starts + 1) ∧ t.boot.highZ = false) ∧
  (∀ rec, s.step2Fail env = some rec →
    ∃ t, exec (.resetRelease env) s = .next t ∧ t.boot.phase = FALLOW ∧ t.boot.reason = FR_CELLAR ∧ t.boot.detail = rec ∧
      t.boot.cellarOk = false ∧ t.boot.shadow = min 255 (s.attempts + 1)) ∧
  (s.step2Fail env = none → s.boot.forceFallow = false → env.spiHeld = false → s.dropUncommitted.attempts < 3 →
    imgVerify s.flashImage = none → env.dramFail = 0 → env.firmwareRuns = true →
    ∃ t, exec (.resetRelease env) s = .next t ∧ t.boot.phase = RUNNING ∧ t.boot.loaderStep = 8 ∧ t.boot.granaryOk = true ∧
      t.boot.wdogMs = 1000 ∧ t.boot.startMs = min 65535 env.startMs ∧ t.boot.starts = min 65535 (s.boot.starts + 1) ∧
      t.boot.shadow = s.boot.shadow ∧ t.boot.stable = s.boot.stable ∧ t.boot.porLow = false ∧ t.boot.rstLow = false)

/-- A start that has run for 30 s becomes stable: the effective count is 0, held in the shadow and in the newest content of record
0x0002, whether that is written now or deferred (R351, R329). PCIE_PERST_N rising starts the endpoint's training in every start that
does not enter fallow mode (R348). Neither changes a light output, the memories or a mailbox. The link comes up where the endpoint
trains (R289, R294), and a write of configuration space, with the link up, sets memory space, bus mastering and MSI-X enable and can
leave D3hot; every pending vector that can be sent from then on sends its message where its set is not empty, and its pending bit
clears (R313). An unmasked vector does the same, and one whose set has become empty loses its pending bit. -/
def Obligations.StableStartPerstAndLink : Prop :=
  (∀ s : State,
      (s.boot.phase = RUNNING → s.boot.stable = false → s.badSlots = [] →
        ∃ t, exec .startStable s = .next t ∧ t.boot = { s.boot with stable := true, shadow := 0, deferred := t.boot.deferred } ∧
          t.bootCount = 0 ∧ t.attempts = 0 ∧
          t = { s with boot := t.boot, cellar := t.cellar, deferred := t.deferred, regs := t.regs } ∧
          OnlyWords [CL_STATUS, TH_GLOBAL5] s t) ∧
      ((s.boot.phase ≠ RUNNING ∨ s.boot.stable = true) → exec .startStable s = .next s) ∧
      exec .pciePerstRelease s = .next { s with pcie := { s.pcie with
        perstLow := false
        training := s.pcie.training || s.boot.phase == RUNNING || decide (4 ≤ s.boot.loaderStep) } }) ∧
  (∀ (s : State) (gen : Fin 4) (width : Fin 3) (a b c d : Bool) (vec : Fin 32),
      (s.pcie.training = true → s.pcie.perstLow = false → s.boot.phase ≠ FALLOW →
        exec (.pcieLinkUp gen width) s = .next { s with pcie := { s.pcie with gen := gen + 1, width := 2 ^ width.val } }) ∧
      ((s.pcie.training = false ∨ s.pcie.perstLow = true ∨ s.boot.phase = FALLOW) → exec (.pcieLinkUp gen width) s = .next s) ∧
      (s.pcie.gen = 0 → exec (.configurationSpaceWrite a b c d) s = .next s) ∧
      (s.pcie.gen ≠ 0 →
        let goes := a && b && c && !(s.pcie.d3hot && !d) && !s.pcie.masked.getLsbD vec
        ∃ t, exec (.configurationSpaceWrite a b c d) s = .next t ∧ t = { s with pcie := t.pcie, out := t.out } ∧
          t.pcie = { s.pcie with
            memDecode := a, busMaster := b, msixEnable := c, d3hot := s.pcie.d3hot && !d, pending := t.pcie.pending } ∧
          (s.pcie.pending = 0 → t.pcie.pending = 0 ∧ t.out = s.out) ∧
          t.pcie.pending.getLsbD vec = (s.pcie.pending.getLsbD vec && !goes) ∧
          (s.pcie.pending.getLsbD vec = true → goes = true → s.setNonEmpty vec = true → .msix vec ∈ t.out)) ∧
      (s.hostUp .pcie = true →
        let bit := 1#32 <<< vec.val
        let p := { s.pcie with masked := s.pcie.masked &&& ~~~bit }
        (s.pcie.pending.getLsbD vec = false → exec (.msixVectorUnmask vec) s = .next { s with pcie := p }) ∧
        (s.pcie.pending.getLsbD vec = true → s.setNonEmpty vec = false → exec (.msixVectorUnmask vec) s =
          .next { s with pcie := { p with pending := p.pending &&& ~~~bit } }) ∧
        (s.pcie.pending.getLsbD vec = true → s.setNonEmpty vec = true → (s.pcie.msixEnable && s.pcie.busMaster) = true →
          exec (.msixVectorUnmask vec) s =
            .next { s with pcie := { p with pending := p.pending &&& ~~~bit }, out := .msix vec :: s.out }) ∧
        (s.setNonEmpty vec = true → (s.pcie.msixEnable && s.pcie.busMaster) = false → exec (.msixVectorUnmask vec) s =
          .next { s with pcie := p })))

/-- R290: D3hot, a function-level reset, a hot reset and a link-down event, with the link up, stop memory decoding and bus mastering,
disable MSI-X, discard the commands of the mailboxes that came over PCIe and have not started, release the OPEN host handles of
PCIe, and raise PCIE_LINK_RESET. No light output, state word, committed sheaf, flip queue or Granary content changes, nor any other
event. The host comes back by training the link, by a write of configuration space and by unmasking its vectors (R289, R313), which
change the endpoint alone while no message is pending. -/
def Obligations.LinkResetsTouchTheHostSideOnly : Prop := ∀ (c : Instr) (s : State),
  (∀ (gen : Fin 4) (width : Fin 3) (a b e d : Bool) (vec : Fin 32), s.pcie.pending = 0 →
    (s.pcie.training = true → s.pcie.perstLow = false → s.boot.phase ≠ FALLOW →
      exec (.pcieLinkUp gen width) s = .next { s with pcie := { s.pcie with gen := gen + 1, width := 2 ^ width.val } }) ∧
    (s.pcie.gen ≠ 0 → exec (.configurationSpaceWrite a b e d) s =
      .next { s with pcie := { s.pcie with memDecode := a, busMaster := b, msixEnable := e, d3hot := s.pcie.d3hot && !d } }) ∧
    (s.hostUp .pcie = true → exec (.msixVectorUnmask vec) s =
      .next { s with pcie := { s.pcie with masked := s.pcie.masked &&& ~~~(1#32 <<< vec.val) } })) ∧
  (s.pcie.gen ≠ 0 → (c = .d3hotEntry ∧ s.pcie.d3hot = false ∨ c = .functionLevelReset ∨ c = .hotReset ∨ c = .linkDown) →
  ∃ t, exec c s = .next t ∧ t.pcie.memDecode = false ∧ t.pcie.busMaster = false ∧ t.pcie.msixEnable = false ∧
    t.pcie.d3hot = decide (c = .d3hotEntry) ∧ (c = .linkDown → t.pcie.gen = 0 ∧ t.pcie.width = 0) ∧
    (∀ m < 8, ∀ x ∈ (t.mbox m).cmds, x.spi = false → x.state ≠ MB_QUEUED) ∧
    (∀ n ∈ hostHandles, (s.sheaf n).state = SH_OPEN → (s.sheaf n).spi = false → t.sheaf n = Sheaf.reset) ∧
    (∀ n, (s.sheaf n).state ≠ SH_OPEN ∨ (s.sheaf n).spi = true → t.sheaf n = s.sheaf n) ∧
    Raised PCIE_LINK_RESET 0 0 s t ∧ OnlyEvents [PCIE_LINK_RESET] s t ∧
    t = { s with pcie := t.pcie, mb := t.mb, sheaves := t.sheaves, ev := t.ev, out := t.out, serial := t.serial })

/-- A measurement of the replica (R19, R20) fills stage_ps. In RUNNING, with the governor enabled, the request rises by a step at most
once every 50 us, falls by one after 10 ms of low measurements, and stays within its limits, with AVS_LIMIT at the upper one. R22: a
failed AVSBus transaction sets bus_error and raises AVS_BUS_ERR; from then on no measurement changes the request, and the row of the
1 ms retry sends the same request again, until one succeeds. -/
def Obligations.GovernorFollowsTheReplica : Prop :=
  (∀ (s : State) (ps : Nat), ps < 2048 →
      (∃ t, exec (.replicaMeasurement ps) s = .next t ∧ t.fld TH_AVS_STATUS_stage_ps = ps ∧ OnlyWords [TH_AVS_STATUS] s t ∧
        OnlyEvents [AVS_LIMIT] s t ∧ t = { s with regs := t.regs, gov := t.gov, out := t.out, ev := t.ev, pcie := t.pcie }) ∧
      ((s.boot.phase ≠ RUNNING ∨ s.fld TH_AVS_CTRL_enable = 0 ∨ s.gov.retry = true) → ∃ t, exec (.replicaMeasurement ps) s = .next t ∧
        t.fld TH_AVS_STATUS_vcore_mv = s.fld TH_AVS_STATUS_vcore_mv ∧ t.out = s.out) ∧
      (s.boot.phase = RUNNING → s.fld TH_AVS_CTRL_enable = 1 → s.gov.retry = false →
        s.fld TH_AVS_LIMITS_vmin_mv ≤ s.fld TH_AVS_LIMITS_vmax_mv →
        (s.fld TH_AVS_CTRL_target_ps + 50 < ps → 4 ≤ s.gov.sinceRaise → ∃ t, exec (.replicaMeasurement ps) s = .next t ∧
          t.fld TH_AVS_STATUS_vcore_mv = max (s.fld TH_AVS_LIMITS_vmin_mv)
            (min (s.fld TH_AVS_STATUS_vcore_mv + s.fld TH_AVS_CTRL_step_mv) (s.fld TH_AVS_LIMITS_vmax_mv)) ∧
          Out.avs (t.fld TH_AVS_STATUS_vcore_mv) ∈ t.out ∧
          t.flag TH_AVS_STATUS_at_vmax =
            decide (s.fld TH_AVS_LIMITS_vmax_mv < s.fld TH_AVS_STATUS_vcore_mv + s.fld TH_AVS_CTRL_step_mv) ∧
          (s.fld TH_AVS_LIMITS_vmax_mv < s.fld TH_AVS_STATUS_vcore_mv + s.fld TH_AVS_CTRL_step_mv →
            t.latched AVS_LIMIT = true)) ∧
        (ps + 100 < s.fld TH_AVS_CTRL_target_ps → 999 ≤ s.gov.lowRun → ∃ t, exec (.replicaMeasurement ps) s = .next t ∧
          t.fld TH_AVS_STATUS_vcore_mv = min (s.fld TH_AVS_LIMITS_vmax_mv)
            (max (s.fld TH_AVS_STATUS_vcore_mv - s.fld TH_AVS_CTRL_step_mv) (s.fld TH_AVS_LIMITS_vmin_mv)) ∧
          t.out = Out.avs (t.fld TH_AVS_STATUS_vcore_mv) :: s.out))) ∧
  (∀ s : State,
      (∃ t, exec .avsbusTransactionFail s = .next t ∧ t.fld TH_AVS_STATUS_bus_error = 1 ∧ Raised AVS_BUS_ERR 0 0 s t ∧
        OnlyEvents [AVS_BUS_ERR] s t ∧ t.gov.retry = true ∧ t.fld TH_AVS_STATUS_vcore_mv = s.fld TH_AVS_STATUS_vcore_mv ∧
        OnlyWords [TH_AVS_STATUS] s t ∧ t = { s with regs := t.regs, gov := t.gov, out := t.out, ev := t.ev, pcie := t.pcie }) ∧
      (s.gov.retry = true → exec (.avsRetry true) s =
        .next { s with out := .avs (s.fld TH_AVS_STATUS_vcore_mv) :: s.out, gov := { s.gov with retry := false } }) ∧
      (s.gov.retry = true → ∃ t, exec (.avsRetry false) s = .next t ∧ .avs (s.fld TH_AVS_STATUS_vcore_mv) ∈ t.out ∧ t.gov.retry = true ∧
        t.fld TH_AVS_STATUS_bus_error = 1 ∧ Raised AVS_BUS_ERR 0 0 s t ∧
        t.fld TH_AVS_STATUS_vcore_mv = s.fld TH_AVS_STATUS_vcore_mv) ∧
      (s.gov.retry = false → ∀ ok, exec (.avsRetry ok) s = .next s))

/-- Every host write that has a row of its own is the plain write of its word with the bit that the row names, and where the write is
taken the command has that write's effect (R10, R12, R294); and so has a write of any state word at its offset (R9, R292). -/
def Obligations.SettingWritesAreTaken : Prop := ∀ (s : State) (i : Iface) (v : Word),
  (∀ idx : Nat, idx < 0x1000000 → Takes s i idx v →
    exec (.stateWordWrite i 4 (0x1000000 + 4 * idx) v) s = .next (Written s i idx v)) ∧
  (∀ idx : BitVec 24, Takes s i idx.toNat (v ||| namedMask idx.toNat "clear_counts") →
    exec (.clearCounts i idx v) s = .next (Written s i idx.toNat (v ||| namedMask idx.toNat "clear_counts"))) ∧
  (∀ idx : BitVec 24, Takes s i idx.toNat (v ||| namedMask idx.toNat "enable") →
    exec (.blockEnable i idx v) s = .next (Written s i idx.toNat (v ||| namedMask idx.toNat "enable"))) ∧
  (∀ h : Fin 4,
    (Takes s i (HD_RVH_CTRL h) (withOnes (HD_RVH_CTRL_enable h) v) →
      exec (.headEnable i h v) s = .next (Written s i (HD_RVH_CTRL h) (withOnes (HD_RVH_CTRL_enable h) v))) ∧
    (Takes s i (HD_RVH_CTRL h) (v &&& ~~~1#32) →
      exec (.headDisable i h v) s = .next (Written s i (HD_RVH_CTRL h) (v &&& ~~~1#32))) ∧
    (Takes s i (LM_LEN_CTRL h) (withOnes (LM_LEN_CTRL_arm h) v) →
      exec (.lenArm i h v) s = .next (Written s i (LM_LEN_CTRL h) (withOnes (LM_LEN_CTRL_arm h) v))) ∧
    (Takes s i (LM_LEN_CTRL h) (withOnes (LM_LEN_CTRL_force_off h) v) →
      exec (.lenForceOff i h v) s = .next (Written s i (LM_LEN_CTRL h) (withOnes (LM_LEN_CTRL_force_off h) v))) ∧
    (Takes s i (HD_RASTER0 h) (withOnes (HD_RASTER0_enable h) v) →
      exec (.rasterEnable i h v) s = .next (Written s i (HD_RASTER0 h) (withOnes (HD_RASTER0_enable h) v))) ∧
    (Takes s i (HD_CRC_LEARN h) v → exec (.crcLearn i h v) s = .next (Written s i (HD_CRC_LEARN h) v)) ∧
    (Takes s i (CC_GROUP0 h) (withOnes (CC_GROUP0_learn h) v) →
      exec (.ccLearn i h v) s = .next (Written s i (CC_GROUP0 h) (withOnes (CC_GROUP0_learn h) v))) ∧
    (Takes s i (CC_TRIAD0 h) (withOnes (CC_TRIAD0_clear_suspect h) v) →
      exec (.triadClearSuspect i h v) s = .next (Written s i (CC_TRIAD0 h) (withOnes (CC_TRIAD0_clear_suspect h) v))) ∧
    (Takes s i (CE_INJ0 h) (withOnes (CE_INJ0_start h) v) →
      exec (.injectorStart i h v) s = .next (Written s i (CE_INJ0 h) (withOnes (CE_INJ0_start h) v))) ∧
    (Takes s i (CE_INJ0 h) (withOnes (CE_INJ0_stop h) v) →
      exec (.injectorStop i h v) s = .next (Written s i (CE_INJ0 h) (withOnes (CE_INJ0_stop h) v)))) ∧
  (∀ p : Fin 2, Takes s i (HD_INGEST_CTRL p) (withOnes (HD_INGEST_CTRL_enable p) v) →
    exec (.ingestEnable i p v) s = .next (Written s i (HD_INGEST_CTRL p) (withOnes (HD_INGEST_CTRL_enable p) v))) ∧
  (∀ p : Fin 6, p.val < 2 → Takes s i (HD_INGEST_CTRL p) (withOnes (HD_INGEST_CTRL_retrain p) v) →
    exec (.retrain i p v) s = .next (Written s i (HD_INGEST_CTRL p) (withOnes (HD_INGEST_CTRL_retrain p) v))) ∧
  (∀ p : Fin 6, 2 ≤ p.val → Takes s i (HD_RVH_CTRL (p - 2)) (withOnes (HD_RVH_CTRL_retrain (p - 2)) v) →
    exec (.retrain i p v) s = .next (Written s i (HD_RVH_CTRL (p - 2)) (withOnes (HD_RVH_CTRL_retrain (p - 2)) v))) ∧
  (Takes s i HD_MON0 (withOnes HD_MON0_enable v) →
    exec (.monitorEnable i v) s = .next (Written s i HD_MON0 (withOnes HD_MON0_enable v))) ∧
  (Takes s i CE_CAP0 (withOnes CE_CAP0_arm v) →
    exec (.captureArm i v) s = .next (Written s i CE_CAP0 (withOnes CE_CAP0_arm v))) ∧
  (Takes s i CE_CAP0 (withOnes CE_CAP0_abort v) →
    exec (.captureAbort i v) s = .next (Written s i CE_CAP0 (withOnes CE_CAP0_abort v))) ∧
  (∀ l : Fin 64, Takes s i (CE_LOOP00 l) (withOnes (CE_LOOP00_clear_fault l) v) →
    exec (.loopClearFault i l v) s = .next (Written s i (CE_LOOP00 l) (withOnes (CE_LOOP00_clear_fault l) v))) ∧
  (∀ n : Fin 64, Takes s i (LS_STRING5 n) (withOnes (LS_STRING5_clear_fault n) v) →
    exec (.stringClearFault i n v) s = .next (Written s i (LS_STRING5 n) (withOnes (LS_STRING5_clear_fault n) v))) ∧
  (∀ b : Fin 8,
    (Takes s i (LS_BANK0 b) (withOnes (LS_BANK0_rearm b) v) →
      exec (.bankRearm i b v) s = .next (Written s i (LS_BANK0 b) (withOnes (LS_BANK0_rearm b) v))) ∧
    (Takes s i (LS_BANK9 b) 1 → exec (.fadeIn i b) s = .next (Written s i (LS_BANK9 b) 1)) ∧
    (Takes s i (LS_BANK9 b) 2 → exec (.fadeOut i b) s = .next (Written s i (LS_BANK9 b) 2)) ∧
    (Takes s i (LS_BANK9 b) 3 → exec (.standby i b) s = .next (Written s i (LS_BANK9 b) 3)) ∧
    (Takes s i (LS_BANK9 b) 4 → exec (.breathe i b) s = .next (Written s i (LS_BANK9 b) 4)) ∧
    (Takes s i (CE_PG1 b) v → exec (.pgTargetWrite i b v) s = .next (Written s i (CE_PG1 b) v))) ∧
  (∀ c : Fin 40960, Takes s i (ZN_CTX1 c) (withOnes (ZN_CTX1_clear_fault c) v) →
    exec (.zoneClearFault i c v) s = .next (Written s i (ZN_CTX1 c) (withOnes (ZN_CTX1_clear_fault c) v))) ∧
  (∀ n : Fin 36, Takes s i (TH_SENSOR0 n) (withOnes (TH_SENSOR0_clear_suspect n) v) →
    exec (.sensorClearSuspect i n v) s = .next (Written s i (TH_SENSOR0 n) (withOnes (TH_SENSOR0_clear_suspect n) v)))

/-- A 32-bit host write of a state word (R9, R292, R294): a taken one has its effect; one whose index no chapter assigns, or whose unit
the part does not have, changes nothing; one of a slot-list window that a swap keeps closed raises SEQ_WINDOW_BUSY alone (R136); an access of another size or off its alignment counts a size error and changes nothing else;
and nothing happens while the interface does not reach the device. -/
def Obligations.StateWordWriteByItsOffset : Prop := ∀ (s : State) (i : Iface) (idx : Nat) (v : Word), idx < 0x1000000 →
  (Takes s i idx v → exec (.stateWordWrite i 4 (0x1000000 + 4 * idx) v) s = .next (Written s i idx v)) ∧
  (s.hostUp i = true → s.boot.phase = RUNNING → locate idx = none →
    exec (.stateWordWrite i 4 (0x1000000 + 4 * idx) v) s = .next s) ∧
  (∀ r ns, s.hostUp i = true → s.boot.phase = RUNNING → locate idx = some (r, ns) → s.absent r.blk ns = true →
    exec (.stateWordWrite i 4 (0x1000000 + 4 * idx) v) s = .next s) ∧
  (∀ r ns, s.hostUp i = true → s.boot.phase = RUNNING → locate idx = some (r, ns) → s.absent r.blk ns = false →
    s.windowBusy r.blk (unitOf ns) = true → ∃ t, exec (.stateWordWrite i 4 (0x1000000 + 4 * idx) v) s = .next t ∧
    Raised SEQ_WINDOW_BUSY (unitOf ns) 0 s t ∧ OnlyEvents [SEQ_WINDOW_BUSY] s t ∧
    t = { s with ev := t.ev, out := t.out, pcie := { s.pcie with pending := t.pcie.pending } }) ∧
  (∀ size off, s.hostUp i = true → size ≠ 4 ∨ off % 4 ≠ 0 → exec (.stateWordWrite i size off v) s =
    .next { s with hi := { s.hi with sizeErrs := min 65535 (s.hi.sizeErrs + 1) } }) ∧
  (∀ size off, s.hostUp i = false → exec (.stateWordWrite i size off v) s = .next s)

/-- A plain write that a check refuses (R10, R294, R348, R353): every state word keeps its value, but that a refused enable of a head
shows its code in enable_result (R12); HI_WERR holds the index, the interface and the code, the count advances, and E_COUPLED raises
SH_COUPLED_WRITE where every other refusal raises STATE_WRITE_REFUSED. Before RUNNING the code is E_STATE, in fallow mode E_FALLOW. -/
def Obligations.RefusedWriteLeavesTheWords : Prop := ∀ (s : State) (i : Iface) (idx code : Nat) (v : Word),
  s.hostUp i = true → idx < 0x1000000 →
  (s.boot.phase = FALLOW ∧ code = E_FALLOW ∨ s.boot.phase ≠ FALLOW ∧ s.boot.phase ≠ RUNNING ∧ code = E_STATE ∨
    s.boot.phase = RUNNING ∧ code ≠ 0 ∧ ∃ r ns, locate idx = some (r, ns) ∧ s.absent r.blk ns = false ∧
      s.windowBusy r.blk (unitOf ns) = false ∧ s.plainCode r ns idx v = code) →
  ∃ t, exec (.stateWordWrite i 4 (0x1000000 + 4 * idx) v) s = .next t ∧
    OnlyWords ((List.range 4).map HD_RVH_RESULT) s t ∧
    t.hi = { s.hi with werrIndex := idx, werrIface := ifaceBit i, werrCode := code, werrCount := min 65535 (s.hi.werrCount + 1) } ∧
    Raised (if code = E_COUPLED then SH_COUPLED_WRITE else STATE_WRITE_REFUSED) (idx % 65536) (idx / 65536) s t ∧
    OnlyEvents [if code = E_COUPLED then SH_COUPLED_WRITE else STATE_WRITE_REFUSED] s t ∧
    t = { s with regs := t.regs, hi := t.hi, ev := t.ev, out := t.out, pcie := { s.pcie with pending := t.pcie.pending } }

/-- The bits that an entry writes (R9, R273): the RW and SO bits under its mask take the value, W1C bits written 1 clear, every
other bit of the word and every other word stay; bits that are fixed, or of a unit the part does not have, do not change. A write
that leaves the RW and SO bits as they are and clears no W1C bit acts by its write-only bits alone (R9, R294). -/
def Obligations.EntriesWriteTheirBits : Prop :=
  (∀ (s : State) (e : Entry) (r : WordRow) (ns : List Nat),
      locate e.index = some (r, ns) →
      (s.absent r.blk ns = true → s.putEntry e = s) ∧
      (s.absent r.blk ns = false → s.storeKey e.index = e.index →
        (s.putEntry e).word e.index =
          maskWord (s.word e.index) (e.mask &&& accMask r [.rw, .so] &&& ~~~fixedBits r e.index) e.value &&&
            ~~~(e.mask &&& e.value &&& accMask r [.w1c])) ∧
      OnlyWords [e.index, s.storeKey e.index] s (s.putEntry e) ∧ s.putEntry e = { s with regs := (s.putEntry e).regs }) ∧
  (∀ (s : State) (e : Entry) (r : WordRow) (ns : List Nat),
      Canonical s → locate e.index = some (r, ns) → s.absent r.blk ns = false → r.name ≠ "CE_PG1" → s.storeKey e.index = e.index →
      maskWord (s.word e.index) (e.mask &&& accMask r [.rw, .so] &&& ~~~fixedBits r e.index) e.value = s.word e.index →
      s.word e.index &&& (e.mask &&& e.value &&& accMask r [.w1c]) = 0 →
      s.applyWrites false [e] = s.doAll (woSet r (e.mask &&& e.value)) (fun t a => t.act r.blk a.1 ns a.2))

/-- Training moves on (R31 to R36). A head port sends its AM columns, each with the next marker count, and each of their blocks a CTRL
block; an ingest port takes the marker count of a column whose blocks agree, and the second such column in a row in DESKEW takes it to
ACTIVE. TALLY_LOCK leads to CAPS; CAPS within the head's configuration leads to BLOCK_LOCK; EQ_REQ applies its preset; EQ_DONE leads to
DESKEW, and DESKEW_DONE to ACTIVE. A timeout counts an attempt and starts training again, or fails the port at max_attempts with
RV_TRAIN_FAIL; and the loss of the tally takes an ACTIVE or SPARING head port into training again, with the head dark until its first
whole frame; a port whose lanes are all locked leaves BLOCK_LOCK at once. -/
def Obligations.TrainingMovesOn : Prop := ∀ (s : State) (p : Fin 6) (h : Fin 4) (arg : BitVec 48) (crc : Byte)
    (column : List (BitVec 132)) (chars : List (BitVec 9)) (header : BitVec 128) (payload : List Byte) (m : BitVec 16),
  let st := s.fld (portState p)
  let q := s.port p
  (2 ≤ p.val → st ≠ DISABLED → ∃ t, exec (.amColumn p column) s = .next t ∧ (t.port p).markers = q.markers + 1 ∧
    (t.port p).col = (if st = BLOCK_LOCK ∨ st = EQ then 1 else 0) ∧ t = { s with ports := t.ports, wire := t.wire } ∧
    (st ≠ BLOCK_LOCK → st ≠ EQ → ∃ c, t.wire = c :: s.wire ∧ c.head = p - 2 ∧ ∀ b ∈ c.blocks, blockHeader b.2 = ctrlHeader)) ∧
  (p.val < 2 → st ≠ DISABLED → s.headerErrors p column = [] → s.alignedAm p column = none → exec (.amColumn p column) s =
    .next ((s.receiveColumn p column).modPort p (fun x => { x with goodAms := 0 }))) ∧
  (p.val < 2 → st ≠ DISABLED → s.headerErrors p column = [] → s.alignedAm p column = some m →
    (st ≠ DESKEW ∨ q.goodAms = 0 ∨ m ≠ q.markers + 1 → exec (.amColumn p column) s =
      .next ((s.receiveColumn p column).modPort p (fun x =>
        { x with markers := m, goodAms := if m = x.markers + 1 then min 2 (x.goodAms + 1) else 1 }))) ∧
    (st = DESKEW → 1 ≤ q.goodAms → m = q.markers + 1 → ∃ t, exec (.amColumn p column) s = .next t ∧
      t.fld (portState p) = ACTIVE ∧ (t.port p).markers = m ∧ (t.port p).everActive = true)) ∧
  (s.headState h = TALLY_LOCK → exec (.tallyLockAcquired h) s = .next (s.setFld (HD_RVH_STATUS_state h) CAPS_STATE)) ∧
  (s.headState h = CAPS_STATE → s.statusOf h chars = some (header, payload) → header.extractLsb' 48 16 = 1#16 → payload.length = 16 →
    s.allLocked (h + 2) = false → s.capsFail h (BitVec.ofNat 128 (leNat payload)) = false →
    s.sweepFail h (bits (BitVec.ofNat 128 (leNat payload)).toNat 64 16) = false → ∃ t, exec (.capsReceive h chars) s = .next t ∧
      t.headState h = BLOCK_LOCK ∧ t.flag (HD_RVH_STATUS_caps_valid h) = true) ∧
  (GoodTally s h 0x06 arg crc → s.headState h = EQ → bits arg.toNat 0 6 < 42 ∨ bits arg.toNat 0 6 = 63 →
    ∃ t, exec (.eqReq h arg crc) s = .next t ∧ t.out = .preset h (bits arg.toNat 0 6) (bits arg.toNat 6 3) :: s.out ∧
      (∀ k < 42, tabGet (fun _ => 0) (t.port (h + 2)).presets k =
        if bits arg.toNat 0 6 = k ∨ bits arg.toNat 0 6 = 63 then bits arg.toNat 6 3
        else tabGet (fun _ => 0) (s.port (h + 2)).presets k) ∧
      t = { s with ports := t.ports, out := t.out, wire := t.wire }) ∧
  (GoodTally s h 0x07 arg crc → s.headState h = EQ →
    exec (.eqDone h arg crc) s = .next (s.setFld (HD_RVH_STATUS_state h) DESKEW)) ∧
  (GoodTally s h 0x08 arg crc → s.headState h = DESKEW → ∃ t, exec (.deskewDone h arg crc) s = .next t ∧
    t.headState h = ACTIVE ∧ (t.port (h + 2)).everActive = true ∧ t.len = s.len ∧ t.mem = s.mem) ∧
  (st ∈ [BLOCK_LOCK, EQ, DESKEW, TALLY_LOCK, CAPS_STATE] →
    (s.fld (portAttempts p) + 1 < s.fld (portMaxAttempts p) → ∃ t, exec (.trainingTimeout p) s = .next t ∧
      t.fld (portState p) = (if 2 ≤ p.val then TALLY_LOCK else if s.allLocked p then DESKEW else BLOCK_LOCK) ∧
      t.fld (portAttempts p) = s.fld (portAttempts p) + 1 ∧
      OnlyWords [(portState p).key, (portAttempts p).key] s t ∧ t = { s with regs := t.regs, ports := t.ports }) ∧
    (s.fld (portMaxAttempts p) ≤ s.fld (portAttempts p) + 1 → ∃ t, exec (.trainingTimeout p) s = .next t ∧
      t.fld (portState p) = FAILED ∧ Raised RV_TRAIN_FAIL (portNumber p) 0 s t ∧ OnlyEvents [RV_TRAIN_FAIL] s t ∧
      OnlyWords [(portState p).key, (portAttempts p).key] s t)) ∧
  (s.portUp (h + 2) = true → ∃ t, exec (.tallyLoss h) s = .next t ∧ t.fld (portAttempts (h + 2)) = 0 ∧
    t.headState h = (if s.flag (HD_RVH_STATUS_caps_valid h) then
      (if s.allLocked (h + 2) then (if (s.port (h + 2)).stored.isSome then DESKEW else EQ) else BLOCK_LOCK) else TALLY_LOCK) ∧
    (t.port (h + 2)).darkUntilFrame = true ∧ (t.port (h + 2)).lossTick.isSome = true ∧ t.mem = s.mem ∧ t.ev = s.ev)

/-- Lanes (R31, R34, R37, R38). Blocks that arrive on a lane pass its receiver: 64 valid headers in a row lock it, 16 invalid ones in
the last 64 lose it. A lane that locks is noted, and the last one in use takes a port out of BLOCK_LOCK; the first failure of a lane of
an ingest port with parity is rebuilt from parity with RV_PARITY_ACTIVE, and a second one retrains the port; a head lane whose health
count reaches health_thresh is copied to the lowest free spare; and at the switch the spare carries the lane, with RV_LANE_SPARED. -/
def Obligations.LanesLockAndFail : Prop := ∀ (s : State) (p : Fin 6) (lane : Fin 42) (blocks : List (BitVec 132)) (h : Fin 4)
    (arg : BitVec 48) (crc : Byte),
  let r := s.receive p lane blocks
  let st := s.fld (portState p)
  (st ≠ DISABLED → ((r.port p).lane lane).locks = false → exec (.laneBlockLock p lane blocks) s = .next r) ∧
  (st ≠ DISABLED → ((r.port p).lane lane).loses = false → exec (.laneLossOfLock p lane blocks) s = .next r) ∧
  (st ≠ DISABLED → ((r.port p).lane lane).locks = true → ∃ t, exec (.laneBlockLock p lane blocks) s = .next t ∧
    (t.port p).locks.getLsbD lane = true ∧
    (2 ≤ p.val → st = BLOCK_LOCK → (s.setLock p lane true).allLocked p = true →
      (s.port p).stored = none → t.fld (portState p) = EQ) ∧
    (p.val < 2 → st = BLOCK_LOCK → s.flag (HD_INGEST_STATUS_parity_in_use p) = false →
      (s.setLock p lane true).allLocked p = true → t.fld (portState p) = DESKEW)) ∧
  (p.val < 2 → st = ACTIVE ∨ st = DESKEW → s.laneInUse p lane = true → s.flag (HD_INGEST_CTRL_parity_en p) = true →
    ((r.port p).lane lane).loses = true →
    (s.flag (HD_INGEST_STATUS_parity_in_use p) = false → ∃ t, exec (.laneLossOfLock p lane blocks) s = .next t ∧
      t.flag (HD_INGEST_STATUS_parity_in_use p) = true ∧ t.fld (HD_INGEST_STATUS_rebuilt_lane p) = lane.val % 32 ∧
      t.fld (portState p) = st ∧ Raised RV_PARITY_ACTIVE p lane s t ∧ OnlyEvents [RV_PARITY_ACTIVE] s t ∧
      OnlyWords [HD_INGEST_STATUS p] s t) ∧
    (s.flag (HD_INGEST_STATUS_parity_in_use p) = true → s.fld (HD_INGEST_STATUS_rebuilt_lane p) ≠ lane → lane.val < 17 →
      ∃ t, exec (.laneLossOfLock p lane blocks) s = .next t ∧ t.fld (portState p) = BLOCK_LOCK ∧
        t.flag (HD_INGEST_STATUS_parity_in_use p) = false ∧ (t.port p).fromRetrain = true)) ∧
  (2 ≤ p.val → st = BLOCK_LOCK → ((r.port p).lane lane).loses = true →
    exec (.laneLossOfLock p lane blocks) s = .next (r.setLock p lane false)) ∧
  (GoodTally s h 0x04 arg crc → s.portUp (h + 2) = false → ∃ t, exec (.laneLock h arg crc) s = .next t ∧
    (t.port (h + 2)).locks = BitVec.ofNat 42 arg.toNat ∧ OnlyWords [HD_RVH_STATUS h] s t) ∧
  (GoodTally s h 0x05 arg crc → s.headState h = ACTIVE → s.flag (HD_RVH_CTRL_spare_auto h) = true → bits arg.toNat 0 6 < 40 →
    s.laneInUse (h + 2) (bits arg.toNat 0 6) = true → s.fld (HD_RVH_CTRL_health_thresh h) ≤ bits arg.toNat 6 16 →
    s.fld (HD_RVH_STATUS_spare0_for h) = 63 → ∃ t, exec (.laneHealth h arg crc) s = .next t ∧ t.headState h = SPARING ∧
      (t.port (h + 2)).sparing = some (bits arg.toNat 0 6, 40) ∧ t.out = .spareCopy h (bits arg.toNat 0 6) 40 :: s.out ∧
      t = { s with regs := t.regs, ports := t.ports, out := t.out } ∧ OnlyWords [HD_RVH_STATUS h] s t) ∧
  (∀ k m, (s.port (h + 2)).sparing = some (k, 40) → (s.port (h + 2)).mapAt = some m → k < 40 → s.headState h = SPARING →
    (s.port (h + 2)).locks = 0x3FFFFFFFFFF#42 → ∃ t, exec (.laneMapSwitch h) s = .next t ∧ t.headState h = ACTIVE ∧
      t.fld (HD_RVH_STATUS_spare0_for h) = k ∧ Raised RV_LANE_SPARED (portNumber (h + 2)) k s t ∧
      OnlyEvents [RV_LANE_SPARED] s t ∧ OnlyWords [HD_RVH_STATUS h] s t)

/-- CAPS (R41, R143): on a head port in CAPS a good packet within the head's configuration gives caps_valid and enable_result S_OK and
takes it to BLOCK_LOCK, which it leaves at once where all its lanes are locked; one that the configuration exceeds fails the port with
E_CONFLICT and HEAD_MODE_FAIL; in any other state a good packet changes the receiver of the tally lane alone; and characters whose
framing is broken are counted and change nothing else (R42). EQ_REQ applies its preset to a lane, or to all, and the TRAIN columns that
follow carry it (R35). -/
def Obligations.CapsDecideTheHead : Prop := ∀ (s : State) (h : Fin 4) (chars : List (BitVec 9)) (header : BitVec 128)
    (payload : List Byte) (arg : BitVec 48) (crc : Byte),
  let caps := BitVec.ofNat 128 (leNat payload)
  let fails := s.capsFail h caps || s.sweepFail h (bits caps.toNat 64 16)
  (s.headState h ≠ DISABLED → s.statusOf h chars = some (header, payload) →
    (s.headState h = CAPS_STATE → header.extractLsb' 48 16 = 1#16 → payload.length = 16 →
      (fails = false → ∃ t, exec (.capsReceive h chars) s = .next t ∧
        t.headState h = (if s.allLocked (h + 2) then
          (if s.flag (HD_RVH_CTRL_use_stored_eq h) || (s.port (h + 2)).fromRetrain then
            (if (s.port (h + 2)).stored.isSome then DESKEW else EQ) else EQ) else BLOCK_LOCK) ∧
        t.flag (HD_RVH_STATUS_caps_valid h) = true ∧ t.fld (HD_RVH_RESULT_enable_result h) = S_OK ∧ (t.port (h + 2)).caps = caps ∧
        (t.port (h + 2)).lastSeq = some (headerSeq header) ∧ OnlyWords [HD_RVH_STATUS h, HD_RVH_RESULT h] s t ∧
        t = { s with regs := t.regs, ports := t.ports, out := t.out, wire := t.wire }) ∧
      (fails = true → ∃ t, exec (.capsReceive h chars) s = .next t ∧
        t.headState h = FAILED ∧ t.fld (HD_RVH_RESULT_enable_result h) = E_CONFLICT ∧ Raised HEAD_MODE_FAIL h 0 s t ∧
        OnlyEvents [HEAD_MODE_FAIL] s t ∧ OnlyWords [HD_RVH_STATUS h, HD_RVH_RESULT h] s t)) ∧
    (s.headState h ≠ CAPS_STATE → exec (.capsReceive h chars) s = .next (s.modPort (h + 2) (fun q => q.took header)))) ∧
  (s.headState h ≠ DISABLED → statusBlocks chars = none →
    exec (.capsReceive h chars) s = .next (s.count (HD_RVH_ERRS3_tally_errs h) 1)) ∧
  (GoodTally s h 0x06 arg crc → s.headState h = EQ → bits arg.toNat 0 6 < 42 → ∃ t, exec (.eqReq h arg crc) s = .next t ∧
    t.out = .preset h (bits arg.toNat 0 6) (bits arg.toNat 6 3) :: s.out ∧
    tabGet (fun _ => 0) (t.port (h + 2)).presets (bits arg.toNat 0 6) = bits arg.toNat 6 3 ∧
    (∃ c, t.wire.head? = some c ∧ c.head = h ∧ ∀ b ∈ c.blocks, blockHeader b.2 = ctrlHeader) ∧
    t = { s with ports := t.ports, out := t.out, wire := t.wire })

/-- A tally message on a DISABLED head port does nothing, and one whose CRC-8 is bad is discarded and counted (R42); a STATUS packet
with a bad hcrc is counted and starts a hunt. A header that fails on an ingest port (R40): it starts a hunt, counted once, which counts
nothing more while it lasts; FILL counts nothing; a good header ahead of the last good one ends the hunt; and a control column is no
part of the stream. A lane that shows a header error is rebuilt from parity (R29, R38). -/
def Obligations.BadPacketsAreCounted : Prop :=
  (∀ (s : State) (h : Fin 4) (arg : BitVec 48) (crc : Byte) (e : Nat × Instr),
      e ∈ tallyOf h arg crc →
      (s.headState h = DISABLED → exec e.2 s = .next s) ∧
      (s.headState h ≠ DISABLED → crcTally (BitVec.ofNat 8 e.1 :: natLe 6 arg.toNat) ≠ crc.toNat →
        exec e.2 s = .next (s.count (HD_RVH_ERRS3_tally_errs h) 1))) ∧
  (∀ (s : State) (h : Fin 4) (chars : List (BitVec 9)) (hd trailer : BitVec 128) (payload : List Byte) (c : Instr),
      c ∈ [.capsReceive h chars, .statusPacket h chars] → s.headState h ≠ DISABLED →
      (statusBlocks chars = none → exec c s = .next (s.count (HD_RVH_ERRS3_tally_errs h) 1)) ∧
      (statusBlocks chars = some (hd, payload, trailer) → headerGood hd = false → exec c s =
        .next ((s.setPort (h + 2) { s.port (h + 2) with hunting := true }).count (HD_RVH_ERRS3_tally_errs h) 1))) ∧
  (∀ (s : State) (p : Fin 2) (lane : Fin 17) (column : List (BitVec 132)),
      let hd := s.laneData p column lane
      let r := s.receiveColumn p column
      (s.fld (HD_INGEST_STATUS_state p) ≠ ACTIVE → exec (.receiveBadHeader p lane column) s = .next s) ∧
      (s.fld (HD_INGEST_STATUS_state p) = ACTIVE → s.headerErrors p column = [] →
        (hd = 0 ∨ s.controlColumn p column = true → exec (.receiveBadHeader p lane column) s = .next r) ∧
        (s.controlColumn p column = false → hd ≠ 0 → headerGood hd = false → (s.port p).hunting = false →
          exec (.receiveBadHeader p lane column) s =
            .next ((r.setPort p { r.port p with hunting := true }).count (HD_INGEST_ERRS3_hdr_errors p) 1)) ∧
        (s.controlColumn p column = false → headerGood hd = false → (s.port p).hunting = true →
          exec (.receiveBadHeader p lane column) s = .next r) ∧
        (s.controlColumn p column = false → hd ≠ 0 → (r.port p).accepts hd = true →
          exec (.receiveBadHeader p lane column) s = .next (r.setPort p ((r.port p).took hd)))) ∧
      (∀ k, s.fld (HD_INGEST_STATUS_state p) = ACTIVE → s.headerErrors p column = [k] → s.flag (HD_INGEST_CTRL_parity_en p) = true →
        s.flag (HD_INGEST_STATUS_parity_in_use p) = false → ∃ t, exec (.receiveBadHeader p lane column) s = .next t ∧
          t.flag (HD_INGEST_STATUS_parity_in_use p) = true ∧ t.fld (HD_INGEST_STATUS_rebuilt_lane p) = k ∧
          Raised RV_PARITY_ACTIVE p k s t ∧ OnlyEvents [RV_PARITY_ACTIVE] s t))

/-- Answers to CMD packets (R41, R148, R306): an answer is matched by its ctag and awaited no longer. Result 0 of MODE or LOAD_TIMING
lets the head light; another result, or none in time, keeps it dark with HEAD_MODE_FAIL. The answer to a HEAD.CMD is the command's
result, S_OK with the packet's result and blocks; without one the command fails with E_TIMEOUT. A FAULT ends no exchange: its code is
kept and RV_MOD_FAULT is raised (R43). -/
def Obligations.CmdAnswersEndTheirExchange : Prop := ∀ (s : State) (h : Fin 4) (chars : List (BitVec 9)) (header : BitVec 128)
    (payload : List Byte) (what op arg0 : Nat),
  let ctag := header.extractLsb' 64 16
  let result := (header.extractLsb' 80 16).toNat
  (∀ (arg : BitVec 48) (crc : Byte), GoodTally s h 0x0A arg crc → ∃ t, exec (.fault h arg crc) s = .next t ∧
    t.fld (HD_RVH_RESULT_last_fault h) = bits arg.toNat 0 16 ∧ Raised RV_MOD_FAULT h (bits arg.toNat 0 16) s t ∧ t.ports = s.ports ∧
    t.headState h = s.headState h ∧ OnlyEvents [RV_MOD_FAULT] s t ∧ OnlyWords [HD_RVH_RESULT h] s t) ∧
  (s.headState h ≠ DISABLED → s.awaitedOf h ctag.toNat = some (ctag.toNat, what, op, arg0) →
  (what = forMode → s.statusOf h chars = some (header, payload) → ∃ t, exec (.statusPacket h chars) s = .next t ∧
    (t.port (h + 2)).modeOk = decide (result = 0) ∧ t.awaitedOf h ctag.toNat = none ∧
    (result = 0 → t = { s with ports := t.ports }) ∧ (result ≠ 0 → Raised HEAD_MODE_FAIL h 0 s t) ∧
    OnlyEvents [HEAD_MODE_FAIL] s t ∧ t.regs = s.regs) ∧
  (what = forTiming → s.statusOf h chars = some (header, payload) → ∃ t, exec (.statusPacket h chars) s = .next t ∧
    (t.port (h + 2)).timingOk = decide (result = 0) ∧ t.awaitedOf h ctag.toNat = none ∧
    (result = 0 → t = { s with ports := t.ports }) ∧ (result ≠ 0 → Raised HEAD_MODE_FAIL h 0 s t) ∧
    OnlyEvents [HEAD_MODE_FAIL] s t ∧ t.regs = s.regs) ∧
  (what = forTiming → (s.port (h + 2)).awaited = [(ctag.toNat, what, op, arg0)] → ∃ t, exec (.loadTimingTimeout h) s = .next t ∧
    (t.port (h + 2)).timingOk = false ∧ t.awaitedOf h ctag.toNat = none ∧ Raised HEAD_MODE_FAIL h 0 s t ∧
    OnlyEvents [HEAD_MODE_FAIL] s t ∧ t.regs = s.regs) ∧
  (what = forMode → ∃ t, exec (.cmdStatusTimeout h ctag) s = .next t ∧ (t.port (h + 2)).modeOk = false ∧
    t.awaitedOf h ctag.toNat = none ∧ Raised HEAD_MODE_FAIL h 0 s t ∧ OnlyEvents [HEAD_MODE_FAIL] s t ∧ t.regs = s.regs) ∧
  (∀ m < 8, what = forMailbox m → op ≠ 5 →
    (s.statusOf h chars = some (header, payload) → exec (.statusPacket h chars) s =
      .next (((s.modPort (h + 2) (fun q => q.took header)).unawait h ctag.toNat).setOutcome m S_OK
        (BitVec.ofNat 32 (result + payload.length / 16 % 2 ^ 16 * 2 ^ 16) :: bytesWords payload))) ∧
    exec (.cmdStatusTimeout h ctag) s = .next ((s.unawait h ctag.toNat).setOutcome m E_TIMEOUT [])))

/-- Answers of the bands, and the modulator's own reports (R43, R46, R47, R49): a load whose tag BAND_OK names is whole; BAND_ERR and the
lack of an answer have rows sent again, at most max_resend times a load; BAND_STALE counts a band once a reset; LINE_ERR is counted,
with an event once a frame; and FAULT keeps its word and raises RV_MOD_FAULT. -/
def Obligations.BandAnswersResendOrCount : Prop := ∀ (s : State) (h : Fin 4) (arg : BitVec 48) (crc : Byte) (l : Load),
  let b := bits arg.toNat 0 5
  (s.loadOf h b (bits arg.toNat 5 8) = none →
    (GoodTally s h 0x01 arg crc → exec (.bandOk h arg crc) s = .next s) ∧
    (GoodTally s h 0x02 arg crc → exec (.bandErr h arg crc) s = .next s)) ∧
  (GoodTally s h 0x03 arg crc → ((s.bandOf (h * 32 + b)).lastTag ≠ bits arg.toNat 5 8 ∨ (s.bandOf (h * 32 + b)).staleDone = true) →
    exec (.bandStale h arg crc) s = .next s) ∧
  (∀ band : Fin 32, ((s.bandOf (h * 32 + band)).load = none ∨ (s.bandOf (h * 32 + band)).load = some l ∧
      (l.acked = true ∨ l.nextRow ≤ l.lastRow ∨ l.resend ≠ [] ∨ s.fld (HD_RVH_CTRL_max_resend h) ≤ l.resends)) →
    exec (.bandTallyTimeout h band) s = .next s) ∧
  (GoodTally s h 0x01 arg crc → s.loadOf h b (bits arg.toNat 5 8) = some l →
    exec (.bandOk h arg crc) s = .next (s.setLoad h b (some { l with acked := true }))) ∧
  (GoodTally s h 0x02 arg crc → s.loadOf h b (bits arg.toNat 5 8) = some l → l.resends < s.fld (HD_RVH_CTRL_max_resend h) →
    bits arg.toNat 13 13 ≤ bits arg.toNat 26 13 → exec (.bandErr h arg crc) s = .next (s.setLoad h b (some { l with
      acked := false, resend := l.resend ++ [(bits arg.toNat 13 13, bits arg.toNat 26 13)], resends := l.resends + 1 }))) ∧
  (GoodTally s h 0x02 arg crc → s.loadOf h b (bits arg.toNat 5 8) = some l → s.fld (HD_RVH_CTRL_max_resend h) ≤ l.resends →
    exec (.bandErr h arg crc) s = .next s) ∧
  (GoodTally s h 0x03 arg crc → (s.bandOf (h * 32 + b)).lastTag = bits arg.toNat 5 8 → (s.bandOf (h * 32 + b)).staleDone = false →
    ∃ t, exec (.bandStale h arg crc) s = .next t ∧
      t.fld (HD_RVH_ERRS2_band_stale h) = min 65535 (s.fld (HD_RVH_ERRS2_band_stale h) + 1) ∧
      (t.bandOf (h * 32 + b)).staleDone = true ∧ Raised RV_BAND_STALE h b s t ∧ OnlyEvents [RV_BAND_STALE] s t ∧
      OnlyWords [HD_RVH_ERRS2 h] s t) ∧
  (GoodTally s h 0x09 arg crc → ∃ t, exec (.lineErr h arg crc) s = .next t ∧
    t.fld (HD_RVH_ERRS3_line_errs h) = min 65535 (s.fld (HD_RVH_ERRS3_line_errs h) + 1) ∧ OnlyWords [HD_RVH_ERRS3 h] s t ∧
    RaisedOnce RV_LINE_ERR h h (bits arg.toNat 2 14) s t ∧ OnlyEvents [RV_LINE_ERR] s t) ∧
  (GoodTally s h 0x0A arg crc → ∃ t, exec (.fault h arg crc) s = .next t ∧ t.fld (HD_RVH_RESULT_last_fault h) = bits arg.toNat 0 16 ∧
    Raised RV_MOD_FAULT h (bits arg.toNat 0 16) s t ∧ OnlyEvents [RV_MOD_FAULT] s t ∧ OnlyWords [HD_RVH_RESULT h] s t) ∧
  (∀ band : Fin 32, (s.bandOf (h * 32 + band)).load = some l → l.acked = false → l.lastRow < l.nextRow → l.resend = [] →
    l.resends < s.fld (HD_RVH_CTRL_max_resend h) → s.bandFirst h band ≤ l.lastRow → exec (.bandTallyTimeout h band) s =
      .next (s.setLoad h band (some { l with resend := [(s.bandFirst h band, l.lastRow)], resends := l.resends + 1 })))

/-- Flip queues (R65): the first of the listed conditions that applies decides a submission's result, which last_result records; an
accepted slot is appended to the waiting ones, and each refusal raises FLIP_REFUSED and changes no slot. A read of HD_FQ_RETIRED
(R67): it pops the oldest retirement with valid = 1, and the oldest one that waits then enters, with BUFFER_RETIRED; an empty FIFO
answers 0. -/
def Obligations.FlipQueuesTakeAndRetire : Prop :=
  (∀ (s : State) (i : Iface) (q : Fin 16) (v : Word), s.hostUp i = true →
      let x := s.fqueue q
      let n := getBits v 0 3
      let fed := s.ingestFed (q / 4) (q % 4)
      ((x.slot n).valid = true → fed = false → x.inUse n = false → x.waiting.length < 4 → exec (.fqSubmit i q v) s =
        .next (s.setFqueue q { x with waiting := x.waiting ++ [n], lastResult := S_OK })) ∧
      (∀ code, (((x.slot n).valid = false ∨ fed = true) ∧ code = E_STATE ∨
          (x.slot n).valid = true ∧ fed = false ∧ x.inUse n = true ∧ code = E_CONFLICT ∨
          (x.slot n).valid = true ∧ fed = false ∧ x.inUse n = false ∧ 4 ≤ x.waiting.length ∧ code = S_BUSY) →
        ∃ t, exec (.fqSubmit i q v) s = .next t ∧ t.fqueue q = { x with lastResult := code } ∧ Raised FLIP_REFUSED q code s t ∧
          OnlyEvents [FLIP_REFUSED] s t ∧ t = { s with fq := t.fq, ev := t.ev, out := t.out, pcie := t.pcie })) ∧
  (∀ (s : State) (i : Iface) (q : Fin 16) (r n : Retired) (f u : List Retired),
      s.hostUp i = true →
      let w : Word := BitVec.ofNat 32 (r.slot % 8) ||| (if r.mismatch then 8 else 0) ||| (if r.unshown then 16 else 0) ||| 0x80000000
      ((s.fqueue q).fifo = [] → exec (.fqRetiredPop i q) s = .next (s.respond [0, 0, 0, 0])) ∧
      ((s.fqueue q).fifo = r :: f → r.slot < 8 →
        ((s.fqueue q).retiring = [] → exec (.fqRetiredPop i q) s =
          .next ((s.setFqueue q { s.fqueue q with fifo := f }).respond (wordBytes w))) ∧
        ((s.fqueue q).retiring = n :: u → f.length < 8 → ∃ t, exec (.fqRetiredPop i q) s = .next t ∧
          t.fqueue q = { s.fqueue q with fifo := f ++ [n], retiring := u } ∧ t.hi.response = wordBytes w ∧
          Raised BUFFER_RETIRED q n.slot s t ∧ OnlyEvents [BUFFER_RETIRED] s t ∧
          t = { s with fq := t.fq, ev := t.ev, out := t.out, pcie := t.pcie, hi := t.hi })))

/-- Flip-queue slots (R64, R68): what base, stride and gen take depends on whether the slot is in use; valid = 1 registers a slot that
R56 allows; and valid = 0 retires a waiting or held slot at once and lets the current one go at the end of its frame. -/
def Obligations.FlipSlotWrites : Prop := ∀ (s : State) (i : Iface) (q : Fin 16) (n : Fin 8) (v : Word), s.hostUp i = true →
  let x := s.fqueue q
  let sl := x.slot n
  let hi : BitVec 40 := BitVec.ofNat 40 (sl.base.toNat % 2 ^ 32 + getBits v 0 8 * 2 ^ 32)
  (x.inUse n = false →
    exec (.fqSlotWrite i q n .gen v) s = .next (s.setFqueue q
      { x with slots := tabSet slotDefault x.slots n { sl with gen := v, valid := false }, lastResult := S_OK }) ∧
    exec (.fqSlotWrite i q n .stride v) s = .next (s.setFqueue q
      { x with slots := tabSet slotDefault x.slots n { sl with stride := v.setWidth 24, valid := false }, lastResult := S_OK }) ∧
    (let ok := s.bufferGood (q / 4) (q % 4) hi.toNat sl.stride.toNat;
      exec (.fqSlotRegister i q n v) s = .next (s.setFqueue q
        { x with slots := tabSet slotDefault x.slots n { sl with base := hi, valid := ok }
                 lastResult := if ok then S_OK else E_BAD_ARG })) ∧
    exec (.fqSlotUnregister i q n v) s = .next (s.setFqueue q
      { x with slots := tabSet slotDefault x.slots n { sl with base := hi, valid := false }, lastResult := S_OK })) ∧
  (x.inUse n = true →
    exec (.fqSlotWrite i q n .gen v) s =
      .next (s.setFqueue q { x with lastResult := if v = sl.gen then S_OK else E_STATE }) ∧
    exec (.fqSlotWrite i q n .stride v) s =
      .next (s.setFqueue q { x with lastResult := if v.setWidth 24 = sl.stride then S_OK else E_STATE }) ∧
    exec (.fqSlotRegister i q n v) s = .next (s.setFqueue q { x with lastResult := E_STATE }) ∧
    ∃ t, exec (.fqSlotUnregister i q n v) s = .next t ∧ ((t.fqueue q).slot n).valid = false ∧
      ((t.fqueue q).slot n).base = sl.base ∧ (t.fqueue q).lastResult = (if hi = sl.base then S_OK else E_STATE) ∧
      (n.val ∈ x.waiting → n.val ∉ (t.fqueue q).waiting ∧
        ⟨n.val, false, true⟩ ∈ (t.fqueue q).fifo ++ (t.fqueue q).retiring) ∧
      (n.val ∉ x.waiting → x.held = some n.val → (t.fqueue q).held = none ∧
        ⟨n.val, false, false⟩ ∈ (t.fqueue q).fifo ++ (t.fqueue q).retiring) ∧
      (n.val ∉ x.waiting → x.held ≠ some n.val → x.current = some n.val → (t.fqueue q).leaving = true) ∧
      OnlyEvents [BUFFER_RETIRED] s t ∧ t = { s with fq := t.fq, ev := t.ev, out := t.out, pcie := t.pcie })

/-- Tag checks (R69 to R72), for a group with one enabled layer, flip-fed: at fetch start and after a band a matching tag keeps the
slot shown. A mismatch retires it with mismatch = 1, counts, and raises BUF_GEN_MISMATCH with band 0x7FFF at fetch start, the band
after a band, and 0x7FFE in line mode; after a band in plane mode, every later band of the group's heads keeps its planes. -/
def Obligations.TagMismatchRetiresTheSlot : Prop := ∀ (s : State) (g : Fin 4) (l : Fin 4) (band : Fin 32) (n : Nat),
  let q := 4 * g.val + l
  let x := s.fqueue q
  (∀ j : Fin 4, s.layerOn g j = true ↔ j = l) → s.ingestFed g l = false → x.showing = some n → x.fifo.length < 8 →
  (x.fallback = true → x.current ≠ some n) →
  (((s.group g).fetching = true ∨ s.flag (HD_STILL_STATUS_in_still g) = true ∨ s.rasterOn g = false) →
    exec (.fetchStart g) s = .next s) ∧
  ((s.group g).fetching = false → s.flag (HD_STILL_STATUS_in_still g) = false → s.rasterOn g = true →
    (s.tagGood q n = true → exec (.fetchStart g) s =
      .next ((s.setFqueue q { x with checked := true }).setGroup g { s.group g with fetching := true, lastPixel := [] })) ∧
    (s.tagGood q n = false → x.held = none → ∃ t, exec (.fetchStart g) s = .next t ∧ (t.fqueue q).showing = none ∧
      (t.fqueue q).fifo = x.fifo ++ [⟨n, true, !x.shown⟩] ∧ Counted (HD_LAYER_CNT6_buf_gen_mismatch g l) 1 s t ∧
      Raised BUF_GEN_MISMATCH q 0x7FFF s t ∧ Raised BUFFER_RETIRED q n s t ∧ OnlyEvents [BUF_GEN_MISMATCH, BUFFER_RETIRED] s t ∧
      OnlyWords [(HD_LAYER_CNT6_buf_gen_mismatch g l).key] s t)) ∧
  (s.tagGood q n = true → exec (.bandTagCheck g band) s =
    .next (s.setFqueue q { x with shown := x.shown || x.current == some n })) ∧
  (s.tagGood q n = false → s.groupLine g = true → ∃ t, exec (.bandTagCheck g band) s = .next t ∧
    (t.fqueue q).fifo = x.fifo ++ [⟨n, true, false⟩] ∧ (t.fqueue q).showing ≠ some n ∧
    Counted (HD_LAYER_CNT6_buf_gen_mismatch g l) 1 s t ∧ Raised BUF_GEN_MISMATCH q 0x7FFE s t ∧ t.bands = s.bands ∧
    OnlyEvents [BUF_GEN_MISMATCH, BUFFER_RETIRED] s t ∧ OnlyWords [(HD_LAYER_CNT6_buf_gen_mismatch g l).key] s t) ∧
  (s.tagGood q n = false → s.groupLine g = false → ∃ t, exec (.bandTagCheck g band) s = .next t ∧
    (t.fqueue q).fifo = x.fifo ++ [⟨n, true, x.current == some n && !x.shown⟩] ∧ (t.fqueue q).showing ≠ some n ∧
    Counted (HD_LAYER_CNT6_buf_gen_mismatch g l) (s.groupBands g - band) s t ∧ Raised BUF_GEN_MISMATCH q band s t ∧
    (∀ h ∈ s.headsOf g, ∀ b, b < 32 → b < s.nBands h → band.val ≤ b → (t.bandOf (h * 32 + b)).failed = true ∧
      (t.bandOf (h * 32 + b)).writing = false ∧ (t.bandOf (h * 32 + b)).ready = (s.bandOf (h * 32 + b)).ready) ∧
    OnlyEvents [BUF_GEN_MISMATCH, BUFFER_RETIRED] s t ∧ OnlyWords [(HD_LAYER_CNT6_buf_gen_mismatch g l).key] s t)

/-- Ingest lines (R39, R40, R51, R252), for a stream that feeds one layer, in packed format, with its frame open, to a group that is
not on the direct line path: a line that passed its checks is written to the ring and nothing else is; a failed one is only marked; one
that is too early or too late in the frame, or of a frame that has closed, is discarded and counted; and with no room in the holding
buffer the frame is dropped with GR_INGEST_DROP. On the direct line path a good line is marked so too. -/
def Obligations.VideoLineIsTakenOrDiscarded : Prop := ∀ (s : State) (p : Fin 2) (hd : BitVec 128) (payload : List Byte)
    (trailer : BitVec 128) (room : Bool) (q : Nat) (f : SrcFrame) (o : List SrcFrame),
  let st := bits hd.toNat 48 2
  let frame := bits hd.toNat 72 16
  let y := bits hd.toNat 56 16
  let x := s.stream (p.val * 4 + st)
  let u := s.setPort p ((s.port p).took hd)
  let c := Instr.videoLine p hd payload trailer room
  (s.fld (HD_INGEST_STATUS_state p) ≠ ACTIVE → exec c s = .next s) ∧
  (s.fld (HD_INGEST_STATUS_state p) = ACTIVE → (s.port p).accepts hd = true →
    (hd ≠ 0 → bits hd.toNat 0 8 ≠ 0x11 → exec c s = .next u) ∧
    (bits hd.toNat 0 8 = 0x11 → s.boundLayers p st = [] → exec c s = .next u) ∧
    (bits hd.toNat 0 8 = 0x11 → s.boundLayers p st = [q] → frame ∈ x.closed → exec c s =
      .next (u.count (HD_INGEST_ERRS3_order_errors p) 1)) ∧
    (bits hd.toNat 0 8 = 0x11 → s.boundLayers p st = [q] → s.ring q = f :: o → bitOf hd.toNat 50 = false → bitOf hd.toNat 51 = false →
      x.frame = some frame → frame ∉ x.closed → x.dropping = false →
      (y < received x.luma ∨ s.layerHeight (q / 4) (q % 4) ≤ y → exec c s = .next (u.count (HD_INGEST_ERRS3_order_errors p) 1)) ∧
      (received x.luma ≤ y → y < s.layerHeight (q / 4) (q % 4) →
        (room = true → packetWhole hd payload trailer = true → ∃ t, exec c s = .next t ∧
          tabGet (fun _ => 0) (t.stream (p.val * 4 + st)).luma y = 1) ∧
        (room = true → packetWhole hd payload trailer = true → s.directPath (q / 4) = false → payload.length = s.lineBytes q →
          ∃ t, exec c s = .next t ∧ Stored (s.ringLine q f.buf false y) payload s t ∧
            tabGet (fun _ => 0) (t.stream (p.val * 4 + st)).luma y = 1 ∧ t.regs = s.regs ∧ t.ev = s.ev ∧ t.fq = s.fq) ∧
        (room = true → packetWhole hd payload trailer = false → ∃ t, exec c s = .next t ∧ t.mem = s.mem ∧
            tabGet (fun _ => 0) (t.stream (p.val * 4 + st)).luma y = 2 ∧ t.regs = s.regs ∧ t.ev = s.ev ∧ t.fq = s.fq) ∧
        (room = false → s.directPath (q / 4) = false → ∃ t, exec c s = .next t ∧ t.mem = s.mem ∧
          (t.stream (p.val * 4 + st)).dropping = true ∧ Counted (GR_REQ2_drops (28 + p)) 1 s t ∧ Raised GR_INGEST_DROP p 0 s t ∧
          OnlyEvents [GR_INGEST_DROP] s t ∧ OnlyWords [(GR_REQ2_drops (28 + p)).key] s t))))

/-- Composition (R57, R78, R81, log 13 for YC): with no enabled layer the background stands; with one, an opaque one shows its
packed pixel where it covers the raster, and when the layer cannot supply it, the last pixel that it supplied, counted as an
underrun, with LAYER_UNDERRUN at most once a frame. In still mode nothing is composed. The end of the last active line (R79, R80,
R81), with one rectangle enabled: its result is the CRC register with the final XOR; it becomes the expected value where it was to be
learnt, else a difference from the latched expected value sets the status bit and raises CRC_RECT_MISMATCH. In still mode nothing
changes. -/
def Obligations.PixelsAreComposedAndChecked : Prop :=
  (∀ (s : State) (g : Fin 4) (x y : Nat) (supplied : BitVec 4) (l : Fin 4) (c : Source)
        (px py : Nat) (r gr b a : Nat),
      (s.flag (HD_STILL_STATUS_in_still g) = true → exec (.pixelDue g x y supplied) s = .next s) ∧
      (s.flag (HD_STILL_STATUS_in_still g) = false → (∀ j : Fin 4, s.layerOn g j = false) → ∃ t,
        exec (.pixelDue g x y supplied) s = .next t ∧ (t.group g).composed = s.background g ∧
        t = { s with groups := t.groups, mon := t.mon }) ∧
      (s.flag (HD_STILL_STATUS_in_still g) = false → (∀ j : Fin 4, s.layerOn g j = true ↔ j = l) →
        s.layerPlace g l x y = some (px, py) → s.layerSource g l = some c → s.fld (HD_LAYER_CTRL_alpha_mode g l) = 0 →
        (supplied.getLsbD l = true → s.layerPixel g l c px py = some (r, gr, b, a) → ∃ t,
          exec (.pixelDue g x y supplied) s = .next t ∧ (t.group g).composed = (r, gr, b) ∧
          t = { s with groups := t.groups, mon := t.mon }) ∧
        (supplied.getLsbD l = false → tabGet (fun _ => none) (s.group g).lastPixel l = some (r, gr, b, a) → ∃ t,
          exec (.pixelDue g x y supplied) s = .next t ∧ (t.group g).composed = (r, gr, b) ∧
          Counted (HD_LAYER_CNT5_underrun_pix g l) 1 s t ∧ OnlyWords [(HD_LAYER_CNT5_underrun_pix g l).key] s t ∧
          RaisedOnce LAYER_UNDERRUN (4 * g + l) (4 * g + l) 0 s t ∧ OnlyEvents [LAYER_UNDERRUN] s t ∧ t.mem = s.mem))) ∧
  (∀ (s : State) (g : Fin 4) (r : Fin 16),
      let gr := s.group g
      let res := tabGet crcInit gr.crcSum r ^^^ 0xFFFFFFFF#32
      (s.flag (HD_STILL_STATUS_in_still g) = true → exec (.lastActiveLineEnd g) s = .next s) ∧
      (s.flag (HD_STILL_STATUS_in_still g) = false → (∀ j : Fin 16, s.rectOn g j = false) → s.flag HD_MON0_enable = true →
        s.fld HD_MON0_group = g → s.monStarved = true → ∃ t, exec (.lastActiveLineEnd g) s = .next t ∧ t.mem = s.mem ∧
        t.mon = { s.mon with sums := [] } ∧ Counted (GR_REQ2_drops 34) 1 s t ∧ OnlyWords [GR_REQ2 34] s t ∧ t.ev = s.ev) ∧
      (s.flag (HD_STILL_STATUS_in_still g) = false → (∀ j : Fin 16, s.rectOn g j = true ↔ j = r) → s.monStarved = false → ∃ t,
        exec (.lastActiveLineEnd g) s = .next t ∧ t.word (HD_CRC_RESULT g r) = res ∧ (t.group g).crcSum = [] ∧
        OnlyWords [HD_CRC_RESULT g r, HD_CRC_EXPECT g r, (HD_CRC_STATUS_mismatch g).key] s t ∧ OnlyEvents [CRC_RECT_MISMATCH] s t ∧
        (gr.learn.getLsbD r = true → t.word (HD_CRC_EXPECT g r) = res ∧ (t.group g).learn.getLsbD r = false ∧ t.ev = s.ev) ∧
        (gr.learn.getLsbD r = false → res = tabGet (fun _ => 0) gr.crcRects (32 + r) →
          t.word (HD_CRC_EXPECT g r) = s.word (HD_CRC_EXPECT g r) ∧ t.word ((HD_CRC_STATUS_mismatch g).key) = s.word ((HD_CRC_STATUS_mismatch g).key) ∧ t.ev = s.ev) ∧
        (gr.learn.getLsbD r = false → res ≠ tabGet (fun _ => 0) gr.crcRects (32 + r) →
          (t.word ((HD_CRC_STATUS_mismatch g).key)).getLsbD r = true ∧ Raised CRC_RECT_MISMATCH g (2 ^ r.val) s t)))

/-- Line boundaries (R75): the line count advances; under variable blanking the latest start of the fetch is forced at max_lines,
which counts and raises VRR_REPEAT. The frame boundary of a group (R66, R36, R76), while no sheaf, bank, zone matrix, constancy
loop, firmware update, mailbox command or flip waits for it and its heads are in plane mode: the frame number advances, every head of the
group counts a frame, one dark frame less is owed, and a head whose port carries traffic shows light again. With the raster off
nothing happens. -/
def Obligations.BoundariesPaceTheFrame : Prop :=
  (∀ (s : State) (g : Fin 4),
      let u := s.setGroup g { s.group g with line := (s.group g).line + 1 }
      (s.vrr g = false ∨ (s.group g).fetching = true → exec (.lineBoundary g) s = .next u) ∧
      (s.vrr g = true → s.rasterOn g = true → (s.group g).fetching = false → s.flag (HD_STILL_STATUS_in_still g) = false →
        s.vBlank g ≤ (s.group g).line + 9 → s.pacedReady g = false →
        ((s.group g).line + 9 + s.vActive g < s.fld (HD_RASTER6_max_lines g) → exec (.lineBoundary g) s = .next u) ∧
        (s.fld (HD_RASTER6_max_lines g) ≤ (s.group g).line + 9 + s.vActive g →
          (∀ j : Fin 4, s.layerOn g j = true ↔ j.val = s.fld (HD_RASTER0_vrr_layer g)) →
          s.ingestFed g (s.fld (HD_RASTER0_vrr_layer g)) = true → ∃ t, exec (.lineBoundary g) s = .next t ∧
          (t.group g).fetching = true ∧ Counted (HD_RASTER_STATUS_vrr_repeats g) 1 s t ∧ Raised VRR_REPEAT g 0 s t ∧
          OnlyEvents [VRR_REPEAT] s t ∧
          OnlyWords [HD_RASTER_STATUS g, (HD_LAYER_CNT7_frames_repeated g (s.fld (HD_RASTER0_vrr_layer g))).key] s t))) ∧
  (∀ (s : State) (g : Fin 4),
      (s.rasterOn g = false → exec (.frameBoundary g) s = .next s) ∧
      (s.rasterOn g = true → s.pendingSheaves = [] → s.banksOfGroup g = [] → (∀ z : Fin 4, s.matrixOn z = false) →
        s.flag (CC_GROUP0_enable g) = false → s.fw = Firmware.reset → (∀ m : Fin 8, s.cmdHead m = none) →
        (∀ l : Fin 4, s.layerOn g l = false ∧ s.fqueue (4 * g + l) = FlipQueue.reset) → (∀ h ∈ s.headsOf g, s.lineMode h = false) → ∃ t, exec (.frameBoundary g) s = .next t ∧
        t.fld (HD_RASTER_STATUS_frame g) = (s.fld (HD_RASTER_STATUS_frame g) + 1) % 2 ^ 16 ∧ (t.group g).line = 0 ∧
        (s.vrr g = false → (t.group g).fetching = false) ∧
        (∀ h ∈ s.headsOf g, (t.headOf h).frame = (s.headOf h).frame + 1 ∧ (t.headOf h).darkFrames = (s.headOf h).darkFrames - 1 ∧
          (t.headOf h).beta = s.fld TH_GLOBAL3_budget_pm ∧ (s.portUp (h + 2) = true → (t.port (h + 2)).darkUntilFrame = false)) ∧
        t.mem = s.mem ∧ t.fq = s.fq ∧ t.pending = s.pending))

/-- The head port's next packet (R25, R39, R46, R118, R129, R145, R152): nothing while the port carries no traffic; FILL when nothing
waits; in line mode the oldest prepared packet while the head draws; in plane mode a row of the band that goes first by the precedence
of R129, an all-off row as plane 0, a resend being counted, and a row fetched with poison too (R111). What a band answers, or fails to answer, about a load that has been sent says whether rows go out again (R46). -/
def Obligations.PacketsGoByPrecedence : Prop := ∀ (s : State) (h : Fin 4) (b : Nat) (c : Nat × Nat × Nat) (l : Load) (o : Out)
    (q : List Out),
  let k := h.val * 32 + b
  let port := fun t : State => t.port (h + 2)
  (s.portUp (h + 2) = false → exec (.packetBoundary h) s = .next s) ∧
  (∀ (arg : BitVec 48) (crc : Byte), s.loadOf h (bits arg.toNat 0 5) (bits arg.toNat 5 8) = some l →
    (GoodTally s h 0x01 arg crc → exec (.bandOk h arg crc) s = .next (s.setLoad h (bits arg.toNat 0 5) (some { l with acked := true }))) ∧
    (GoodTally s h 0x02 arg crc → l.resends < s.fld (HD_RVH_CTRL_max_resend h) → bits arg.toNat 13 13 ≤ bits arg.toNat 26 13 →
      exec (.bandErr h arg crc) s = .next (s.setLoad h (bits arg.toNat 0 5) (some { l with
        acked := false, resend := l.resend ++ [(bits arg.toNat 13 13, bits arg.toNat 26 13)], resends := l.resends + 1 })))) ∧
  (∀ band : Fin 32, (s.bandOf (h * 32 + band)).load = some l → l.acked = false → l.lastRow < l.nextRow → l.resend = [] →
    l.resends < s.fld (HD_RVH_CTRL_max_resend h) → s.bandFirst h band ≤ l.lastRow → exec (.bandTallyTimeout h band) s =
      .next (s.setLoad h band (some { l with resend := [(s.bandFirst h band, l.lastRow)], resends := l.resends + 1 }))) ∧
  (s.portUp (h + 2) = true → s.lineMode h = true →
    (∀ beam line rev codes, o = .lineCodes h beam line rev codes → (s.line h).queue = o :: q → s.draws h = true → ∃ t,
      exec (.packetBoundary h) s = .next t ∧ t.out = o :: s.out ∧ (t.line h).queue = q ∧ (port t).seqOut = (port s).seqOut + 1 ∧
      t = { s with out := t.out, lines := t.lines, ports := t.ports, wire := t.wire }) ∧
    ((s.line h).queue = [] ∨ s.draws h = false → ∃ t, exec (.packetBoundary h) s = .next t ∧ t.out = .fill h :: s.out ∧
      (t.line h).queue = (s.line h).queue.drop 1 ∧ (port t).seqOut = (port s).seqOut ∧
      t = { s with out := t.out, lines := t.lines, ports := t.ports, wire := t.wire })) ∧
  (s.portUp (h + 2) = true → s.lineMode h = false → (∀ i < s.nBands h, s.candidate h i = none) → ∃ t,
    exec (.packetBoundary h) s = .next t ∧ t.out = .fill h :: s.out ∧ (port t).seqOut = (port s).seqOut ∧
      t = { s with out := t.out, ports := t.ports, wire := t.wire }) ∧
  (s.portUp (h + 2) = true → s.lineMode h = false → b < s.nBands h → s.candidate h b = some c →
    (∀ i < s.nBands h, ∀ d, i ≠ b → s.candidate h i = some d → before3 c d = true) → (s.bandOf k).tails = [] →
    (s.bandOf k).load = some l → ∃ t, exec (.packetBoundary h) s = .next t ∧ (t.bandOf k).load = some l.sent ∧
      (port t).seqOut = (port s).seqOut + 1 ∧ t.mem = s.mem ∧
      OnlyWords [HD_RVH_ERRS2 h, TS_CNTD h, TS_CNTC h] s t ∧ OnlyEvents [PLANE_POISON] s t ∧
      (l.resend ≠ [] → Counted (HD_RVH_ERRS2_resends h) 1 s t) ∧
      (s.rowPoisoned h b l l.row.1 = false ∨ (s.bandOf k).dark = true →
        t.out = .planeRow h b l.tag (l.plane % 64) l.row.1 l.row.2 (s.rowPayload h b l l.row.1) :: s.out ∧
        (l.resend = [] → t = { s with out := t.out, bands := t.bands, ports := t.ports, wire := t.wire })) ∧
      (s.rowPoisoned h b l l.row.1 = true → (s.bandOf k).dark = false →
        Counted (TS_CNTD_poison_rows h) 1 s t ∧ RaisedOnce PLANE_POISON k h b s t))

/-- RESET columns (R45, R47, R121, R128): a slot that resets its band sends the column, with the tag of the load, at the first free
boundary, and the band's edges follow its lateness; in global phase the column resets every band of the head. The plane is shown if the
load was answered, else the band is counted stale with RV_BAND_STALE and keeps what it showed; a BAND_STALE for the tag counts it too. A slot that does not reset sends
nothing. -/
def Obligations.ResetColumnActsOnItsBand : Prop := ∀ (s : State) (h : Fin 4) (band : Fin 32) (gap : Fin 4096) (n : Nat) (k : Slot)
    (l : Load),
  let x := s.bandOf (h.val * 32 + band)
  let b0 := x.resetAt + gap
  let late := fun ahead : Nat => roundDiv ((s.port (h + 2)).freeBoundary (b0 + 4096 * ahead) - x.resetAt) 25
  (∀ (arg : BitVec 48) (crc : Byte), GoodTally s h 0x03 arg crc → bits arg.toNat 0 5 = band.val → x.lastTag = bits arg.toNat 5 8 →
    x.staleDone = false → ∃ t, exec (.bandStale h arg crc) s = .next t ∧ Counted (HD_RVH_ERRS2_band_stale h) 1 s t ∧
      Raised RV_BAND_STALE h band s t ∧ (t.bandOf (h.val * 32 + band)).staleDone = true ∧ OnlyEvents [RV_BAND_STALE] s t) ∧
  (s.threshes h = true → band.val < s.nBands h → x.frameNo = some n → (s.playSlots h band)[x.slot]? = some k →
  (k.loads = false → exec (.resetColumn h band gap) s = .next s) ∧
  (k.loads = true → s.globalPhase h = true → x.load = some l → ∃ t, exec (.resetColumn h band gap) s = .next t ∧
    (s.portUp (h + 2) = true → .resetColumn h band l.tag true ∈ t.out) ∧
    ∀ b < s.nBands h, (t.bandOf (h.val * 32 + b)).load = none ∧ (t.bandOf (h.val * 32 + b)).offsetFine = late 0 ∧
      (t.bandOf (h.val * 32 + b)).dumped = k.dump) ∧
  (k.loads = true → s.globalPhase h = false → x.load = some l → ∃ t, exec (.resetColumn h band gap) s = .next t ∧
    (s.portUp (h + 2) = true → .resetColumn h band l.tag false ∈ t.out) ∧
    (t.bandOf (h.val * 32 + band)).load = none ∧ (t.bandOf (h.val * 32 + band)).lastTag = l.tag ∧
    (t.bandOf (h.val * 32 + band)).offsetFine = late (s.boundariesAhead h band b0) ∧
    (t.bandOf (h.val * 32 + band)).dumped = k.dump ∧ t.mem = s.mem ∧
    (l.acked = true → (t.bandOf (h.val * 32 + band)).shown = some l.plane ∧ t.regs = s.regs ∧ t.ev = s.ev ∧
      t.out = (if s.portUp (h + 2) then .resetColumn h band l.tag false :: s.out else s.out)) ∧
    (l.acked = false → (t.bandOf (h.val * 32 + band)).shown = x.shown ∧ Counted (HD_RVH_ERRS2_band_stale h) 1 s t ∧
      Raised RV_BAND_STALE h band s t ∧ OnlyEvents [RV_BAND_STALE] s t ∧ OnlyWords [HD_RVH_ERRS2 h] s t)))

/-- The decision instant of a band other than band 0 (R109, R127, R138): a ready copy is taken, and without one the band keeps its copy,
late_bands counts and BAND_LATE is raised, at most once a frame; the replay starts lead ticks later at its first slot. -/
def Obligations.DecisionTakesTheReadyCopy : Prop := ∀ (s : State) (h : Fin 4) (band : Fin 32),
  let x := s.bandOf (h.val * 32 + band)
  (s.threshes h = false ∨ s.nBands h ≤ band → exec (.decisionInstant h band) s = .next s) ∧
  (s.threshes h = true → band.val < s.nBands h → band ≠ 0 → ∃ t, exec (.decisionInstant h band) s = .next t ∧
    (t.bandOf (h.val * 32 + band)).ready = false ∧ (t.bandOf (h.val * 32 + band)).slot = 0 ∧
    (t.bandOf (h.val * 32 + band)).start = s.tick + s.leadTicks h ∧ (t.bandOf (h.val * 32 + band)).frameNo.isSome = true ∧
    (t.bandOf (h.val * 32 + band)).cur = (x.cur != x.ready) ∧ t.mem = s.mem ∧
    (x.ready = true → t.regs = s.regs ∧ t.ev = s.ev) ∧
    (x.ready = false → Counted (SQ_CNT13_late_bands h) 1 s t ∧ RaisedOnce BAND_LATE h h band s t ∧ OnlyEvents [BAND_LATE] s t ∧
      OnlyWords [SQ_CNT13 h, (TS_CNTC_dark_bands h).key] s t))

/-- Slots and edges (R122 to R125, R161): a LIGHT slot of a flood-lit head, between slots that do not light its one string, places that
string's edges: on when the mirrors have settled, off at its end, each with its trim. The next slot starts when this one ends. An output
takes the level of its earliest edge, and goes high only while it may be lit and its head shows light. -/
def Obligations.LightSlotsPlaceTheirEdges : Prop := ∀ (s : State) (h : Fin 4) (k : Slot) (str f : Nat) (out : Fin 136) (e : Edge),
  let key := h.val * 32
  let x := s.bandOf key
  (s.threshes h = true → 0 < s.nBands h → x.frameNo = some f → x.slot = 0 → (s.playSlots h 0) = [k] → k.op = opLight →
    k.hold = false → s.matrixOf h = none → (s.headOf h).shiftWaiting = false → s.slotStrings h k = [str] → ∃ t, exec (.slotStart h 0) s = .next t ∧ (t.bandOf key).slot = 1 ∧
    (t.bandOf key).start = x.start + k.duration ∧ t.edges = s.edges ++
      [{ out := s.strOut str, level := true, fine := ((32 * x.start + x.offsetFine + 32 * s.fld (SQ_SETTLE_settle_ticks h) : Nat) +
          s.sfld (SQ_TRIM_on_trim h (s.strBank str))).toNat },
       { out := s.strOut str, level := false, fine := ((32 * x.start + x.offsetFine + 32 * k.duration : Nat) +
          s.sfld (SQ_TRIM_off_trim h (s.strBank str))).toNat }] ∧
    t = { s with bands := t.bands, edges := t.edges }) ∧
  (earliest out s.edges = none → exec (.edgeInstant out) s = .next s) ∧
  (earliest out s.edges = some e → out.val < 128 → ∃ t, exec (.edgeInstant out) s = .next t ∧ t.edges = s.edges.erase e ∧
    t.tout.getLsbD out = (e.level && (s.outHead out).any s.showing && s.outUsable out) ∧
    (∀ i < 128, i ≠ out.val → t.tout.getLsbD i = s.tout.getLsbD i) ∧ t = { s with edges := t.edges, tout := t.tout }) ∧
  (earliest out s.edges = some e → 128 ≤ out.val → ∃ t, exec (.edgeInstant out) s = .next t ∧ t.edges = s.edges.erase e ∧
    t.sync.getLsbD (out - 128) = (e.level && (s.outHead out).any s.showing) ∧
    (∀ i < 8, i ≠ out.val - 128 → t.sync.getLsbD i = s.sync.getLsbD i) ∧ t = { s with edges := t.edges, sync := t.sync })

/-- The line timebase and its columns (R144 to R146, R149): a missed crossing moves the prediction on by one half period, and the fourth
in a row loses the lock with LM_UNLOCK; a sweep counts, active sweep 0 starts the ramp, active sweeps not drawn count their lines as
dark, and a sweep that starts before the slow axis has settled is not drawn; a LINE_ERR of the laser board is counted (R49); and the oldest fixed LINE_START goes out, as a column,
while the head draws. -/
def Obligations.SweepsAndCrossings : Prop := ∀ (s : State) (h : Fin 4) (gap : Fin 4096) (am : Bool) (e : Nat × Bool × Int × Int)
    (rest : List (Nat × Bool × Int × Int)),
  let x := s.line h
  let fly := s.fld (LM_SCAN_flyback_sweeps h)
  let beams := s.fld (LM_CTRL_beams h)
  let settled := s.flag (CE_PG6_settled (s.fld (LM_CTRL_slow_pg h)))
  (s.scans h = false → exec (.crossingMiss h) s = .next s ∧ exec (.sweepStart h gap am) s = .next s) ∧
  (s.scans h = true → x.crossings < 2 → exec (.crossingMiss h) s = .next (s.setLine h { x with zhat := x.zhat + x.half })) ∧
  (s.scans h = true → 2 ≤ x.crossings → ∃ t, exec (.crossingMiss h) s = .next t ∧ (t.line h).zhat = x.zhat + x.half ∧
    t.fld (LM_STATUS_phase_err h) = 0 ∧ (t.line h).half = x.half ∧ t.len = s.len ∧ t.mem = s.mem ∧
    (x.misses < 3 → (t.line h).misses = x.misses + 1 ∧ OnlyWords [LM_STATUS h] s t ∧ t.ev = s.ev ∧
      t.fld (LM_STATUS_locked h) = s.fld (LM_STATUS_locked h)) ∧
    (3 ≤ x.misses → s.flag (LM_STATUS_locked h) = true → t.fld (LM_STATUS_locked h) = 0 ∧ (t.line h).drawing = false ∧
      (t.line h).crossings = 0 ∧ (t.line h).queue = [] ∧ Counted (LM_CNT19_unlocks h) 1 s t ∧ Raised LM_UNLOCK_EV h 0 s t ∧
      OnlyEvents [LM_UNLOCK_EV] s t ∧ OnlyWords [LM_STATUS h, LM_CNT19 h] s t)) ∧
  (s.scans h = true → ∃ t, exec (.sweepStart h gap am) s = .next t ∧ (t.line h).sweep = x.sweep + 1 ∧
    (x.sweep = fly → (t.line h).rampStart = some (x.zhat - x.half / 2)) ∧
    (fly ≤ x.sweep → settled = true → (t.line h).flybackWait = false) ∧
    (fly ≤ x.sweep → settled = false → x.flybackWait = true → 0 < beams →
      ∀ f ∈ (t.line h).starts, f.1 ≠ (x.sweep - fly) * beams) ∧
    ((∀ y, s.lineLate (s.groupOf h) y = false) → t.mem = s.mem ∧ OnlyWords [LM_CNT18 h, LM_CNT1A h] s t ∧
      OnlyEvents [LM_FLYBACK_LATE] s t ∧
      (x.sweep = fly → x.flybackWait = true → settled = false → Counted (LM_CNT1A_flyback_late h) 1 s t) ∧
      (x.drawing = false → fly ≤ x.sweep → x.sweep < fly + s.activeSweeps h → Counted (LM_CNT18_dark_lines h) beams s t))) ∧
  (x.starts = [] → exec (.lineStartColumn h) s = .next s) ∧
  (x.starts = e :: rest →
    (s.draws h = true → ∃ t, exec (.lineStartColumn h) s = .next t ∧ t.out = .lineStart h e.1 e.2.1 :: s.out ∧
      (t.line h).starts = rest ∧ (∃ c, t.wire.head? = some c ∧ c.head = h ∧ ∀ b ∈ c.blocks, blockHeader b.2 = ctrlHeader) ∧
      t = { s with out := t.out, lines := t.lines, ports := t.ports, wire := t.wire }) ∧
    (s.draws h = false → exec (.lineStartColumn h) s = .next (s.setLine h { x with starts := rest }))) ∧
  (∀ (arg : BitVec 48) (crc : Byte), GoodTally s h 0x09 arg crc → ∃ t, exec (.lineErr h arg crc) s = .next t ∧
    Counted (HD_RVH_ERRS3_line_errs h) 1 s t ∧ t.lines = s.lines ∧ OnlyWords [HD_RVH_ERRS3 h] s t ∧ OnlyEvents [RV_LINE_ERR] s t)

/-- ILK_N goes low (R153, R154), for at least 80 ns: every armed head of the part is disarmed, the laser enables that LM_LEN_MAP gives
it go low, its trip_cause names ILK_N, len_drops counts and LEN_DROP is raised; enables of no armed head stay as they are; and the pin
is high again where the low ends. Whether the filter passes a shorter low is a free value (the model's choice, log 152). -/
def Obligations.InterlockDropsTheEnables : Prop := ∀ s : State,
  (∀ low : Option Nat, (∀ n, low = some n → 80 ≤ n) → ∃ t, exec (.ilkNFall low) s = .next t ∧ t.ilkHigh = low.isSome ∧
    (∀ h < s.nHeads, s.flag (LM_STATUS_armed h) = true → t.fld (LM_STATUS_armed h) = 0 ∧ Counted (LM_CNT19_len_drops h) 1 s t ∧
      (t.fld (LM_STATUS_trip_cause h)).testBit 0 = true ∧ t.latched LEN_DROP = true ∧
      ∀ n < 8, s.fld ⟨LM_LEN_MAP 0, 4 * n, 3⟩ = h → t.len.getLsbD n = false) ∧
    (∀ h < s.nHeads, s.flag (LM_STATUS_armed h) = false → t.fld (LM_STATUS_armed h) = s.fld (LM_STATUS_armed h) ∧
      ∀ n < 8, s.fld ⟨LM_LEN_MAP 0, 4 * n, 3⟩ = h → t.len.getLsbD n = s.len.getLsbD n) ∧
    OnlyEvents [LEN_DROP] s t ∧ t.mem = s.mem ∧ t.tout = s.tout) ∧
  (∀ n < 80, ∃ t, exec (.ilkNFall (some n)) s = .next t ∧ t.ilkHigh = true ∧ t.free = s.free + 1 ∧ OnlyEvents [LEN_DROP] s t ∧
    t.mem = s.mem ∧ t.tout = s.tout)
/-- A composed pixel in the colour pipeline of a plane-mode head that shows one component, without split (R86, R88, R95, R96): the index
kept for the Thresher is that of the value after LUT, matrix, clamp, gain map and dither; a clamp counts for the group's first head. With
both bypasses, no gain map and rounding, the index is the formula of R96 on 16 times the component (log 14 says how halves round). -/
def Obligations.ColourPipelineMakesTheIndex : Prop := ∀ (s : State) (h : Fin 4) (x y c : Nat) (r g b : BitVec 16),
  let gr := s.groupOf h
  let input := fun k : Nat => if k = 0 then r.toNat else if k = 1 then g.toNat else b.toNat
  let raw := fun k => s.matrixRaw gr k (fun j => s.linearise gr j (input j))
  (s.pipeOn h = false → exec (.colourPipelinePixel h x y r g b) s = .next s) ∧
  (s.pipeOn h = true → s.comps h = [c] → s.flag (CP_HEAD_CTRL_split_en h) = false → s.lineMode h = false →
    ∃ t, exec (.colourPipelinePixel h x y r g b) s = .next t ∧
    tabGet (fun _ => 0) (t.headOf h).index (pixKey c x y) = s.ditherIndex h x y (s.uniform h x y (clampLinear (raw c))) ∧
    OnlyWords [CP_CNT20 gr, CP_CNT21 gr] s t ∧ OnlyEvents [COLOUR_CLIP] s t ∧ t.mem = s.mem ∧
    (∀ j : Fin 3, raw j < 0 → (s.headsOf gr).head? = some h.val → Counted (CP_CNT20_clip_low gr) 1 s t) ∧
    (∀ j : Fin 3, 0x3FFFFF < raw j → (s.headsOf gr).head? = some h.val → Counted (CP_CNT21_clip_high gr) 1 s t) ∧
    (s.flag (CP_CTRL_lut_bypass gr) = true → s.flag (CP_CTRL_matrix_bypass gr) = true → s.flag (CP_HEAD_CTRL_unif_en h) = false →
      s.fld (CP_HEAD_CTRL_dither_mode h) = 0 →
      let n := s.fld (CP_HEAD_CTRL_dither_bits h)
      let q := min (2 ^ n - 1) ((2 * (min (16 * input c) (2 ^ 20) * (2 ^ n - 1)) + 2 ^ 20) / 2 ^ 21)
      tabGet (fun _ => 0) (t.headOf h).index (pixKey c x y) = q * 2 ^ (16 - n) + q / 2 ^ (2 * n - 16) ∧ t.ev = s.ev ∧
        t.regs = s.regs))

/-- A cell row of the split is complete (R91, R92): the level of each of its cells is the one that R91 computes from the need, the floor
and the level before it. Nothing happens on a head without zone matrix or without split. -/
def Obligations.CellRowSetsTheLevels : Prop := ∀ (s : State) (h : Fin 4) (m z : Nat),
  (s.matrixOf h = none ∨ s.flag (CP_HEAD_CTRL_split_en h) = false → exec (.cellRowComplete h m) s = .next s) ∧
  (s.matrixOf h = some z → s.pipeOn h = true → s.flag (CP_HEAD_CTRL_split_en h) = true → m < s.zy z →
    s.fld (ZN_MAT2_ctx_base z) + s.zx z * s.zy z ≤ 40960 → ∃ t, exec (.cellRowComplete h m) s = .next t ∧
    (∀ i < s.zx z, t.fld (ZN_CTX0_level (s.zoneCtx z i m)) =
      min 4095 (max (min 4095 (s.cellRaw h i m * 4095).ceil.toNat) (max (s.fld (CP_HEAD_ZONE_floor h))
        ((if (s.headOf h).splitFresh then 0 else s.fld (ZN_CTX0_level (s.zoneCtx z i m))) - s.fld (CP_HEAD_SPLIT_fall_max h))))) ∧
    OnlyWords (CP_HEAD_STATUS h :: CP_HEAD_CNT h :: (List.range (s.zx z)).flatMap (fun i =>
      [ZN_CTX0 (s.zoneCtx z i m), ZN_CTX1 (s.zoneCtx z i m)])) s t ∧ OnlyEvents [SPLIT_CLIP] s t ∧ t.mem = s.mem)

/-- Threshing (R101, R109, R110): in a band under way the entry of the pixel's index is written bit by bit to the planes of the copy that
is not current; and a band whose copy is whole becomes ready. A band that failed its tag check takes neither. -/
def Obligations.ThreshedBandsBecomeReady : Prop := ∀ (s : State) (h : Fin 4) (x y c : Nat) (band : Fin 32),
  let b := s.bandOfRow h y
  let d := s.bandOf (h.val * 32 + band)
  (s.threshes h = true → s.pipeOn h = true → x + 1 < s.hActive (s.groupOf h) → y < s.vActive (s.groupOf h) → s.comps h = [c] →
    ((s.bandOf (h.val * 32 + b)).failed = true → exec (.threshPixel h x y) s = .next s) ∧
    ((s.bandOf (h.val * 32 + b)).failed = false → (s.bandOf (h.val * 32 + b)).writing = true → x ≠ 0 → ∃ t,
      exec (.threshPixel h x y) s = .next t ∧ t = { s with mem := t.mem, loft := t.loft, patrol := t.patrol } ∧
      t = s.doAll (List.range (s.nPlanes h c)) (fun u k => u.setPlaneBit h b (s.bandOf (h.val * 32 + b)).other (s.planeBase h c + k)
        (y - s.bandFirst h b) x (bitOf (s.code h (s.fld (TS_CTRL_table_bank h))
          (tabGet (fun _ => 0) (s.headOf h).index (pixKey c x y))) k)))) ∧
  (s.threshes h = false ∨ s.nBands h ≤ band ∨ d.failed = true → exec (.bandCopyReady h band) s = .next s) ∧
  (s.threshes h = true → band.val < s.nBands h → d.failed = false → ∃ t, exec (.bandCopyReady h band) s = .next t ∧
    (t.bandOf (h.val * 32 + band)).ready = true ∧ (t.bandOf (h.val * 32 + band)).writing = false ∧
    (t.bandOf (h.val * 32 + band)).cur = d.cur ∧ (∀ k, k ≠ h.val * 32 + band.val → t.bandOf k = s.bandOf k) ∧
    (∀ l ∈ t.poisoned, l ∈ s.poisoned) ∧ t = { s with bands := t.bands, poisoned := t.poisoned })

/-- Zone illuminators (R197, R198, R201): a ZONE_STEP of a LIGHT slot carries the tag, band, row group and weight of its window on the
band's ports, and ZONE_SWAP in self-scan the tag and band, from which the driver has met the tag. -/
def Obligations.ZoneStepsCarryTheWindow : Prop := ∀ (s : State) (z : Fin 4) (band : Fin 32) (row : Fin 16) (k : Slot) (ahead : Bool)
    (p d : Nat),
  let h := s.fld (ZN_MAT0_head z)
  let tag := (s.bandOf (h * 32 + band)).levelTag
  (s.matrixOn z = false → exec (.zoneStep z band row) s = .next s ∧ exec (.zoneSwap z band) s = .next s) ∧
  (s.matrixOn z = true → band.val < s.nBands h → s.bandDrvs z band = [d] → (s.zoneDriver z d).1 = p → s.dbOn p = true →
    (s.selfScan z = false → row.val < s.mux z → s.stepSlot h z band = some (k, ahead) → k.op = opLight → ∃ t,
      exec (.zoneStep z band row) s = .next t ∧
      s.sent p (busFrame 0x7F 0x22 ([BitVec.ofNat 8 tag, BitVec.ofNat 8 band, BitVec.ofNat 8 row] ++
        natLe 2 (s.stepWeight z k k.w (s.litFine h k)) ++ [0, 0])) ∈ t.out ∧
      (ahead = true → (t.bandOf (h * 32 + band)).preStep = true) ∧
      (ahead = false → (t.bandOf (h * 32 + band)).steps = (s.bandOf (h * 32 + band)).steps + 1) ∧
      OnlyEvents [ZN_LEVELS_STALE] s t ∧ t.mem = s.mem) ∧
    (s.selfScan z = true → ∃ t, exec (.zoneSwap z band) s = .next t ∧
      s.sent p (busFrame 0x7F 0x23 [BitVec.ofNat 8 tag, BitVec.ofNat 8 band]) ∈ t.out ∧
      (t.driver (drvKey p (s.zoneDriver z d).2)).seenTag = some tag ∧ OnlyEvents [ZN_LEVELS_STALE] s t ∧ t.mem = s.mem ∧
      t.bands = s.bands))

/-- Tries of an exchange (R173, R176): a response that is no response frame is counted in crc_errs, and it and the lack of a response
send the frame again, counted in resent, up to retries; with no frame in flight no response has an effect. A driver that has failed every
try, and serves no string, zone or update, is counted in no_resp with DB_NO_RESPONSE. -/
def Obligations.ExchangesAreTriedAgain : Prop := ∀ (s : State) (p : Fin 8) (frame : List Byte) (phase : Fin 8) (q : Nat × List Byte)
    (addr : BitVec 7),
  let x := s.dbPort p
  (x.inFlight = none → ∀ i ∈ [Instr.ack p frame, .ident p frame phase, .telem p frame phase, .zoneFaults p frame phase,
      .fwQuery p frame, .fwCheck p frame, .dbResponseTimeout p], exec i s = .next s) ∧
  (x.inFlight = some q → s.quiet p q.1 = false → x.tries < s.fld (DB_PORT0_retries p) →
    (∃ t, exec (.dbResponseTimeout p) s = .next t ∧ t.out = s.sent p q.2 :: s.out ∧ Counted (DB_PORT3_resent p) 1 s t ∧
      (t.dbPort p) = { x with tries := x.tries + 1 } ∧ OnlyWords [DB_PORT3 p] s t ∧
      t = { s with regs := t.regs, out := t.out, dbPorts := t.dbPorts }) ∧
    (parseResponse frame = none → ∀ i ∈ [Instr.ack p frame, .ident p frame phase, .telem p frame phase, .zoneFaults p frame phase,
        .fwQuery p frame, .fwCheck p frame], ∃ t, exec i s = .next t ∧ t.out = s.sent p q.2 :: s.out ∧ Counted (DB_PORT2_crc_errs p) 1 s t ∧
      Counted (DB_PORT3_resent p) 1 s t ∧ (t.dbPort p) = { x with tries := x.tries + 1 } ∧ OnlyWords [DB_PORT2 p, DB_PORT3 p] s t ∧
      t = { s with regs := t.regs, out := t.out, dbPorts := t.dbPorts })) ∧
  (x.inFlight = some q → s.quiet p q.1 = false → s.fld (DB_PORT0_retries p) ≤ x.tries → x.queue = [] →
    s.driverStrings p q.1 = [] → s.zoneAt p q.1 = none → s.pendingSheaves = [] → s.fw = Firmware.reset → ∃ t,
      exec (.dbResponseTimeout p) s = .next t ∧ Counted (DB_PORT2_no_resp p) 1 s t ∧ Raised DB_NO_RESPONSE p q.1 s t ∧
      (t.dbPort p).inFlight = none ∧ (t.driver (drvKey p q.1)).comms = true ∧ OnlyEvents [DB_NO_RESPONSE] s t ∧
      OnlyWords [DB_PORT2 p] s t) ∧
  (s.quiet p addr.toNat = false → exec (.driverVersionTimeout p addr) s = .next s) ∧
  (s.quiet p addr.toNat = true → s.fw.applying = none → x.queue = [] → x.inFlight = none →
    s.driverStrings p addr.toNat = [] → s.zoneAt p addr.toNat = none → s.pendingSheaves = [] → ∃ t,
      exec (.driverVersionTimeout p addr) s = .next t ∧ Counted (DB_PORT2_no_resp p) 1 s t ∧
      Raised DB_NO_RESPONSE p addr.toNat s t ∧ t.quiet p addr.toNat = false ∧ OnlyEvents [DB_NO_RESPONSE] s t ∧
      OnlyWords [DB_PORT2 p] s t)

/-- Good responses (R175, R176, R366, R370), on a port with nothing else waiting: ACK with status 0 ends the exchange, with status 3 it
goes out again; IDENT makes the driver known and asks for its firmware version; and FW_QUERY keeps the versions, and identifies a driver
anew that has switched to the version it was to report. -/
def Obligations.ResponsesEndTheExchange : Prop := ∀ (s : State) (p : Fin 8) (frame sent pl : List Byte) (a op v : Nat)
    (phase : Fin 8),
  let x := s.dbPort p
  let key := drvKey p a
  x.inFlight = some (a, sent) → x.queue = [] → parseResponse frame = some (a, op, pl) → frameOp sent = op →
  (op = 0x02 → byteAt pl 0 = 0 → exec (.ack p frame) s = .next (s.setDbPort p { x with inFlight := none })) ∧
  (op = 0x02 → byteAt pl 0 = 3 → s.quiet p a = false → x.tries < s.fld (DB_PORT0_retries p) → ∃ t,
    exec (.ack p frame) s = .next t ∧ t.out = s.sent p sent :: s.out ∧ Counted (DB_PORT3_resent p) 1 s t ∧
    OnlyWords [DB_PORT3 p] s t ∧ t.ev = s.ev) ∧
  (op = 0x01 → s.zoneAt p a = none → s.dbOn p = true → ∃ t, exec (.ident p frame phase) s = .next t ∧
    t.driver key = { s.driver key with
      type := halfAt pl 0, kind := byteAt pl 2, chans := byteAt pl 3, level := byteAt pl 4, delay := byteAt pl 5
      phase := phase } ∧
    t.out = s.sent p (busFrame a 0x30 []) :: s.out ∧ (t.dbPort p).inFlight = some (a, busFrame a 0x30 []) ∧
    t = { s with drivers := t.drivers, dbPorts := t.dbPorts, out := t.out }) ∧
  (op = 0x30 → s.quiet p a = false → s.bodyFor s.fw.drv key = none → ∃ t, exec (.fwQuery p frame) s = .next t ∧
    (t.driver key).version = halfAt pl 0 ∧ (t.driver key).otherVersion = halfAt pl 2 ∧ (t.dbPort p).inFlight = none ∧
    (∀ k, k ≠ key → t.driver k = s.driver k) ∧ t = { s with drivers := t.drivers, dbPorts := t.dbPorts }) ∧
  (op = 0x30 → s.fw.awaitVersion = [(key, v)] → s.dbOn p = true → s.fw.applying = none → a < 128 →
    (halfAt pl 0 = v → ∃ t, exec (.fwQuery p frame) s = .next t ∧ t.quiet p a = false ∧ (t.driver key).version = v ∧
      s.sent p (busFrame a 0x01 []) ∈ t.out ∧ t.regs = s.regs ∧ t.ev = s.ev) ∧
    (halfAt pl 0 ≠ v → ∃ t, exec (.fwQuery p frame) s = .next t ∧ t.quiet p a = true ∧
      s.sent p (busFrame a 0x30 []) ∈ t.out ∧ t.regs = s.regs ∧ t.ev = s.ev)) ∧
  (op = 0x33 → (byteAt pl 0 = 0 → exec (.fwCheck p frame) s = .next ({ s with fw := { s.fw with
      checked := s.fw.checked ++ s.fw.loading.filter (fun (e : Nat × Nat) => e.1 == key)
      loading := s.fw.loading.filter (fun (e : Nat × Nat) => !(e.1 == key)) } }.setDbPort p { x with inFlight := none })) ∧
    (byteAt pl 0 ≠ 0 → s.quiet p a = false → x.tries < s.fld (DB_PORT0_retries p) → ∃ t, exec (.fwCheck p frame) s = .next t ∧
      t.out = s.sent p sent :: s.out ∧ Counted (DB_PORT3_resent p) 1 s t ∧ t.fw = s.fw))

/-- Reports (R179, R183, R197; log 37 says which zones a report makes OK): TELEM fills the words of a driver's string, and with no fault
bit leaves its state; ZONE_FAULTS fills the temperature of each of the driver's zones, makes those that it does not name OK when they
were UNVERIFIED, and adds the missed steps. A poll asks each driver of the port. -/
def Obligations.ReportsFillTheWords : Prop := ∀ (s : State) (p : Fin 8) (frame sent pl : List Byte) (a n z d : Nat)
    (phase : Fin 8),
  let x := s.dbPort p
  let i := 2 + 3 * s.fld (LS_STRING0_chan n)
  (x.inFlight = some (a, sent) → parseResponse frame = some (a, 0x05, pl) → frameOp sent = 0x05 → s.driverStrings p a = [n] →
    n < 64 → (s.driver (drvKey p a)).comms = false → (s.driver (drvKey p a)).latchedTag = none → i + 2 < pl.length →
    byteAt pl (i + 2) % 16 = 0 → s.flag (LS_BANK12_at_vbus_max (s.fld (LS_STRING0_bank n))) = false → ∃ t,
      exec (.telem p frame phase) s = .next t ∧ t.fld (LS_STRING3_headroom_mv n) = halfAt pl i ∧
      t.fld (LS_STRING3_drv_temp n) = byteAt pl 1 ∧ t.fld (LS_STRING3_drv_fault n) = byteAt pl (i + 2) ∧
      t.fld (LS_STRING2_state n) = s.fld (LS_STRING2_state n) ∧
      (t.driver (drvKey p a)).phase = phase ∧ OnlyEvents [LS_HR_LIMIT] s t ∧ t.tout = s.tout ∧ t.mem = s.mem) ∧
  (x.inFlight = some (a, sent) → parseResponse frame = some (a, 0x24, pl) → frameOp sent = 0x24 → s.zoneAt p a = some (z, d) →
    byteAt pl 3 = 0 → s.fld (ZN_MAT2_ctx_base z) + s.zx z * s.zy z ≤ 40960 → (∀ c ∈ s.drvZones z d, c < 40960) → ∃ t,
      exec (.zoneFaults p frame phase) s = .next t ∧ Counted (ZN_MAT7_steps_missed z) (byteAt pl 1) s t ∧
      (t.driver (drvKey p a)).phase = phase ∧
      (∀ c ∈ s.drvZones z d, t.fld (ZN_CTX1_temp c) = byteAt pl 2 ∧
        (s.fld (ZN_CTX0_fault c) = ZONE_UNVERIFIED → t.fld (ZN_CTX0_fault c) = ZONE_OK) ∧
        (s.fld (ZN_CTX0_fault c) = ZONE_OPEN → t.fld (ZN_CTX0_fault c) = ZONE_OPEN)) ∧ t.ev = s.ev ∧ t.mem = s.mem) ∧
  (s.dbOn p = false ∨ s.fld (DB_PORT0_telem_us p) = 0 → exec (.telemPoll p) s = .next s) ∧
  (s.dbOn p = true → s.fld (DB_PORT0_telem_us p) ≠ 0 → s.portStringDrivers p = [a] → (∀ m : Fin 4, s.matrixOn m = false) →
    s.quiet p a = false → x.inFlight = none → x.queue = [] → exec (.telemPoll p) s =
      .next ({ s with out := s.sent p (busFrame a 0x05 []) :: s.out }.setDbPort p
        { x with inFlight := some (a, busFrame a 0x05 []), tries := 0 }))

/-- The latch of a group (R164, R177): while an exchange of its tag is not complete it moves on, counted in latch_late; else LATCH_ALL with
the tag goes out on its ports at one tick: in each driver of the group the shadow code of a string under the tag becomes active, and a
string without one keeps its code. -/
def Obligations.LatchMakesTheCodesActive : Prop := ∀ (s : State) (g : Fin 4) (tag : Nat),
  let v := s.latchView g
  let drivers := (v.groupDrivers g ++ s.groupDrivers g).dedup
  let ports := (drivers.map (·.1) ++ s.fwPorts g tag).dedup
  ((s.group g).latchPending = none → exec (.latchAll g) s = .next s) ∧
  ((s.group g).latchPending = some tag →
    (∀ p ∈ ports, s.tagPending p tag [0x02, 0x03, 0x34, 0x35] = true → exec (.latchAll g) s = .next (s.count DB_GLOBAL_latch_late 1)) ∧
    ((∀ p ∈ ports, s.tagPending p tag [0x02, 0x03, 0x34, 0x35] = false) → ∃ t, exec (.latchAll g) s = .next t ∧
      .latch tag ports ∈ t.out ∧ (t.group g).latchPending = none ∧ t.ev = s.ev ∧ t.mem = s.mem ∧
      (∀ p ∈ ports, s.dbOn p = true → s.sent p (busFrame 0x7F 0x04 [BitVec.ofNat 8 tag]) ∈ t.out) ∧
      ∀ d ∈ drivers, (s.driver (drvKey d.1 d.2)).comms = false → ∀ n ∈ s.driverStrings d.1 d.2,
        let c := s.fld (LS_STRING0_chan n)
        let w := s.driver (drvKey d.1 d.2)
        (tabGet (fun _ => 0) w.shadow c = tag + 1 →
          t.fld (LS_STRING4_code_active n) = tabGet (fun _ => 0) w.codes c % 2 ^ (LS_STRING4_code_active n).width) ∧
        (tabGet (fun _ => 0) w.shadow c ≠ tag + 1 →
          t.fld (LS_STRING4_code_active n) = s.fld (LS_STRING4_code_active n))))

/-- Diagnosis (R183, R185, R168): a sample between the thresholds makes a string OK; one at or above open_code, or at or below short_code,
is bad, and `confirm` bad ones of a kind in a row fault the string: its output goes low, faults counts and LS_STRING_FAULT is raised. A
failed PMBus transaction sets pmb_error with LS_PMBUS_ERR. -/
def Obligations.SamplesDiagnoseTheString : Prop := ∀ (s : State) (n : Fin 64) (code : BitVec 12) (b : Fin 8),
  let k := s.fld (LS_STRING0_bank n)
  (s.samples n = false → exec (.diagnosisSample n code) s = .next s) ∧
  (s.samples n = true → s.measuring 2 n = false →
    (s.fld (LS_BANK1_short_code k) < code.toNat → code.toNat < s.fld (LS_BANK1_open_code k) → ∃ t,
      exec (.diagnosisSample n code) s = .next t ∧ t.fld (LS_STRING2_state n) = STR_OK ∧
      t.fld (LS_STRING2_last_sns n) = code.toNat ∧ (t.str n).openRun = 0 ∧ (t.str n).shortRun = 0 ∧ OnlyWords [LS_STRING2 n] s t ∧
      t = { s with regs := t.regs, strings := t.strings }) ∧
    (s.fld (LS_BANK1_open_code k) ≤ code.toNat → s.fld (LS_BANK1_short_code k) < code.toNat →
      ((s.str n).openRun + 1 < s.fld (LS_BANK0_confirm k) → ∃ t,
        exec (.diagnosisSample n code) s = .next t ∧ t.fld (LS_STRING2_state n) = s.fld (LS_STRING2_state n) ∧
        (t.str n).openRun = (s.str n).openRun + 1 ∧ (t.str n).shortRun = 0 ∧ OnlyWords [LS_STRING2 n] s t ∧
        t = { s with regs := t.regs, strings := t.strings }) ∧
      (s.fld (LS_BANK0_confirm k) ≤ (s.str n).openRun + 1 → s.flag (LS_BANK0_policy k) = true → ∃ t,
        exec (.diagnosisSample n code) s = .next t ∧ t.fld (LS_STRING2_state n) = STR_OPEN ∧
        t.tout.getLsbD (s.fld (LS_STRING0_tout n)) = false ∧ Counted (LS_BANK14_faults k) 1 s t ∧
        Raised LS_STRING_FAULT n STR_OPEN s t ∧ OnlyEvents [LS_STRING_FAULT] s t ∧
        OnlyWords [LS_STRING2 n, (LS_BANK14_faults k).key] s t))) ∧
  (s.bankOn b = false → exec (.pmbusTransactionFail b) s = .next s) ∧
  (s.bankOn b = true → ∃ t, exec (.pmbusTransactionFail b) s = .next t ∧ t.fld (LS_BANK12_pmb_error b) = 1 ∧
    (t.bank b).pmbRetry = true ∧ Raised LS_PMBUS_ERR b 0 s t ∧ OnlyEvents [LS_PMBUS_ERR] s t ∧ OnlyWords [LS_BANK12 b] s t)

/-- What the write-only bits do (R34, R79, R155, R169, R188, R200, R211, R225, R234, R235; log 34 for fades): each act of a bit that
a taken write sets. A head that is enabled starts training with enable_result S_OK, none of its bands loaded and no event (R12,
R34); one that is disabled has its port DISABLED and its outputs low; and a port that is made to train again starts from the
beginning with no attempt counted (R34). -/
def Obligations.WriteOnlyBitsAct : Prop :=
  (∀ (s : State) (h n c v : Nat),
      ((s.act .crc "learn" [h] v).group h = { s.group h with learn := (s.group h).learn ||| BitVec.ofNat 16 v }) ∧
      (s.strFaulted n = true → (s.act .string "clear_fault" [n] 1).str n = { s.str n with clearing := true }) ∧
      (n < 8 → (s.act .bank "rearm" [n] 1).fld (LS_BANK12_tripped n) = if s.rearmCode n = 0 then 0 else s.fld (LS_BANK12_tripped n)) ∧
      (1 ≤ v ∧ v ≤ 4 → (s.act .bank "fade_cmd" [n] v).bank n = { s.bank n with fadeCmd := v }) ∧
      (v = 0 ∨ 4 < v → s.act .bank "fade_cmd" [n] v = s) ∧
      (s.zoneFaulted c = true → (s.zoneMatrix c).isSome = true → (s.act .zoneCtx "clear_fault" [c] 1).zoneClear = c :: s.zoneClear) ∧
      ((s.act .triad "clear_suspect" [n] 1).fld (CC_TRIADA_suspect n) = 0 ∧
        tabGet (fun _ => 0) (s.act .triad "clear_suspect" [n] 1).triadBad n = 0) ∧
      ((s.act .loop "clear_fault" [n] 1).fld (CE_LOOP30_fe_tripped n) = 0 ∧
        (s.loopState n = LOOP_FAULT → ((s.act .loop "clear_fault" [n] 1).loop n).clear = true) ∧
        (s.loopState n ≠ LOOP_FAULT → ((s.act .loop "clear_fault" [n] 1).loop n).clear = (s.loop n).clear)) ∧
      ((s.act .inj "start" [n] 1).flag (CE_INJ0_running n) = true ∧ (s.act .inj "start" [n] 1).inj n = Inj.reset) ∧
      (s.flag (CE_INJ0_running n) = true → (s.act .inj "stop" [n] 1).flag (CE_INJ0_running n) = false ∧
        Raised CE_INJECT_DONE n 0 s (s.act .inj "stop" [n] 1)) ∧
      (s.flag (CE_INJ0_running n) = false → s.act .inj "stop" [n] 1 = s) ∧
      ((s.act .cap "arm" [] 1).fld CE_CAP4_state = CAP_ARMED ∧ (s.act .cap "arm" [] 1).fld CE_CAP4_count = 0 ∧
        (s.act .cap "arm" [] 1).cap = Capture.reset) ∧
      ((s.act .cap "abort" [] 1).fld CE_CAP4_state = CAP_IDLE) ∧
      (h < 4 → s.lenConditions h = 0 → (s.act .lm "arm" [h] 1).fld (LM_STATUS_armed h) = 1 ∧
        (s.act .lm "arm" [h] 1).ev = s.ev ∧ ∀ k < 8, (s.act .lm "arm" [h] 1).len.getLsbD k =
          (s.len.getLsbD k || decide (s.fld ⟨LM_LEN_MAP 0, 4 * k, 3⟩ = h))) ∧
      (h < 4 → s.lenConditions h ≠ 0 → s.flag (LM_STATUS_armed h) = false →
        Raised LEN_ARM_REFUSED h (s.lenConditions h) s (s.act .lm "arm" [h] 1) ∧ (s.act .lm "arm" [h] 1).len = s.len ∧
        (s.act .lm "arm" [h] 1).flag (LM_STATUS_armed h) = false)) ∧
  (∀ (s0 s : State) (h : Fin 4) (p : Fin 6),
      (s.headState h = DISABLED → (s.headEnable h).fld (HD_RVH_RESULT_enable_result h) = S_OK ∧ (s.headEnable h).headState h = TALLY_LOCK ∧
        (s.headEnable h).ev = s.ev ∧ (s.headEnable h).tout = s.tout ∧ ∀ b < 32, ((s.headEnable h).bandOf (h * 32 + b)).load = none) ∧
      ((s0.headDisable s h).headState h = DISABLED ∧ (s0.headDisable s h).fld (LM_STATUS_locked h) = 0 ∧
        ∀ o < 128, o ∈ s0.headOuts h → (s0.headDisable s h).tout.getLsbD o = false) ∧
      (s.fld (portState p) ≠ DISABLED → (s.portRetrain p).fld (portAttempts p) = 0 ∧
        (s.portRetrain p).fld (portState p) =
          if p.val < 2 then (if s.allLocked p then DESKEW else BLOCK_LOCK)
          else if s.flag (HD_RVH_STATUS_caps_valid (p - 2)) then
            (if s.allLocked p then (if (s.port p).stored.isSome then DESKEW else EQ) else BLOCK_LOCK)
          else TALLY_LOCK))

/-- A sample of a loop (R217, R222): with no generator and no injector it carries the raw value taken at its tick; the evaluation of a
loop in RUN, on its own set-point, with one coefficient set and no supervision, computes y, amp, e, v and the histories by the formulas
of R222; a disabled loop takes none. -/
def Obligations.LoopComputesItsDifferenceEquation : Prop := ∀ (s : State) (l : Fin 64) (raw : Word) (q : LoopSample),
  let x := s.loop l
  let kind := s.fld (CE_LOOP04_in_kind l)
  let y := sat32 (rawValue kind q.raw * s.sfld (CE_LOOP04_in_gain l))
  let r := s.sfld (CE_LOOP07_sp l)
  let e := sat32 (r + q.injSp - y + q.injErr)
  let third : Int := s.fld (CE_LOOP00_order l)
  let acc := s.coef l 0 0 * e + s.coef l 0 1 * x.e1 + s.coef l 0 2 * x.e2 + third * s.coef l 0 3 * x.e3 -
    s.coef l 0 4 * x.u1 - s.coef l 0 5 * x.u2 - third * s.coef l 0 6 * x.u3
  let c := s.sfld (CE_LOOP35_c l)
  let v := clampI (sat32 ((acc + 2 ^ 19) / 2 ^ 20) + c + q.injOut) (s.sfld (CE_LOOP08_out_min l)) (s.sfld (CE_LOOP09_out_max l))
  (s.loopOn l = false → exec (.loopSample l raw) s = .next s ∧ exec (.loopEvaluation l) s = .next s ∧
    exec (.outputInstant l) s = .next s) ∧
  (s.loopOn l = true → s.gensOf l = [] → (∀ k : Fin 4, s.flag (CE_INJ0_running k) = false) → kind ≠ 3 → ∃ t,
    exec (.loopSample l raw) s = .next t ∧ (t.loop l).taken = x.taken + 1 ∧
    (t.loop l).samples.getLast? = some { n := x.taken, tick := s.tick, raw := raw, pos := none, injSp := 0, injErr := 0, injOut := 0
                                         done := false, out := false, v := none } ∧ t = { s with loops := t.loops }) ∧
  (s.loopOn l = true → x.waiting = some q → s.laneBusy l q = true → exec (.loopEvaluation l) s = .next s) ∧
  (s.loopOn l = true → x.waiting = some q → s.laneBusy l q = false → s.loopState l = LOOP_RUN → s.loopStale l = false → s.gensOf l = [] → s.lwOf l = none →
    s.flag (CE_LOOP00_cross_en l) = false → s.ramp l q.tick = none → s.flag (CE_LOOP00_sp_src l) = false →
    s.flag (CE_LOOP00_fb_sel l) = false → s.fld (CE_LOOP00_n_sets l) ≤ 1 → s.fld (CE_LOOP30_set l) = 0 → x.newSet = false →
    x.first = false → x.limStep = false → s.fld (CE_LOOP0F_fe_limit l) = 0 → ∃ t, exec (.loopEvaluation l) s = .next t ∧
    t.sfld (CE_LOOP31_y l) = y ∧ t.sfld (CE_LOOP32_r l) = r ∧ (t.loop l).lastE = e ∧ (t.loop l).lastV = v ∧ (t.loop l).outPrev = v ∧
    (t.loop l).e1 = e ∧ (t.loop l).e2 = x.e1 ∧ (t.loop l).e3 = x.e2 ∧ (t.loop l).u1 = sat32 (v - c - q.injOut) ∧
    (t.loop l).u2 = x.u1 ∧ (t.loop l).u3 = x.u2 ∧ (∀ p ∈ (t.loop l).samples, p.n = q.n → p.v = some v ∧ p.done = true) ∧
    t.fld (CE_LOOP34_amp l) = max y.natAbs (s.fld (CE_LOOP34_amp l) - s.fld (CE_LOOP34_amp l) / 2 ^ s.fld (CE_LOOP10_amp_decay l)) ∧
    OnlyWords [CE_LOOP30 l, CE_LOOP31 l, CE_LOOP32 l, CE_LOOP34 l, CE_LOOP35 l] s t ∧ t = { s with regs := t.regs, loops := t.loops })

/-- The output instant (R221, R223, R224): a sample evaluated in time puts its v out; one that is late keeps the output, counts an
overrun, and raises CE_OVERRUN when it is the first in a row. Injection, capture and moves (R229, R234, R235): an injector that has
run its duration stops with CE_INJECT_DONE; a capture is done when length - pre samples follow the trigger, with CE_CAPTURE_DONE; a
CE.MOVE that waits ends with E_TIMEOUT at its timeout. -/
def Obligations.OutputsInjectionCaptureAndMoves : Prop :=
  (∀ (s : State) (l : Fin 64) (q : LoopSample) (v : Int),
      s.loopOn l = true → (s.loop l).samples.find? (fun p => !p.out) = some q → s.loopState l = LOOP_RUN → s.lwOf l = none →
      s.fld CE_CAP4_state = CAP_IDLE →
      (q.done = true → q.v = some v → -2147483648 ≤ v → v ≤ 2147483647 → ∃ t, exec (.outputInstant l) s = .next t ∧
        t.sfld (CE_LOOP33_out l) = v ∧ (t.loop l).overrunRun = 0 ∧ t.loopState l = LOOP_RUN ∧
        (s.fld (CE_LOOP00_out_kind l) = 1 → .dac (s.fld (CE_LOOP05_out_index l))
          (clampI (v / 2 ^ s.fld (CE_LOOP05_out_shift l)) (-32768) 32767) ∈ t.out) ∧
        (∀ p ∈ (t.loop l).samples, p.n = q.n → p.out = true) ∧ OnlyEvents [LEN_DROP] s t ∧ t.mem = s.mem) ∧
      (q.done = false → (s.loop l).overrunRun + 1 < s.fld (CE_LOOP00_overrun_max l) → ∃ t, exec (.outputInstant l) s = .next t ∧
        t.sfld (CE_LOOP33_out l) = s.sfld (CE_LOOP33_out l) ∧ t.loopState l = LOOP_RUN ∧ Counted (CE_LOOP36_overruns l) 1 s t ∧
        (t.loop l).e1 = (s.loop l).e1 ∧ (t.loop l).u1 = (s.loop l).u1 ∧
        ((s.loop l).overrunRun = 0 → t.latched CE_OVERRUN = true) ∧ OnlyEvents [CE_OVERRUN, LEN_DROP] s t ∧ t.mem = s.mem)) ∧
  (∀ (s : State) (k : Fin 4) (m : Fin 8) (c : MbCmd),
      ((s.inj k).n < s.fld (CE_INJ2_duration k) ∨ s.flag (CE_INJ0_running k) = false → exec (.injectionEnd k) s = .next s) ∧
      (s.fld (CE_INJ2_duration k) ≤ (s.inj k).n → s.flag (CE_INJ0_running k) = true → ∃ t, exec (.injectionEnd k) s = .next t ∧
        t.flag (CE_INJ0_running k) = false ∧ t.inj k = Inj.reset ∧ Raised CE_INJECT_DONE k 0 s t ∧ OnlyEvents [CE_INJECT_DONE] s t ∧
        OnlyWords [CE_INJ0 k] s t ∧ t = { s with regs := t.regs, injs := t.injs, ev := t.ev, out := t.out, pcie := t.pcie }) ∧
      (s.fld CE_CAP4_state ≠ CAP_RUNNING ∨ s.cap.after < s.fld CE_CAP1_length - s.fld CE_CAP1_pre →
        exec .captureFillEnd s = .next s) ∧
      (s.fld CE_CAP4_state = CAP_RUNNING → s.fld CE_CAP1_length - s.fld CE_CAP1_pre ≤ s.cap.after → ∃ t,
        exec .captureFillEnd s = .next t ∧ t.fld CE_CAP4_state = CAP_DONE ∧ Raised CE_CAPTURE_DONE 0 0 s t ∧
        OnlyEvents [CE_CAPTURE_DONE] s t ∧ OnlyWords [CE_CAP4] s t ∧ t.cap = s.cap) ∧
      (s.cmdHead m = none → exec (.moveTimeout m) s = .next s) ∧
      (s.cmdHead m = some c → c.state = MB_RUNNING → c.begun = true → c.code = 0x0401 → c.outcome = none →
        (c.arg 3 ≠ 0 → exec (.moveTimeout m) s = .next (s.setOutcome m E_TIMEOUT [])) ∧
        (c.arg 3 = 0 → exec (.moveTimeout m) s = .next s)))

/-- The end of a MEASURE slot (R204, R205, R208 to R210): the triad that serves it fills its last-reading words from the mean codes of
the samples in the window, and a clipped window is counted; a window without a sample brings nothing. In a slot of a level entry nothing
else moves; in one of the white item of the group the valid reading, divided by scale and fade, counts towards meas_frames. Other slots,
and those of a head in self-scan, end without a reading. -/
def Obligations.MeasureSlotsTakeReadings : Prop := ∀ (s : State) (h : Fin 4) (band : Fin 32) (k : Slot) (r : TriadReading) (b : Nat)
    (v : Xyz),
  let x := s.bandOf (h.val * 32 + band)
  let g := s.groupOf h
  let f : Rat := (s.fld (LS_BANK12_scale b) : Rat) / 32768 * s.fade b
  let l := r.samples.filter (inWindow (s.fld (CC_GROUP0_skip_us g)) k.duration)
  let clip := (List.range 3).any (clippedAt l)
  let scans := (s.matrixOf h).any s.selfScan
  0 < x.slot → (s.playSlots h band)[x.slot - 1]? = some k →
  (k.op ≠ opMeasure ∨ scans = true → ∀ rs, exec (.measureSlotEnd h band rs) s = .next s) ∧
  (k.op = opMeasure → scans = false → s.triadServes r.triad h band = true →
    (k.w ≠ 0 → l = [] → exec (.measureSlotEnd h band [r]) s = .next s) ∧
    (k.w ≠ 0 → l ≠ [] → ∃ t, exec (.measureSlotEnd h band [r]) s = .next t ∧
      (∀ c : Fin 3, t.word (CC_TRIAD_LAST r.triad c) = BitVec.ofNat 32 (xyzWord ((s.triadXyz r.triad (meanCode l) (fun i =>
        s.rangeOf r.triad i ((s.weightBank h k.prim).getD 0) k.w)).at c))) ∧
      (clip = true → Counted (CC_TRIADE_clipped r.triad) 1 s t) ∧ t.ccGroups = s.ccGroups ∧ t.ev = s.ev) ∧
    (k.w = 0 → l ≠ [] → s.namedItem g = some (b, 0) → s.fld (LS_BANK0_head b) = h → s.fld (LS_BANK0_prim b) = k.prim → clip = false →
      (∀ c : Fin 3, s.measuring 5 (3 * r.triad + c) = false) → s.flag (CC_TRIADA_suspect r.triad) = false → f ≠ 0 →
      s.triadXyz r.triad (meanCode l) (fun i => s.rangeOf r.triad i b 0) = v → (s.bank b).hasWhite = false →
      (∀ i : Fin 4, s.zoneLit h = true → s.flag (CC_TRIAD0_enable i) = true → s.fld (CC_TRIAD0_head i) = h →
        s.fld (CC_TRIAD0_band i) ≤ band) →
      (s.ccGroup g).item = some (b, 0) → (s.ccGroup g).frameN = 0 → (s.ccGroup g).frameSum = (0, 0, 0) →
      (s.ccGroup g).taken = false → (s.ccGroup g).good + 1 < s.fld (CC_GROUP0_meas_frames g) → ∃ t,
      exec (.measureSlotEnd h band [r]) s = .next t ∧
      (t.ccGroup g).good = (s.ccGroup g).good + 1 ∧ (t.ccGroup g).sum = Xyz.add (s.ccGroup g).sum (v.scale (1 / f)) ∧
      (t.ccGroup g).taken = true ∧ t.ev = s.ev))
/-- A line request at the Granary's entry point (R242, R247 to R249), outside self-refresh, with nothing waiting there: at or above the
capacity a read gets zeros and a write is discarded, with a drop counted; a write with room in its queue is complete from then on; and a
read with no pending write to its line waits for none. A layer's fetch is urgent while its line buffer holds fewer lines than its
watermark (R77). -/
def Obligations.GranaryRequestsEnterTheirQueue : Prop := ∀ (s : State) (r : Fin 37) (addr : BitVec 40) (fill : Fin 9) (data : List Byte),
  let a := addr.toNat / 64 * 64
  let k := 2 * (s.placeOf a).ch + (s.placeOf a).sub
  let x := s.sub k
  let q : Req := { id := s.serial, r := r, addr := a, write := true, data := data, tick := s.tick, after := []
                   urgent := decide (r.val < 16) && decide (fill.val < s.fld (HD_LAYER_CTRL_watermark (r / 4) (r % 4))) }
  let tasks := (List.range 8).map (fun i => (GL_TASK0_state i).key)
  (s.capacity ≤ a → ∃ t, exec (.granaryRequest r addr true fill data) s = .next t ∧ t.mem = s.mem ∧
    Counted (GR_REQ2_drops r) 1 s t ∧ OnlyEvents [GR_RANGE] s t ∧ OnlyWords [GR_REQ2 r] s t ∧ t.subs = s.subs) ∧
  (s.capacity ≤ a → ∃ t, exec (.granaryRequest r addr false fill data) s = .next t ∧ t.mem = s.mem ∧
    Counted (GR_REQ2_drops r) 1 s t ∧ .lineData r (a / 64) (some (List.replicate 64 0)) ∈ t.out ∧ t.subs = s.subs) ∧
  (a < s.capacity → s.flag GR_CTRL_in_sr = false → r.val ≠ 32 → x.entry = [] →
    (x.room q = true → ∃ t, exec (.granaryRequest r addr true fill data) s = .next t ∧ Stored a data s t ∧
      (t.sub k).writes = x.writes ++ [q] ∧ (t.sub k).reads = x.reads ∧ (t.sub k).entry = [] ∧ t.serial = s.serial + 1 ∧
      OnlyWords tasks s t ∧ t.ev = s.ev) ∧
    (x.room q = false → ∃ t, exec (.granaryRequest r addr true fill data) s = .next t ∧ t.mem = s.mem ∧
      (t.sub k).entry = [q] ∧ (t.sub k).writes = x.writes ∧ OnlyWords tasks s t) ∧
    (x.room { q with write := false } = true → (∀ w ∈ x.writes, w.addr ≠ a) → ∃ t,
      exec (.granaryRequest r addr false fill data) s = .next t ∧ t.mem = s.mem ∧
      (t.sub k).reads = x.reads ++ [{ q with write := false }] ∧ (t.sub k).writes = x.writes ∧
      OnlyWords tasks s t ∧ t.ev = s.ev))

/-- The scheduler of a subchannel (R246, R254): nothing outside RUN and MIGRATING; a catch-up refresh first, then one that is due, then,
with no class A request on the channel, the refreshes owed, with the ZQ calibration and the tracking that are due in its stall (R239);
and a read on its own is issued as a burst. The write queue starts to drain when no read
has come for idle_drain. -/
def Obligations.SchedulerTakesTheFirstRule : Prop := ∀ (s : State) (ch : Fin 8) (sub : Fin 2) (q : Req),
  let k := 2 * ch.val + sub
  let x := s.sub k
  let owed := s.fld (GR_CHAN1_owed ch)
  let p := s.placeOf q.addr
  (s.chState ch ≠ CH_RUN → s.chState ch ≠ CH_MIGRATING → exec (.subchannelCommandIssue ch sub) s = .next s) ∧
  (s.chState ch = CH_RUN →
    (4 < owed → ∃ t, exec (.subchannelCommandIssue ch sub) s = .next t ∧ t.fld (GR_CHAN1_owed ch) = owed - 1 ∧
      .dram ch 0 0 0 ∈ t.out ∧ (t.chan ch).openRows = [] ∧ (t.chan ch).zqDue = false ∧
      ((s.chan ch).zqDue = true → ∀ cs < s.fld (GR_CHAN0_ranks ch), .dram ch 0 3 cs ∈ t.out ∧ .dram ch 0 7 cs ∈ t.out) ∧
      OnlyWords [GR_CHAN1 ch] s t ∧ t.subs = s.subs) ∧
    (owed ≤ 4 → 0 < (s.chan ch).refreshNow → ∃ t, exec (.subchannelCommandIssue ch sub) s = .next t ∧
      (t.chan ch).refreshNow = (s.chan ch).refreshNow - 1 ∧ .dram ch 0 0 0 ∈ t.out ∧ t.regs = s.regs ∧ t.subs = s.subs) ∧
    (0 < owed → owed ≤ 4 → (s.chan ch).refreshNow = 0 → (s.sub (2 * ch)).hasA = false → (s.sub (2 * ch + 1)).hasA = false → ∃ t,
      exec (.subchannelCommandIssue ch sub) s = .next t ∧ t.fld (GR_CHAN1_owed ch) = owed - 1 ∧
      .dram ch 0 0 0 ∈ t.out ∧ OnlyWords [GR_CHAN1 ch] s t ∧ t.subs = s.subs) ∧
    (owed = 0 → (s.chan ch).refreshNow = 0 → x.writes = [] → x.reads = [] → exec (.subchannelCommandIssue ch sub) s = .next s) ∧
    (owed = 0 → (s.chan ch).refreshNow = 0 → x.writes = [] → x.entry = [] → x.reads = [q] → x.drain = 0 → q.write = false →
      q.after = [] → (s.chan ch).halvings = [] → s.flag GR_RH_rh_en = false → ∃ t,
      exec (.subchannelCommandIssue ch sub) s = .next t ∧ (t.sub k).reads = [] ∧
      (∀ cs ∈ s.route261 p false, .burst p.ch p.sub false cs (s.bank16 p) (s.rowNo p) (s.columnNo p) (q.addr / 64) [] ∈ t.out) ∧
      t.mem = s.mem ∧ t.ev = s.ev ∧
      OnlyWords [GR_REQ0 q.r, GR_REQ1 q.r] s t)) ∧
  (s.fld GR_SCHED_idle_drain ≠ 0 → x.reads = [] → x.writes ≠ [] → x.drain = 0 → exec (.idleDrain ch sub) s =
    .next (s.setSub k { x with drain := 3 })) ∧
  ((s.fld GR_SCHED_idle_drain = 0 ∨ x.reads ≠ [] ∨ x.writes = []) → exec (.idleDrain ch sub) s = .next s)

/-- Refresh (R254, R255) and the activation trackers (R257): a tick in a real-time burst, or with a class A request
queued on the channel, is owed, up to 4, and else is due; an MR4 reading
of 0b100 or above halves the interval, doubles what is owed, counts what then issues at once, and raises GR_MR4_HOT; a window's end clears
the bank's tracker on both subchannels. ZQ calibration falls due on every channel that runs (R239). -/
def Obligations.RefreshIsOwedOrDue : Prop := ∀ (s : State) (ch : Fin 8) (burst : Bool) (op : List (BitVec 3)) (bank : Fin 64),
  let owed := s.fld (GR_CHAN1_owed ch)
  let queued := (s.sub (2 * ch)).hasA = true ∨ (s.sub (2 * ch + 1)).hasA = true
  let hot := (op.take (s.fld (GR_CHAN0_ranks ch))).any (fun o => decide (4 ≤ o.toNat))
  (s.chState ch ≠ CH_RUN → s.chState ch ≠ CH_MIGRATING → exec (.refreshTick ch burst) s = .next s ∧
    ∀ bad, exec (.mr4Poll ch op bad) s = .next s) ∧
  (s.chState ch = CH_RUN →
    ((burst = true ∨ queued) → owed < 4 → ∃ t, exec (.refreshTick ch burst) s = .next t ∧ t.fld (GR_CHAN1_owed ch) = owed + 1 ∧
      OnlyWords [GR_CHAN1 ch] s t ∧ t = { s with regs := t.regs }) ∧
    (burst = false ∧ ¬queued ∨ 4 ≤ owed → exec (.refreshTick ch burst) s =
      .next (s.setChan ch { s.chan ch with refreshNow := (s.chan ch).refreshNow + 1 })) ∧
    (∃ t, exec (.mr4Poll ch op 0) s = .next t ∧ t.flag (GR_CHAN1_trefi_half ch) = hot ∧
      OnlyWords [GR_CHAN1 ch, GR_CHAN8 ch] s t ∧ OnlyEvents [GR_MR4_HOT, GR_REFRESH_CATCHUP] s t ∧ t.mem = s.mem ∧
      (hot = true → s.flag (GR_CHAN1_trefi_half ch) = false → t.latched GR_MR4_HOT = true ∧
        t.fld (GR_CHAN1_owed ch) = 2 * owed % 16 ∧ (4 < 2 * owed → Counted (GR_CHAN8_refresh_catchup ch) (2 * owed - 4) s t ∧
          Raised GR_REFRESH_CATCHUP ch (2 * owed - 4) s t)) ∧
      (hot = s.flag (GR_CHAN1_trefi_half ch) → t.fld (GR_CHAN1_owed ch) = owed))) ∧
  (∃ t, exec .zqCalibration s = .next t ∧ t = { s with chans := t.chans } ∧
    (∀ c ∈ s.channels, s.chState c = CH_RUN ∨ s.chState c = CH_MIGRATING → (t.chan c).zqDue = true) ∧
    ∀ c, (t.chan c).refreshNow = (s.chan c).refreshNow ∧ (t.chan c).acts = (s.chan c).acts) ∧
  (∃ t, exec (.rhWindowEnd ch bank) s = .next t ∧ t = { s with chans := t.chans } ∧
    (∀ c, c ≠ ch.val → t.chan c = s.chan c) ∧
    ∀ e ∈ (t.chan ch).acts, e.1 / 2 ^ 23 ≠ bank.val ∧ e.1 / 2 ^ 23 ≠ 64 + bank.val)

/-- What a read of a line decodes to (R244, R259, R262): a word without error brings its data; an uncorrectable one poisons the
line, counts for its rank with GR_UE, and brings the requester none; a write-CRC error sends the line again, and one that persists
with no spare free raises GR_NO_SPARE. Migration (R260): outside MIGRATING nothing is copied; a line with a pending write waits;
else the line is read from the rank and decoded, and its data goes to the spare, poisoned and counted where it does not decode; ptr moves
past it, and progress_pm follows. -/
def Obligations.LinesAreDecodedAndCopied : Prop :=
  (∀ (s : State) (r : Fin 37) (addr : BitVec 40) (l : List (BitVec 16)) (b : List Byte)
        (ch : Fin 8) (rank : Fin 4),
      let a := addr.toNat / 64 * 64
      let p := s.placeOf a
      let w := fun (cs : Nat) (l : List Nat) => Out.burst p.ch p.sub true cs (s.bank16 p) (s.rowNo p) (s.columnNo p) (a / 64) (beats l)
      (decodeLine (l.map (·.toNat)) = .data b 0 → exec (.readDecode r addr l) s =
        .next { s with out := .lineData r (a / 64) (some b) :: s.out }) ∧
      ((syndromes (l.map (·.toNat))).all (· == 0) = true →
        decodeLine (l.map (·.toNat)) = .data ((List.range 32).flatMap (fun n => natLe 2 ((l.map (·.toNat)).getD n 0))) 0) ∧
      (decodeLine (l.map (·.toNat)) = .uncorrectable → s.spareFree p.ch = false → r.val = 32 → ∃ t,
        exec (.readDecode r addr l) s = .next t ∧ t.isPoisoned (a / 64) = true ∧ .lineData r (a / 64) none ∈ t.out ∧
        Counted (GR_CHAN_CE_ue_count p.ch ((s.route261 p false).headD 0)) 1 s t ∧ t.latched GR_UE = true ∧ t.latched GR_NO_SPARE = true ∧
        OnlyEvents [GR_UE, GR_NO_SPARE] s t ∧ t.mem = s.mem) ∧
      (exec (.alertN ch rank addr false) s = .next { s with out := w rank (s.storedWord a) :: s.out }) ∧
      (s.spareFree ch = false → ∃ t, exec (.alertN ch rank addr true) s = .next t ∧ w rank (s.storedWord a) ∈ t.out ∧
        t.latched GR_NO_SPARE = true ∧ OnlyEvents [GR_NO_SPARE] s t ∧ OnlyWords [GR_CHAN9 ch, GR_CHAN10 ch] s t ∧ t.mem = s.mem)) ∧
  (∀ (s : State) (ch : Fin 8) (l : List (BitVec 16)) (b : List Byte),
      let ptr := s.fld (GR_CHAN2_ptr ch)
      let k := s.fld (GR_CHAN2_mig_rank ch)
      let p := s.rankPlace ch k ptr
      let a := s.addrOf p
      let d := s.placeOf a
      let w := l.map (·.toNat)
      let raw := (w.take 32).flatMap (natLe 2)
      let burst := fun (w : Bool) (cs : Nat) (l : List (BitVec 40)) =>
        Out.burst d.ch d.sub w cs (s.bank16 d) (s.rowNo d) (s.columnNo d) (a / 64) l
      let goes := fun (b : List Byte) (bad : Bool) (t : State) => t.fld (GR_CHAN2_ptr ch) = ptr + 1 ∧ t.chState ch = CH_MIGRATING ∧
        t.fld (GR_CHAN3_progress_pm ch) = (ptr + 1) * 1000 / s.rankLines ∧ Stored a b s t ∧
        burst true (s.fld (GR_CHAN0_spare_cs ch)) (beats (codeword b bad)) ∈ t.out ∧ burst false (s.csOf ch k) [] ∈ t.out
      (s.chState ch ≠ CH_MIGRATING → exec (.migrationLineCopy ch l) s = .next s) ∧
      (s.chState ch = CH_MIGRATING →
        ((s.sub (2 * ch + p.sub)).writes.any (fun w => w.addr == a) = true → ∃ t, exec (.migrationLineCopy ch l) s = .next t ∧
          t.fld (GR_CHAN2_ptr ch) = ptr ∧ Counted (GR_CHAN8_raw_waits ch) 1 s t ∧ OnlyWords [GR_CHAN8 ch] s t ∧
          t = { s with regs := t.regs, subs := t.subs }) ∧
        ((s.sub (2 * ch + p.sub)).writes.any (fun w => w.addr == a) = false → a + 64 ≤ s.capacity →
          (ptr + 1 < s.rankLines → decodeLine w = .data b 0 → b.length = 64 → ∃ t, exec (.migrationLineCopy ch l) s = .next t ∧
            goes b false t ∧ t.isPoisoned (a / 64) = false ∧ OnlyWords [GR_CHAN2 ch, GR_CHAN3 ch] s t ∧ t.ev = s.ev) ∧
          (ptr + 1 < s.rankLines → decodeLine w = .poisoned → l.length = 40 → ∃ t, exec (.migrationLineCopy ch l) s = .next t ∧
            goes raw true t ∧ t.isPoisoned (a / 64) = true ∧ Counted (GR_CHAN3_poisoned_lines ch) 1 s t ∧
            OnlyWords [GR_CHAN2 ch, GR_CHAN3 ch] s t ∧ t.ev = s.ev) ∧
          (ptr + 1 < s.rankLines → decodeLine w = .uncorrectable → l.length = 40 → ∃ t,
            exec (.migrationLineCopy ch l) s = .next t ∧ goes raw true t ∧ t.isPoisoned (a / 64) = true ∧
            Counted (GR_CHAN3_poisoned_lines ch) 1 s t ∧ Counted (GR_CHAN_CE_ue_count ch (s.csOf ch k)) 1 s t ∧
            t.latched GR_UE = true ∧ t.latched GR_NO_SPARE = true ∧ OnlyEvents [GR_UE, GR_NO_SPARE] s t) ∧
          (ptr + 1 = s.rankLines → decodeLine w = .data b 0 → b.length = 64 → ∃ t,
            exec (.migrationLineCopy ch l) s = .next t ∧ t.chState ch = CH_RUN ∧ t.flag (GR_CHAN1_spare_used ch) = true ∧
            t.csOf ch k = s.fld (GR_CHAN0_spare_cs ch) ∧ t.latched GR_SPARE_DONE = true ∧ OnlyEvents [GR_SPARE_DONE] s t))))


/-- BAR2 and the SPI target (R242, R295, R297, R385): bytes of the Granary are read and written as they stand through the window
and by READ and WRITE, whose address, count and crc are checked first; a BAR0 word is reached too. READ_STATUS, READ_ID and an
unknown opcode answer as R297 says. Where CS_N rises before the marker nothing is sent, and READ_STATUS reports the outcome (log 156). -/
def Obligations.WindowsReachTheGranary : Prop :=
  (∀ (s : State) (i : Iface) (off : BitVec 30) (n : Nat) (data : List Byte),
    let a := s.bar2Addr off.toNat
    (s.hostUp i = false → exec (.bar2Read i off n) s = .next s ∧ exec (.bar2Write i off data) s = .next s) ∧
    (s.hostUp i = true → s.boot.granaryOk = false →
      exec (.bar2Read i off n) s = .next (s.respond (List.replicate n 0xFF)) ∧ exec (.bar2Write i off data) s = .next s) ∧
    (s.hostUp i = true → s.boot.granaryOk = true → s.flag GR_CTRL_in_sr = false →
      (a + n ≤ s.capacity → (∀ l, a ≤ 64 * l + 63 → 64 * l < a + n → s.isPoisoned l = false) →
        exec (.bar2Read i off n) s = .next (s.respond (s.bytes a n))) ∧
      (a + data.length ≤ s.capacity → (∀ l, a ≤ 64 * l + 63 → 64 * l < a + data.length → s.isPoisoned l = false) → ∃ t,
        exec (.bar2Write i off data) s = .next t ∧ Stored a data s t ∧ t = { s with mem := t.mem, patrol := t.patrol }))) ∧
  (∀ (s : State) (addr : Word) (count : Byte) (data : List Byte) (crc : BitVec 16) (op : Byte) (early : Bool),
    let up := s.hostUp .spi
    let reads := [(Instr.spiRead addr count early, false), (.spiQuadRead addr count early, true)]
    let writes := [(Instr.spiWrite addr count data crc early, false), (.spiQuadWrite addr count data crc early, true)]
    let sent := fun (l : List Byte) => if early then [] else 0xA5 :: l
    let withCrc := fun (l : List Byte) => l ++ natBe 2 (crcSpi l)
    let good := { s with hi := { s.hi with spiStatus := S_OK, spiSeen := true } }
    let fails := fun code : Nat => { s with hi := { s.hi with spiStatus := code } }
    let crcOk := crcSpi (natBe 4 addr.toNat ++ natBe 1 count.toNat ++ data) = crc.toNat
    let a := s.bar2Addr (addr.toNat % 2 ^ 30)
    let n := 4 * count.toNat
    (up = false → ∀ c ∈ (reads ++ writes).map (·.1) ++ [.readStatus, .readId, .spiUnknownOpcode op], exec c s = .next s) ∧
    (up = true →
      (∀ c ∈ writes, ¬crcOk → exec c.1 s = .next ({ s with hi := { s.hi with
        spiStatus := E_BAD_ARG, spiCrcErrs := min 65535 (s.hi.spiCrcErrs + 1) } }.spiSend c.2 (sent (natBe 2 E_BAD_ARG)))) ∧
      (∀ code, (addr.toNat % 4 ≠ 0 ∧ code = E_BAD_ARG ∨ addr.toNat % 4 = 0 ∧ addr.toNat < 2 ^ 27 ∧
          (count = 0 ∧ code = E_ZERO ∨ 64 < count.toNat ∧ code = E_RANGE)) →
        (∀ c ∈ reads, exec c.1 s = .next ((fails code).spiSend c.2 (sent (withCrc (natBe 2 code))))) ∧
        (crcOk → ∀ c ∈ writes, exec c.1 s = .next ((fails code).spiSend c.2 (sent (natBe 2 code))))) ∧
      (∀ k < 4, addr.toNat = 4 * k → count = 1 → ∀ c ∈ reads, exec c.1 s = .next (good.spiSend c.2
        (sent (withCrc (natBe 2 S_OK ++ wordBytes (s.identity.getD k 0)))))) ∧
      (∀ idx v, Takes s .spi idx v → idx < 0x1000000 → addr.toNat = 0x1000000 + 4 * idx → count = 1 → data = wordBytes v → crcOk →
        ∀ c ∈ writes, ∃ t, exec c.1 s = .next t ∧ t.regs = (Written s .spi idx v).regs ∧ t.hi.response = sent (natBe 2 S_OK) ∧
          t.hi.pins = spiPins c.2 (sent (natBe 2 S_OK)) ∧ t.hi.spiStatus = S_OK) ∧
      (addr.toNat % 4 = 0 → 2 ^ 31 ≤ addr.toNat → addr.toNat < 2 ^ 31 + 2 ^ 30 → count ≠ 0 → count.toNat ≤ 64 →
        s.boot.granaryOk = true → s.flag GR_CTRL_in_sr = false → a + n ≤ s.capacity →
        (∀ l, a ≤ 64 * l + 63 → 64 * l < a + n → s.isPoisoned l = false) →
        (∀ c ∈ reads, exec c.1 s = .next (good.spiSend c.2 (sent (withCrc (natBe 2 S_OK ++ s.bytes a n))))) ∧
        (crcOk → data.length = n → ∀ c ∈ writes, ∃ t, exec c.1 s = .next t ∧ Stored a data s t ∧
          t = { good.spiSend c.2 (sent (natBe 2 S_OK)) with mem := t.mem, patrol := t.patrol })) ∧
      exec .readStatus s = .next ({ s with hi := { s.hi with spiSeen := true } }.spiSend false
        (natBe 2 s.hi.spiStatus ++ [if s.boot.phase = FALLOW then 1 else 0])) ∧
      exec .readId s = .next ({ s with hi := { s.hi with spiSeen := true } }.spiSend false
        [0x94, 0x40, 0xB1, if s.boot.phase = FALLOW then 2 else if s.boot.phase = RUNNING then 1 else 0]) ∧
      (op.toNat ∉ [0x0B, 0xEB, 0x02, 0x38, 0x05, 0x9F] → exec (.spiUnknownOpcode op) s = .next ((fails E_BAD_ARG).spiSend false []))))

/-- Mailboxes (R301 to R305): a doorbell queues its request behind at most three others, and with four of them is refused with S_BUSY;
the end of the head's work writes its results, its status and MB_DONE; an acknowledgement lets the next command become head; a read of
MB_STATUS clears new_partial; and an abort ends an abortable command that runs with E_STATE. -/
def Obligations.MailboxesServeTheirHeads : Prop := ∀ (s : State) (i : Iface) (m : Fin 8) (v : Word) (c d : MbCmd) (l : List MbCmd),
  let b := s.mbox m
  let w := fun k : Nat => tabGet (fun _ => (0 : Word)) b.request k
  (s.hostUp i = true →
    (v.getLsbD 0 = false → exec (.mailboxDoorbell i m v) s = .next s) ∧
    (v.getLsbD 0 = true → 4 ≤ b.cmds.length → ∃ t, exec (.mailboxDoorbell i m v) s = .next t ∧
      t.mbox m = { b with lastSubmit := S_BUSY, busy := min 65535 (b.busy + 1) } ∧ Raised MB_BUSY m 0 s t ∧ OnlyEvents [MB_BUSY] s t ∧
      t = { s with mb := t.mb, ev := t.ev, out := t.out, pcie := t.pcie }) ∧
    (v.getLsbD 0 = true → b.cmds.length < 4 → ∃ t q, exec (.mailboxDoorbell i m v) s = .next t ∧
      (t.mbox m).cmds = b.cmds ++ [q] ∧ (t.mbox m).lastSubmit = S_QUEUED ∧ q.code = getBits (w 0) 0 16 ∧ q.nArgs = getBits (w 0) 16 8 ∧
      q.tag = getBits (w 1) 16 16 ∧ q.spi = (i == .spi) ∧ q.args = (List.range (min q.nArgs 62)).map (fun k => w (2 + k)) ∧
      (b.cmds ≠ [] ∨ s.serving = false → q.state = MB_QUEUED) ∧
      (b.cmds = [] → s.serving = true → q.resources = [] → q.state = MB_RUNNING) ∧ t = { s with mb := t.mb, serial := t.serial }) ∧
    (s.cmdHead m = some c → c.state ≠ MB_DONE_ST → c.state ≠ MB_FAILED → v.getLsbD 1 = false →
      exec (.mailboxAck i m v) s = .next s) ∧
    (b.cmds = [c] → (c.state = MB_DONE_ST ∨ c.state = MB_FAILED) → ∃ t, exec (.mailboxAck i m v) s = .next t ∧
      t.mbox m = { b with cmds := [], reply := [] } ∧ t = { s with mb := t.mb, serial := t.serial }) ∧
    (b.cmds = c :: d :: l → (c.state = MB_DONE_ST ∨ c.state = MB_FAILED) → ∃ t q, exec (.mailboxAck i m v) s = .next t ∧
      (t.mbox m).cmds = q :: l ∧ q.code = d.code ∧ q.tag = d.tag ∧ q.args = d.args ∧ (t.mbox m).reply = [] ∧
      t = { s with mb := t.mb, serial := t.serial }) ∧
    (s.cmdHead m = some c → (c.state = MB_DONE_ST ∨ c.state = MB_FAILED) → v.getLsbD 0 = false →
      exec (.mailboxAbort i m v) s = .next s) ∧
    (b.cmds = c :: l → c.state = MB_RUNNING → c.abortable = false → exec (.mailboxAbort i m v) s = .next s) ∧
    (b.cmds = c :: l → c.state = MB_RUNNING → c.abortable = true → c.code ∉ [0x0201, 0x0401, 0x0601, 0x0701, 0x0901] → c.outcome = none →
      c.orphan = false → ∃ t q, exec (.mailboxAbort i m v) s = .next t ∧ (t.mbox m).cmds = q :: l ∧ q.state = MB_FAILED ∧
      q.result = E_STATE ∧ (t.mbox m).completed = (b.completed + 1) % 65536 ∧
      (c.code = 0x0501 ∨ c.code = 0x0502 → t.mbWord m 66 = BitVec.ofNat 32 c.done) ∧
      Raised (MB_DONE m) c.tag E_STATE s t ∧ OnlyEvents [MB_DONE m] s t ∧
      t = { s with mb := t.mb, ev := t.ev, out := t.out, pcie := t.pcie }) ∧
    (b.cmds = [] → ∃ t, exec (.mbStatusRead i m) s = .next t ∧ t.hi.response = [0, 0, 0, 0] ∧ t.mbox m = b ∧
      t = { s with mb := t.mb, hi := t.hi }) ∧
    (b.cmds = c :: l → ∃ t, exec (.mbStatusRead i m) s = .next t ∧ t.hi.response = wordBytes (BitVec.ofNat 32
        (c.state + c.progress * 2 ^ 4 + c.partials * 2 ^ 14 + c.newPartial.toNat * 2 ^ 31)) ∧
      t.mbox m = { b with cmds := { c with newPartial := false } :: l } ∧ t = { s with mb := t.mb, hi := t.hi })) ∧
  (s.serving = false → exec (.mailboxCommandComplete m) s = .next s) ∧
  (s.serving = true → s.fw.applying = none → s.dbIdle = true →
    (b.cmds = [] → exec (.mailboxCommandComplete m) s = .next s) ∧
    (b.cmds = c :: l → (c.state ≠ MB_RUNNING ∨ c.outcome = none ∧ c.refusal (s.boot.phase == FALLOW) = 0) →
      exec (.mailboxCommandComplete m) s = .next s) ∧
    (∀ code results, b.cmds = c :: l → c.state = MB_RUNNING → c.orphan = false →
      (c.outcome = some (code, results) ∨ c.outcome = none ∧ results = [] ∧ (c.needs ≠ some c.nArgs ∧ code = E_BAD_ARG ∨
        c.needs = some c.nArgs ∧ s.boot.phase = FALLOW ∧ (cmdRow c.code).any (·.fallow) = false ∧ code = E_FALLOW)) → ∃ t q,
      exec (.mailboxCommandComplete m) s = .next t ∧ (t.mbox m).cmds = q :: l ∧
      q.state = (if code = S_OK ∨ code = S_PARTIAL then MB_DONE_ST else MB_FAILED) ∧ q.result = code ∧
      (t.mbox m).completed = (b.completed + 1) % 65536 ∧ t.mbWord m 65 = BitVec.ofNat 32 results.length ∧
      (∀ k < results.length, t.mbWord m (66 + k) = results.getD k 0) ∧ Raised (MB_DONE m) c.tag code s t ∧
      OnlyEvents [MB_DONE m] s t ∧ t = { s with mb := t.mb, ev := t.ev, out := t.out, pcie := t.pcie }))

/-- Commands that read (R306, R344, R378, R390, R426 and the catalogue): on a running head each ends at once with the values of the state
it reads and changes nothing else; an argument out of range ends with E_RANGE. -/
def Obligations.ReadingCommandsAnswer : Prop := ∀ (s : State) (m : Fin 8) (c : MbCmd),
  let log := (s.chan (c.arg 0)).log
  let x := s.task (c.arg 0)
  (Runs s m 0x0101 c → exec (.devPing m) s = .next (s.setOutcome m S_OK [BitVec.ofNat 32 s.tick, BitVec.ofNat 32 (s.tick / 2 ^ 32)])) ∧
  (Runs s m 0x0102 c → exec (.devInfo m) s = .next (s.setOutcome m S_OK (s.devStatus :: s.infoWords))) ∧
  (Runs s m 0x0505 c →
    (8 ≤ c.arg 0 → exec (.memErrlog m) s = .next (s.setOutcome m E_RANGE [])) ∧
    (c.arg 0 < 8 → exec (.memErrlog m) s = .next (s.setOutcome m S_OK (BitVec.ofNat 32 log.length :: log.flatMap (fun e =>
      [BitVec.ofNat 32 e.1, BitVec.ofNat 32 (e.1 / 2 ^ 32 + e.2.1 * 2 ^ 8 + e.2.2.1 * 2 ^ 11 + e.2.2.2.1 * 2 ^ 14),
       BitVec.ofNat 32 e.2.2.2.2]))))) ∧
  (Runs s m 0x0902 c →
    (c.arg 0 = 0 ∨ 7 < c.arg 0 → exec (.glResults m) s = .next (s.setOutcome m E_RANGE [])) ∧
    (1 ≤ c.arg 0 → c.arg 0 ≤ 7 → exec (.glResults m) s = .next (s.setOutcome m S_OK
      [BitVec.ofNat 32 x.allPasses, BitVec.ofNat 32 x.allFails, BitVec.ofNat 32 x.lastMs, BitVec.ofNat 32 x.lastFailTick]))) ∧
  (Runs s m 0x0801 c →
    (s.boot.cellarOk = true → (s.record 0x100).map (·.payload.take s.identity.length) = some s.identity →
      exec (.idRead m) s = .next (s.setOutcome m S_OK s.identity)) ∧
    ((s.boot.cellarOk = false ∨ (s.record 0x100).map (·.payload.take s.identity.length) ≠ some s.identity) →
      exec (.idRead m) s = .next (s.setOutcome m E_STATE []))) ∧
  (Runs s m 0x0602 c →
    (s.calHas (c.arg 0) (c.arg 1) = false → exec (.calRead m) s = .next (s.setOutcome m E_RANGE [])) ∧
    (s.calHas (c.arg 0) (c.arg 1) = true → s.boot.cellarOk = false → exec (.calRead m) s = .next (s.setOutcome m E_STATE [])) ∧
    (s.calHas (c.arg 0) (c.arg 1) = true → s.boot.cellarOk = true → c.arg 0 ≠ 7 →
      (s.record (calRecord (c.arg 0) + c.arg 1) = none →
        exec (.calRead m) s = .next (s.setOutcome m S_OK (intWords (calDefaults (c.arg 0) (c.arg 1))))) ∧
      (∀ r, s.record (calRecord (c.arg 0) + c.arg 1) = some r → exec (.calRead m) s = .next
        (s.setOutcome m S_OK (intWords (calPayload (c.arg 0) (c.arg 1) r.payload))))))

/-- Commands that act on a unit (R169, R188, R200, R229, R278, R280, R306, R310, R345, R354): each is refused with the code of the
first condition it does not meet, and else acts on its unit and ends, or waits for what it has begun; DEV.FENCE, DEV.STATE_WRITE and
LIGHT.FADE build a sheaf (log 34 for fades, log 49 for the results of the light commands). -/
def Obligations.CommandsActOnTheirUnits : Prop := ∀ (s : State) (m : Fin 8) (c : MbCmd),
  let banks := maskBits (c.arg 0) 8
  let strs := (maskStrings (c.arg 0) (c.arg 1)).filter s.strFaulted
  let zones := ((List.range (c.arg 1)).map (· + c.arg 0)).filter (fun n => s.zoneFaulted n && (s.zoneMatrix n).isSome)
  let h := c.arg 0
  (Runs s m 0x0103 c →
    (c.arg 0 ≠ 0x9440 → exec (.devReset m) s = .next (s.setOutcome m E_BAD_ARG [])) ∧
    (c.arg 0 = 0x9440 → s.boot.phase ≠ FALLOW → exec (.devReset m) s =
      .next ({ s with boot := { s.boot with resetPending := true } }.setOutcome m S_OK [])) ∧
    (c.arg 0 = 0x9440 → s.boot.phase = FALLOW → ∃ t, exec (.devReset m) s = .next t ∧ t.boot.resetPending = true ∧
      t.boot.shadow = 0 ∧ t.boot.forceFallow = false ∧ Ends m S_OK [] c t)) ∧
  (s.sheaf 14 = Sheaf.reset →
    (Runs s m 0x0104 c → s.entriesHeld [14, 15] ≤ 256 → ∃ t, exec (.devFence m) s = .next t ∧ Builds m c.kind c.target c.band [] c s t) ∧
    (Runs s m 0x0105 c → s.entriesHeld [14, 15] + c.arg 0 ≤ 256 → ∃ t, exec (.devStateWrite m) s = .next t ∧
      Builds m c.kind c.target c.band c.entries c s t) ∧
    (∀ b g, Runs s m 0x0301 c → 1 ≤ c.arg 1 → c.arg 1 ≤ 4 → banks = [b] → s.bankGroup b = g → g < 4 →
      s.entriesHeld [14, 15] + 1 ≤ 256 → ∃ t, exec (.lightFade m) s = .next t ∧
      Builds m 3 g 0 [{ index := LS_BANK9 b, mask := 7, value := BitVec.ofNat 32 (c.arg 1) }] c s t)) ∧
  ((s.sheaf 14).state ≠ SH_FREE → (s.sheaf 15).state ≠ SH_FREE →
    (Runs s m 0x0104 c → exec (.devFence m) s = .next (s.setOutcome m E_CAPACITY [])) ∧
    (Runs s m 0x0105 c → exec (.devStateWrite m) s = .next (s.setOutcome m E_CAPACITY []))) ∧
  (Runs s m 0x0301 c → (c.arg 1 < 1 ∨ 4 < c.arg 1) → exec (.lightFade m) s = .next (s.setOutcome m E_BAD_ARG [])) ∧
  (Runs s m 0x0201 c →
    let h := c.arg 0 % 4
    (s.nHeads ≤ h → exec (.headCmd m) s = .next (s.setOutcome m E_RANGE [])) ∧
    (h < s.nHeads → (s.headState h = DISABLED ∨ s.headState h = FAILED) → exec (.headCmd m) s = .next (s.setOutcome m E_STATE [])) ∧
    (h < s.nHeads → s.headState h ≠ DISABLED → s.headState h ≠ FAILED → bits (c.arg 1) 0 16 ≠ 2 → bits (c.arg 1) 0 16 ≠ 6 →
      ∃ t, exec (.headCmd m) s = .next t ∧ t.cmdHead m = some { c with begun := true } ∧
      (s.portUp (h + 2) = false → t.out = s.out ∧ t.ports = s.ports) ∧
      (s.portUp (h + 2) = true → let tag := (s.port (h + 2)).ctag + 1;
        t.out = .cmd h (bits (c.arg 1) 0 16) tag.toNat (bits (c.arg 1) 16 16) ((c.args.drop 3).take (4 * c.arg 2)) :: s.out ∧
        (t.port (h + 2)).awaited = (s.port (h + 2)).awaited ++ [(tag.toNat, forMailbox m, bits (c.arg 1) 0 16, bits (c.arg 1) 16 16)] ∧
        (t.port (h + 2)).seqOut = (s.port (h + 2)).seqOut + 1) ∧
      t = { s with ports := t.ports, out := t.out, wire := t.wire, mb := t.mb })) ∧
  (Runs s m 0x0302 c →
    (strs = [] → exec (.lightClearFault m) s = .next (s.setOutcome m S_OK [0, 0])) ∧
    (strs ≠ [] → ∃ t, exec (.lightClearFault m) s = .next t ∧ (∀ n ∈ strs, (t.str n).clearing = true) ∧
      (∀ n, n ∉ strs → t.str n = s.str n) ∧ (∃ q, t.cmdHead m = some q ∧ q.begun = true ∧ q.outcome = none ∧
        q.arg 0 + q.arg 1 * 2 ^ 32 = (strs.map (2 ^ ·)).sum) ∧ t = { s with strings := t.strings, mb := t.mb })) ∧
  (Runs s m 0x0303 c →
    ((∃ b ∈ banks, s.tripped b = true ∧ (s.members b).any s.strFaulted = true) →
      exec (.lightRearm m) s = .next (s.setOutcome m E_STATE [])) ∧
    ((∀ b ∈ banks, s.tripped b = true → (s.members b).any s.strFaulted = false) → ∃ t, exec (.lightRearm m) s = .next t ∧
      (∀ b ∈ banks, t.fld (LS_BANK12_tripped b) = 0) ∧ OnlyWords (banks.map LS_BANK12) s t ∧
      Ends m S_OK [BitVec.ofNat 32 (((banks.filter s.tripped).map (2 ^ ·)).sum)] c t ∧ t = { s with regs := t.regs, mb := t.mb })) ∧
  (Runs s m 0x0304 c →
    (40960 < c.arg 0 + c.arg 1 → exec (.znClearFault m) s = .next (s.setOutcome m E_RANGE [])) ∧
    (c.arg 0 + c.arg 1 ≤ 40960 → zones = [] → exec (.znClearFault m) s = .next (s.setOutcome m S_OK [0])) ∧
    (c.arg 0 + c.arg 1 ≤ 40960 → zones ≠ [] → ∃ t, exec (.znClearFault m) s = .next t ∧ t.zoneClear = zones ++ s.zoneClear ∧
      (∃ q, t.cmdHead m = some q ∧ q.begun = true ∧ q.outcome = none ∧ q.args.drop 2 = [BitVec.ofNat 32 zones.length]) ∧
      t = { s with zoneClear := t.zoneClear, mb := t.mb })) ∧
  (Runs s m 0x0401 c →
    (8 ≤ h → exec (.ceMove m) s = .next (s.setOutcome m E_RANGE [])) ∧
    (h < 8 → (s.genOn h = false ∨ s.flag (CE_PG6_owned h) = true) → exec (.ceMove m) s = .next (s.setOutcome m E_STATE [])) ∧
    (h < 8 → s.genOn h = true → s.flag (CE_PG6_owned h) = false → ∃ t, exec (.ceMove m) s = .next t ∧
      t.word (CE_PG1 h) = BitVec.ofNat 32 (c.arg 1) ∧ t.fld (CE_PG6_done h) = 0 ∧ t.fld (CE_PG6_moving h) = 1 ∧
      t.fld (CE_PG6_settled h) = 0 ∧ t.cmdHead m = some { c with begun := true } ∧
      OnlyWords [CE_PG1 h, CE_PG6 h, CE_PG7 h, CE_PG8 h] s t ∧ t = { s with regs := t.regs, gens := t.gens, mb := t.mb })) ∧
  (Runs s m 0x0903 c →
    (isSource (c.arg 0) = false → exec (.testEvent m) s = .next (s.setOutcome m E_RANGE [])) ∧
    (isSource (c.arg 0) = true → ∃ t, exec (.testEvent m) s = .next t ∧ t.latched (c.arg 0) = true ∧
      t.evData (c.arg 0) = (if s.latched (c.arg 0) then 0xFFFFFFFF else 0x7FFFFFFF) ∧ OnlyEvents [c.arg 0] s t ∧ Ends m S_OK [] c t ∧
      t = { s with ev := t.ev, out := t.out, pcie := t.pcie, mb := t.mb }))

/-- Loads of slot lists, code tables and resampling tables (R104, R119, R136, R147): an image that can be read and is good fills the bank
that is not in use, entry by entry; an address that is not on 4 KiB, an image past the capacity and a poisoned one are refused. -/
def Obligations.LoadsFillTheBankNotInUse : Prop := ∀ (s : State) (m : Fin 8) (c : MbCmd) (a : Nat),
  let h := c.arg 0
  let n := c.arg 3
  s.flag GR_CTRL_in_sr = false →
  (∀ e ∈ [(Instr.seqLoad m, 0x0202, 32768), (.tsLoadTable m, 0x0203, 262144)], Runs s m e.2.1 c →
    (s.nHeads ≤ h → exec e.1 s = .next (s.setOutcome m E_RANGE [])) ∧
    (h < s.nHeads → (c.addr 1 = none ∨ c.addr 1 = some a ∧ a % 4096 ≠ 0) → exec e.1 s = .next (s.setOutcome m E_BAD_ARG [])) ∧
    (h < s.nHeads → c.addr 1 = some a → a % 4096 = 0 → a + e.2.2 ≤ s.capacity → s.rangePoisoned a e.2.2 = true →
      exec e.1 s = .next (s.setOutcome m E_POISON [])) ∧
    (h < s.nHeads → c.addr 1 = some a → a % 4096 = 0 → s.capacity < a + e.2.2 → ∃ t, exec e.1 s = .next t ∧
      Counted (GR_REQ2_drops 35) 1 s t ∧ OnlyWords [GR_REQ2 35] s t ∧ OnlyEvents [GR_RANGE] s t ∧ Ends m E_RANGE [] c t)) ∧
  (Runs s m 0x0202 c → h < s.nHeads → c.addr 1 = some a → a % 4096 = 0 → a + 32768 ≤ s.capacity → s.rangePoisoned a 32768 = false →
    let slot := fun i : Nat => leNat (s.bytes (a + 8 * i) 8)
    let bank := 1 - s.fld (SQ_CTRL_seq_bank h)
    (∀ code i, seqCheck slot 4096 0 slotCtx0 = (code, i) → code ≠ 0 →
      exec (.seqLoad m) s = .next (s.setOutcome m code [0, BitVec.ofNat 32 i])) ∧
    (∀ i, seqCheck slot 4096 0 slotCtx0 = (0, i) → (s.headOf h).swapPending = false → ∃ t, exec (.seqLoad m) s = .next t ∧
      (∀ i < 4096, t.word (slotKey h bank i) = BitVec.ofNat 32 (slot i) ∧
        t.word (slotKey h bank i + 1) = BitVec.ofNat 32 (slot i / 2 ^ 32 % 512)) ∧
      (∀ k, k < slotKey h bank 0 ∨ slotKey h bank 0 + 8192 ≤ k → t.word k = s.word k) ∧
      Ends m S_OK [BitVec.ofNat 32 (t.listLen h bank)] c t ∧ t = { s with regs := t.regs, mb := t.mb })) ∧
  (Runs s m 0x0203 c → h < s.nHeads → c.addr 1 = some a → a % 4096 = 0 → a + 262144 ≤ s.capacity → s.rangePoisoned a 262144 = false →
    let bank := 1 - s.fld (TS_CTRL_table_bank h)
    ((∃ i < 65536, 2 ^ 24 ≤ s.memWord (a + 4 * i)) → exec (.tsLoadTable m) s = .next (s.setOutcome m E_BAD_ARG [])) ∧
    ((∀ i < 65536, s.memWord (a + 4 * i) < 2 ^ 24) → s.sheafOn (TS_CTRL_table_bank h) = false → ∃ t,
      exec (.tsLoadTable m) s = .next t ∧
      (∀ i < 65536, tabGet codeReset t.planeCode (codeKey h bank i) = BitVec.ofNat 32 (s.memWord (a + 4 * i))) ∧
      (∀ k, k < codeKey h bank 0 ∨ codeKey h bank 0 + 65536 ≤ k → tabGet codeReset t.planeCode k = tabGet codeReset s.planeCode k) ∧
      Ends m S_OK [BitVec.ofNat 32 (s.descending h (fun i => s.memWord (a + 4 * i)))] c t ∧
      t = { s with planeCode := t.planeCode, mb := t.mb })) ∧
  (Runs s m 0x0204 c → h < s.nHeads →
    (n = 0 → exec (.lmLoadTable m) s = .next (s.setOutcome m E_ZERO [])) ∧
    (8192 < n → exec (.lmLoadTable m) s = .next (s.setOutcome m E_RANGE [])) ∧
    (1 ≤ n → n ≤ 8192 → c.addr 1 = some a → a % 4096 = 0 → a + 8 * n ≤ s.capacity → s.rangePoisoned a (8 * n) = false →
      let entry := fun i : Nat => leNat (s.bytes (a + 8 * i) 8)
      let bank := 1 - s.fld (LM_CTRL_table_bank h)
      (∀ i, tableFail entry n = some i → exec (.lmLoadTable m) s = .next (s.setOutcome m E_BAD_ARG [0, BitVec.ofNat 32 i])) ∧
      (tableFail entry n = none → s.sheafOn (LM_CTRL_table_bank h) = false → (s.line h).timingSwap = false →
        (s.line h).skipFrame = false → ∃ t, exec (.lmLoadTable m) s = .next t ∧ t.tableCount h bank = n ∧
        (∀ i < n, tabGet (fun _ => 0) t.resample (resampleKey h bank i) = BitVec.ofNat 64 (entry i)) ∧
        Ends m S_OK [BitVec.ofNat 32 n] c t ∧ t = { s with resample := t.resample, resampleLen := t.resampleLen, mb := t.mb })))

/-- Commands on the Granary (R235, R242, R245, R258, R259, R262): DMA, fills and capture reads write their bytes, step by step, and nothing else; a DMA
toward the host ends ahead of the first poisoned line; MEM.SPARE starts a migration or clears a record; and self-refresh is entered when
nothing uses the memory, with every queued request completed. -/
def Obligations.MemoryCommandsMoveBytes : Prop := ∀ (s : State) (m : Fin 8) (c : MbCmd) (a k : Nat) (host : List Byte) (ok : Bool),
  let n := c.arg 5
  let f := c.arg 2
  let d := c.done
  let clean := fun len : Nat => ∀ l, a ≤ 64 * l + 63 → 64 * l < a + len → s.isPoisoned l = false
  let writes := fun (i : Instr) (at0 : Nat) (l : List Byte) (code : Nat) (r : List Word) => ∃ t, exec i s = .next t ∧ Stored at0 l s t ∧
    Ends m code r c t ∧ t = { s with mem := t.mem, patrol := t.patrol, mb := t.mb }
  let part := fun (i : Instr) (at0 : Nat) (l : List Byte) (total : Nat) => ∃ t, exec i s = .next t ∧ Stored at0 l s t ∧
    t.cmdHead m = some { c with begun := true, done := d + l.length, progress := min 1000 ((d + l.length) * 1000 / total) } ∧
    t = { s with mem := t.mem, patrol := t.patrol, mb := t.mb }
  s.flag GR_CTRL_in_sr = false →
  (Works s m 0x0501 c →
    (c.spi = true → exec (.memDma m k host ok) s = .next (s.setOutcome m E_STATE [])) ∧
    (c.spi = false → n = 0 → exec (.memDma m k host ok) s = .next (s.setOutcome m S_OK [0, 0, 0])) ∧
    (c.spi = false → n ≠ 0 → c.addr 3 = none → exec (.memDma m k host ok) s = .next (s.setOutcome m E_BAD_ARG [])) ∧
    (c.spi = false → n ≠ 0 → c.addr 3 = some a → s.capacity < a + n → ∃ t, exec (.memDma m k host ok) s = .next t ∧ t.mem = s.mem ∧
      Counted (GR_REQ2_drops 30) 1 s t ∧ OnlyEvents [GR_RANGE] s t ∧ Ends m E_RANGE [] c t) ∧
    (c.spi = false → n ≠ 0 → c.addr 3 = some a → a + n ≤ s.capacity → bitOf (c.arg 0) 0 = false → clean n → d < n →
      (n ≤ d + k →
        (ok = true → writes (.memDma m k host ok) (a + d) ((List.range (n - d)).map (fun i => host.getD i 0)) S_OK
          [BitVec.ofNat 32 n, 0, 0]) ∧
        (ok = false → host.length < n - d →
          writes (.memDma m k host ok) (a + d) host E_TIMEOUT [BitVec.ofNat 32 (d + host.length), 0, 0])) ∧
      (d + k < n → a + d + k = (a + d + k) / 64 * 64 → ok = true →
        part (.memDma m k host ok) (a + d) ((List.range k).map (fun i => host.getD i 0)) n)) ∧
    (c.spi = false → n ≠ 0 → c.addr 3 = some a → a + n ≤ s.capacity → bitOf (c.arg 0) 0 = true → d < n → n ≤ d + k →
      (clean n → exec (.memDma m k host ok) s = .next ({ s with
        out := .hostData (c.arg 1 + c.arg 2 * 2 ^ 32 + d) (s.bytes (a + d) (n - d)) :: s.out
        }.setOutcome m S_OK [BitVec.ofNat 32 n, 0, 0])) ∧
      (∀ p, s.firstPoison (a + d) (n - d) = some p → ∃ t, exec (.memDma m k host ok) s = .next t ∧
        .hostData (c.arg 1 + c.arg 2 * 2 ^ 32 + d) (s.bytes (a + d) (p - (a + d))) ∈ t.out ∧ t.mem = s.mem ∧
        Counted (GR_REQ2_poison_lines 30) 1 s t ∧
        Ends m E_POISON [BitVec.ofNat 32 (d + (p - (a + d))), BitVec.ofNat 32 p, BitVec.ofNat 32 (p / 2 ^ 32)] c t))) ∧
  (Works s m 0x0502 c →
    let pattern := fun len : Nat => (List.range len).map (fun i => BitVec.ofNat 8 (c.arg 3 / 2 ^ (8 * ((a + d + i) % 4))))
    (f = 0 → exec (.memFill m k) s = .next (s.setOutcome m S_OK [0])) ∧
    (f ≠ 0 → c.addr 0 = some a → a + f ≤ s.capacity → clean f → d < f →
      (f ≤ d + k → writes (.memFill m k) (a + d) (pattern (f - d)) S_OK [BitVec.ofNat 32 f]) ∧
      (d + k < f → a + d + k = (a + d + k) / 64 * 64 → part (.memFill m k) (a + d) (pattern k) f))) ∧
  (Runs s m 0x0402 c →
    (c.arg 0 % 64 ≠ 0 → exec (.ceCaptureRead m) s = .next (s.setOutcome m E_BAD_ARG [])) ∧
    (c.arg 0 % 64 = 0 → c.addr 0 = some a → a + s.captureBytes.length ≤ s.capacity → clean s.captureBytes.length →
      writes (.ceCaptureRead m) a s.captureBytes (if s.cap.triggered then S_OK else S_PARTIAL)
        [BitVec.ofNat 32 s.cap.buf.length, BitVec.ofNat 32 (s.fld CE_CAP1_pre)])) ∧
  (Runs s m 0x0503 c →
    let ch := c.arg 0
    let k := c.arg 1
    ((ch ∉ s.channels ∨ s.dataRanks ch ≤ k) → exec (.memSpare m) s = .next (s.setOutcome m E_RANGE [])) ∧
    (ch ∈ s.channels → k < s.dataRanks ch → s.chState ch = CH_MIGRATING → c.arg 2 ≤ 1 →
      exec (.memSpare m) s = .next (s.setOutcome m E_STATE [])) ∧
    (ch ∈ s.channels → k < s.dataRanks ch → s.chState ch ≠ CH_MIGRATING → c.arg 2 = 0 →
      (s.spareFree ch = false → exec (.memSpare m) s = .next (s.setOutcome m E_CAPACITY [])) ∧
      (s.spareFree ch = true → s.badSlots = [] → ∃ t, exec (.memSpare m) s = .next t ∧ t.chState ch = CH_MIGRATING ∧ t.fld (GR_CHAN2_ptr ch) = 0 ∧
        t.fld (GR_CHAN2_mig_rank ch) = k % 2 ^ (GR_CHAN2_mig_rank ch).width ∧ t.fld (GR_CHAN3_progress_pm ch) = 0 ∧
        Raised GR_SPARE_START ch k s t ∧ OnlyEvents [GR_SPARE_START] s t ∧ t.mem = s.mem ∧ Ends m S_OK [] c t ∧
        OnlyWords [GR_CHAN1 ch, GR_CHAN2 ch, GR_CHAN3 ch, CL_STATUS, TH_GLOBAL5] s t)) ∧
    (ch ∈ s.channels → k < s.dataRanks ch → s.chState ch ≠ CH_MIGRATING → c.arg 2 = 1 →
      (s.rankRecorded ch k = false → exec (.memSpare m) s = .next (s.setOutcome m E_STATE [])) ∧
      (s.rankRecorded ch k = true → s.badSlots = [] → ∃ t, exec (.memSpare m) s = .next t ∧ t.newest (rankRecord ch) = [0, 0, 0] ∧
        Ends m S_OK [] c t ∧ OnlyWords [CL_STATUS, TH_GLOBAL5] s t ∧ t.mem = s.mem ∧ t.ev = s.ev))) ∧
  (Runs s m 0x0504 c →
    (s.memoryUsers = true → exec (.memSelfRefresh m) s = .next (s.setOutcome m E_STATE [])) ∧
    (s.memoryUsers = false → ∃ t, exec (.memSelfRefresh m) s = .next t ∧ t.flag GR_CTRL_in_sr = true ∧
      (∀ ch ∈ s.channels, t.chState ch = CH_SR ∧ .dram ch 0 5 0 ∈ t.out ∧ t.sub (2 * ch) = SubCh.reset ∧
        t.sub (2 * ch + 1) = SubCh.reset) ∧
      ((∀ k < 16, s.sub k = SubCh.reset) → t.mem = s.mem ∧ t.ev = s.ev) ∧ Ends m S_OK [] c t))

/-- Firmware (R359 to R363, R367 to R369, R358; log 42 for the phase between applies, log 12 for a sector that fails): staging verifies the
image in the staging region; a component that is pending, and the first pending one in update order, is switched, at once where nothing
runs it, or waits for its switch; the handover ends by acceptance or timeout; FW.CONFIRM puts the image into the boot flash, FW.ROLLBACK
runs the idle copy again; and the flash is erased and written by its own commands while the write window is open. -/
def Obligations.FirmwareIsStagedAndSwitched : Prop := ∀ (s : State) (m : Fin 8) (c : MbCmd) (k us : Nat) (ok : Bool),
  let n := c.arg 2
  let b := s.stageBase
  let l := s.bytes b n
  let pend := s.unstage.pendingComps (imgComps l s.nHeads) (imgDrvs l)
  let alone := k = 0 ∨ k = 1 ∨ 3 ≤ k ∧ k ≤ 6 ∧ s.headOn (k - 3) = false
  (Runs s m 0x0701 c → n = 0 → c.addr 0 ≠ none → exec (.fwStage m) s = .next (s.setOutcome m E_ZERO [])) ∧
  (Runs s m 0x0701 c → n ≠ 0 → n ≤ 2 ^ 24 → c.addr 0 = some b → b + n ≤ s.capacity → s.rangePoisoned b n = false →
    s.flag GR_CTRL_in_sr = false →
    (∀ f, imgBytes l = n → imgVerify l = some f → ∃ t, exec (.fwStage m) s = .next t ∧ t.fld FW_STATE_pending = 0 ∧
      t.fw.stagedBytes = 0 ∧ Ends m f.code [] c t ∧ OnlyWords [FW_STATE, FW_VERSION] s t) ∧
    (imgBytes l = n → imgVerify l = none → s.unstage.stepsFit (imgExcluded l) (imgComps l s.nHeads) (imgDrvs l) pend = false → ∃ t,
      exec (.fwStage m) s = .next t ∧ t.fld FW_STATE_pending = 0 ∧ Ends m E_COMPAT [] c t ∧ OnlyWords [FW_STATE, FW_VERSION] s t) ∧
    (imgBytes l = n → imgVerify l = none → s.unstage.stepsFit (imgExcluded l) (imgComps l s.nHeads) (imgDrvs l) pend = true → ∃ t r,
      exec (.fwStage m) s = .next t ∧ t.fld FW_STATE_pending = (pend.map (2 ^ ·)).sum ∧
      t.fld FW_VERSION_staged_version = imgVersion l % 2 ^ FW_VERSION_staged_version.width ∧ t.fld FW_STATE_phase = PH_STAGED ∧
      t.fw.staged = imgComps l s.nHeads ∧ t.fw.stagedDrv = imgDrvs l ∧ t.fw.stagedBytes = n ∧
      Ends m S_OK (BitVec.ofNat 32 ((pend.map (2 ^ ·)).sum) :: r) c t ∧ r.length = 5 ∧ OnlyWords [FW_STATE, FW_VERSION] s t ∧
      t.fw.run = s.fw.run ∧ t.mem = s.mem)) ∧
  (Runs s m 0x0702 c → s.flag GR_CTRL_in_sr = false →
    (4 < c.arg 0 → exec (.fwApply m) s = .next (s.setOutcome m E_BAD_ARG [])) ∧
    (c.arg 0 ≤ 4 → s.applyComp c = some k → s.flag (pendingBit k) = false → exec (.fwApply m) s = .next (s.setOutcome m E_STATE [])) ∧
    (c.arg 0 ≤ 4 → s.applyComp c = some k → s.flag (pendingBit k) = true → (∃ j ∈ updateOrder.take k, s.flag (pendingBit j) = true) →
      exec (.fwApply m) s = .next (s.setOutcome m E_COMPAT [])) ∧
    (c.arg 0 ≤ 4 → s.applyComp c = some k → s.flag (pendingBit k) = true → (∀ j ∈ updateOrder.take k, s.flag (pendingBit j) = false) →
      (alone → ∃ t, exec (.fwApply m) s = .next t ∧ State.comp t.fw.run k = s.stagedComp k ∧
        State.comp t.fw.idle k = State.comp s.fw.run k ∧ t.flag (pendingBit k) = false ∧ t.flag (appliedBit k) = true ∧
        Raised FW_ACCEPTED (compType k) 0 s t ∧ OnlyEvents [FW_ACCEPTED] s t ∧ OnlyWords [FW_STATE] s t ∧
        Ends m S_OK [] { c with begun := true } t ∧ t.mem = s.mem) ∧
      (3 ≤ k → k ≤ 6 → s.headOn (k - 3) = true → ∃ t, exec (.fwApply m) s = .next t ∧ t.fw.applying = some (m.val, k) ∧
        t.fw.run = s.fw.run ∧ t.fld FW_STATE_phase = PH_APPLYING ∧ OnlyWords [FW_STATE] s t ∧
        t.cmdHead m = some { c with begun := true } ∧ t.ev = s.ev) ∧
      (k = 7 → (s.stagedComp 7).digest = (State.comp s.fw.staged 7).digest → ∃ t, exec (.fwApply m) s = .next t ∧
        t.fw.handover = some m.val ∧ t.fw.run = s.fw.run ∧ OnlyWords [FW_STATE] s t ∧ t.ev = s.ev))) ∧
  (Works s m 0x0703 c → s.flag GR_CTRL_in_sr = false →
    let len := s.fw.stagedBytes
    let total := (len + 4095) / 4096
    let d := c.done
    let written := fun (k : Nat) (t : State) => ∀ a, t.flashByte a =
      if 4096 * d ≤ a ∧ a < 4096 * (d + k) then (if a < len then s.byte (b + a) else 0xFF) else s.flashByte a
    (c.begun = false → (s.pendingMask ≠ 0 ∨ s.appliedMask = 0) → exec (.fwConfirm m k ok) s = .next (s.setOutcome m E_STATE [])) ∧
    (c.begun = false → s.pendingMask = 0 → s.appliedMask ≠ 0 → s.nvOpen = false →
      exec (.fwConfirm m k ok) s = .next (s.setOutcome m E_TEMP_WINDOW [])) ∧
    (c.begun = true → s.nvOpen = false → exec (.fwConfirm m k ok) s = .next s) ∧
    ((c.begun = true ∨ s.pendingMask = 0 ∧ s.appliedMask ≠ 0) → s.nvOpen = true → d < total →
      (ok = true → d + k < total → ∃ t, exec (.fwConfirm m k ok) s = .next t ∧ written k t ∧ t.fld FW_STATE_phase = PH_CONFIRMING ∧
        t.cmdHead m = some { c with begun := true, done := d + k, progress := min 1000 ((d + k) * 1000 / total) } ∧
        OnlyWords [FW_STATE] s t ∧ t = { s with regs := t.regs, flash := t.flash, mb := t.mb }) ∧
      (ok = true → total ≤ d + k → ∃ t, exec (.fwConfirm m k ok) s = .next t ∧ written (total - d) t ∧
        t.fld FW_STATE_applied = 0 ∧ t.fld FW_STATE_phase = PH_IDLE ∧ t.fw.attic = none ∧ Ends m S_OK [] c t ∧ t.mem = s.mem ∧
        OnlyWords [FW_STATE, CL_STATUS] s t) ∧
      (ok = false → k = 1 → ∃ t, exec (.fwConfirm m k ok) s = .next t ∧
        (∀ a, a < 4096 * d ∨ 4096 * (d + 1) ≤ a → t.flashByte a = s.flashByte a) ∧
        Ends m E_STATE [] c t ∧ OnlyWords [FW_STATE] s t ∧
        t = { s with flash := t.flash, free := t.free, regs := t.regs, mb := t.mb }))) ∧
  (Runs s m 0x0704 c →
    (s.appliedMask = 0 → exec (.fwRollback m) s = .next (s.setOutcome m E_STATE [])) ∧
    ((∀ j < 8, s.flag (appliedBit j) = true ↔ j = k) → alone → s.fw.attic = none → ∃ t, exec (.fwRollback m) s = .next t ∧
      State.comp t.fw.run k = State.comp s.fw.idle k ∧ State.comp t.fw.idle k = State.comp s.fw.run k ∧
      t.fld FW_STATE_applied = 0 ∧ t.fld FW_STATE_phase = PH_IDLE ∧ Raised FW_ROLLBACK 0xFF 0 s t ∧ OnlyEvents [FW_ROLLBACK] s t ∧
      OnlyWords [FW_STATE] s t ∧ Ends m S_OK [] { c with begun := true } t ∧ t.mem = s.mem)) ∧
  (Runs s m 0x0705 c →
    ((c.arg 0 % 4096 ≠ 0 ∨ c.arg 1 % 4096 ≠ 0) → exec (.fwFlashErase m) s = .next (s.setOutcome m E_BAD_ARG [])) ∧
    (c.arg 0 % 4096 = 0 → c.arg 1 % 4096 = 0 → (s.nvOpen = false → c.arg 1 ≠ 0 →
      exec (.fwFlashErase m) s = .next (s.setOutcome m E_TEMP_WINDOW [])) ∧
      (s.nvOpen = true → ∃ t, exec (.fwFlashErase m) s = .next t ∧ Ends m S_OK [] c t ∧ t = { s with flash := t.flash, mb := t.mb } ∧
        ∀ a, t.flashByte a = if c.arg 0 ≤ a ∧ a < c.arg 0 + c.arg 1 then 0xFF else s.flashByte a))) ∧
  (Runs s m 0x0706 c →
    let w := ((c.args.drop 2).flatMap wordBytes).take (c.arg 1)
    (s.nvOpen = false → c.arg 1 ≠ 0 → exec (.fwFlashWrite m) s = .next (s.setOutcome m E_TEMP_WINDOW [])) ∧
    (s.nvOpen = true → ∃ t, exec (.fwFlashWrite m) s = .next t ∧ Ends m S_OK [] c t ∧ t = { s with flash := t.flash, mb := t.mb } ∧
      ∀ a, t.flashByte a = if c.arg 0 ≤ a ∧ a < c.arg 0 + w.length then w.getD (a - c.arg 0) 0 else s.flashByte a)) ∧
  (s.fw.handover = none → exec (.sfAcceptance us) s = .next s ∧ exec .handoverTimeout s = .next s) ∧
  (s.fw.handover = some m.val → s.cmdHead m = some c → c.state = MB_RUNNING →
    (s.fw.rolling = [] → (s.stagedComp 7).level = s.fw.settingsLevel → ∃ t, exec (.sfAcceptance us) s = .next t ∧
      State.comp t.fw.run 7 = s.stagedComp 7 ∧ State.comp t.fw.idle 7 = State.comp s.fw.run 7 ∧ t.fw.handover = none ∧
      t.fld FW_ACCEPT_accept_us = min 65535 us ∧ t.flag (appliedBit 7) = true ∧ Raised FW_ACCEPTED SF_TYPE 0 s t ∧
      OnlyEvents [FW_ACCEPTED] s t ∧ OnlyWords [FW_STATE, FW_ACCEPT] s t ∧ Ends m S_OK [] c t) ∧
    (∃ t, exec .handoverTimeout s = .next t ∧ t.fw.handover = none ∧ t.fw.run = s.fw.run ∧ Counted FW_ACCEPT_rollbacks 1 s t ∧
      Raised FW_ROLLBACK SF_TYPE 0 s t ∧ OnlyEvents [FW_ROLLBACK] s t ∧ OnlyWords [FW_STATE, FW_ACCEPT] s t ∧ Ends m E_COMPAT [] c t))

/-- Settings, identity and calibration (R334, R336, R371, R373, R375, R381, R384): SET.SAVE writes one set with the directory; SET.EXPORT
writes its file, and SET.IMPORT takes one or refuses it; reports and certificates go to the Granary unless a record keeps the key from
use; an instance reads as
being measured, and its input as STALE, from the start of its measurement (R335; log 153), and takes the mean of two measurements that
agree, or keeps what it has after three attempts. -/
def Obligations.SettingsReportsAndCalibration : Prop := ∀ (s : State) (m : Fin 8) (c : MbCmd) (a : Nat) (x : CalMeasure),
  let clean := fun len : Nat => s.flag GR_CTRL_in_sr = false ∧ a + len ≤ s.capacity ∧
    ∀ l, a ≤ 64 * l + 63 → 64 * l < a + len → s.isPoisoned l = false
  let writes := fun (i : Instr) (l : List Byte) (r : List Word) => ∃ t, exec i s = .next t ∧ Stored a l s t ∧
    Ends m S_OK r c t ∧ t = { s with mem := t.mem, patrol := t.patrol, fw := t.fw, mb := t.mb }
  let file := s.bytes a (c.arg 2)
  let certs := Config.certificates.1 ++ Config.certificates.2
  (Runs s m 0x0707 c →
    (s.nvOpen = false → exec (.setSave m) s = .next (s.setOutcome m E_TEMP_WINDOW [])) ∧
    (s.nvOpen = true → (s.fw.area = 0x1000 ∨ s.fw.area = 0x4000) → s.committed + 1 < 2 ^ 32 → s.badSlots = [] → ∃ t, exec (.setSave m) s = .next t ∧
      t.committed = s.committed + 1 ∧ (t.record SETTINGS_DIR).map (·.payload) = some s.directory.2 ∧
      Ends m S_OK [BitVec.ofNat 32 s.savedRecords.length] c t ∧ OnlyWords [CL_STATUS] s t ∧
      t = { s with cellar := t.cellar, regs := t.regs, mb := t.mb })) ∧
  (Runs s m 0x0708 c → c.addr 0 = some a → clean (settingsFile s.fw.settingsLevel s.settings).length →
    writes (.setExport m) (settingsFile s.fw.settingsLevel s.settings)
      [BitVec.ofNat 32 (settingsFile s.fw.settingsLevel s.settings).length]) ∧
  (Runs s m 0x0709 c → c.addr 0 = some a → clean (c.arg 2) → c.arg 3 = 0 →
    (readSettingsFile file = none → exec (.setImport m) s = .next (s.setOutcome m E_BAD_ARG [])) ∧
    (∀ level l, readSettingsFile file = some (level, l) →
      ((s.fw.settingsLevel + 1 < level ∨ level + 1 < s.fw.settingsLevel) →
        exec (.setImport m) s = .next (s.setOutcome m E_COMPAT [])) ∧
      (level ≤ s.fw.settingsLevel + 1 → s.fw.settingsLevel ≤ level + 1 → ∃ t, exec (.setImport m) s = .next t ∧
        t.regs = (s.importSettings l).1.regs ∧ t.cellar = (s.importSettings l).1.cellar ∧ t.pending = s.pending ∧
        t = (s.importSettings l).1.setOutcome m S_OK
          [BitVec.ofNat 32 (s.importSettings l).2.1, BitVec.ofNat 32 (s.importSettings l).2.2]))) ∧
  (Runs s m 0x0803 c → c.addr 0 = some a → clean certs.length →
    (s.badCertificate = none → writes (.idCert m) certs [BitVec.ofNat 32 certs.length, 2]) ∧
    (∀ n, s.badCertificate = some n → ∃ t, exec (.idCert m) s = .next t ∧ Raised CELLAR_ERR n 0 s t ∧ OnlyEvents [CELLAR_ERR] s t ∧
      Ends m E_STATE [] c t ∧ t.mem = s.mem)) ∧
  (Runs s m 0x0802 c → c.addr 8 = some a → clean (152 + 48 * s.attestEntries.length) →
    (s.badCertificate = none →
      let body := { s with fw := { s.fw with reports := s.fw.reports + 1 } }.attestBody (c.args.take 8);
      let rep := body ++ (Config.sm2Sign body ++ List.replicate 64 0).take 64;
      a + rep.length ≤ s.capacity → rep.length = 152 + 48 * s.attestEntries.length →
      writes (.idAttest m) rep [BitVec.ofNat 32 rep.length]) ∧
    (∀ n, s.badCertificate = some n → ∃ t, exec (.idAttest m) s = .next t ∧ Raised CELLAR_ERR n 0 s t ∧
      OnlyEvents [CELLAR_ERR] s t ∧ Ends m E_STATE [] c t ∧ t.mem = s.mem)) ∧
  (Works s m 0x0601 c →
    let item := c.arg 0
    let units := maskStrings (c.arg 1) (c.arg 2)
    let failing := units.filter (fun i => !s.calReady item i)
    (c.begun = false →
      ((item = 0 ∨ 6 < item) → exec (.calRun m [x]) s = .next (s.setOutcome m E_BAD_ARG [])) ∧
      (1 ≤ item → item ≤ 6 → (∀ i ∈ units, s.calHas item i = true ∧ ¬(item = 6 ∧ i = 35)) →
        (units = [] → exec (.calRun m [x]) s = .next (s.setOutcome m S_OK [0, 0])) ∧
        (failing ≠ [] → exec (.calRun m [x]) s = .next (s.setOutcome m E_PRECOND [0, BitVec.ofNat 32 failing.length])) ∧
        (units ≠ [] → failing = [] → s.nvOpen = false → exec (.calRun m [x]) s = .next (s.setOutcome m E_TEMP_WINDOW [0, 0])) ∧
        (∀ i, units = [i] → failing = [] → s.nvOpen = true → ∃ t, exec (.calRun m []) s = .next t ∧
          t.calRunOf item = [{ unit := i, attempts := 0, values := none, shown := 0 }] ∧
          t.fld (CL_INST_state item i) = 2 ∧ (item ≠ 1 → item ≠ 4 → t.flag (CL_INST_stale item i) = true) ∧
          (∃ q, t.cmdHead m = some q ∧ q.begun = true ∧ q.outcome = none) ∧ OnlyWords [CL_INST item i] s t ∧
          t = { s with regs := t.regs, calRuns := t.calRuns, mb := t.mb }))) ∧
    (∀ e : CalEnd, c.begun = true → 1 ≤ item → item ≤ 6 → s.calHas item e.unit = true → s.calRunOf item = [e] → e.values = none →
      x.unit = e.unit →
      (attemptGood item e.unit x = true → e.attempts < 3 → s.nvOpen = true → s.badSlots = [] → s.committed + 1 < 2 ^ 32 → ∃ t q,
        exec (.calRun m [x]) s = .next t ∧
        tabGet (fun _ => []) t.calUse (calKey item e.unit) = attemptMean x ∧ t.fld (CL_INST_state item e.unit) = 1 ∧
        t.fld (CL_INST_attempts item e.unit) = e.attempts + 1 ∧ t.fld (CL_INST_last_code item e.unit) = S_OK ∧
        (item ≠ 1 → item ≠ 4 → t.flag (CL_INST_stale item e.unit) = false) ∧ Raised CL_DONE item 0 s t ∧
        OnlyEvents [CL_DONE] s t ∧ OnlyWords [CL_INST item e.unit, CL_STATUS] s t ∧ t.cmdHead m = some q ∧
        q.outcome = some (S_OK, [1, 0]) ∧ t.mem = s.mem) ∧
      (attemptGood item e.unit x = false → e.attempts < 2 → ∃ t q, exec (.calRun m [x]) s = .next t ∧
        t.calRunOf item = [{ e with attempts := e.attempts + 1, shown := x.second.getD 0 0 }] ∧ t.cmdHead m = some q ∧
        q.outcome = none ∧ t.regs = s.regs ∧ t.calUse = s.calUse ∧ t.ev = s.ev) ∧
      (attemptGood item e.unit x = false → e.attempts = 2 → ∃ t q, exec (.calRun m [x]) s = .next t ∧ t.calUse = s.calUse ∧
        t.fld (CL_INST_attempts item e.unit) = 3 ∧ Raised CL_REJECT item E_MISMATCH s t ∧ OnlyEvents [CL_REJECT] s t ∧
        OnlyWords [CL_INST item e.unit] s t ∧ t.cmdHead m = some q ∧ q.outcome = some (E_MISMATCH, [0, 1]) ∧ t.cellar = s.cellar)))

/-- Sheaves (R267 to R270, R273, R276 to R278, R281; log 49 for the result of an abort): a handle is allocated, staged, committed,
validated, aborted and released by the rules of its state; a sheaf that fails validation is refused with its code and its first failing
entry; one that passes is PENDING; and applying it writes its entries and the stamp. Its words apart, only the swap_pending words follow. -/
def Obligations.SheavesGoThroughTheirStates : Prop := ∀ (s : State) (i : Iface) (n : Fin 14) (v : Word),
  let x := s.sheaf n
  let swaps := (List.range 4).map (fun h => (SQ_STATUS10_swap_pending h).key)
  let own := fun t : State => (∀ k, k ≠ n.val → t.sheaf k = s.sheaf k)
  let later := ∃ k ∈ s.pendingSheaves, (s.sheaf k).admission = true ∧ x.order < (s.sheaf k).order
  (s.hostUp i = true →
    (∀ j l, s.freeHandles = j :: l → ∃ t, exec (.shAllocRead i) s = .next t ∧
      t.sheaf j = { Sheaf.reset with state := SH_OPEN, spi := i == .spi } ∧ (∀ k, k ≠ j → t.sheaf k = s.sheaf k) ∧
      t.hi.response = wordBytes (BitVec.ofNat 32 (j + 2 ^ 31)) ∧ t = { s with sheaves := t.sheaves, hi := t.hi }) ∧
    (s.freeHandles = [] → exec (.shAllocRead i) s =
      .next ({ s with allocFails := min 65535 (s.allocFails + 1) }.respond [0, 0, 0, 0])) ∧
    (x.state ≠ SH_OPEN → exec (.shValueWrite i n v) s = .next s ∧ exec (.sheafCommit i n) s = .next s) ∧
    (x.state = SH_OPEN → (locate x.index).isSome = true → s.entriesHeld hostHandles < 1792 → exec (.shValueWrite i n v) s =
      .next (s.setSheaf n { x with entries := x.entries ++ [{ index := x.index, mask := x.mask, value := v }] })) ∧
    (∀ code, x.state = SH_OPEN → x.broken = false → (locate x.index = none ∧ code = E_BAD_ARG ∨
        (locate x.index).isSome = true ∧ 1792 ≤ s.entriesHeld hostHandles ∧ code = E_CAPACITY) →
      exec (.shValueWrite i n v) s =
        .next (s.setSheaf n { x with broken := true, brokenCode := code, failEntry := x.entries.length })) ∧
    (x.state = SH_OPEN → exec (.sheafCommit i n) s = .next ({ s with serial := s.serial + 1 }.setSheaf n
      { x with state := SH_VALIDATING, result := S_QUEUED, waits := s.openCmds (getBits x.bnd 15 3), order := s.serial
               kind := getBits x.bnd 0 3, target := getBits x.bnd 4 6, band := getBits x.bnd 10 5, mailbox := getBits x.bnd 15 3 })) ∧
    ((x.state = SH_FREE ∨ x.state = SH_REFUSED_ST ∨ x.state = SH_ABORTED_ST) → exec (.sheafAbort i n) s = .next s) ∧
    ((x.state = SH_APPLIED ∨ x.state = SH_DONE ∨ x.state = SH_PENDING ∧ later) → exec (.sheafAbort i n) s =
      .next (s.setSheaf n { x with abortResult := E_STATE })) ∧
    ((x.state = SH_OPEN ∨ x.state = SH_VALIDATING ∨ x.state = SH_PENDING ∧ ¬later) → x.staged / 256 ≠ 1 → ∃ t,
      exec (.sheafAbort i n) s = .next t ∧
      t.sheaf n = { x with state := SH_ABORTED_ST, result := E_STATE, staged := 0, waits := [], abortResult := S_OK } ∧ own t ∧
      Raised SH_ABORTED n E_STATE s t ∧ OnlyEvents [SH_ABORTED] s t ∧ OnlyWords swaps s t ∧ t.mem = s.mem) ∧
    ((x.state = SH_DONE ∨ x.state = SH_REFUSED_ST ∨ x.state = SH_ABORTED_ST) → exec (.sheafRelease i n) s =
      .next (s.setSheaf n Sheaf.reset)) ∧
    (x.state ≠ SH_DONE → x.state ≠ SH_REFUSED_ST → x.state ≠ SH_ABORTED_ST → exec (.sheafRelease i n) s = .next s)) ∧
  ((x.state ≠ SH_VALIDATING ∨ s.boot.phase ≠ RUNNING ∨ s.fw.handover.isSome = true ∨ s.waitsOver x = false) →
    exec (.sheafValidate (n.castLE (by decide))) s = .next s) ∧
  (x.state = SH_VALIDATING → s.boot.phase = RUNNING → s.fw.handover = none → s.waitsOver x = true →
    (x.broken = true → s.validateCode x = (x.brokenCode, x.failEntry)) ∧
    (x.broken = false → x.entries = [] → x.kind = 0 → s.validateCode x = (0, 0xFFF)) ∧
    (x.broken = false → x.entries = [] → x.kind = 3 → x.target < 4 → s.rasterOn x.target = false → s.validateCode x = (E_STATE, 0xFFF)) ∧
    (∀ code fail, s.validateCode x = (code, fail) → code ≠ 0 → ∃ t, exec (.sheafValidate (n.castLE (by decide))) s = .next t ∧
      t.sheaf n = { x with state := SH_REFUSED_ST, result := code, failEntry := fail, waits := [] } ∧ own t ∧
      t.shRefused = min 65535 (s.shRefused + 1) ∧ Raised SH_REFUSED n code s t ∧ OnlyEvents [SH_REFUSED] s t ∧
      OnlyWords ((List.range 4).map HD_RVH_RESULT) s t ∧ t.mem = s.mem) ∧
    (∀ fail, s.validateCode x = (0, fail) → ∃ t, exec (.sheafValidate (n.castLE (by decide))) s = .next t ∧
      (t.sheaf n).state = SH_PENDING ∧ (t.sheaf n).result = S_RUNNING ∧ (t.sheaf n).entries = x.entries ∧
      (t.sheaf n).order = s.serial ∧ own t ∧ OnlyWords swaps s t ∧ t.ev = s.ev ∧ t.mem = s.mem)) ∧
  (s.mayApply n = false → exec (.sheafApply (n.castLE (by decide))) s = .next s) ∧
  (s.mayApply n = true → x.kind = 0 →
    let u := s.setSheaf n { x with state := SH_APPLIED, stamp := s.tick % 2 ^ 32, staged := 0 }
    (∃ t, exec (.sheafApply (n.castLE (by decide))) s = .next t ∧
      (∀ w, w ∉ swaps → t.word w = (u.applyWrites true x.entries).word w) ∧ t.mem = (u.applyWrites true x.entries).mem) ∧
    (x.entries = [] → x.after = [] → ∃ t, exec (.sheafApply (n.castLE (by decide))) s = .next t ∧
      t.sheaf n = { x with state := SH_DONE, result := S_OK, stamp := s.tick % 2 ^ 32, staged := 0 } ∧ own t ∧
      Raised SH_COMPLETE n 0 s t ∧ OnlyEvents [SH_COMPLETE] s t ∧ OnlyWords swaps s t ∧ t.mem = s.mem)) ∧
  ((x.state ≠ SH_APPLIED ∨ s.readersDone x = false ∨ s.fenceDone x = false) →
    exec (.sheafCompletion (n.castLE (by decide))) s = .next s) ∧
  (x.state = SH_APPLIED → s.readersDone x = true → s.fenceDone x = true → ∃ t,
    exec (.sheafCompletion (n.castLE (by decide))) s = .next t ∧ t.sheaf n = { x with state := SH_DONE, result := S_OK } ∧ own t ∧
    Raised SH_COMPLETE n 0 s t ∧ OnlyEvents [SH_COMPLETE] s t ∧ OnlyWords swaps s t ∧ t.mem = s.mem)

/-- Temperature (R319, R320, R322 to R326, R329; log 41 for the timers): a sample fills the reading, a trusted sensor that passes takes it
as its value, and one that fails a test is excluded with its cause, the hold and TH_SENSOR_SUSPECT; a restored one is trusted again; the
budget follows its target by the rules of R324; the hold ends; and an open window makes the deferred writes. -/
def Obligations.TemperatureSetsTheBudget : Prop := ∀ (s : State) (n : Fin 36) (raw : Int) (bad : Bool) (b : Fin 8),
  let new := clampI (s.converted n raw) (-2048) 2047
  let out := bad || decide (s.converted n raw < -360) || decide (1200 < s.converted n raw)
  let x := (s.sensor n).runs (samplePeriod n) (s.tempReading n) new out (twiceMedian (s.neighbours n))
  let now := s.fld TH_GLOBAL3_budget_pm * 1000 + s.thermal.fraction
  let goal := s.budgetTarget * 1000
  let release := s.fld TH_GLOBAL1_release_pm
  let diff : Rat := (((((s.sensor n).records.take 59).sum : Int) : Rat))
  ((s.sensorOn n = false ∨ s.measuring 6 n = true) → exec (.sensorSample n raw bad) s = .next s) ∧
  (s.sensorOn n = true → s.measuring 6 n = false → ((s.sensor n).converted = false ∨ s.flag (TH_SENSOR2_trusted n) = true) →
    (x.fails false (s.neighbours n).isEmpty = 0 → ∃ t, exec (.sensorSample n raw bad) s = .next t ∧ t.tempReading n = new ∧ t.tempValue n = new ∧
      t.flag (TH_SENSOR2_trusted n) = true ∧ t.fld (TH_SENSOR2_suspect_count n) = s.fld (TH_SENSOR2_suspect_count n) ∧
      t.flag TH_GLOBAL3_hold = s.flag TH_GLOBAL3_hold ∧ OnlyEvents [TH_ALARM] s t ∧ t.mem = s.mem ∧ t.tout = s.tout) ∧
    (x.fails false (s.neighbours n).isEmpty ≠ 0 → ∃ t, exec (.sensorSample n raw bad) s = .next t ∧ t.tempReading n = new ∧
      t.flag (TH_SENSOR2_trusted n) = false ∧ t.fld (TH_SENSOR2_cause n) = x.fails false (s.neighbours n).isEmpty ∧
      Counted (TH_SENSOR2_suspect_count n) 1 s t ∧ Counted TH_GLOBAL5_exclusions 1 s t ∧ t.flag TH_GLOBAL3_hold = true ∧
      Raised TH_SENSOR_SUSPECT n 0 s t ∧ OnlyEvents [TH_SENSOR_SUSPECT, TH_ALARM] s t ∧ t.mem = s.mem ∧ t.tout = s.tout)) ∧
  ((s.flag (TH_SENSOR0_auto_restore n) = false ∨ (s.sensor n).passMs ≤ 60000 ∨ s.suspect n = false) →
    exec (.sensorAutoRestore n) s = .next s) ∧
  (s.flag (TH_SENSOR0_auto_restore n) = true → 60000 < (s.sensor n).passMs → s.suspect n = true → s.measuring 6 n = false → ∃ t,
    exec (.sensorAutoRestore n) s = .next t ∧ t.flag (TH_SENSOR2_trusted n) = true ∧ t.tempValue n = s.tempReading n ∧
    t.fld (TH_SENSOR2_cause n) = s.fld (TH_SENSOR2_cause n) ∧ t.flag TH_GLOBAL3_hold = s.flag TH_GLOBAL3_hold ∧ t.ev = s.ev) ∧
  ((s.neighbours n).max? = none ∨ s.trusted n = false ∨ s.measuring 6 n = true → exec (.offsetRecord n) s = .next s) ∧
  (∀ m, (s.neighbours n).max? = some m → s.trusted n = true → s.measuring 6 n = false → ∃ t, exec (.offsetRecord n) s = .next t ∧
    (t.sensor n).records = (s.tempReading n - m) :: (s.sensor n).records.take 59 ∧
    t.fld (TH_SENSOR2_offset n) = unsigned 12 ((((s.tempReading n - m : Int) : Rat) + diff) /
      ((((s.sensor n).records.take 59).length + 1 : Nat) : Rat) + 1 / 2).floor ∧
    OnlyWords [TH_SENSOR2 n] s t ∧ t = { s with regs := t.regs, sensors := t.sensors }) ∧
  (s.thermal.below = false → exec (.trackedDwellExpiry none) s = .next s) ∧
  (s.thermal.below = true → ∃ t, exec (.trackedDwellExpiry none) s = .next t ∧
    t.sfld TH_GLOBAL4_die_tracked = clampI (s.sfld TH_GLOBAL3_die_max + s.hyst) (-2048) 2047 ∧ t.thermal.below = false ∧
    OnlyWords [TH_GLOBAL4] s t ∧ t = { s with regs := t.regs, thermal := t.thermal }) ∧
  (∀ v, (s.bank b).below = true → s.bankTemp b = some v → exec (.trackedDwellExpiry (some b)) s =
    .next (s.setBank b { s.bank b with kneeTracked := v + s.hyst, below := false })) ∧
  (∃ t, exec .budgetUpdate s = .next t ∧ OnlyWords [TH_GLOBAL3] s t ∧ OnlyEvents [TH_THROTTLE] s t ∧
    (goal < now → t.fld TH_GLOBAL3_budget_pm = s.budgetTarget ∧ t.thermal.fraction = 0) ∧
    (now < goal → s.flag TH_GLOBAL3_hold = false → t.fld TH_GLOBAL3_budget_pm = min goal (now + release) / 1000 ∧
      t.thermal.fraction = min goal (now + release) % 1000) ∧
    ((now = goal ∨ now < goal ∧ s.flag TH_GLOBAL3_hold = true) → t.fld TH_GLOBAL3_budget_pm = s.fld TH_GLOBAL3_budget_pm ∧
      t.thermal = s.thermal ∧ t.ev = s.ev) ∧
    (s.fld TH_GLOBAL3_budget_pm = 1000 → s.budgetTarget < 1000 → Raised TH_THROTTLE s.budgetTarget 0 s t) ∧
    ((s.bank b).member2 < s.derate b → s.flag TH_GLOBAL3_hold = true → (t.bank b).member2 = (s.bank b).member2) ∧
    ((s.bank b).member2 < s.derate b → s.flag TH_GLOBAL3_hold = false →
      (t.bank b).member2 = min (s.derate b) ((s.bank b).member2 + (release : Rat) / 1000000)) ∧
    (s.derate b ≤ (s.bank b).member2 → (t.bank b).member2 = s.derate b)) ∧
  (∃ t, exec .throttleHoldEnd s = .next t ∧ t.flag TH_GLOBAL3_hold = false ∧ OnlyField TH_GLOBAL3_hold 0 s t ∧ t = { s with regs := t.regs }) ∧
  (s.nvOpen = false → exec .nvWindowOpen s = .next s) ∧
  (∀ k p, s.nvOpen = true → s.deferred = [(k, p)] → k ≠ 1 → s.writeFails k = true → ∃ t, exec .nvWindowOpen s = .next t ∧
    Raised CELLAR_ERR k 0 s t ∧ OnlyEvents [CELLAR_ERR] s t ∧ t.record k = s.record k ∧ OnlyWords [CL_STATUS] s t) ∧
  (∀ k p, s.nvOpen = true → s.deferred = [(k, p)] → k ≠ 1 → s.writeFails k = false → ∃ t, exec .nvWindowOpen s = .next t ∧ t.deferred = [] ∧
    t.boot = { s.boot with deferred := false } ∧ (t.record k).map (·.payload) = some p ∧ OnlyWords [CL_STATUS] s t ∧
    t = { s with cellar := t.cellar, deferred := [], boot := t.boot, regs := t.regs })

/-- The monitor (R82, R84, R306) and the event registers (R311, R312, R316): a refresh that is due sends a frame, or waits for the selected edge of DSI_TE
or its timeout, which counts, and is skipped while one waits or is being sent; MON.DCS sends a DSI command and ends at once or with its response; and writes of latches and enables act on
the sources of their group. -/
def Obligations.MonitorAndEventsFollowTheirWrites : Prop := ∀ (s : State) (i : Iface) (m : Fin 8) (c : MbCmd) (v : Word)
    (falling : Bool) (ty : Byte) (payload : List Byte),
  let next := { s.mon with waiting := false, frames := s.mon.frames + 1, sendEnd := s.tick + s.monTicks }
  let free := s.mon.waiting = false ∧ s.mon.sendEnd ≤ s.tick
  let sent := fun t : State => t.out = .monitorFrame s.mon.frames s.monPackets :: s.out ∧
    t.fld HD_MON6_frames_sent = (s.fld HD_MON6_frames_sent + 1) % 2 ^ 16 ∧ OnlyWords [HD_MON6] s t
  ((s.flag HD_MON0_enable = false ∨ s.monDue = false) → exec .monitorRefresh s = .next s) ∧
  (s.flag HD_MON0_enable = true → s.monDue = true →
    (¬free → exec .monitorRefresh s = .next { s with mon := { s.mon with since := 0 } }) ∧
    (free → s.flag HD_MON0_cmd_mode = true →
      exec .monitorRefresh s = .next { s with mon := { s.mon with since := 0, waiting := true } }) ∧
    (free → s.flag HD_MON0_cmd_mode = false → ∃ t, exec .monitorRefresh s = .next t ∧ sent t ∧ t.mon = { next with since := 0 } ∧
      t = { s with regs := t.regs, out := t.out, mon := t.mon })) ∧
  ((s.mon.waiting = false ∨ s.flag HD_MON0_te_falling ≠ falling) → exec (.dsiTeEdge falling) s = .next s) ∧
  (s.mon.waiting = true → s.flag HD_MON0_te_falling = falling → ∃ t, exec (.dsiTeEdge falling) s = .next t ∧ sent t ∧
    t.mon = next ∧ t = { s with regs := t.regs, out := t.out, mon := t.mon }) ∧
  ((s.mon.waiting = false ∨ s.fld HD_MON0_te_timeout = 0) → exec .teTimeout s = .next s) ∧
  (s.mon.waiting = true → s.fld HD_MON0_te_timeout ≠ 0 → ∃ t, exec .teTimeout s = .next t ∧ .monitorFrame s.mon.frames s.monPackets ∈ t.out ∧
    t.mon = next ∧ Counted HD_MON6_te_missed 1 s t ∧
    t.fld HD_MON6_frames_sent = (s.fld HD_MON6_frames_sent + 1) % 2 ^ 16 ∧
    Raised MON_TE_MISSED (t.fld HD_MON6_frames_sent) 0 s t ∧ OnlyEvents [MON_TE_MISSED] s t ∧ OnlyWords [HD_MON6] s t) ∧
  (Runs s m 0x0205 c →
    (s.flag HD_MON0_enable = false → exec (.monDcs m) s = .next (s.setOutcome m E_STATE [])) ∧
    (s.flag HD_MON0_enable = true → s.mon.dcs ≠ none → exec (.monDcs m) s = .next s) ∧
    (s.flag HD_MON0_enable = true → s.mon.dcs = none → bitOf (c.arg 0) 16 = false → exec (.monDcs m) s = .next
      ({ s with out := .dsi (bits (c.arg 0) 0 8) (c.args.drop 1) false :: s.out }.setOutcome m S_OK [0])) ∧
    (s.flag HD_MON0_enable = true → s.mon.dcs = none → bitOf (c.arg 0) 16 = true → ∃ t, exec (.monDcs m) s = .next t ∧
      t.out = .dsi (bits (c.arg 0) 0 8) (c.args.drop 1) true :: s.out ∧ t.mon = { s.mon with dcs := some m.val } ∧
      t.cmdHead m = some { c with begun := true } ∧ t = { s with out := t.out, mon := t.mon, mb := t.mb })) ∧
  (s.mon.dcs = none → exec (.dcsReadResponse ty payload) s = .next s ∧ exec .dcsResponseTimeout s = .next s) ∧
  (s.mon.dcs = some m.val →
    exec (.dcsReadResponse ty payload) s = .next ({ s with mon := { s.mon with dcs := none } }.setOutcome m S_OK
      (BitVec.ofNat 32 (ty.toNat + payload.length % 256 * 2 ^ 8) :: bytesWords payload)) ∧
    exec .dcsResponseTimeout s = .next ({ s with mon := { s.mon with dcs := none } }.setOutcome m E_TIMEOUT [])) ∧
  (s.hostUp i = false → ∀ g, exec (.evLatchWrite i g v) s = .next s ∧ exec (.evEnableWrite i g v) s = .next s) ∧
  (s.hostUp i = true → ∀ g : Fin 8,
    (∃ t, exec (.evLatchWrite i g v) s = .next t ∧ t.ev = { s.ev with latch := t.ev.latch } ∧
      (∀ k < 256, t.latched k = (s.latched k && !(isSource k && decide (k / 32 = g) && v.getLsbD (k % 32) && !s.evStatus k))) ∧
      t = { s with ev := t.ev, out := t.out, pcie := { s.pcie with pending := t.pcie.pending } }) ∧
    (∃ t, exec (.evEnableWrite i g v) s = .next t ∧ t.ev = { s.ev with enable := t.ev.enable } ∧
      (∀ k < 256, t.evEnabled k = (if isSource k && decide (k / 32 = g) then v.getLsbD (k % 32) else s.evEnabled k)) ∧
      t = { s with ev := t.ev, out := t.out, pcie := { s.pcie with pending := t.pcie.pending } }))

/-- Edge tracking (R338), the Gleaner (R386 to R391) and the TAP (R385, R393 to R395): a good measurement of an edge generator waits and
is switched in while no edge of its outputs is near; GL.RUN begins a pass whose steps count and whose end is reported; and each TAP
instruction acts while the phase reads LOADER or FALLOW, and as BYPASS otherwise. -/
def Obligations.EdgesGleanerAndTap : Prop := ∀ (s : State) (u : Fin 37) (x : CalMeasure) (m : Fin 8) (c : MbCmd) (k : Fin 8)
    (g : GleanerStep) (ch : Fin 8) (cells : List Bool) (code : Byte),
  let key := calKey 1 u
  let near := ∃ e ∈ s.edges, e.out ∈ edgeOuts u ∧ s.tick * 32 ≤ e.fine + 64 ∧ e.fine ≤ s.tick * 32 + 64
  let y := s.task k
  let kind := s.glKind k g
  let turned := { s with glTurn := if s.fld (GL_TASK0_state k) = 1 then k.val else s.glTurn }
  let test := s.boot.phase = LOADER ∨ s.boot.phase = FALLOW
  let load := fun (ir : Byte) (driving highz : Bool) =>
    { s with jtag := { s.jtag with ir := ir, blocked := decide (¬test), driving := driving, highz := highz } }
  (s.boot.phase = RUNNING → s.flag CL_AUTO_edge_track = true → s.calHas 1 u = true → s.fld (CL_INST_state 1 u) ≠ 2 →
    attemptGood 1 u x = true → ∃ t,
    exec (.edgeTrack u x) s = .next t ∧ tabGet (fun _ => []) t.calPend key = attemptMean x ∧ t = { s with calPend := t.calPend }) ∧
  ((s.boot.phase ≠ RUNNING ∨ s.flag CL_AUTO_edge_track = false ∨ s.fld (CL_INST_state 1 u) = 2 ∨ attemptGood 1 u x = false) →
    exec (.edgeTrack u x) s = .next s) ∧
  ((tabGet (fun _ => []) s.calPend key = [] ∨ near) → exec (.edgeTrackSwitch u) s = .next s) ∧
  (tabGet (fun _ => []) s.calPend key ≠ [] → ¬near → ∃ t, exec (.edgeTrackSwitch u) s = .next t ∧
    tabGet (fun _ => []) t.calTrack key = tabGet (fun _ => []) s.calPend key ∧ tabGet (fun _ => []) t.calPend key = [] ∧
    t.fld (CL_INST_state 1 u) = 3 ∧ OnlyWords [CL_INST 1 u] s t ∧
    t = { s with calTrack := t.calTrack, calPend := t.calPend, regs := t.regs }) ∧
  (Runs s m 0x0901 c →
    ((c.arg 0 = 0 ∨ 7 < c.arg 0) → exec (.glRun m) s = .next (s.setOutcome m E_RANGE [])) ∧
    (1 ≤ c.arg 0 → c.arg 0 ≤ 2 → s.boot.granaryOk = false → exec (.glRun m) s = .next (s.setOutcome m E_STATE [])) ∧
    (c.arg 0 = 4 → 2 ^ (4 + s.nHeads) ≤ c.arg 1 % 256 → exec (.glRun m) s = .next (s.setOutcome m E_RANGE [])) ∧
    (1 ≤ c.arg 0 → c.arg 0 ≤ 7 → (c.arg 0 ≤ 2 → s.boot.granaryOk = true ∧ s.flag GR_CTRL_in_sr = false ∧ s.memoryHeld = false) →
      (c.arg 0 = 4 → c.arg 1 % 256 < 2 ^ (4 + s.nHeads)) →
      (s.passSteps (c.arg 0) (c.arg 1) = 0 → exec (.glRun m) s = .next (s.setOutcome m S_OK [0, 0])) ∧
      (s.passSteps (c.arg 0) (c.arg 1) ≠ 0 → ∃ t, exec (.glRun m) s = .next t ∧ t.fld (GL_TASK0_state (c.arg 0)) = 2 ∧
        (t.task (c.arg 0)).steps = 0 ∧ (t.task (c.arg 0)).passFails = 0 ∧ (t.task (c.arg 0)).started = s.tick ∧
        t.cmdHead m = some { c with begun := true } ∧ OnlyWords ((List.range 8).map GL_TASK0) s t ∧ t.mem = s.mem ∧ t.ev = s.ev))) ∧
  ((k = 0 ∨ s.glRuns k g.unit = false) → exec (.gleanerStep k g) s = .next s) ∧
  (k ≠ 0 → s.glRuns k g.unit = true → s.glAbandoned k g = true → g.last = false → exec (.gleanerStep k g) s = .next turned) ∧
  (k ≠ 0 → s.glRuns k g.unit = true → s.glAbandoned k g = false → s.demandOf k = none → 2 ≤ kind → g.last = false → ∃ t,
    exec (.gleanerStep k g) s = .next t ∧ t.task k = y ∧ t.glTurn = turned.glTurn ∧ Counted (GL_TASK1_skipped k) 1 s t ∧
    OnlyWords [GL_TASK0 k, GL_TASK1 k] s t ∧ t.ev = s.ev ∧ t.mem = s.mem ∧ t.mb = s.mb) ∧
  (k ≠ 0 → s.glRuns k g.unit = true → s.glAbandoned k g = false → s.demandOf k = none → kind ≤ 1 →
    (g.last = false → ∃ t, exec (.gleanerStep k g) s = .next t ∧
      t.task k = { y with
        steps := y.steps + 1, passFails := y.passFails + kind, allFails := y.allFails + kind
        lastFailTick := if kind = 1 then s.tick else y.lastFailTick } ∧
      Counted (GL_TASK1_failures k) kind s t ∧ OnlyWords [GL_TASK0 k, GL_TASK1 k] s t ∧ t.ev = s.ev ∧ t.mem = s.mem ∧ t.mb = s.mb) ∧
    (g.last = true → ∃ t, exec (.gleanerStep k g) s = .next t ∧ (t.task k).allPasses = y.allPasses + 1 ∧ (t.task k).steps = 0 ∧
      (t.task k).lastMs = (s.tick - y.started) / 800000 ∧ Counted (GL_TASK0_passes k) 1 s t ∧
      (y.passFails + kind = 0 → t.ev = s.ev) ∧ (0 < y.passFails + kind → Raised GL_FAIL k (y.passFails + kind) s t) ∧
      OnlyEvents [GL_FAIL] s t ∧ t.mb = s.mb)) ∧
  (k ≠ 0 → s.glRuns k g.unit = true → s.demandOf k = some m.val → s.cmdHead m = some c → s.glAbandoned k g = false → kind = 0 →
    g.last = true → ∃ t q,
    exec (.gleanerStep k g) s = .next t ∧ t.cmdHead m = some q ∧
    q.outcome = some (S_OK, [BitVec.ofNat 32 (y.steps + 1), BitVec.ofNat 32 y.passFails]) ∧ Raised GL_DONE k 0 s t ∧
    OnlyEvents [GL_DONE, GL_FAIL] s t ∧ (t.task k).steps = y.bgSteps ∧ (t.task k).passFails = y.bgFails) ∧
  (∃ t, exec (.gleanerResume ch) s = .next t ∧ (t.chan ch).gleanerHeld = false ∧ (∀ j, j ≠ ch.val → t.chan j = s.chan j) ∧
    OnlyWords ((List.range 8).map GL_TASK0) s t ∧ t = { s with chans := t.chans, regs := t.regs }) ∧
  exec .tapReset s = .next { s with jtag := { Jtag.reset with cells := s.jtag.cells, blocked := s.jtag.blocked } } ∧
  exec .idcode s = .next { load 0x01 false false with jtag := { (load 0x01 false false).jtag with tdo := 0x19440FFD } } ∧
  exec (.samplePreload cells) s = .next { load 0x02 false false with
    jtag := { (load 0x02 false false).jtag with cells := cells, captured := s.jtag.cells } } ∧
  exec (.bypass code) s = .next (load code false false) ∧
  (test → exec (.extest cells) s = .next { load 0x00 true false with jtag := { (load 0x00 true false).jtag with cells := cells } } ∧
    exec .extestPulse s = .next (load 0x03 true false) ∧ exec .extestTrain s = .next (load 0x04 true false) ∧
    exec .clamp s = .next (load 0x05 true false) ∧ exec .highz s = .next (load 0x06 false true)) ∧
  (¬test → exec (.extest cells) s = .next (load 0x00 false false) ∧ exec .extestPulse s = .next (load 0x03 false false) ∧
    exec .extestTrain s = .next (load 0x04 false false) ∧ exec .clamp s = .next (load 0x05 false false) ∧
    exec .highz s = .next (load 0x06 false false))
end

