-- ==== Sys2Proof/Laws/Tab.lean ====
section
/-!
SUPPORT. The laws of sparse tables: a read after a write, and the canonical form.
-/

namespace Sys2Proof.Machine

variable {α : Type} {d : Nat → α} {t : Tab α} {k j n : Nat} {v : α}

@[simp] theorem tabGet_nil : tabGet d [] k = d k := rfl

theorem tabGet_erase_same : tabGet d (tabErase k t) k = d k := by
  induction t with
  | nil => rfl
  | cons e t ih =>
    obtain ⟨j, w⟩ := e
    by_cases h : j = k
    · simp [tabErase, h, ih]
    · simp [tabErase, h, tabGet, ih, Ne.symm h]

theorem tabGet_erase_other (h : j ≠ k) : tabGet d (tabErase k t) j = tabGet d t j := by
  induction t with
  | nil => rfl
  | cons e t ih =>
    obtain ⟨i, w⟩ := e
    by_cases h1 : i = k
    · subst h1; simp [tabErase, tabGet, h, ih]
    · simp [tabErase, h1, tabGet, ih]

theorem tabGet_insert_other (h : j ≠ k) : tabGet d (tabInsert k v t) j = tabGet d t j := by
  induction t with
  | nil => simp [tabInsert, tabGet, h]
  | cons e t ih =>
    obtain ⟨i, w⟩ := e
    by_cases h1 : k < i
    · simp [tabInsert, h1, tabGet, h]
    · simp [tabInsert, h1, tabGet, ih]

theorem tabGet_insert_erase : tabGet d (tabInsert k v (tabErase k t)) k = v := by
  induction t with
  | nil => simp [tabErase, tabInsert, tabGet]
  | cons e t ih =>
    obtain ⟨i, w⟩ := e
    by_cases h1 : i = k
    · simp [tabErase, h1, ih]
    · by_cases h2 : k < i
      · simp [tabErase, h1, tabInsert, h2, tabGet]
      · simp [tabErase, h1, tabInsert, h2, tabGet, Ne.symm h1, ih]

/-- A read after a write to the same number gives the value written. -/
@[simp] theorem tabGet_set_same [DecidableEq α] : tabGet d (tabSet d t k v) k = v := by
  unfold tabSet
  split
  · next h => rw [tabGet_erase_same, h]
  · exact tabGet_insert_erase

/-- A write leaves every other number alone. -/
theorem tabGet_set_other [DecidableEq α] (h : j ≠ k) : tabGet d (tabSet d t k v) j = tabGet d t j := by
  unfold tabSet
  split
  · exact tabGet_erase_other h
  · rw [tabGet_insert_other h, tabGet_erase_other h]

theorem tabAbove_mono (h : n ≤ j) (ha : tabAbove j t = true) : tabAbove n t = true := by
  cases t with
  | nil => rfl
  | cons e t =>
    obtain ⟨i, w⟩ := e
    simp only [tabAbove, Bool.and_eq_true, decide_eq_true_eq] at ha ⊢
    exact ⟨by omega, ha.2⟩

theorem tabAbove_erase (h : tabAbove n t = true) : tabAbove n (tabErase k t) = true := by
  induction t generalizing n with
  | nil => rfl
  | cons e t ih =>
    obtain ⟨i, w⟩ := e
    simp only [tabAbove, Bool.and_eq_true, decide_eq_true_eq] at h
    by_cases h1 : i = k
    · simpa [tabErase, h1] using ih (tabAbove_mono (by omega) h.2)
    · simp [tabErase, h1, tabAbove, h.1, ih h.2]

theorem tabSorted_erase (h : tabSorted t = true) : tabSorted (tabErase k t) = true := by
  induction t with
  | nil => rfl
  | cons e t ih =>
    obtain ⟨i, w⟩ := e
    have hs : tabSorted t = true := by
      cases t with
      | nil => rfl
      | cons e t =>
        obtain ⟨i, w⟩ := e
        simp only [tabSorted, tabAbove, Bool.and_eq_true] at h ⊢
        exact h.2
    by_cases h1 : i = k
    · simpa [tabErase, h1] using ih hs
    · simpa [tabErase, h1, tabSorted] using tabAbove_erase h

theorem tabAbove_insert_erase (hn : n < k) (h : tabAbove n t = true) :
    tabAbove n (tabInsert k v (tabErase k t)) = true := by
  induction t generalizing n with
  | nil => simp [tabErase, tabInsert, tabAbove, hn]
  | cons e t ih =>
    obtain ⟨i, w⟩ := e
    simp only [tabAbove, Bool.and_eq_true, decide_eq_true_eq] at h
    by_cases h1 : i = k
    · simpa [tabErase, h1] using ih hn (tabAbove_mono (by omega) h.2)
    · by_cases h2 : k < i
      · simp [tabErase, h1, tabInsert, h2, tabAbove, hn, tabAbove_erase h.2]
      · simp [tabErase, h1, tabInsert, h2, tabAbove, h.1, ih (by omega) h.2]

theorem tabSorted_insert_erase (h : tabSorted t = true) :
    tabSorted (tabInsert k v (tabErase k t)) = true := by
  induction t with
  | nil => rfl
  | cons e t ih =>
    obtain ⟨i, w⟩ := e
    have hs : tabSorted t = true := by
      cases t with
      | nil => rfl
      | cons e t =>
        obtain ⟨i, w⟩ := e
        simp only [tabSorted, tabAbove, Bool.and_eq_true] at h ⊢
        exact h.2
    by_cases h1 : i = k
    · simpa [tabErase, h1] using ih hs
    · by_cases h2 : k < i
      · simp [tabErase, h1, tabInsert, h2, tabSorted, tabAbove]
        exact tabAbove_erase h
      · simp only [tabErase, h1, tabInsert, h2, tabSorted, ite_false]
        exact tabAbove_insert_erase (by omega) h

theorem tabTight_erase [DecidableEq α] (h : tabTight d t = true) : tabTight d (tabErase k t) = true := by
  induction t with
  | nil => rfl
  | cons e t ih =>
    obtain ⟨i, w⟩ := e
    simp only [tabTight, Bool.and_eq_true] at h
    by_cases h1 : i = k
    · simpa [tabErase, h1] using ih h.2
    · simp [tabErase, h1, tabTight, ih h.2]
      simpa using h.1

theorem tabTight_insert [DecidableEq α] (hv : v ≠ d k) (h : tabTight d t = true) :
    tabTight d (tabInsert k v t) = true := by
  induction t with
  | nil => simp [tabInsert, tabTight, hv]
  | cons e t ih =>
    obtain ⟨i, w⟩ := e
    have h' := h
    simp only [tabTight, Bool.and_eq_true] at h
    by_cases h2 : k < i
    · simp only [tabInsert, h2, ite_true, tabTight, Bool.and_eq_true]
      exact ⟨by simpa using hv, h⟩
    · simp only [tabInsert, h2, ite_false, tabTight, Bool.and_eq_true]
      exact ⟨h.1, ih h.2⟩

/-- A write keeps the canonical form. -/
theorem tabWf_set [DecidableEq α] (h : tabWf d t = true) : tabWf d (tabSet d t k v) = true := by
  simp only [tabWf, Bool.and_eq_true] at h ⊢
  unfold tabSet
  split
  · exact ⟨tabSorted_erase h.1, tabTight_erase h.2⟩
  · next hv => exact ⟨tabSorted_insert_erase h.1, tabTight_insert hv (tabTight_erase h.2)⟩

theorem tabGet_append (a b : Tab α) (h : ∀ e ∈ b, e.1 ≠ k) : tabGet d (a ++ b) k = tabGet d a k := by
  induction a with
  | nil =>
    induction b with
    | nil => rfl
    | cons e b ih =>
      have := h e (by simp)
      simp only [List.nil_append] at ih ⊢
      simp [tabGet, Ne.symm this, ih (fun x hx => h x (by simp [hx]))]
  | cons e a ih => obtain ⟨i, w⟩ := e; simp [tabGet, ih]

theorem tabGet_append_left (a b : Tab α) (h : ∀ e ∈ a, e.1 ≠ k) : tabGet d (a ++ b) k = tabGet d b k := by
  induction a with
  | nil => rfl
  | cons e a ih =>
    have := h e (by simp)
    simp [tabGet, Ne.symm this, ih (fun x hx => h x (by simp [hx]))]

theorem tabGet_filter {p : Nat → Bool} (h : p k = true) : tabGet d (t.filter (fun e => p e.1)) k = tabGet d t k := by
  induction t with
  | nil => rfl
  | cons e t ih =>
    obtain ⟨i, w⟩ := e
    by_cases hi : k = i
    · subst hi; simp [h, tabGet]
    · by_cases hp : p i = true
      · simp [hp, tabGet, hi, ih]
      · simp [hp, tabGet, hi, ih]

/-- A read outside the numbers that a block write covers. -/
theorem tabGet_put_other [DecidableEq α] {lo : Nat} {l : List α} (h : k < lo ∨ lo + l.length ≤ k) :
    tabGet d (tabPut d t lo l) k = tabGet d t k := by
  have hm : ∀ e ∈ (l.zipIdx lo).filterMap (fun e => if e.1 = d e.2 then none else some (e.2, e.1)), lo ≤ e.1 ∧ e.1 < lo + l.length := by
    intro e he
    obtain ⟨⟨v, i⟩, hv, heq⟩ := List.mem_filterMap.mp he
    have := List.mem_zipIdx hv
    by_cases hd : v = d i
    · simp [hd] at heq
    · simp [hd] at heq; subst heq; simp; omega
  unfold tabPut
  rcases h with h | h
  · rw [tabGet_append _ _ (fun e he => by simp at he; omega), tabGet_append _ _ (fun e he => by have := hm e he; omega),
      tabGet_filter (p := fun i => decide (i < lo)) (by simpa using h)]
  · rw [List.append_assoc, tabGet_append_left _ _ (fun e he => by simp at he; omega),
      tabGet_append_left _ _ (fun e he => by have := hm e he; omega),
      tabGet_filter (p := fun i => decide (lo + l.length ≤ i)) (by simpa using h)]

theorem tabAbove_append {a b : Tab α} (ha : tabAbove n a = true) (hb : ∀ e ∈ b, n < e.1) (hab : ∀ x ∈ a, ∀ y ∈ b, x.1 < y.1)
    (hs : tabSorted b = true) : tabAbove n (a ++ b) = true := by
  induction a generalizing n with
  | nil =>
    cases b with
    | nil => rfl
    | cons e b => obtain ⟨i, w⟩ := e; simpa [tabAbove, tabSorted, hb (i, w) (by simp)] using hs
  | cons e a ih =>
    obtain ⟨i, w⟩ := e
    simp only [List.cons_append, tabAbove, Bool.and_eq_true] at ha ⊢
    exact ⟨ha.1, ih ha.2 (fun y hy => hab (i, w) (by simp) y hy) (fun x hx => hab x (by simp [hx]))⟩

theorem tabSorted_append {a b : Tab α} (ha : tabSorted a = true) (hab : ∀ x ∈ a, ∀ y ∈ b, x.1 < y.1)
    (hs : tabSorted b = true) : tabSorted (a ++ b) = true := by
  cases a with
  | nil => exact hs
  | cons e a =>
    obtain ⟨i, w⟩ := e
    exact tabAbove_append ha (fun y hy => hab (i, w) (by simp) y hy) (fun x hx => hab x (by simp [hx])) hs

theorem tabAbove_filter {p : Nat × α → Bool} (h : tabAbove n t = true) : tabAbove n (t.filter p) = true := by
  induction t generalizing n with
  | nil => rfl
  | cons e t ih =>
    obtain ⟨i, w⟩ := e
    simp only [tabAbove, Bool.and_eq_true, decide_eq_true_eq] at h
    by_cases hp : p (i, w) = true
    · simp [hp, tabAbove, h.1, ih h.2]
    · simpa [hp] using ih (tabAbove_mono (by omega) h.2)

theorem tabSorted_filter {p : Nat × α → Bool} (h : tabSorted t = true) : tabSorted (t.filter p) = true := by
  induction t with
  | nil => rfl
  | cons e t ih =>
    obtain ⟨i, w⟩ := e
    by_cases hp : p (i, w) = true
    · simpa [hp, tabSorted] using tabAbove_filter (p := p) h
    · have : tabSorted t = true := by
        cases t with
        | nil => rfl
        | cons e t =>
          obtain ⟨j, w⟩ := e
          simp only [tabSorted, tabAbove, Bool.and_eq_true] at h ⊢
          exact h.2
      simpa [hp] using ih this

theorem tabTight_iff [DecidableEq α] : tabTight d t = true ↔ ∀ e ∈ t, e.2 ≠ d e.1 := by
  induction t with
  | nil => simp [tabTight]
  | cons e t ih => obtain ⟨i, w⟩ := e; simp [tabTight, ih]

theorem tabPut_mid_mem [DecidableEq α] {lo : Nat} {l : List α} {e : Nat × α}
    (he : e ∈ (l.zipIdx lo).filterMap (fun e => if e.1 = d e.2 then none else some (e.2, e.1))) :
    lo ≤ e.1 ∧ e.1 < lo + l.length ∧ e.2 ≠ d e.1 := by
  obtain ⟨⟨v, i⟩, hv, heq⟩ := List.mem_filterMap.mp he
  have := List.mem_zipIdx hv
  by_cases hd : v = d i
  · simp [hd] at heq
  · simp [hd] at heq; subst heq; simp [hd]; omega

theorem tabPut_mid_sorted [DecidableEq α] {lo : Nat} {l : List α} :
    tabSorted ((l.zipIdx lo).filterMap (fun e => if e.1 = d e.2 then none else some (e.2, e.1))) = true := by
  induction l generalizing lo with
  | nil => rfl
  | cons v l ih =>
    have key : tabAbove lo ((l.zipIdx (lo + 1)).filterMap (fun e => if e.1 = d e.2 then none else some (e.2, e.1))) = true :=
      tabAbove_append (a := []) rfl (fun e he => by have := tabPut_mid_mem he; omega) (by simp) ih
    by_cases h : v = d lo
    · simpa [List.zipIdx_cons, h] using ih
    · simpa [List.zipIdx_cons, h, tabSorted] using key

/-- A block write keeps the canonical form. -/
theorem tabWf_put [DecidableEq α] {lo : Nat} {l : List α} (h : tabWf d t = true) : tabWf d (tabPut d t lo l) = true := by
  simp only [tabWf, Bool.and_eq_true] at h ⊢
  refine ⟨?_, ?_⟩
  · unfold tabPut
    refine tabSorted_append (tabSorted_append (tabSorted_filter h.1) ?_ tabPut_mid_sorted) ?_ (tabSorted_filter h.1)
    · intro x hx y hy
      have h1 := tabPut_mid_mem hy
      simp at hx; omega
    · intro x hx y hy
      simp only [List.mem_append] at hx
      simp at hy
      rcases hx with hx | hx
      · simp at hx; omega
      · have := tabPut_mid_mem hx; omega
  · rw [tabTight_iff]
    intro e he
    unfold tabPut at he
    have ht := tabTight_iff.mp h.2
    simp only [List.mem_append] at he
    rcases he with (he | he) | he
    · exact ht e (List.mem_of_mem_filter he)
    · exact (tabPut_mid_mem he).2.2
    · exact ht e (List.mem_of_mem_filter he)

/-- A block write: each number of the block reads as the value written there. -/
theorem tabGet_put_same [DecidableEq α] {lo i : Nat} {l : List α} (h : i < l.length) :
    tabGet d (tabPut d t lo l) (lo + i) = l[i] := by
  unfold tabPut
  rw [tabGet_append _ _ (fun e he => by simp at he; omega), tabGet_append_left _ _ (fun e he => by simp at he; omega)]
  induction l generalizing lo i with
  | nil => simp at h
  | cons v l ih =>
    cases i with
    | zero =>
      by_cases hv : v = d lo
      · have : tabGet d ((l.zipIdx (lo + 1)).filterMap (fun e => if e.1 = d e.2 then none else some (e.2, e.1))) lo = d lo := by
          have := tabGet_append (d := d) (k := lo) [] ((l.zipIdx (lo + 1)).filterMap (fun e => if e.1 = d e.2 then none else some (e.2, e.1)))
            (fun e he => by have := tabPut_mid_mem he; omega)
          simpa using this
        simpa [List.zipIdx_cons, hv] using this
      · simp [List.zipIdx_cons, hv, tabGet]
    | succ i =>
      have hi : i < l.length := by simpa using h
      have := ih (lo := lo + 1) hi
      have e : lo + 1 + i = lo + (i + 1) := by omega
      rw [e] at this
      by_cases hv : v = d lo
      · simpa [List.zipIdx_cons, hv] using this
      · simpa [List.zipIdx_cons, hv, tabGet] using this

end Sys2Proof.Machine
end

