-- ==== Sys2Proof/Laws/Words.lean ====
section
/-!
SUPPORT. The laws of state words and fields: a read after a write, and what a write leaves alone.
-/

namespace Sys2Proof.Machine

theorem testBit_fieldMask {lo width i : Nat} (hi : i < 32) :
    (fieldMask lo width).getLsbD i = (decide (lo ≤ i) && decide (i < lo + width)) := by
  unfold fieldMask
  rw [BitVec.getLsbD_ofNat, Nat.testBit_mul_two_pow, Nat.testBit_two_pow_sub_one]
  by_cases h : lo ≤ i
  · by_cases h2 : i < lo + width
    · have : i - lo < width := by omega
      simp [hi, h, h2, this]
    · have : ¬ i - lo < width := by omega
      simp [hi, h, h2, this]
  · simp [hi, h]

theorem getLsbD_putBits {w : Word} {lo width v i : Nat} (hi : i < 32) :
    (putBits w lo width v).getLsbD i =
      if lo ≤ i ∧ i < lo + width then v.testBit (i - lo) else w.getLsbD i := by
  have hm := testBit_fieldMask (lo := lo) (width := width) hi
  simp only [putBits, maskWord, BitVec.getLsbD_or, BitVec.getLsbD_and, BitVec.getLsbD_not, hm, hi, decide_true,
    Bool.true_and, BitVec.getLsbD_ofNat, Nat.testBit_mul_two_pow]
  by_cases h1 : lo ≤ i
  · by_cases h2 : i < lo + width
    · simp [h1, h2]
    · simp [h1, h2]
  · simp [h1]

theorem testBit_getBits {w : Word} {lo width i : Nat} :
    (getBits w lo width).testBit i = (decide (i < width) && w.getLsbD (lo + i)) := by
  simp [getBits, bits, Nat.testBit_mod_two_pow, Nat.testBit_div_two_pow, BitVec.getLsbD, Nat.add_comm]

/-- A field reads as it was written. -/
theorem getBits_putBits_same {w : Word} {lo width v : Nat} (h : lo + width ≤ 32) :
    getBits (putBits w lo width v) lo width = v % 2 ^ width := by
  apply Nat.eq_of_testBit_eq
  intro i
  rw [testBit_getBits, Nat.testBit_mod_two_pow]
  by_cases hi : i < width
  · rw [getLsbD_putBits (by omega)]
    have : lo ≤ lo + i ∧ lo + i < lo + width := ⟨by omega, by omega⟩
    simp [hi, this]
  · simp [hi]

/-- A write of a field leaves every field of other bits alone. -/
theorem getBits_putBits_other {w : Word} {lo width v lo2 width2 : Nat} (h2 : lo2 + width2 ≤ 32)
    (h : lo2 + width2 ≤ lo ∨ lo + width ≤ lo2) :
    getBits (putBits w lo width v) lo2 width2 = getBits w lo2 width2 := by
  apply Nat.eq_of_testBit_eq
  intro i
  rw [testBit_getBits, testBit_getBits]
  by_cases hi : i < width2
  · rw [getLsbD_putBits (by omega)]
    have : ¬ (lo ≤ lo2 + i ∧ lo2 + i < lo + width) := by omega
    simp [hi, this]
  · simp [hi]

theorem getBits_lt {w : Word} {lo width : Nat} : getBits w lo width < 2 ^ width :=
  Nat.mod_lt _ (Nat.two_pow_pos _)

theorem State.fld_lt {s : State} {f : Field} : s.fld f < 2 ^ f.width := getBits_lt

/-! ## State words -/

@[simp] theorem State.word_setWord_same {s : State} {k : Nat} {v : Word} : (s.setWord k v).word k = v := by
  simp [State.word, State.setWord]

theorem State.word_setWord_other {s : State} {k j : Nat} {v : Word} (h : j ≠ k) :
    (s.setWord k v).word j = s.word j := by
  simp [State.word, State.setWord, tabGet_set_other h]

theorem State.word_setFld_same {s : State} {f : Field} {v : Nat} :
    (s.setFld f v).word f.key = putBits (s.word f.key) f.lo f.width v := by simp [State.setFld]

theorem State.word_setFld_other {s : State} {f : Field} {v j : Nat} (h : j ≠ f.key) :
    (s.setFld f v).word j = s.word j := State.word_setWord_other h

/-- A field reads as it was written, modulo its width. -/
theorem State.fld_setFld_same {s : State} {f : Field} {v : Nat} (h : f.lo + f.width ≤ 32) :
    (s.setFld f v).fld f = v % 2 ^ f.width := by
  simp [State.fld, State.word_setFld_same, getBits_putBits_same h]

/-- A write of a field leaves every other field alone. -/
theorem State.fld_setFld_other {s : State} {f g : Field} {v : Nat} (hg : g.lo + g.width ≤ 32)
    (h : g.key ≠ f.key ∨ g.lo + g.width ≤ f.lo ∨ f.lo + f.width ≤ g.lo) :
    (s.setFld f v).fld g = s.fld g := by
  unfold State.fld
  by_cases hk : g.key = f.key
  · rw [hk, State.word_setFld_same, getBits_putBits_other hg (by tauto)]
  · rw [State.word_setFld_other hk]

/-- A counter advances and saturates. -/
theorem State.fld_count_same {s : State} {f : Field} {n : Nat} (h : f.lo + f.width ≤ 32) :
    (s.count f n).fld f = min (2 ^ f.width - 1) (s.fld f + n) := by
  have := Nat.two_pow_pos f.width
  rw [State.count, State.fld_setFld_same h, Nat.mod_eq_of_lt (by omega)]

theorem State.fld_count_other {s : State} {f g : Field} {n : Nat} (hg : g.lo + g.width ≤ 32)
    (h : g.key ≠ f.key ∨ g.lo + g.width ≤ f.lo ∨ f.lo + f.width ≤ g.lo) :
    (s.count f n).fld g = s.fld g := State.fld_setFld_other hg h

/-- A field depends on its word alone. -/
theorem State.fld_congr {s t : State} {f : Field} (h : t.word f.key = s.word f.key) : t.fld f = s.fld f := by
  unfold State.fld; rw [h]

end Sys2Proof.Machine
end

