-- ==== Sys2Proof/Laws/State.lean ====
section
/-!
SUPPORT. What each plain update of the machine's record leaves alone: one lemma a field an update, true by unfolding the
record; and the read of a unit after a write of it.
-/

namespace Sys2Proof.Machine

variable {s : State} {f : Field} {g : Bool} {k n j : Nat} {v : Word} {i : Int} {o : Out}

/-! ## setWord -/

@[simp] theorem State.setWord_pending : (s.setWord k v).pending = s.pending := rfl
@[simp] theorem State.setWord_tick : (s.setWord k v).tick = s.tick := rfl
@[simp] theorem State.setWord_free : (s.setWord k v).free = s.free := rfl
@[simp] theorem State.setWord_serial : (s.setWord k v).serial = s.serial := rfl
@[simp] theorem State.setWord_out : (s.setWord k v).out = s.out := rfl
@[simp] theorem State.setWord_wire : (s.setWord k v).wire = s.wire := rfl
@[simp] theorem State.setWord_mem : (s.setWord k v).mem = s.mem := rfl
@[simp] theorem State.setWord_poisoned : (s.setWord k v).poisoned = s.poisoned := rfl
@[simp] theorem State.setWord_patrol : (s.setWord k v).patrol = s.patrol := rfl
@[simp] theorem State.setWord_loft : (s.setWord k v).loft = s.loft := rfl
@[simp] theorem State.setWord_planeCode : (s.setWord k v).planeCode = s.planeCode := rfl
@[simp] theorem State.setWord_resample : (s.setWord k v).resample = s.resample := rfl
@[simp] theorem State.setWord_resampleLen : (s.setWord k v).resampleLen = s.resampleLen := rfl
@[simp] theorem State.setWord_flash : (s.setWord k v).flash = s.flash := rfl
@[simp] theorem State.setWord_cellar : (s.setWord k v).cellar = s.cellar := rfl
@[simp] theorem State.setWord_deferred : (s.setWord k v).deferred = s.deferred := rfl
@[simp] theorem State.setWord_ev : (s.setWord k v).ev = s.ev := rfl
@[simp] theorem State.setWord_once : (s.setWord k v).once = s.once := rfl
@[simp] theorem State.setWord_boot : (s.setWord k v).boot = s.boot := rfl
@[simp] theorem State.setWord_fuses : (s.setWord k v).fuses = s.fuses := rfl
@[simp] theorem State.setWord_pcie : (s.setWord k v).pcie = s.pcie := rfl
@[simp] theorem State.setWord_hi : (s.setWord k v).hi = s.hi := rfl
@[simp] theorem State.setWord_mb : (s.setWord k v).mb = s.mb := rfl
@[simp] theorem State.setWord_sheaves : (s.setWord k v).sheaves = s.sheaves := rfl
@[simp] theorem State.setWord_allocFails : (s.setWord k v).allocFails = s.allocFails := rfl
@[simp] theorem State.setWord_shRefused : (s.setWord k v).shRefused = s.shRefused := rfl
@[simp] theorem State.setWord_fq : (s.setWord k v).fq = s.fq := rfl
@[simp] theorem State.setWord_rings : (s.setWord k v).rings = s.rings := rfl
@[simp] theorem State.setWord_streams : (s.setWord k v).streams = s.streams := rfl
@[simp] theorem State.setWord_ports : (s.setWord k v).ports = s.ports := rfl
@[simp] theorem State.setWord_bands : (s.setWord k v).bands = s.bands := rfl
@[simp] theorem State.setWord_heads : (s.setWord k v).heads = s.heads := rfl
@[simp] theorem State.setWord_groups : (s.setWord k v).groups = s.groups := rfl
@[simp] theorem State.setWord_edges : (s.setWord k v).edges = s.edges := rfl
@[simp] theorem State.setWord_tout : (s.setWord k v).tout = s.tout := rfl
@[simp] theorem State.setWord_len : (s.setWord k v).len = s.len := rfl
@[simp] theorem State.setWord_sync : (s.setWord k v).sync = s.sync := rfl
@[simp] theorem State.setWord_ilkHigh : (s.setWord k v).ilkHigh = s.ilkHigh := rfl
@[simp] theorem State.setWord_csHeld : (s.setWord k v).csHeld = s.csHeld := rfl
@[simp] theorem State.setWord_lines : (s.setWord k v).lines = s.lines := rfl
@[simp] theorem State.setWord_strings : (s.setWord k v).strings = s.strings := rfl
@[simp] theorem State.setWord_banks : (s.setWord k v).banks = s.banks := rfl
@[simp] theorem State.setWord_drivers : (s.setWord k v).drivers = s.drivers := rfl
@[simp] theorem State.setWord_dbPorts : (s.setWord k v).dbPorts = s.dbPorts := rfl
@[simp] theorem State.setWord_dbTag : (s.setWord k v).dbTag = s.dbTag := rfl
@[simp] theorem State.setWord_matrices : (s.setWord k v).matrices = s.matrices := rfl
@[simp] theorem State.setWord_zoneRun : (s.setWord k v).zoneRun = s.zoneRun := rfl
@[simp] theorem State.setWord_zoneClear : (s.setWord k v).zoneClear = s.zoneClear := rfl
@[simp] theorem State.setWord_zoneFresh : (s.setWord k v).zoneFresh = s.zoneFresh := rfl
@[simp] theorem State.setWord_zoneAge : (s.setWord k v).zoneAge = s.zoneAge := rfl
@[simp] theorem State.setWord_converters : (s.setWord k v).converters = s.converters := rfl
@[simp] theorem State.setWord_ccGroups : (s.setWord k v).ccGroups = s.ccGroups := rfl
@[simp] theorem State.setWord_ranges : (s.setWord k v).ranges = s.ranges := rfl
@[simp] theorem State.setWord_triadBad : (s.setWord k v).triadBad = s.triadBad := rfl
@[simp] theorem State.setWord_loops : (s.setWord k v).loops = s.loops := rfl
@[simp] theorem State.setWord_pwms : (s.setWord k v).pwms = s.pwms := rfl
@[simp] theorem State.setWord_gens : (s.setWord k v).gens = s.gens := rfl
@[simp] theorem State.setWord_injs : (s.setWord k v).injs = s.injs := rfl
@[simp] theorem State.setWord_cap : (s.setWord k v).cap = s.cap := rfl
@[simp] theorem State.setWord_subs : (s.setWord k v).subs = s.subs := rfl
@[simp] theorem State.setWord_chans : (s.setWord k v).chans = s.chans := rfl
@[simp] theorem State.setWord_reqRaised : (s.setWord k v).reqRaised = s.reqRaised := rfl
@[simp] theorem State.setWord_thermal : (s.setWord k v).thermal = s.thermal := rfl
@[simp] theorem State.setWord_sensors : (s.setWord k v).sensors = s.sensors := rfl
@[simp] theorem State.setWord_calUse : (s.setWord k v).calUse = s.calUse := rfl
@[simp] theorem State.setWord_calTrack : (s.setWord k v).calTrack = s.calTrack := rfl
@[simp] theorem State.setWord_calPend : (s.setWord k v).calPend = s.calPend := rfl
@[simp] theorem State.setWord_calRuns : (s.setWord k v).calRuns = s.calRuns := rfl
@[simp] theorem State.setWord_badSlots : (s.setWord k v).badSlots = s.badSlots := rfl
@[simp] theorem State.setWord_fw : (s.setWord k v).fw = s.fw := rfl
@[simp] theorem State.setWord_jtag : (s.setWord k v).jtag = s.jtag := rfl
@[simp] theorem State.setWord_gleaner : (s.setWord k v).gleaner = s.gleaner := rfl
@[simp] theorem State.setWord_glTurn : (s.setWord k v).glTurn = s.glTurn := rfl
@[simp] theorem State.setWord_mon : (s.setWord k v).mon = s.mon := rfl
@[simp] theorem State.setWord_gov : (s.setWord k v).gov = s.gov := rfl

/-! ## setFld -/

@[simp] theorem State.setFld_pending : (s.setFld f n).pending = s.pending := rfl
@[simp] theorem State.setFld_tick : (s.setFld f n).tick = s.tick := rfl
@[simp] theorem State.setFld_free : (s.setFld f n).free = s.free := rfl
@[simp] theorem State.setFld_serial : (s.setFld f n).serial = s.serial := rfl
@[simp] theorem State.setFld_out : (s.setFld f n).out = s.out := rfl
@[simp] theorem State.setFld_wire : (s.setFld f n).wire = s.wire := rfl
@[simp] theorem State.setFld_mem : (s.setFld f n).mem = s.mem := rfl
@[simp] theorem State.setFld_poisoned : (s.setFld f n).poisoned = s.poisoned := rfl
@[simp] theorem State.setFld_patrol : (s.setFld f n).patrol = s.patrol := rfl
@[simp] theorem State.setFld_loft : (s.setFld f n).loft = s.loft := rfl
@[simp] theorem State.setFld_planeCode : (s.setFld f n).planeCode = s.planeCode := rfl
@[simp] theorem State.setFld_resample : (s.setFld f n).resample = s.resample := rfl
@[simp] theorem State.setFld_resampleLen : (s.setFld f n).resampleLen = s.resampleLen := rfl
@[simp] theorem State.setFld_flash : (s.setFld f n).flash = s.flash := rfl
@[simp] theorem State.setFld_cellar : (s.setFld f n).cellar = s.cellar := rfl
@[simp] theorem State.setFld_deferred : (s.setFld f n).deferred = s.deferred := rfl
@[simp] theorem State.setFld_ev : (s.setFld f n).ev = s.ev := rfl
@[simp] theorem State.setFld_once : (s.setFld f n).once = s.once := rfl
@[simp] theorem State.setFld_boot : (s.setFld f n).boot = s.boot := rfl
@[simp] theorem State.setFld_fuses : (s.setFld f n).fuses = s.fuses := rfl
@[simp] theorem State.setFld_pcie : (s.setFld f n).pcie = s.pcie := rfl
@[simp] theorem State.setFld_hi : (s.setFld f n).hi = s.hi := rfl
@[simp] theorem State.setFld_mb : (s.setFld f n).mb = s.mb := rfl
@[simp] theorem State.setFld_sheaves : (s.setFld f n).sheaves = s.sheaves := rfl
@[simp] theorem State.setFld_allocFails : (s.setFld f n).allocFails = s.allocFails := rfl
@[simp] theorem State.setFld_shRefused : (s.setFld f n).shRefused = s.shRefused := rfl
@[simp] theorem State.setFld_fq : (s.setFld f n).fq = s.fq := rfl
@[simp] theorem State.setFld_rings : (s.setFld f n).rings = s.rings := rfl
@[simp] theorem State.setFld_streams : (s.setFld f n).streams = s.streams := rfl
@[simp] theorem State.setFld_ports : (s.setFld f n).ports = s.ports := rfl
@[simp] theorem State.setFld_bands : (s.setFld f n).bands = s.bands := rfl
@[simp] theorem State.setFld_heads : (s.setFld f n).heads = s.heads := rfl
@[simp] theorem State.setFld_groups : (s.setFld f n).groups = s.groups := rfl
@[simp] theorem State.setFld_edges : (s.setFld f n).edges = s.edges := rfl
@[simp] theorem State.setFld_tout : (s.setFld f n).tout = s.tout := rfl
@[simp] theorem State.setFld_len : (s.setFld f n).len = s.len := rfl
@[simp] theorem State.setFld_sync : (s.setFld f n).sync = s.sync := rfl
@[simp] theorem State.setFld_ilkHigh : (s.setFld f n).ilkHigh = s.ilkHigh := rfl
@[simp] theorem State.setFld_csHeld : (s.setFld f n).csHeld = s.csHeld := rfl
@[simp] theorem State.setFld_lines : (s.setFld f n).lines = s.lines := rfl
@[simp] theorem State.setFld_strings : (s.setFld f n).strings = s.strings := rfl
@[simp] theorem State.setFld_banks : (s.setFld f n).banks = s.banks := rfl
@[simp] theorem State.setFld_drivers : (s.setFld f n).drivers = s.drivers := rfl
@[simp] theorem State.setFld_dbPorts : (s.setFld f n).dbPorts = s.dbPorts := rfl
@[simp] theorem State.setFld_dbTag : (s.setFld f n).dbTag = s.dbTag := rfl
@[simp] theorem State.setFld_matrices : (s.setFld f n).matrices = s.matrices := rfl
@[simp] theorem State.setFld_zoneRun : (s.setFld f n).zoneRun = s.zoneRun := rfl
@[simp] theorem State.setFld_zoneClear : (s.setFld f n).zoneClear = s.zoneClear := rfl
@[simp] theorem State.setFld_zoneFresh : (s.setFld f n).zoneFresh = s.zoneFresh := rfl
@[simp] theorem State.setFld_zoneAge : (s.setFld f n).zoneAge = s.zoneAge := rfl
@[simp] theorem State.setFld_converters : (s.setFld f n).converters = s.converters := rfl
@[simp] theorem State.setFld_ccGroups : (s.setFld f n).ccGroups = s.ccGroups := rfl
@[simp] theorem State.setFld_ranges : (s.setFld f n).ranges = s.ranges := rfl
@[simp] theorem State.setFld_triadBad : (s.setFld f n).triadBad = s.triadBad := rfl
@[simp] theorem State.setFld_loops : (s.setFld f n).loops = s.loops := rfl
@[simp] theorem State.setFld_pwms : (s.setFld f n).pwms = s.pwms := rfl
@[simp] theorem State.setFld_gens : (s.setFld f n).gens = s.gens := rfl
@[simp] theorem State.setFld_injs : (s.setFld f n).injs = s.injs := rfl
@[simp] theorem State.setFld_cap : (s.setFld f n).cap = s.cap := rfl
@[simp] theorem State.setFld_subs : (s.setFld f n).subs = s.subs := rfl
@[simp] theorem State.setFld_chans : (s.setFld f n).chans = s.chans := rfl
@[simp] theorem State.setFld_reqRaised : (s.setFld f n).reqRaised = s.reqRaised := rfl
@[simp] theorem State.setFld_thermal : (s.setFld f n).thermal = s.thermal := rfl
@[simp] theorem State.setFld_sensors : (s.setFld f n).sensors = s.sensors := rfl
@[simp] theorem State.setFld_calUse : (s.setFld f n).calUse = s.calUse := rfl
@[simp] theorem State.setFld_calTrack : (s.setFld f n).calTrack = s.calTrack := rfl
@[simp] theorem State.setFld_calPend : (s.setFld f n).calPend = s.calPend := rfl
@[simp] theorem State.setFld_calRuns : (s.setFld f n).calRuns = s.calRuns := rfl
@[simp] theorem State.setFld_badSlots : (s.setFld f n).badSlots = s.badSlots := rfl
@[simp] theorem State.setFld_fw : (s.setFld f n).fw = s.fw := rfl
@[simp] theorem State.setFld_jtag : (s.setFld f n).jtag = s.jtag := rfl
@[simp] theorem State.setFld_gleaner : (s.setFld f n).gleaner = s.gleaner := rfl
@[simp] theorem State.setFld_glTurn : (s.setFld f n).glTurn = s.glTurn := rfl
@[simp] theorem State.setFld_mon : (s.setFld f n).mon = s.mon := rfl
@[simp] theorem State.setFld_gov : (s.setFld f n).gov = s.gov := rfl

/-! ## setFlag -/

@[simp] theorem State.setFlag_pending : (s.setFlag f g).pending = s.pending := rfl
@[simp] theorem State.setFlag_tick : (s.setFlag f g).tick = s.tick := rfl
@[simp] theorem State.setFlag_free : (s.setFlag f g).free = s.free := rfl
@[simp] theorem State.setFlag_serial : (s.setFlag f g).serial = s.serial := rfl
@[simp] theorem State.setFlag_out : (s.setFlag f g).out = s.out := rfl
@[simp] theorem State.setFlag_wire : (s.setFlag f g).wire = s.wire := rfl
@[simp] theorem State.setFlag_mem : (s.setFlag f g).mem = s.mem := rfl
@[simp] theorem State.setFlag_poisoned : (s.setFlag f g).poisoned = s.poisoned := rfl
@[simp] theorem State.setFlag_patrol : (s.setFlag f g).patrol = s.patrol := rfl
@[simp] theorem State.setFlag_loft : (s.setFlag f g).loft = s.loft := rfl
@[simp] theorem State.setFlag_planeCode : (s.setFlag f g).planeCode = s.planeCode := rfl
@[simp] theorem State.setFlag_resample : (s.setFlag f g).resample = s.resample := rfl
@[simp] theorem State.setFlag_resampleLen : (s.setFlag f g).resampleLen = s.resampleLen := rfl
@[simp] theorem State.setFlag_flash : (s.setFlag f g).flash = s.flash := rfl
@[simp] theorem State.setFlag_cellar : (s.setFlag f g).cellar = s.cellar := rfl
@[simp] theorem State.setFlag_deferred : (s.setFlag f g).deferred = s.deferred := rfl
@[simp] theorem State.setFlag_ev : (s.setFlag f g).ev = s.ev := rfl
@[simp] theorem State.setFlag_once : (s.setFlag f g).once = s.once := rfl
@[simp] theorem State.setFlag_boot : (s.setFlag f g).boot = s.boot := rfl
@[simp] theorem State.setFlag_fuses : (s.setFlag f g).fuses = s.fuses := rfl
@[simp] theorem State.setFlag_pcie : (s.setFlag f g).pcie = s.pcie := rfl
@[simp] theorem State.setFlag_hi : (s.setFlag f g).hi = s.hi := rfl
@[simp] theorem State.setFlag_mb : (s.setFlag f g).mb = s.mb := rfl
@[simp] theorem State.setFlag_sheaves : (s.setFlag f g).sheaves = s.sheaves := rfl
@[simp] theorem State.setFlag_allocFails : (s.setFlag f g).allocFails = s.allocFails := rfl
@[simp] theorem State.setFlag_shRefused : (s.setFlag f g).shRefused = s.shRefused := rfl
@[simp] theorem State.setFlag_fq : (s.setFlag f g).fq = s.fq := rfl
@[simp] theorem State.setFlag_rings : (s.setFlag f g).rings = s.rings := rfl
@[simp] theorem State.setFlag_streams : (s.setFlag f g).streams = s.streams := rfl
@[simp] theorem State.setFlag_ports : (s.setFlag f g).ports = s.ports := rfl
@[simp] theorem State.setFlag_bands : (s.setFlag f g).bands = s.bands := rfl
@[simp] theorem State.setFlag_heads : (s.setFlag f g).heads = s.heads := rfl
@[simp] theorem State.setFlag_groups : (s.setFlag f g).groups = s.groups := rfl
@[simp] theorem State.setFlag_edges : (s.setFlag f g).edges = s.edges := rfl
@[simp] theorem State.setFlag_tout : (s.setFlag f g).tout = s.tout := rfl
@[simp] theorem State.setFlag_len : (s.setFlag f g).len = s.len := rfl
@[simp] theorem State.setFlag_sync : (s.setFlag f g).sync = s.sync := rfl
@[simp] theorem State.setFlag_ilkHigh : (s.setFlag f g).ilkHigh = s.ilkHigh := rfl
@[simp] theorem State.setFlag_csHeld : (s.setFlag f g).csHeld = s.csHeld := rfl
@[simp] theorem State.setFlag_lines : (s.setFlag f g).lines = s.lines := rfl
@[simp] theorem State.setFlag_strings : (s.setFlag f g).strings = s.strings := rfl
@[simp] theorem State.setFlag_banks : (s.setFlag f g).banks = s.banks := rfl
@[simp] theorem State.setFlag_drivers : (s.setFlag f g).drivers = s.drivers := rfl
@[simp] theorem State.setFlag_dbPorts : (s.setFlag f g).dbPorts = s.dbPorts := rfl
@[simp] theorem State.setFlag_dbTag : (s.setFlag f g).dbTag = s.dbTag := rfl
@[simp] theorem State.setFlag_matrices : (s.setFlag f g).matrices = s.matrices := rfl
@[simp] theorem State.setFlag_zoneRun : (s.setFlag f g).zoneRun = s.zoneRun := rfl
@[simp] theorem State.setFlag_zoneClear : (s.setFlag f g).zoneClear = s.zoneClear := rfl
@[simp] theorem State.setFlag_zoneFresh : (s.setFlag f g).zoneFresh = s.zoneFresh := rfl
@[simp] theorem State.setFlag_zoneAge : (s.setFlag f g).zoneAge = s.zoneAge := rfl
@[simp] theorem State.setFlag_converters : (s.setFlag f g).converters = s.converters := rfl
@[simp] theorem State.setFlag_ccGroups : (s.setFlag f g).ccGroups = s.ccGroups := rfl
@[simp] theorem State.setFlag_ranges : (s.setFlag f g).ranges = s.ranges := rfl
@[simp] theorem State.setFlag_triadBad : (s.setFlag f g).triadBad = s.triadBad := rfl
@[simp] theorem State.setFlag_loops : (s.setFlag f g).loops = s.loops := rfl
@[simp] theorem State.setFlag_pwms : (s.setFlag f g).pwms = s.pwms := rfl
@[simp] theorem State.setFlag_gens : (s.setFlag f g).gens = s.gens := rfl
@[simp] theorem State.setFlag_injs : (s.setFlag f g).injs = s.injs := rfl
@[simp] theorem State.setFlag_cap : (s.setFlag f g).cap = s.cap := rfl
@[simp] theorem State.setFlag_subs : (s.setFlag f g).subs = s.subs := rfl
@[simp] theorem State.setFlag_chans : (s.setFlag f g).chans = s.chans := rfl
@[simp] theorem State.setFlag_reqRaised : (s.setFlag f g).reqRaised = s.reqRaised := rfl
@[simp] theorem State.setFlag_thermal : (s.setFlag f g).thermal = s.thermal := rfl
@[simp] theorem State.setFlag_sensors : (s.setFlag f g).sensors = s.sensors := rfl
@[simp] theorem State.setFlag_calUse : (s.setFlag f g).calUse = s.calUse := rfl
@[simp] theorem State.setFlag_calTrack : (s.setFlag f g).calTrack = s.calTrack := rfl
@[simp] theorem State.setFlag_calPend : (s.setFlag f g).calPend = s.calPend := rfl
@[simp] theorem State.setFlag_calRuns : (s.setFlag f g).calRuns = s.calRuns := rfl
@[simp] theorem State.setFlag_badSlots : (s.setFlag f g).badSlots = s.badSlots := rfl
@[simp] theorem State.setFlag_fw : (s.setFlag f g).fw = s.fw := rfl
@[simp] theorem State.setFlag_jtag : (s.setFlag f g).jtag = s.jtag := rfl
@[simp] theorem State.setFlag_gleaner : (s.setFlag f g).gleaner = s.gleaner := rfl
@[simp] theorem State.setFlag_glTurn : (s.setFlag f g).glTurn = s.glTurn := rfl
@[simp] theorem State.setFlag_mon : (s.setFlag f g).mon = s.mon := rfl
@[simp] theorem State.setFlag_gov : (s.setFlag f g).gov = s.gov := rfl

/-! ## setInt -/

@[simp] theorem State.setInt_pending : (s.setInt f i).pending = s.pending := rfl
@[simp] theorem State.setInt_tick : (s.setInt f i).tick = s.tick := rfl
@[simp] theorem State.setInt_free : (s.setInt f i).free = s.free := rfl
@[simp] theorem State.setInt_serial : (s.setInt f i).serial = s.serial := rfl
@[simp] theorem State.setInt_out : (s.setInt f i).out = s.out := rfl
@[simp] theorem State.setInt_wire : (s.setInt f i).wire = s.wire := rfl
@[simp] theorem State.setInt_mem : (s.setInt f i).mem = s.mem := rfl
@[simp] theorem State.setInt_poisoned : (s.setInt f i).poisoned = s.poisoned := rfl
@[simp] theorem State.setInt_patrol : (s.setInt f i).patrol = s.patrol := rfl
@[simp] theorem State.setInt_loft : (s.setInt f i).loft = s.loft := rfl
@[simp] theorem State.setInt_planeCode : (s.setInt f i).planeCode = s.planeCode := rfl
@[simp] theorem State.setInt_resample : (s.setInt f i).resample = s.resample := rfl
@[simp] theorem State.setInt_resampleLen : (s.setInt f i).resampleLen = s.resampleLen := rfl
@[simp] theorem State.setInt_flash : (s.setInt f i).flash = s.flash := rfl
@[simp] theorem State.setInt_cellar : (s.setInt f i).cellar = s.cellar := rfl
@[simp] theorem State.setInt_deferred : (s.setInt f i).deferred = s.deferred := rfl
@[simp] theorem State.setInt_ev : (s.setInt f i).ev = s.ev := rfl
@[simp] theorem State.setInt_once : (s.setInt f i).once = s.once := rfl
@[simp] theorem State.setInt_boot : (s.setInt f i).boot = s.boot := rfl
@[simp] theorem State.setInt_fuses : (s.setInt f i).fuses = s.fuses := rfl
@[simp] theorem State.setInt_pcie : (s.setInt f i).pcie = s.pcie := rfl
@[simp] theorem State.setInt_hi : (s.setInt f i).hi = s.hi := rfl
@[simp] theorem State.setInt_mb : (s.setInt f i).mb = s.mb := rfl
@[simp] theorem State.setInt_sheaves : (s.setInt f i).sheaves = s.sheaves := rfl
@[simp] theorem State.setInt_allocFails : (s.setInt f i).allocFails = s.allocFails := rfl
@[simp] theorem State.setInt_shRefused : (s.setInt f i).shRefused = s.shRefused := rfl
@[simp] theorem State.setInt_fq : (s.setInt f i).fq = s.fq := rfl
@[simp] theorem State.setInt_rings : (s.setInt f i).rings = s.rings := rfl
@[simp] theorem State.setInt_streams : (s.setInt f i).streams = s.streams := rfl
@[simp] theorem State.setInt_ports : (s.setInt f i).ports = s.ports := rfl
@[simp] theorem State.setInt_bands : (s.setInt f i).bands = s.bands := rfl
@[simp] theorem State.setInt_heads : (s.setInt f i).heads = s.heads := rfl
@[simp] theorem State.setInt_groups : (s.setInt f i).groups = s.groups := rfl
@[simp] theorem State.setInt_edges : (s.setInt f i).edges = s.edges := rfl
@[simp] theorem State.setInt_tout : (s.setInt f i).tout = s.tout := rfl
@[simp] theorem State.setInt_len : (s.setInt f i).len = s.len := rfl
@[simp] theorem State.setInt_sync : (s.setInt f i).sync = s.sync := rfl
@[simp] theorem State.setInt_ilkHigh : (s.setInt f i).ilkHigh = s.ilkHigh := rfl
@[simp] theorem State.setInt_csHeld : (s.setInt f i).csHeld = s.csHeld := rfl
@[simp] theorem State.setInt_lines : (s.setInt f i).lines = s.lines := rfl
@[simp] theorem State.setInt_strings : (s.setInt f i).strings = s.strings := rfl
@[simp] theorem State.setInt_banks : (s.setInt f i).banks = s.banks := rfl
@[simp] theorem State.setInt_drivers : (s.setInt f i).drivers = s.drivers := rfl
@[simp] theorem State.setInt_dbPorts : (s.setInt f i).dbPorts = s.dbPorts := rfl
@[simp] theorem State.setInt_dbTag : (s.setInt f i).dbTag = s.dbTag := rfl
@[simp] theorem State.setInt_matrices : (s.setInt f i).matrices = s.matrices := rfl
@[simp] theorem State.setInt_zoneRun : (s.setInt f i).zoneRun = s.zoneRun := rfl
@[simp] theorem State.setInt_zoneClear : (s.setInt f i).zoneClear = s.zoneClear := rfl
@[simp] theorem State.setInt_zoneFresh : (s.setInt f i).zoneFresh = s.zoneFresh := rfl
@[simp] theorem State.setInt_zoneAge : (s.setInt f i).zoneAge = s.zoneAge := rfl
@[simp] theorem State.setInt_converters : (s.setInt f i).converters = s.converters := rfl
@[simp] theorem State.setInt_ccGroups : (s.setInt f i).ccGroups = s.ccGroups := rfl
@[simp] theorem State.setInt_ranges : (s.setInt f i).ranges = s.ranges := rfl
@[simp] theorem State.setInt_triadBad : (s.setInt f i).triadBad = s.triadBad := rfl
@[simp] theorem State.setInt_loops : (s.setInt f i).loops = s.loops := rfl
@[simp] theorem State.setInt_pwms : (s.setInt f i).pwms = s.pwms := rfl
@[simp] theorem State.setInt_gens : (s.setInt f i).gens = s.gens := rfl
@[simp] theorem State.setInt_injs : (s.setInt f i).injs = s.injs := rfl
@[simp] theorem State.setInt_cap : (s.setInt f i).cap = s.cap := rfl
@[simp] theorem State.setInt_subs : (s.setInt f i).subs = s.subs := rfl
@[simp] theorem State.setInt_chans : (s.setInt f i).chans = s.chans := rfl
@[simp] theorem State.setInt_reqRaised : (s.setInt f i).reqRaised = s.reqRaised := rfl
@[simp] theorem State.setInt_thermal : (s.setInt f i).thermal = s.thermal := rfl
@[simp] theorem State.setInt_sensors : (s.setInt f i).sensors = s.sensors := rfl
@[simp] theorem State.setInt_calUse : (s.setInt f i).calUse = s.calUse := rfl
@[simp] theorem State.setInt_calTrack : (s.setInt f i).calTrack = s.calTrack := rfl
@[simp] theorem State.setInt_calPend : (s.setInt f i).calPend = s.calPend := rfl
@[simp] theorem State.setInt_calRuns : (s.setInt f i).calRuns = s.calRuns := rfl
@[simp] theorem State.setInt_badSlots : (s.setInt f i).badSlots = s.badSlots := rfl
@[simp] theorem State.setInt_fw : (s.setInt f i).fw = s.fw := rfl
@[simp] theorem State.setInt_jtag : (s.setInt f i).jtag = s.jtag := rfl
@[simp] theorem State.setInt_gleaner : (s.setInt f i).gleaner = s.gleaner := rfl
@[simp] theorem State.setInt_glTurn : (s.setInt f i).glTurn = s.glTurn := rfl
@[simp] theorem State.setInt_mon : (s.setInt f i).mon = s.mon := rfl
@[simp] theorem State.setInt_gov : (s.setInt f i).gov = s.gov := rfl

/-! ## count -/

@[simp] theorem State.count_pending : (s.count f n).pending = s.pending := rfl
@[simp] theorem State.count_tick : (s.count f n).tick = s.tick := rfl
@[simp] theorem State.count_free : (s.count f n).free = s.free := rfl
@[simp] theorem State.count_serial : (s.count f n).serial = s.serial := rfl
@[simp] theorem State.count_out : (s.count f n).out = s.out := rfl
@[simp] theorem State.count_wire : (s.count f n).wire = s.wire := rfl
@[simp] theorem State.count_mem : (s.count f n).mem = s.mem := rfl
@[simp] theorem State.count_poisoned : (s.count f n).poisoned = s.poisoned := rfl
@[simp] theorem State.count_patrol : (s.count f n).patrol = s.patrol := rfl
@[simp] theorem State.count_loft : (s.count f n).loft = s.loft := rfl
@[simp] theorem State.count_planeCode : (s.count f n).planeCode = s.planeCode := rfl
@[simp] theorem State.count_resample : (s.count f n).resample = s.resample := rfl
@[simp] theorem State.count_resampleLen : (s.count f n).resampleLen = s.resampleLen := rfl
@[simp] theorem State.count_flash : (s.count f n).flash = s.flash := rfl
@[simp] theorem State.count_cellar : (s.count f n).cellar = s.cellar := rfl
@[simp] theorem State.count_deferred : (s.count f n).deferred = s.deferred := rfl
@[simp] theorem State.count_ev : (s.count f n).ev = s.ev := rfl
@[simp] theorem State.count_once : (s.count f n).once = s.once := rfl
@[simp] theorem State.count_boot : (s.count f n).boot = s.boot := rfl
@[simp] theorem State.count_fuses : (s.count f n).fuses = s.fuses := rfl
@[simp] theorem State.count_pcie : (s.count f n).pcie = s.pcie := rfl
@[simp] theorem State.count_hi : (s.count f n).hi = s.hi := rfl
@[simp] theorem State.count_mb : (s.count f n).mb = s.mb := rfl
@[simp] theorem State.count_sheaves : (s.count f n).sheaves = s.sheaves := rfl
@[simp] theorem State.count_allocFails : (s.count f n).allocFails = s.allocFails := rfl
@[simp] theorem State.count_shRefused : (s.count f n).shRefused = s.shRefused := rfl
@[simp] theorem State.count_fq : (s.count f n).fq = s.fq := rfl
@[simp] theorem State.count_rings : (s.count f n).rings = s.rings := rfl
@[simp] theorem State.count_streams : (s.count f n).streams = s.streams := rfl
@[simp] theorem State.count_ports : (s.count f n).ports = s.ports := rfl
@[simp] theorem State.count_bands : (s.count f n).bands = s.bands := rfl
@[simp] theorem State.count_heads : (s.count f n).heads = s.heads := rfl
@[simp] theorem State.count_groups : (s.count f n).groups = s.groups := rfl
@[simp] theorem State.count_edges : (s.count f n).edges = s.edges := rfl
@[simp] theorem State.count_tout : (s.count f n).tout = s.tout := rfl
@[simp] theorem State.count_len : (s.count f n).len = s.len := rfl
@[simp] theorem State.count_sync : (s.count f n).sync = s.sync := rfl
@[simp] theorem State.count_ilkHigh : (s.count f n).ilkHigh = s.ilkHigh := rfl
@[simp] theorem State.count_csHeld : (s.count f n).csHeld = s.csHeld := rfl
@[simp] theorem State.count_lines : (s.count f n).lines = s.lines := rfl
@[simp] theorem State.count_strings : (s.count f n).strings = s.strings := rfl
@[simp] theorem State.count_banks : (s.count f n).banks = s.banks := rfl
@[simp] theorem State.count_drivers : (s.count f n).drivers = s.drivers := rfl
@[simp] theorem State.count_dbPorts : (s.count f n).dbPorts = s.dbPorts := rfl
@[simp] theorem State.count_dbTag : (s.count f n).dbTag = s.dbTag := rfl
@[simp] theorem State.count_matrices : (s.count f n).matrices = s.matrices := rfl
@[simp] theorem State.count_zoneRun : (s.count f n).zoneRun = s.zoneRun := rfl
@[simp] theorem State.count_zoneClear : (s.count f n).zoneClear = s.zoneClear := rfl
@[simp] theorem State.count_zoneFresh : (s.count f n).zoneFresh = s.zoneFresh := rfl
@[simp] theorem State.count_zoneAge : (s.count f n).zoneAge = s.zoneAge := rfl
@[simp] theorem State.count_converters : (s.count f n).converters = s.converters := rfl
@[simp] theorem State.count_ccGroups : (s.count f n).ccGroups = s.ccGroups := rfl
@[simp] theorem State.count_ranges : (s.count f n).ranges = s.ranges := rfl
@[simp] theorem State.count_triadBad : (s.count f n).triadBad = s.triadBad := rfl
@[simp] theorem State.count_loops : (s.count f n).loops = s.loops := rfl
@[simp] theorem State.count_pwms : (s.count f n).pwms = s.pwms := rfl
@[simp] theorem State.count_gens : (s.count f n).gens = s.gens := rfl
@[simp] theorem State.count_injs : (s.count f n).injs = s.injs := rfl
@[simp] theorem State.count_cap : (s.count f n).cap = s.cap := rfl
@[simp] theorem State.count_subs : (s.count f n).subs = s.subs := rfl
@[simp] theorem State.count_chans : (s.count f n).chans = s.chans := rfl
@[simp] theorem State.count_reqRaised : (s.count f n).reqRaised = s.reqRaised := rfl
@[simp] theorem State.count_thermal : (s.count f n).thermal = s.thermal := rfl
@[simp] theorem State.count_sensors : (s.count f n).sensors = s.sensors := rfl
@[simp] theorem State.count_calUse : (s.count f n).calUse = s.calUse := rfl
@[simp] theorem State.count_calTrack : (s.count f n).calTrack = s.calTrack := rfl
@[simp] theorem State.count_calPend : (s.count f n).calPend = s.calPend := rfl
@[simp] theorem State.count_calRuns : (s.count f n).calRuns = s.calRuns := rfl
@[simp] theorem State.count_badSlots : (s.count f n).badSlots = s.badSlots := rfl
@[simp] theorem State.count_fw : (s.count f n).fw = s.fw := rfl
@[simp] theorem State.count_jtag : (s.count f n).jtag = s.jtag := rfl
@[simp] theorem State.count_gleaner : (s.count f n).gleaner = s.gleaner := rfl
@[simp] theorem State.count_glTurn : (s.count f n).glTurn = s.glTurn := rfl
@[simp] theorem State.count_mon : (s.count f n).mon = s.mon := rfl
@[simp] theorem State.count_gov : (s.count f n).gov = s.gov := rfl

/-! ## countWrap -/

@[simp] theorem State.countWrap_pending : (s.countWrap f n).pending = s.pending := rfl
@[simp] theorem State.countWrap_tick : (s.countWrap f n).tick = s.tick := rfl
@[simp] theorem State.countWrap_free : (s.countWrap f n).free = s.free := rfl
@[simp] theorem State.countWrap_serial : (s.countWrap f n).serial = s.serial := rfl
@[simp] theorem State.countWrap_out : (s.countWrap f n).out = s.out := rfl
@[simp] theorem State.countWrap_wire : (s.countWrap f n).wire = s.wire := rfl
@[simp] theorem State.countWrap_mem : (s.countWrap f n).mem = s.mem := rfl
@[simp] theorem State.countWrap_poisoned : (s.countWrap f n).poisoned = s.poisoned := rfl
@[simp] theorem State.countWrap_patrol : (s.countWrap f n).patrol = s.patrol := rfl
@[simp] theorem State.countWrap_loft : (s.countWrap f n).loft = s.loft := rfl
@[simp] theorem State.countWrap_planeCode : (s.countWrap f n).planeCode = s.planeCode := rfl
@[simp] theorem State.countWrap_resample : (s.countWrap f n).resample = s.resample := rfl
@[simp] theorem State.countWrap_resampleLen : (s.countWrap f n).resampleLen = s.resampleLen := rfl
@[simp] theorem State.countWrap_flash : (s.countWrap f n).flash = s.flash := rfl
@[simp] theorem State.countWrap_cellar : (s.countWrap f n).cellar = s.cellar := rfl
@[simp] theorem State.countWrap_deferred : (s.countWrap f n).deferred = s.deferred := rfl
@[simp] theorem State.countWrap_ev : (s.countWrap f n).ev = s.ev := rfl
@[simp] theorem State.countWrap_once : (s.countWrap f n).once = s.once := rfl
@[simp] theorem State.countWrap_boot : (s.countWrap f n).boot = s.boot := rfl
@[simp] theorem State.countWrap_fuses : (s.countWrap f n).fuses = s.fuses := rfl
@[simp] theorem State.countWrap_pcie : (s.countWrap f n).pcie = s.pcie := rfl
@[simp] theorem State.countWrap_hi : (s.countWrap f n).hi = s.hi := rfl
@[simp] theorem State.countWrap_mb : (s.countWrap f n).mb = s.mb := rfl
@[simp] theorem State.countWrap_sheaves : (s.countWrap f n).sheaves = s.sheaves := rfl
@[simp] theorem State.countWrap_allocFails : (s.countWrap f n).allocFails = s.allocFails := rfl
@[simp] theorem State.countWrap_shRefused : (s.countWrap f n).shRefused = s.shRefused := rfl
@[simp] theorem State.countWrap_fq : (s.countWrap f n).fq = s.fq := rfl
@[simp] theorem State.countWrap_rings : (s.countWrap f n).rings = s.rings := rfl
@[simp] theorem State.countWrap_streams : (s.countWrap f n).streams = s.streams := rfl
@[simp] theorem State.countWrap_ports : (s.countWrap f n).ports = s.ports := rfl
@[simp] theorem State.countWrap_bands : (s.countWrap f n).bands = s.bands := rfl
@[simp] theorem State.countWrap_heads : (s.countWrap f n).heads = s.heads := rfl
@[simp] theorem State.countWrap_groups : (s.countWrap f n).groups = s.groups := rfl
@[simp] theorem State.countWrap_edges : (s.countWrap f n).edges = s.edges := rfl
@[simp] theorem State.countWrap_tout : (s.countWrap f n).tout = s.tout := rfl
@[simp] theorem State.countWrap_len : (s.countWrap f n).len = s.len := rfl
@[simp] theorem State.countWrap_sync : (s.countWrap f n).sync = s.sync := rfl
@[simp] theorem State.countWrap_ilkHigh : (s.countWrap f n).ilkHigh = s.ilkHigh := rfl
@[simp] theorem State.countWrap_csHeld : (s.countWrap f n).csHeld = s.csHeld := rfl
@[simp] theorem State.countWrap_lines : (s.countWrap f n).lines = s.lines := rfl
@[simp] theorem State.countWrap_strings : (s.countWrap f n).strings = s.strings := rfl
@[simp] theorem State.countWrap_banks : (s.countWrap f n).banks = s.banks := rfl
@[simp] theorem State.countWrap_drivers : (s.countWrap f n).drivers = s.drivers := rfl
@[simp] theorem State.countWrap_dbPorts : (s.countWrap f n).dbPorts = s.dbPorts := rfl
@[simp] theorem State.countWrap_dbTag : (s.countWrap f n).dbTag = s.dbTag := rfl
@[simp] theorem State.countWrap_matrices : (s.countWrap f n).matrices = s.matrices := rfl
@[simp] theorem State.countWrap_zoneRun : (s.countWrap f n).zoneRun = s.zoneRun := rfl
@[simp] theorem State.countWrap_zoneClear : (s.countWrap f n).zoneClear = s.zoneClear := rfl
@[simp] theorem State.countWrap_zoneFresh : (s.countWrap f n).zoneFresh = s.zoneFresh := rfl
@[simp] theorem State.countWrap_zoneAge : (s.countWrap f n).zoneAge = s.zoneAge := rfl
@[simp] theorem State.countWrap_converters : (s.countWrap f n).converters = s.converters := rfl
@[simp] theorem State.countWrap_ccGroups : (s.countWrap f n).ccGroups = s.ccGroups := rfl
@[simp] theorem State.countWrap_ranges : (s.countWrap f n).ranges = s.ranges := rfl
@[simp] theorem State.countWrap_triadBad : (s.countWrap f n).triadBad = s.triadBad := rfl
@[simp] theorem State.countWrap_loops : (s.countWrap f n).loops = s.loops := rfl
@[simp] theorem State.countWrap_pwms : (s.countWrap f n).pwms = s.pwms := rfl
@[simp] theorem State.countWrap_gens : (s.countWrap f n).gens = s.gens := rfl
@[simp] theorem State.countWrap_injs : (s.countWrap f n).injs = s.injs := rfl
@[simp] theorem State.countWrap_cap : (s.countWrap f n).cap = s.cap := rfl
@[simp] theorem State.countWrap_subs : (s.countWrap f n).subs = s.subs := rfl
@[simp] theorem State.countWrap_chans : (s.countWrap f n).chans = s.chans := rfl
@[simp] theorem State.countWrap_reqRaised : (s.countWrap f n).reqRaised = s.reqRaised := rfl
@[simp] theorem State.countWrap_thermal : (s.countWrap f n).thermal = s.thermal := rfl
@[simp] theorem State.countWrap_sensors : (s.countWrap f n).sensors = s.sensors := rfl
@[simp] theorem State.countWrap_calUse : (s.countWrap f n).calUse = s.calUse := rfl
@[simp] theorem State.countWrap_calTrack : (s.countWrap f n).calTrack = s.calTrack := rfl
@[simp] theorem State.countWrap_calPend : (s.countWrap f n).calPend = s.calPend := rfl
@[simp] theorem State.countWrap_calRuns : (s.countWrap f n).calRuns = s.calRuns := rfl
@[simp] theorem State.countWrap_badSlots : (s.countWrap f n).badSlots = s.badSlots := rfl
@[simp] theorem State.countWrap_fw : (s.countWrap f n).fw = s.fw := rfl
@[simp] theorem State.countWrap_jtag : (s.countWrap f n).jtag = s.jtag := rfl
@[simp] theorem State.countWrap_gleaner : (s.countWrap f n).gleaner = s.gleaner := rfl
@[simp] theorem State.countWrap_glTurn : (s.countWrap f n).glTurn = s.glTurn := rfl
@[simp] theorem State.countWrap_mon : (s.countWrap f n).mon = s.mon := rfl
@[simp] theorem State.countWrap_gov : (s.countWrap f n).gov = s.gov := rfl

/-! ## emit -/

@[simp] theorem State.emit_pending : (s.emit o).pending = s.pending := rfl
@[simp] theorem State.emit_tick : (s.emit o).tick = s.tick := rfl
@[simp] theorem State.emit_free : (s.emit o).free = s.free := rfl
@[simp] theorem State.emit_serial : (s.emit o).serial = s.serial := rfl
@[simp] theorem State.emit_wire : (s.emit o).wire = s.wire := rfl
@[simp] theorem State.emit_regs : (s.emit o).regs = s.regs := rfl
@[simp] theorem State.emit_mem : (s.emit o).mem = s.mem := rfl
@[simp] theorem State.emit_poisoned : (s.emit o).poisoned = s.poisoned := rfl
@[simp] theorem State.emit_patrol : (s.emit o).patrol = s.patrol := rfl
@[simp] theorem State.emit_loft : (s.emit o).loft = s.loft := rfl
@[simp] theorem State.emit_planeCode : (s.emit o).planeCode = s.planeCode := rfl
@[simp] theorem State.emit_resample : (s.emit o).resample = s.resample := rfl
@[simp] theorem State.emit_resampleLen : (s.emit o).resampleLen = s.resampleLen := rfl
@[simp] theorem State.emit_flash : (s.emit o).flash = s.flash := rfl
@[simp] theorem State.emit_cellar : (s.emit o).cellar = s.cellar := rfl
@[simp] theorem State.emit_deferred : (s.emit o).deferred = s.deferred := rfl
@[simp] theorem State.emit_ev : (s.emit o).ev = s.ev := rfl
@[simp] theorem State.emit_once : (s.emit o).once = s.once := rfl
@[simp] theorem State.emit_boot : (s.emit o).boot = s.boot := rfl
@[simp] theorem State.emit_fuses : (s.emit o).fuses = s.fuses := rfl
@[simp] theorem State.emit_pcie : (s.emit o).pcie = s.pcie := rfl
@[simp] theorem State.emit_hi : (s.emit o).hi = s.hi := rfl
@[simp] theorem State.emit_mb : (s.emit o).mb = s.mb := rfl
@[simp] theorem State.emit_sheaves : (s.emit o).sheaves = s.sheaves := rfl
@[simp] theorem State.emit_allocFails : (s.emit o).allocFails = s.allocFails := rfl
@[simp] theorem State.emit_shRefused : (s.emit o).shRefused = s.shRefused := rfl
@[simp] theorem State.emit_fq : (s.emit o).fq = s.fq := rfl
@[simp] theorem State.emit_rings : (s.emit o).rings = s.rings := rfl
@[simp] theorem State.emit_streams : (s.emit o).streams = s.streams := rfl
@[simp] theorem State.emit_ports : (s.emit o).ports = s.ports := rfl
@[simp] theorem State.emit_bands : (s.emit o).bands = s.bands := rfl
@[simp] theorem State.emit_heads : (s.emit o).heads = s.heads := rfl
@[simp] theorem State.emit_groups : (s.emit o).groups = s.groups := rfl
@[simp] theorem State.emit_edges : (s.emit o).edges = s.edges := rfl
@[simp] theorem State.emit_tout : (s.emit o).tout = s.tout := rfl
@[simp] theorem State.emit_len : (s.emit o).len = s.len := rfl
@[simp] theorem State.emit_sync : (s.emit o).sync = s.sync := rfl
@[simp] theorem State.emit_ilkHigh : (s.emit o).ilkHigh = s.ilkHigh := rfl
@[simp] theorem State.emit_csHeld : (s.emit o).csHeld = s.csHeld := rfl
@[simp] theorem State.emit_lines : (s.emit o).lines = s.lines := rfl
@[simp] theorem State.emit_strings : (s.emit o).strings = s.strings := rfl
@[simp] theorem State.emit_banks : (s.emit o).banks = s.banks := rfl
@[simp] theorem State.emit_drivers : (s.emit o).drivers = s.drivers := rfl
@[simp] theorem State.emit_dbPorts : (s.emit o).dbPorts = s.dbPorts := rfl
@[simp] theorem State.emit_dbTag : (s.emit o).dbTag = s.dbTag := rfl
@[simp] theorem State.emit_matrices : (s.emit o).matrices = s.matrices := rfl
@[simp] theorem State.emit_zoneRun : (s.emit o).zoneRun = s.zoneRun := rfl
@[simp] theorem State.emit_zoneClear : (s.emit o).zoneClear = s.zoneClear := rfl
@[simp] theorem State.emit_zoneFresh : (s.emit o).zoneFresh = s.zoneFresh := rfl
@[simp] theorem State.emit_zoneAge : (s.emit o).zoneAge = s.zoneAge := rfl
@[simp] theorem State.emit_converters : (s.emit o).converters = s.converters := rfl
@[simp] theorem State.emit_ccGroups : (s.emit o).ccGroups = s.ccGroups := rfl
@[simp] theorem State.emit_ranges : (s.emit o).ranges = s.ranges := rfl
@[simp] theorem State.emit_triadBad : (s.emit o).triadBad = s.triadBad := rfl
@[simp] theorem State.emit_loops : (s.emit o).loops = s.loops := rfl
@[simp] theorem State.emit_pwms : (s.emit o).pwms = s.pwms := rfl
@[simp] theorem State.emit_gens : (s.emit o).gens = s.gens := rfl
@[simp] theorem State.emit_injs : (s.emit o).injs = s.injs := rfl
@[simp] theorem State.emit_cap : (s.emit o).cap = s.cap := rfl
@[simp] theorem State.emit_subs : (s.emit o).subs = s.subs := rfl
@[simp] theorem State.emit_chans : (s.emit o).chans = s.chans := rfl
@[simp] theorem State.emit_reqRaised : (s.emit o).reqRaised = s.reqRaised := rfl
@[simp] theorem State.emit_thermal : (s.emit o).thermal = s.thermal := rfl
@[simp] theorem State.emit_sensors : (s.emit o).sensors = s.sensors := rfl
@[simp] theorem State.emit_calUse : (s.emit o).calUse = s.calUse := rfl
@[simp] theorem State.emit_calTrack : (s.emit o).calTrack = s.calTrack := rfl
@[simp] theorem State.emit_calPend : (s.emit o).calPend = s.calPend := rfl
@[simp] theorem State.emit_calRuns : (s.emit o).calRuns = s.calRuns := rfl
@[simp] theorem State.emit_badSlots : (s.emit o).badSlots = s.badSlots := rfl
@[simp] theorem State.emit_fw : (s.emit o).fw = s.fw := rfl
@[simp] theorem State.emit_jtag : (s.emit o).jtag = s.jtag := rfl
@[simp] theorem State.emit_gleaner : (s.emit o).gleaner = s.gleaner := rfl
@[simp] theorem State.emit_glTurn : (s.emit o).glTurn = s.glTurn := rfl
@[simp] theorem State.emit_mon : (s.emit o).mon = s.mon := rfl
@[simp] theorem State.emit_gov : (s.emit o).gov = s.gov := rfl

@[simp] theorem State.emit_out : (s.emit o).out = o :: s.out := rfl

/-! ## Sequences -/

/-- What every step of a sequence leaves alone, the sequence leaves alone. -/
theorem State.doAll_keep {α β : Type} {l : List α} {h : State → α → State} (p : State → β) (hp : ∀ u x, p (h u x) = p u) :
    p (s.doAll l h) = p s := by
  unfold State.doAll
  induction l generalizing s with
  | nil => rfl
  | cons a l ih => exact (ih (s := h s a)).trans (hp s a)

theorem State.doIf_keep {β : Type} {h : State → State} (p : State → β) (hp : ∀ u, p (h u) = p u) : p (s.doIf g h) = p s := by
  unfold State.doIf; split
  · exact hp s
  · rfl

@[simp] theorem State.doIf_true {h : State → State} : s.doIf true h = h s := rfl
@[simp] theorem State.doIf_false {h : State → State} : s.doIf false h = s := rfl

/-! ## Units: a read after a write, and the words -/

@[simp] theorem State.port_setPort_same {x : Port} : (s.setPort n x).port n = x := by simp [State.port, State.setPort]
theorem State.port_setPort_other {x : Port} (h : j ≠ n) : (s.setPort n x).port j = s.port j := by
  simp [State.port, State.setPort, tabGet_set_other h]
@[simp] theorem State.port_modPort_same {x : Port → Port} : (s.modPort n x).port n = x (s.port n) := by simp [State.modPort]
theorem State.port_modPort_other {x : Port → Port} (h : j ≠ n) : (s.modPort n x).port j = s.port j := State.port_setPort_other h
@[simp] theorem State.word_setPort {x : Port} : (s.setPort n x).word k = s.word k := rfl
@[simp] theorem State.word_modPort {x : Port → Port} : (s.modPort n x).word k = s.word k := rfl
@[simp] theorem State.fld_setPort {x : Port} : (s.setPort n x).fld f = s.fld f := rfl
@[simp] theorem State.fld_modPort {x : Port → Port} : (s.modPort n x).fld f = s.fld f := rfl
@[simp] theorem State.bandOf_setBandOf_same {x : Band} : (s.setBandOf n x).bandOf n = x := by simp [State.bandOf, State.setBandOf]
theorem State.bandOf_setBandOf_other {x : Band} (h : j ≠ n) : (s.setBandOf n x).bandOf j = s.bandOf j := by
  simp [State.bandOf, State.setBandOf, tabGet_set_other h]
@[simp] theorem State.bandOf_modBandOf_same {x : Band → Band} : (s.modBandOf n x).bandOf n = x (s.bandOf n) := by simp [State.modBandOf]
theorem State.bandOf_modBandOf_other {x : Band → Band} (h : j ≠ n) : (s.modBandOf n x).bandOf j = s.bandOf j := State.bandOf_setBandOf_other h
@[simp] theorem State.word_setBandOf {x : Band} : (s.setBandOf n x).word k = s.word k := rfl
@[simp] theorem State.word_modBandOf {x : Band → Band} : (s.modBandOf n x).word k = s.word k := rfl
@[simp] theorem State.fld_setBandOf {x : Band} : (s.setBandOf n x).fld f = s.fld f := rfl
@[simp] theorem State.fld_modBandOf {x : Band → Band} : (s.modBandOf n x).fld f = s.fld f := rfl
@[simp] theorem State.headOf_setHeadOf_same {x : Head} : (s.setHeadOf n x).headOf n = x := by simp [State.headOf, State.setHeadOf]
theorem State.headOf_setHeadOf_other {x : Head} (h : j ≠ n) : (s.setHeadOf n x).headOf j = s.headOf j := by
  simp [State.headOf, State.setHeadOf, tabGet_set_other h]
@[simp] theorem State.headOf_modHeadOf_same {x : Head → Head} : (s.modHeadOf n x).headOf n = x (s.headOf n) := by simp [State.modHeadOf]
theorem State.headOf_modHeadOf_other {x : Head → Head} (h : j ≠ n) : (s.modHeadOf n x).headOf j = s.headOf j := State.headOf_setHeadOf_other h
@[simp] theorem State.word_setHeadOf {x : Head} : (s.setHeadOf n x).word k = s.word k := rfl
@[simp] theorem State.word_modHeadOf {x : Head → Head} : (s.modHeadOf n x).word k = s.word k := rfl
@[simp] theorem State.fld_setHeadOf {x : Head} : (s.setHeadOf n x).fld f = s.fld f := rfl
@[simp] theorem State.fld_modHeadOf {x : Head → Head} : (s.modHeadOf n x).fld f = s.fld f := rfl
@[simp] theorem State.group_setGroup_same {x : Group} : (s.setGroup n x).group n = x := by simp [State.group, State.setGroup]
theorem State.group_setGroup_other {x : Group} (h : j ≠ n) : (s.setGroup n x).group j = s.group j := by
  simp [State.group, State.setGroup, tabGet_set_other h]
@[simp] theorem State.group_modGroup_same {x : Group → Group} : (s.modGroup n x).group n = x (s.group n) := by simp [State.modGroup]
theorem State.group_modGroup_other {x : Group → Group} (h : j ≠ n) : (s.modGroup n x).group j = s.group j := State.group_setGroup_other h
@[simp] theorem State.word_setGroup {x : Group} : (s.setGroup n x).word k = s.word k := rfl
@[simp] theorem State.word_modGroup {x : Group → Group} : (s.modGroup n x).word k = s.word k := rfl
@[simp] theorem State.fld_setGroup {x : Group} : (s.setGroup n x).fld f = s.fld f := rfl
@[simp] theorem State.fld_modGroup {x : Group → Group} : (s.modGroup n x).fld f = s.fld f := rfl
@[simp] theorem State.line_setLine_same {x : Line} : (s.setLine n x).line n = x := by simp [State.line, State.setLine]
theorem State.line_setLine_other {x : Line} (h : j ≠ n) : (s.setLine n x).line j = s.line j := by
  simp [State.line, State.setLine, tabGet_set_other h]
@[simp] theorem State.line_modLine_same {x : Line → Line} : (s.modLine n x).line n = x (s.line n) := by simp [State.modLine]
theorem State.line_modLine_other {x : Line → Line} (h : j ≠ n) : (s.modLine n x).line j = s.line j := State.line_setLine_other h
@[simp] theorem State.word_setLine {x : Line} : (s.setLine n x).word k = s.word k := rfl
@[simp] theorem State.word_modLine {x : Line → Line} : (s.modLine n x).word k = s.word k := rfl
@[simp] theorem State.fld_setLine {x : Line} : (s.setLine n x).fld f = s.fld f := rfl
@[simp] theorem State.fld_modLine {x : Line → Line} : (s.modLine n x).fld f = s.fld f := rfl
@[simp] theorem State.str_setStr_same {x : Str} : (s.setStr n x).str n = x := by simp [State.str, State.setStr]
theorem State.str_setStr_other {x : Str} (h : j ≠ n) : (s.setStr n x).str j = s.str j := by
  simp [State.str, State.setStr, tabGet_set_other h]
@[simp] theorem State.str_modStr_same {x : Str → Str} : (s.modStr n x).str n = x (s.str n) := by simp [State.modStr]
theorem State.str_modStr_other {x : Str → Str} (h : j ≠ n) : (s.modStr n x).str j = s.str j := State.str_setStr_other h
@[simp] theorem State.word_setStr {x : Str} : (s.setStr n x).word k = s.word k := rfl
@[simp] theorem State.word_modStr {x : Str → Str} : (s.modStr n x).word k = s.word k := rfl
@[simp] theorem State.fld_setStr {x : Str} : (s.setStr n x).fld f = s.fld f := rfl
@[simp] theorem State.fld_modStr {x : Str → Str} : (s.modStr n x).fld f = s.fld f := rfl
@[simp] theorem State.bank_setBank_same {x : Bank} : (s.setBank n x).bank n = x := by simp [State.bank, State.setBank]
theorem State.bank_setBank_other {x : Bank} (h : j ≠ n) : (s.setBank n x).bank j = s.bank j := by
  simp [State.bank, State.setBank, tabGet_set_other h]
@[simp] theorem State.bank_modBank_same {x : Bank → Bank} : (s.modBank n x).bank n = x (s.bank n) := by simp [State.modBank]
theorem State.bank_modBank_other {x : Bank → Bank} (h : j ≠ n) : (s.modBank n x).bank j = s.bank j := State.bank_setBank_other h
@[simp] theorem State.word_setBank {x : Bank} : (s.setBank n x).word k = s.word k := rfl
@[simp] theorem State.word_modBank {x : Bank → Bank} : (s.modBank n x).word k = s.word k := rfl
@[simp] theorem State.fld_setBank {x : Bank} : (s.setBank n x).fld f = s.fld f := rfl
@[simp] theorem State.fld_modBank {x : Bank → Bank} : (s.modBank n x).fld f = s.fld f := rfl
@[simp] theorem State.driver_setDriver_same {x : Driver} : (s.setDriver n x).driver n = x := by simp [State.driver, State.setDriver]
theorem State.driver_setDriver_other {x : Driver} (h : j ≠ n) : (s.setDriver n x).driver j = s.driver j := by
  simp [State.driver, State.setDriver, tabGet_set_other h]
@[simp] theorem State.driver_modDriver_same {x : Driver → Driver} : (s.modDriver n x).driver n = x (s.driver n) := by simp [State.modDriver]
theorem State.driver_modDriver_other {x : Driver → Driver} (h : j ≠ n) : (s.modDriver n x).driver j = s.driver j := State.driver_setDriver_other h
@[simp] theorem State.word_setDriver {x : Driver} : (s.setDriver n x).word k = s.word k := rfl
@[simp] theorem State.word_modDriver {x : Driver → Driver} : (s.modDriver n x).word k = s.word k := rfl
@[simp] theorem State.fld_setDriver {x : Driver} : (s.setDriver n x).fld f = s.fld f := rfl
@[simp] theorem State.fld_modDriver {x : Driver → Driver} : (s.modDriver n x).fld f = s.fld f := rfl
@[simp] theorem State.dbPort_setDbPort_same {x : DbPort} : (s.setDbPort n x).dbPort n = x := by simp [State.dbPort, State.setDbPort]
theorem State.dbPort_setDbPort_other {x : DbPort} (h : j ≠ n) : (s.setDbPort n x).dbPort j = s.dbPort j := by
  simp [State.dbPort, State.setDbPort, tabGet_set_other h]
@[simp] theorem State.dbPort_modDbPort_same {x : DbPort → DbPort} : (s.modDbPort n x).dbPort n = x (s.dbPort n) := by simp [State.modDbPort]
theorem State.dbPort_modDbPort_other {x : DbPort → DbPort} (h : j ≠ n) : (s.modDbPort n x).dbPort j = s.dbPort j := State.dbPort_setDbPort_other h
@[simp] theorem State.word_setDbPort {x : DbPort} : (s.setDbPort n x).word k = s.word k := rfl
@[simp] theorem State.word_modDbPort {x : DbPort → DbPort} : (s.modDbPort n x).word k = s.word k := rfl
@[simp] theorem State.fld_setDbPort {x : DbPort} : (s.setDbPort n x).fld f = s.fld f := rfl
@[simp] theorem State.fld_modDbPort {x : DbPort → DbPort} : (s.modDbPort n x).fld f = s.fld f := rfl
@[simp] theorem State.matrix_setMatrix_same {x : Matrix} : (s.setMatrix n x).matrix n = x := by simp [State.matrix, State.setMatrix]
theorem State.matrix_setMatrix_other {x : Matrix} (h : j ≠ n) : (s.setMatrix n x).matrix j = s.matrix j := by
  simp [State.matrix, State.setMatrix, tabGet_set_other h]
@[simp] theorem State.matrix_modMatrix_same {x : Matrix → Matrix} : (s.modMatrix n x).matrix n = x (s.matrix n) := by simp [State.modMatrix]
theorem State.matrix_modMatrix_other {x : Matrix → Matrix} (h : j ≠ n) : (s.modMatrix n x).matrix j = s.matrix j := State.matrix_setMatrix_other h
@[simp] theorem State.word_setMatrix {x : Matrix} : (s.setMatrix n x).word k = s.word k := rfl
@[simp] theorem State.word_modMatrix {x : Matrix → Matrix} : (s.modMatrix n x).word k = s.word k := rfl
@[simp] theorem State.fld_setMatrix {x : Matrix} : (s.setMatrix n x).fld f = s.fld f := rfl
@[simp] theorem State.fld_modMatrix {x : Matrix → Matrix} : (s.modMatrix n x).fld f = s.fld f := rfl
@[simp] theorem State.ccGroup_setCcGroup_same {x : CcGroup} : (s.setCcGroup n x).ccGroup n = x := by simp [State.ccGroup, State.setCcGroup]
theorem State.ccGroup_setCcGroup_other {x : CcGroup} (h : j ≠ n) : (s.setCcGroup n x).ccGroup j = s.ccGroup j := by
  simp [State.ccGroup, State.setCcGroup, tabGet_set_other h]
@[simp] theorem State.ccGroup_modCcGroup_same {x : CcGroup → CcGroup} : (s.modCcGroup n x).ccGroup n = x (s.ccGroup n) := by simp [State.modCcGroup]
theorem State.ccGroup_modCcGroup_other {x : CcGroup → CcGroup} (h : j ≠ n) : (s.modCcGroup n x).ccGroup j = s.ccGroup j := State.ccGroup_setCcGroup_other h
@[simp] theorem State.word_setCcGroup {x : CcGroup} : (s.setCcGroup n x).word k = s.word k := rfl
@[simp] theorem State.word_modCcGroup {x : CcGroup → CcGroup} : (s.modCcGroup n x).word k = s.word k := rfl
@[simp] theorem State.fld_setCcGroup {x : CcGroup} : (s.setCcGroup n x).fld f = s.fld f := rfl
@[simp] theorem State.fld_modCcGroup {x : CcGroup → CcGroup} : (s.modCcGroup n x).fld f = s.fld f := rfl
@[simp] theorem State.loop_setLoop_same {x : Loop} : (s.setLoop n x).loop n = x := by simp [State.loop, State.setLoop]
theorem State.loop_setLoop_other {x : Loop} (h : j ≠ n) : (s.setLoop n x).loop j = s.loop j := by
  simp [State.loop, State.setLoop, tabGet_set_other h]
@[simp] theorem State.loop_modLoop_same {x : Loop → Loop} : (s.modLoop n x).loop n = x (s.loop n) := by simp [State.modLoop]
theorem State.loop_modLoop_other {x : Loop → Loop} (h : j ≠ n) : (s.modLoop n x).loop j = s.loop j := State.loop_setLoop_other h
@[simp] theorem State.word_setLoop {x : Loop} : (s.setLoop n x).word k = s.word k := rfl
@[simp] theorem State.word_modLoop {x : Loop → Loop} : (s.modLoop n x).word k = s.word k := rfl
@[simp] theorem State.fld_setLoop {x : Loop} : (s.setLoop n x).fld f = s.fld f := rfl
@[simp] theorem State.fld_modLoop {x : Loop → Loop} : (s.modLoop n x).fld f = s.fld f := rfl
@[simp] theorem State.pwm_setPwm_same {x : Pwm} : (s.setPwm n x).pwm n = x := by simp [State.pwm, State.setPwm]
theorem State.pwm_setPwm_other {x : Pwm} (h : j ≠ n) : (s.setPwm n x).pwm j = s.pwm j := by
  simp [State.pwm, State.setPwm, tabGet_set_other h]
@[simp] theorem State.pwm_modPwm_same {x : Pwm → Pwm} : (s.modPwm n x).pwm n = x (s.pwm n) := by simp [State.modPwm]
theorem State.pwm_modPwm_other {x : Pwm → Pwm} (h : j ≠ n) : (s.modPwm n x).pwm j = s.pwm j := State.pwm_setPwm_other h
@[simp] theorem State.word_setPwm {x : Pwm} : (s.setPwm n x).word k = s.word k := rfl
@[simp] theorem State.word_modPwm {x : Pwm → Pwm} : (s.modPwm n x).word k = s.word k := rfl
@[simp] theorem State.fld_setPwm {x : Pwm} : (s.setPwm n x).fld f = s.fld f := rfl
@[simp] theorem State.fld_modPwm {x : Pwm → Pwm} : (s.modPwm n x).fld f = s.fld f := rfl
@[simp] theorem State.gen_setGen_same {x : Gen} : (s.setGen n x).gen n = x := by simp [State.gen, State.setGen]
theorem State.gen_setGen_other {x : Gen} (h : j ≠ n) : (s.setGen n x).gen j = s.gen j := by
  simp [State.gen, State.setGen, tabGet_set_other h]
@[simp] theorem State.gen_modGen_same {x : Gen → Gen} : (s.modGen n x).gen n = x (s.gen n) := by simp [State.modGen]
theorem State.gen_modGen_other {x : Gen → Gen} (h : j ≠ n) : (s.modGen n x).gen j = s.gen j := State.gen_setGen_other h
@[simp] theorem State.word_setGen {x : Gen} : (s.setGen n x).word k = s.word k := rfl
@[simp] theorem State.word_modGen {x : Gen → Gen} : (s.modGen n x).word k = s.word k := rfl
@[simp] theorem State.fld_setGen {x : Gen} : (s.setGen n x).fld f = s.fld f := rfl
@[simp] theorem State.fld_modGen {x : Gen → Gen} : (s.modGen n x).fld f = s.fld f := rfl
@[simp] theorem State.inj_setInj_same {x : Inj} : (s.setInj n x).inj n = x := by simp [State.inj, State.setInj]
theorem State.inj_setInj_other {x : Inj} (h : j ≠ n) : (s.setInj n x).inj j = s.inj j := by
  simp [State.inj, State.setInj, tabGet_set_other h]
@[simp] theorem State.inj_modInj_same {x : Inj → Inj} : (s.modInj n x).inj n = x (s.inj n) := by simp [State.modInj]
theorem State.inj_modInj_other {x : Inj → Inj} (h : j ≠ n) : (s.modInj n x).inj j = s.inj j := State.inj_setInj_other h
@[simp] theorem State.word_setInj {x : Inj} : (s.setInj n x).word k = s.word k := rfl
@[simp] theorem State.word_modInj {x : Inj → Inj} : (s.modInj n x).word k = s.word k := rfl
@[simp] theorem State.fld_setInj {x : Inj} : (s.setInj n x).fld f = s.fld f := rfl
@[simp] theorem State.fld_modInj {x : Inj → Inj} : (s.modInj n x).fld f = s.fld f := rfl
@[simp] theorem State.sub_setSub_same {x : SubCh} : (s.setSub n x).sub n = x := by simp [State.sub, State.setSub]
theorem State.sub_setSub_other {x : SubCh} (h : j ≠ n) : (s.setSub n x).sub j = s.sub j := by
  simp [State.sub, State.setSub, tabGet_set_other h]
@[simp] theorem State.sub_modSub_same {x : SubCh → SubCh} : (s.modSub n x).sub n = x (s.sub n) := by simp [State.modSub]
theorem State.sub_modSub_other {x : SubCh → SubCh} (h : j ≠ n) : (s.modSub n x).sub j = s.sub j := State.sub_setSub_other h
@[simp] theorem State.word_setSub {x : SubCh} : (s.setSub n x).word k = s.word k := rfl
@[simp] theorem State.word_modSub {x : SubCh → SubCh} : (s.modSub n x).word k = s.word k := rfl
@[simp] theorem State.fld_setSub {x : SubCh} : (s.setSub n x).fld f = s.fld f := rfl
@[simp] theorem State.fld_modSub {x : SubCh → SubCh} : (s.modSub n x).fld f = s.fld f := rfl
@[simp] theorem State.chan_setChan_same {x : Chan} : (s.setChan n x).chan n = x := by simp [State.chan, State.setChan]
theorem State.chan_setChan_other {x : Chan} (h : j ≠ n) : (s.setChan n x).chan j = s.chan j := by
  simp [State.chan, State.setChan, tabGet_set_other h]
@[simp] theorem State.chan_modChan_same {x : Chan → Chan} : (s.modChan n x).chan n = x (s.chan n) := by simp [State.modChan]
theorem State.chan_modChan_other {x : Chan → Chan} (h : j ≠ n) : (s.modChan n x).chan j = s.chan j := State.chan_setChan_other h
@[simp] theorem State.word_setChan {x : Chan} : (s.setChan n x).word k = s.word k := rfl
@[simp] theorem State.word_modChan {x : Chan → Chan} : (s.modChan n x).word k = s.word k := rfl
@[simp] theorem State.fld_setChan {x : Chan} : (s.setChan n x).fld f = s.fld f := rfl
@[simp] theorem State.fld_modChan {x : Chan → Chan} : (s.modChan n x).fld f = s.fld f := rfl
@[simp] theorem State.sensor_setSensor_same {x : Sensor} : (s.setSensor n x).sensor n = x := by simp [State.sensor, State.setSensor]
theorem State.sensor_setSensor_other {x : Sensor} (h : j ≠ n) : (s.setSensor n x).sensor j = s.sensor j := by
  simp [State.sensor, State.setSensor, tabGet_set_other h]
@[simp] theorem State.sensor_modSensor_same {x : Sensor → Sensor} : (s.modSensor n x).sensor n = x (s.sensor n) := by simp [State.modSensor]
theorem State.sensor_modSensor_other {x : Sensor → Sensor} (h : j ≠ n) : (s.modSensor n x).sensor j = s.sensor j := State.sensor_setSensor_other h
@[simp] theorem State.word_setSensor {x : Sensor} : (s.setSensor n x).word k = s.word k := rfl
@[simp] theorem State.word_modSensor {x : Sensor → Sensor} : (s.modSensor n x).word k = s.word k := rfl
@[simp] theorem State.fld_setSensor {x : Sensor} : (s.setSensor n x).fld f = s.fld f := rfl
@[simp] theorem State.fld_modSensor {x : Sensor → Sensor} : (s.modSensor n x).fld f = s.fld f := rfl
@[simp] theorem State.task_setTask_same {x : GlTask} : (s.setTask n x).task n = x := by simp [State.task, State.setTask]
theorem State.task_setTask_other {x : GlTask} (h : j ≠ n) : (s.setTask n x).task j = s.task j := by
  simp [State.task, State.setTask, tabGet_set_other h]
@[simp] theorem State.task_modTask_same {x : GlTask → GlTask} : (s.modTask n x).task n = x (s.task n) := by simp [State.modTask]
theorem State.task_modTask_other {x : GlTask → GlTask} (h : j ≠ n) : (s.modTask n x).task j = s.task j := State.task_setTask_other h
@[simp] theorem State.word_setTask {x : GlTask} : (s.setTask n x).word k = s.word k := rfl
@[simp] theorem State.word_modTask {x : GlTask → GlTask} : (s.modTask n x).word k = s.word k := rfl
@[simp] theorem State.fld_setTask {x : GlTask} : (s.setTask n x).fld f = s.fld f := rfl
@[simp] theorem State.fld_modTask {x : GlTask → GlTask} : (s.modTask n x).fld f = s.fld f := rfl
@[simp] theorem State.mbox_setMbox_same {x : Mailbox} : (s.setMbox n x).mbox n = x := by simp [State.mbox, State.setMbox]
theorem State.mbox_setMbox_other {x : Mailbox} (h : j ≠ n) : (s.setMbox n x).mbox j = s.mbox j := by
  simp [State.mbox, State.setMbox, tabGet_set_other h]
@[simp] theorem State.mbox_modMbox_same {x : Mailbox → Mailbox} : (s.modMbox n x).mbox n = x (s.mbox n) := by simp [State.modMbox]
theorem State.mbox_modMbox_other {x : Mailbox → Mailbox} (h : j ≠ n) : (s.modMbox n x).mbox j = s.mbox j := State.mbox_setMbox_other h
@[simp] theorem State.word_setMbox {x : Mailbox} : (s.setMbox n x).word k = s.word k := rfl
@[simp] theorem State.word_modMbox {x : Mailbox → Mailbox} : (s.modMbox n x).word k = s.word k := rfl
@[simp] theorem State.fld_setMbox {x : Mailbox} : (s.setMbox n x).fld f = s.fld f := rfl
@[simp] theorem State.fld_modMbox {x : Mailbox → Mailbox} : (s.modMbox n x).fld f = s.fld f := rfl
@[simp] theorem State.sheaf_setSheaf_same {x : Sheaf} : (s.setSheaf n x).sheaf n = x := by simp [State.sheaf, State.setSheaf]
theorem State.sheaf_setSheaf_other {x : Sheaf} (h : j ≠ n) : (s.setSheaf n x).sheaf j = s.sheaf j := by
  simp [State.sheaf, State.setSheaf, tabGet_set_other h]
@[simp] theorem State.sheaf_modSheaf_same {x : Sheaf → Sheaf} : (s.modSheaf n x).sheaf n = x (s.sheaf n) := by simp [State.modSheaf]
theorem State.sheaf_modSheaf_other {x : Sheaf → Sheaf} (h : j ≠ n) : (s.modSheaf n x).sheaf j = s.sheaf j := State.sheaf_setSheaf_other h
@[simp] theorem State.word_setSheaf {x : Sheaf} : (s.setSheaf n x).word k = s.word k := rfl
@[simp] theorem State.word_modSheaf {x : Sheaf → Sheaf} : (s.modSheaf n x).word k = s.word k := rfl
@[simp] theorem State.fld_setSheaf {x : Sheaf} : (s.setSheaf n x).fld f = s.fld f := rfl
@[simp] theorem State.fld_modSheaf {x : Sheaf → Sheaf} : (s.modSheaf n x).fld f = s.fld f := rfl
@[simp] theorem State.fqueue_setFqueue_same {x : FlipQueue} : (s.setFqueue n x).fqueue n = x := by simp [State.fqueue, State.setFqueue]
theorem State.fqueue_setFqueue_other {x : FlipQueue} (h : j ≠ n) : (s.setFqueue n x).fqueue j = s.fqueue j := by
  simp [State.fqueue, State.setFqueue, tabGet_set_other h]
@[simp] theorem State.fqueue_modFqueue_same {x : FlipQueue → FlipQueue} : (s.modFqueue n x).fqueue n = x (s.fqueue n) := by simp [State.modFqueue]
theorem State.fqueue_modFqueue_other {x : FlipQueue → FlipQueue} (h : j ≠ n) : (s.modFqueue n x).fqueue j = s.fqueue j := State.fqueue_setFqueue_other h
@[simp] theorem State.word_setFqueue {x : FlipQueue} : (s.setFqueue n x).word k = s.word k := rfl
@[simp] theorem State.word_modFqueue {x : FlipQueue → FlipQueue} : (s.modFqueue n x).word k = s.word k := rfl
@[simp] theorem State.fld_setFqueue {x : FlipQueue} : (s.setFqueue n x).fld f = s.fld f := rfl
@[simp] theorem State.fld_modFqueue {x : FlipQueue → FlipQueue} : (s.modFqueue n x).fld f = s.fld f := rfl
@[simp] theorem State.ring_setRing_same {x : List SrcFrame} : (s.setRing n x).ring n = x := by simp [State.ring, State.setRing]
theorem State.ring_setRing_other {x : List SrcFrame} (h : j ≠ n) : (s.setRing n x).ring j = s.ring j := by
  simp [State.ring, State.setRing, tabGet_set_other h]
@[simp] theorem State.ring_modRing_same {x : List SrcFrame → List SrcFrame} : (s.modRing n x).ring n = x (s.ring n) := by simp [State.modRing]
theorem State.ring_modRing_other {x : List SrcFrame → List SrcFrame} (h : j ≠ n) : (s.modRing n x).ring j = s.ring j := State.ring_setRing_other h
@[simp] theorem State.word_setRing {x : List SrcFrame} : (s.setRing n x).word k = s.word k := rfl
@[simp] theorem State.word_modRing {x : List SrcFrame → List SrcFrame} : (s.modRing n x).word k = s.word k := rfl
@[simp] theorem State.fld_setRing {x : List SrcFrame} : (s.setRing n x).fld f = s.fld f := rfl
@[simp] theorem State.fld_modRing {x : List SrcFrame → List SrcFrame} : (s.modRing n x).fld f = s.fld f := rfl
@[simp] theorem State.stream_setStream_same {x : Stream} : (s.setStream n x).stream n = x := by simp [State.stream, State.setStream]
theorem State.stream_setStream_other {x : Stream} (h : j ≠ n) : (s.setStream n x).stream j = s.stream j := by
  simp [State.stream, State.setStream, tabGet_set_other h]
@[simp] theorem State.stream_modStream_same {x : Stream → Stream} : (s.modStream n x).stream n = x (s.stream n) := by simp [State.modStream]
theorem State.stream_modStream_other {x : Stream → Stream} (h : j ≠ n) : (s.modStream n x).stream j = s.stream j := State.stream_setStream_other h
@[simp] theorem State.word_setStream {x : Stream} : (s.setStream n x).word k = s.word k := rfl
@[simp] theorem State.word_modStream {x : Stream → Stream} : (s.modStream n x).word k = s.word k := rfl
@[simp] theorem State.fld_setStream {x : Stream} : (s.setStream n x).fld f = s.fld f := rfl
@[simp] theorem State.fld_modStream {x : Stream → Stream} : (s.modStream n x).fld f = s.fld f := rfl
@[simp] theorem State.slotOf_setSlotOf_same {x : CellarSlot} : (s.setSlotOf n x).slotOf n = x := by simp [State.slotOf, State.setSlotOf]
theorem State.slotOf_setSlotOf_other {x : CellarSlot} (h : j ≠ n) : (s.setSlotOf n x).slotOf j = s.slotOf j := by
  simp [State.slotOf, State.setSlotOf, tabGet_set_other h]
@[simp] theorem State.slotOf_modSlotOf_same {x : CellarSlot → CellarSlot} : (s.modSlotOf n x).slotOf n = x (s.slotOf n) := by simp [State.modSlotOf]
theorem State.slotOf_modSlotOf_other {x : CellarSlot → CellarSlot} (h : j ≠ n) : (s.modSlotOf n x).slotOf j = s.slotOf j := State.slotOf_setSlotOf_other h
@[simp] theorem State.word_setSlotOf {x : CellarSlot} : (s.setSlotOf n x).word k = s.word k := rfl
@[simp] theorem State.word_modSlotOf {x : CellarSlot → CellarSlot} : (s.modSlotOf n x).word k = s.word k := rfl
@[simp] theorem State.fld_setSlotOf {x : CellarSlot} : (s.setSlotOf n x).fld f = s.fld f := rfl
@[simp] theorem State.fld_modSlotOf {x : CellarSlot → CellarSlot} : (s.modSlotOf n x).fld f = s.fld f := rfl

end Sys2Proof.Machine
end

