-- ==== Sys2Proof/Laws/Events.lean ====
section
/-!
SUPPORT. What raising a source, sending a message and clearing latches do, and what they leave alone.
-/

namespace Sys2Proof.Machine

variable {s : State} {i j a b d vec k : Nat} {f : Field}

/-- The parts of the machine that events reach: latches and data words, the pending bits, and the messages. -/
theorem State.message_parts : s.message vec =
    { s with out := (s.message vec).out, pcie := { s.pcie with pending := (s.message vec).pcie.pending } } := by
  unfold State.message; split <;> rfl

@[simp] theorem State.message_ev : (s.message vec).ev = s.ev := by unfold State.message; split <;> rfl

theorem State.raiseData_parts : s.raiseData i d =
    { s with ev := (s.raiseData i d).ev, out := (s.raiseData i d).out,
             pcie := { s.pcie with pending := (s.raiseData i d).pcie.pending } } := by
  unfold State.raiseData
  dsimp only
  split
  · rfl
  · split
    · generalize routeVector (s.route i) = v
      have he : ((s.setLatch i d).message v).ev = (s.setLatch i d).ev := State.message_ev
      have hp := State.message_parts (s := s.setLatch i d) (vec := v)
      generalize (s.setLatch i d).message v = m at he hp
      rw [he]; exact hp
    · rfl

theorem State.raise2_parts : s.raise2 i a b =
    { s with ev := (s.raise2 i a b).ev, out := (s.raise2 i a b).out,
             pcie := { s.pcie with pending := (s.raise2 i a b).pcie.pending } } := State.raiseData_parts

theorem State.raise_parts : s.raise i a =
    { s with ev := (s.raise i a).ev, out := (s.raise i a).out,
             pcie := { s.pcie with pending := (s.raise i a).pcie.pending } } := State.raiseData_parts


@[simp] theorem State.word_raiseData : (s.raiseData i d).word k = s.word k := by rw [State.raiseData_parts]; rfl
@[simp] theorem State.word_raise2 : (s.raise2 i a b).word k = s.word k := State.word_raiseData
@[simp] theorem State.word_raise : (s.raise i a).word k = s.word k := State.word_raiseData
@[simp] theorem State.fld_raise2 : (s.raise2 i a b).fld f = s.fld f := by unfold State.fld; rw [State.word_raise2]
@[simp] theorem State.fld_raise : (s.raise i a).fld f = s.fld f := State.fld_raise2

/-- The latches, enables, data words and routes after a raise. -/
theorem State.raiseData_ev (h : isSource i = true) : (s.raiseData i d).ev =
    { s.ev with
      latch := s.ev.latch ||| evBit i
      data := tabSet (fun _ => 0) s.ev.data i (BitVec.ofNat 32 (d % 2 ^ 31 + if s.latched i then 2 ^ 31 else 0)) } := by
  unfold State.raiseData
  rw [h]
  dsimp only [Bool.not_true]
  rw [if_neg (by decide)]
  split
  · rw [State.message_ev]; rfl
  · rfl

theorem isSource_lt (h : isSource i = true) : i < 256 := by
  unfold isSource severity at h
  rw [Option.isSome_map, List.find?_isSome] at h
  obtain ⟨e, he, hx⟩ := h
  have : ∀ e ∈ eventSources, e.1 < 256 := by decide
  have := this e he
  simp at hx; omega

theorem getLsbD_evBit (hi : i < 256) (hj : j < 256) : (evBit i).getLsbD j = decide (j = i) := by
  unfold evBit
  rw [BitVec.getLsbD_shiftLeft]
  by_cases h : j = i
  · subst h; simp [hj]
  · by_cases h2 : j < i
    · simp [h2, h]
    · have : j - i ≠ 0 := by omega
      simp [h, hj, h2, BitVec.getLsbD_one, this]

/-- A raise sets the latch and writes the data word (R310). -/
theorem State.raise2_raised (h : isSource i = true) : Raised i a b s (s.raise2 i a b) := by
  have hi := isSource_lt h
  constructor
  · unfold State.latched State.raise2
    rw [State.raiseData_ev h]
    simp [getLsbD_evBit hi hi]
  · unfold State.evData State.raise2
    rw [State.raiseData_ev h]
    dsimp only
    rw [tabGet_set_same]
    congr 1
    have : a % 2 ^ 16 + b % 2 ^ 15 * 2 ^ 16 < 2 ^ 31 := by omega
    rw [Nat.mod_eq_of_lt this]

theorem State.raise_raised (h : isSource i = true) : Raised i a 0 s (s.raise i a) := State.raise2_raised h

/-- A raise leaves every other source alone. -/
theorem State.raise2_only : OnlyEvents [i] s (s.raise2 i a b) := by
  unfold State.raise2
  by_cases h : isSource i = true
  · have hi := isSource_lt h
    refine ⟨fun j hj hj2 => ?_, by rw [State.raiseData_ev h], by rw [State.raiseData_ev h]⟩
    have hne : j ≠ i := by simpa using hj
    constructor
    · unfold State.latched
      rw [State.raiseData_ev h]
      simp [getLsbD_evBit hi hj2, hne]
    · unfold State.evData
      rw [State.raiseData_ev h]
      exact tabGet_set_other hne
  · have : s.raiseData i (a % 2 ^ 16 + b % 2 ^ 15 * 2 ^ 16) = s := by
      unfold State.raiseData; rw [Bool.not_eq_true] at h; rw [h]; rfl
    rw [this]
    exact ⟨fun _ _ _ => ⟨rfl, rfl⟩, rfl, rfl⟩

theorem State.raise_only : OnlyEvents [i] s (s.raise i a) := State.raise2_only

end Sys2Proof.Machine
end

