-- ==== Sys2Proof/Laws/Keeps.lean ====
section
/-!
SUPPORT. The relation `Keeps` for the named operations: none of them touches the queue or the fuses, and every write keeps
the canonical forms.
-/

namespace Sys2Proof.Machine

theorem Keeps.refl (s : State) : Keeps s s := ⟨rfl, rfl, id⟩

theorem Keeps.trans {r s t : State} (h : Keeps r s) (k : Keeps s t) : Keeps r t :=
  ⟨k.pending.trans h.pending, k.fuses.trans h.fuses, fun c => k.canonical (h.canonical c)⟩

/-- What an outcome's next state keeps. -/
def KeepsR (r : State) (x : Result) : Prop := ∀ t, x = .next t → Keeps r t

theorem KeepsR.next {r t : State} (h : Keeps r t) : KeepsR r (.next t) := by
  intro u e; cases e; exact h

/-- An update of the machine's record in fields that `Keeps` does not speak of. -/
theorem Keeps.mkK {r t : State} {a1 : Nat} {a2 : Nat} {a3 : Nat} {a4 : List Out} {a5 : List Column} {a8 : List Nat} {a9 : List Nat} {a11 : Tab Word} {a12 : Tab (BitVec 64)} {a13 : Tab Nat} {a15 : Tab CellarSlot} {a16 : List (Nat × List Word)} {a17 : Events} {a18 : Tab Bool} {a19 : Boot} {a21 : Pcie} {a22 : HostIf} {a23 : Tab Mailbox} {a24 : Tab Sheaf} {a25 : Nat} {a26 : Nat} {a27 : Tab FlipQueue} {a28 : Tab (List SrcFrame)} {a29 : Tab Stream} {a30 : Tab Port} {a31 : Tab Band} {a32 : Tab Head} {a33 : Tab Group} {a34 : List Edge} {a35 : BitVec 128} {a36 : BitVec 8} {a37 : BitVec 8} {a38 : Bool} {a39 : Bool} {a40 : Tab Line} {a41 : Tab Str} {a42 : Tab Bank} {a43 : Tab Driver} {a44 : Tab DbPort} {a45 : Nat} {a46 : Tab Matrix} {a47 : Tab Nat} {a48 : List Nat} {a49 : List Nat} {a50 : Tab Nat} {a51 : Tab Byte} {a52 : Tab CcGroup} {a53 : Tab Nat} {a54 : Tab Nat} {a55 : Tab Loop} {a56 : Tab Pwm} {a57 : Tab Gen} {a58 : Tab Inj} {a59 : Capture} {a60 : Tab SubCh} {a61 : Tab Chan} {a62 : Tab Nat} {a63 : Thermal} {a64 : Tab Sensor} {a65 : Tab (List Int)} {a66 : Tab (List Int)} {a67 : Tab (List Int)} {a68 : Tab (List CalEnd)} {a69 : List Nat} {a70 : Firmware} {a71 : Jtag} {a72 : Tab GlTask} {a73 : Nat} {a74 : Monitor} {a75 : Governor} (h : Keeps r t) :
    Keeps r (State.mk t.pending a1 a2 a3 a4 a5 t.regs t.mem a8 a9 t.loft a11 a12 a13 t.flash a15 a16 a17 a18 a19 t.fuses a21 a22 a23 a24 a25 a26 a27 a28 a29 a30 a31 a32 a33 a34 a35 a36 a37 a38 a39 a40 a41 a42 a43 a44 a45 a46 a47 a48 a49 a50 a51 a52 a53 a54 a55 a56 a57 a58 a59 a60 a61 a62 a63 a64 a65 a66 a67 a68 a69 a70 a71 a72 a73 a74 a75) :=
  ⟨h.pending, h.fuses, fun c => ⟨(h.canonical c).mem, (h.canonical c).loft, (h.canonical c).flash, (h.canonical c).regs⟩⟩

theorem Keeps.cut {r : State} {G : Prop} {x : State} (h : Keeps r x) (k : Keeps r x → G) : G := k h

/-- The state of a pair that is known. -/
theorem Keeps.ofSnd {r b : State} {α : Type} {x : α × State} {a : α} (e : x = (a, b)) (h : Keeps r x.2) : Keeps r b := by
  rw [e] at h; exact h

theorem Keeps.ofFst {r a : State} {α : Type} {x : State × α} {b : α} (e : x = (a, b)) (h : Keeps r x.1) : Keeps r a := by
  rw [e] at h; exact h

theorem Keeps.foldl {r s : State} {α : Type} {l : List α} {g : State → α → State} (h : Keeps r s)
    (hg : ∀ u x, Keeps r u → Keeps r (g u x)) : Keeps r (l.foldl g s) := by
  induction l generalizing s with
  | nil => exact h
  | cons a l ih => exact ih (hg s a h)

theorem Keeps.foldlFst {r : State} {α β : Type} {l : List α} {g : State × β → α → State × β} {p : State × β}
    (h : Keeps r p.1) (hg : ∀ u x, Keeps r u.1 → Keeps r (g u x).1) : Keeps r (l.foldl g p).1 := by
  induction l generalizing p with
  | nil => exact h
  | cons a l ih => exact ih (hg p a h)

theorem Keeps.foldlSnd {r : State} {α β : Type} {l : List α} {g : β × State → α → β × State} {p : β × State}
    (h : Keeps r p.2) (hg : ∀ u x, Keeps r u.2 → Keeps r (g u x).2) : Keeps r (l.foldl g p).2 := by
  induction l generalizing p with
  | nil => exact h
  | cons a l ih => exact ih (hg p a h)

theorem Keeps.doAll {r s : State} {α : Type} {l : List α} {g : State → α → State} (h : Keeps r s)
    (hg : ∀ u x, Keeps r u → Keeps r (g u x)) : Keeps r (s.doAll l g) := Keeps.foldl h hg

theorem Keeps.doIf {r s : State} {c : Bool} {g : State → State} (h : Keeps r s)
    (hg : ∀ u, Keeps r u → Keeps r (g u)) : Keeps r (s.doIf c g) := by
  unfold State.doIf; split
  · exact hg s h
  · exact h

theorem KeepsR.host {r s : State} {i : Iface} {g : State → State} (h : Keeps r s)
    (hg : ∀ u, Keeps r u → Keeps r (g u)) : KeepsR r (s.host i g) := by
  unfold State.host; split
  · exact KeepsR.next (hg s h)
  · exact KeepsR.next h

theorem State.setWord_keeps {r s : State} {k : Nat} {v : Word} (h : Keeps r s) : Keeps r (s.setWord k v) :=
  ⟨h.pending, h.fuses, fun c =>
    ⟨(h.canonical c).mem, (h.canonical c).loft, (h.canonical c).flash, tabWf_set (h.canonical c).regs⟩⟩

theorem State.setByte_keeps {r s : State} {a : Nat} {b : Byte} (h : Keeps r s) : Keeps r (s.setByte a b) := by
  unfold State.setByte; split
  · exact ⟨h.pending, h.fuses, fun c =>
      ⟨tabWf_set (h.canonical c).mem, (h.canonical c).loft, (h.canonical c).flash, (h.canonical c).regs⟩⟩
  · exact h

/-- A block write to the Granary keeps its canonical form. -/
theorem State.setBytes_keeps {r s : State} {a : Nat} {l : List Byte} (h : Keeps r s) : Keeps r (s.setBytes a l) := by
  unfold State.setBytes; dsimp only; split
  · exact h
  · exact ⟨h.pending, h.fuses, fun c =>
      ⟨tabWf_put (h.canonical c).mem, (h.canonical c).loft, (h.canonical c).flash, (h.canonical c).regs⟩⟩

theorem State.setLoftByte_keeps {r s : State} {a : Nat} {b : Byte} (h : Keeps r s) : Keeps r (s.setLoftByte a b) :=
  ⟨h.pending, h.fuses, fun c =>
    ⟨(h.canonical c).mem, tabWf_set (h.canonical c).loft, (h.canonical c).flash, (h.canonical c).regs⟩⟩

theorem tabWf_foldl_set {α : Type} [DecidableEq α] {d : Nat → α} {l : List (α × Nat)} {a : Nat} {t : Tab α}
    (h : tabWf d t = true) : tabWf d (l.foldl (fun t p => tabSet d t (a + p.2) p.1) t) = true := by
  induction l generalizing t with
  | nil => exact h
  | cons e l ih => exact ih (tabWf_set h)

theorem State.setFlash_keeps {r s : State} {a : Nat} {l : List Byte} (h : Keeps r s) : Keeps r (s.setFlash a l) :=
  ⟨h.pending, h.fuses, fun c =>
    ⟨(h.canonical c).mem, (h.canonical c).loft, tabWf_foldl_set (h.canonical c).flash, (h.canonical c).regs⟩⟩
theorem State.setPort_keeps {ρ : State} {s : State} {n : Nat} {v : Port} (hk : Keeps ρ s) : Keeps ρ (State.setPort s n v) := by
  unfold State.setPort
  repeat' first
    | with_reducible assumption
    | with_reducible refine KeepsR.next ?_
    | fail_if_no_progress with_reducible refine Keeps.mkK ?_

theorem State.modPort_keeps {ρ : State} {s : State} {n : Nat} {g : Port → Port} (hk : Keeps ρ s) : Keeps ρ (State.modPort s n g) := by
  unfold State.modPort
  repeat' first
    | with_reducible assumption
    | with_reducible refine KeepsR.next ?_
    | fail_if_no_progress with_reducible refine Keeps.mkK ?_
    | with_reducible refine State.setPort_keeps ?_

theorem State.setBandOf_keeps {ρ : State} {s : State} {n : Nat} {v : Band} (hk : Keeps ρ s) : Keeps ρ (State.setBandOf s n v) := by
  unfold State.setBandOf
  repeat' first
    | with_reducible assumption
    | with_reducible refine KeepsR.next ?_
    | fail_if_no_progress with_reducible refine Keeps.mkK ?_

theorem State.modBandOf_keeps {ρ : State} {s : State} {n : Nat} {g : Band → Band} (hk : Keeps ρ s) : Keeps ρ (State.modBandOf s n g) := by
  unfold State.modBandOf
  repeat' first
    | with_reducible assumption
    | with_reducible refine KeepsR.next ?_
    | fail_if_no_progress with_reducible refine Keeps.mkK ?_
    | with_reducible refine State.setBandOf_keeps ?_

theorem State.setHeadOf_keeps {ρ : State} {s : State} {n : Nat} {v : Head} (hk : Keeps ρ s) : Keeps ρ (State.setHeadOf s n v) := by
  unfold State.setHeadOf
  repeat' first
    | with_reducible assumption
    | with_reducible refine KeepsR.next ?_
    | fail_if_no_progress with_reducible refine Keeps.mkK ?_

theorem State.modHeadOf_keeps {ρ : State} {s : State} {n : Nat} {g : Head → Head} (hk : Keeps ρ s) : Keeps ρ (State.modHeadOf s n g) := by
  unfold State.modHeadOf
  repeat' first
    | with_reducible assumption
    | with_reducible refine KeepsR.next ?_
    | fail_if_no_progress with_reducible refine Keeps.mkK ?_
    | with_reducible refine State.setHeadOf_keeps ?_

theorem State.setGroup_keeps {ρ : State} {s : State} {n : Nat} {v : Group} (hk : Keeps ρ s) : Keeps ρ (State.setGroup s n v) := by
  unfold State.setGroup
  repeat' first
    | with_reducible assumption
    | with_reducible refine KeepsR.next ?_
    | fail_if_no_progress with_reducible refine Keeps.mkK ?_

theorem State.modGroup_keeps {ρ : State} {s : State} {n : Nat} {g : Group → Group} (hk : Keeps ρ s) : Keeps ρ (State.modGroup s n g) := by
  unfold State.modGroup
  repeat' first
    | with_reducible assumption
    | with_reducible refine KeepsR.next ?_
    | fail_if_no_progress with_reducible refine Keeps.mkK ?_
    | with_reducible refine State.setGroup_keeps ?_

theorem State.setLine_keeps {ρ : State} {s : State} {n : Nat} {v : Line} (hk : Keeps ρ s) : Keeps ρ (State.setLine s n v) := by
  unfold State.setLine
  repeat' first
    | with_reducible assumption
    | with_reducible refine KeepsR.next ?_
    | fail_if_no_progress with_reducible refine Keeps.mkK ?_

theorem State.modLine_keeps {ρ : State} {s : State} {n : Nat} {g : Line → Line} (hk : Keeps ρ s) : Keeps ρ (State.modLine s n g) := by
  unfold State.modLine
  repeat' first
    | with_reducible assumption
    | with_reducible refine KeepsR.next ?_
    | fail_if_no_progress with_reducible refine Keeps.mkK ?_
    | with_reducible refine State.setLine_keeps ?_

theorem State.setStr_keeps {ρ : State} {s : State} {n : Nat} {v : Str} (hk : Keeps ρ s) : Keeps ρ (State.setStr s n v) := by
  unfold State.setStr
  repeat' first
    | with_reducible assumption
    | with_reducible refine KeepsR.next ?_
    | fail_if_no_progress with_reducible refine Keeps.mkK ?_

theorem State.modStr_keeps {ρ : State} {s : State} {n : Nat} {g : Str → Str} (hk : Keeps ρ s) : Keeps ρ (State.modStr s n g) := by
  unfold State.modStr
  repeat' first
    | with_reducible assumption
    | with_reducible refine KeepsR.next ?_
    | fail_if_no_progress with_reducible refine Keeps.mkK ?_
    | with_reducible refine State.setStr_keeps ?_

theorem State.setBank_keeps {ρ : State} {s : State} {n : Nat} {v : Bank} (hk : Keeps ρ s) : Keeps ρ (State.setBank s n v) := by
  unfold State.setBank
  repeat' first
    | with_reducible assumption
    | with_reducible refine KeepsR.next ?_
    | fail_if_no_progress with_reducible refine Keeps.mkK ?_

theorem State.modBank_keeps {ρ : State} {s : State} {n : Nat} {g : Bank → Bank} (hk : Keeps ρ s) : Keeps ρ (State.modBank s n g) := by
  unfold State.modBank
  repeat' first
    | with_reducible assumption
    | with_reducible refine KeepsR.next ?_
    | fail_if_no_progress with_reducible refine Keeps.mkK ?_
    | with_reducible refine State.setBank_keeps ?_

theorem State.setDriver_keeps {ρ : State} {s : State} {n : Nat} {v : Driver} (hk : Keeps ρ s) : Keeps ρ (State.setDriver s n v) := by
  unfold State.setDriver
  repeat' first
    | with_reducible assumption
    | with_reducible refine KeepsR.next ?_
    | fail_if_no_progress with_reducible refine Keeps.mkK ?_

theorem State.modDriver_keeps {ρ : State} {s : State} {n : Nat} {g : Driver → Driver} (hk : Keeps ρ s) : Keeps ρ (State.modDriver s n g) := by
  unfold State.modDriver
  repeat' first
    | with_reducible assumption
    | with_reducible refine KeepsR.next ?_
    | fail_if_no_progress with_reducible refine Keeps.mkK ?_
    | with_reducible refine State.setDriver_keeps ?_

theorem State.setDbPort_keeps {ρ : State} {s : State} {n : Nat} {v : DbPort} (hk : Keeps ρ s) : Keeps ρ (State.setDbPort s n v) := by
  unfold State.setDbPort
  repeat' first
    | with_reducible assumption
    | with_reducible refine KeepsR.next ?_
    | fail_if_no_progress with_reducible refine Keeps.mkK ?_

theorem State.modDbPort_keeps {ρ : State} {s : State} {n : Nat} {g : DbPort → DbPort} (hk : Keeps ρ s) : Keeps ρ (State.modDbPort s n g) := by
  unfold State.modDbPort
  repeat' first
    | with_reducible assumption
    | with_reducible refine KeepsR.next ?_
    | fail_if_no_progress with_reducible refine Keeps.mkK ?_
    | with_reducible refine State.setDbPort_keeps ?_

theorem State.setMatrix_keeps {ρ : State} {s : State} {n : Nat} {v : Matrix} (hk : Keeps ρ s) : Keeps ρ (State.setMatrix s n v) := by
  unfold State.setMatrix
  repeat' first
    | with_reducible assumption
    | with_reducible refine KeepsR.next ?_
    | fail_if_no_progress with_reducible refine Keeps.mkK ?_

theorem State.modMatrix_keeps {ρ : State} {s : State} {n : Nat} {g : Matrix → Matrix} (hk : Keeps ρ s) : Keeps ρ (State.modMatrix s n g) := by
  unfold State.modMatrix
  repeat' first
    | with_reducible assumption
    | with_reducible refine KeepsR.next ?_
    | fail_if_no_progress with_reducible refine Keeps.mkK ?_
    | with_reducible refine State.setMatrix_keeps ?_

theorem State.setCcGroup_keeps {ρ : State} {s : State} {n : Nat} {v : CcGroup} (hk : Keeps ρ s) : Keeps ρ (State.setCcGroup s n v) := by
  unfold State.setCcGroup
  repeat' first
    | with_reducible assumption
    | with_reducible refine KeepsR.next ?_
    | fail_if_no_progress with_reducible refine Keeps.mkK ?_

theorem State.modCcGroup_keeps {ρ : State} {s : State} {n : Nat} {g : CcGroup → CcGroup} (hk : Keeps ρ s) : Keeps ρ (State.modCcGroup s n g) := by
  unfold State.modCcGroup
  repeat' first
    | with_reducible assumption
    | with_reducible refine KeepsR.next ?_
    | fail_if_no_progress with_reducible refine Keeps.mkK ?_
    | with_reducible refine State.setCcGroup_keeps ?_

theorem State.setLoop_keeps {ρ : State} {s : State} {n : Nat} {v : Loop} (hk : Keeps ρ s) : Keeps ρ (State.setLoop s n v) := by
  unfold State.setLoop
  repeat' first
    | with_reducible assumption
    | with_reducible refine KeepsR.next ?_
    | fail_if_no_progress with_reducible refine Keeps.mkK ?_

theorem State.modLoop_keeps {ρ : State} {s : State} {n : Nat} {g : Loop → Loop} (hk : Keeps ρ s) : Keeps ρ (State.modLoop s n g) := by
  unfold State.modLoop
  repeat' first
    | with_reducible assumption
    | with_reducible refine KeepsR.next ?_
    | fail_if_no_progress with_reducible refine Keeps.mkK ?_
    | with_reducible refine State.setLoop_keeps ?_

theorem State.setPwm_keeps {ρ : State} {s : State} {n : Nat} {v : Pwm} (hk : Keeps ρ s) : Keeps ρ (State.setPwm s n v) := by
  unfold State.setPwm
  repeat' first
    | with_reducible assumption
    | with_reducible refine KeepsR.next ?_
    | fail_if_no_progress with_reducible refine Keeps.mkK ?_

theorem State.modPwm_keeps {ρ : State} {s : State} {n : Nat} {g : Pwm → Pwm} (hk : Keeps ρ s) : Keeps ρ (State.modPwm s n g) := by
  unfold State.modPwm
  repeat' first
    | with_reducible assumption
    | with_reducible refine KeepsR.next ?_
    | fail_if_no_progress with_reducible refine Keeps.mkK ?_
    | with_reducible refine State.setPwm_keeps ?_

theorem State.setGen_keeps {ρ : State} {s : State} {n : Nat} {v : Gen} (hk : Keeps ρ s) : Keeps ρ (State.setGen s n v) := by
  unfold State.setGen
  repeat' first
    | with_reducible assumption
    | with_reducible refine KeepsR.next ?_
    | fail_if_no_progress with_reducible refine Keeps.mkK ?_

theorem State.modGen_keeps {ρ : State} {s : State} {n : Nat} {g : Gen → Gen} (hk : Keeps ρ s) : Keeps ρ (State.modGen s n g) := by
  unfold State.modGen
  repeat' first
    | with_reducible assumption
    | with_reducible refine KeepsR.next ?_
    | fail_if_no_progress with_reducible refine Keeps.mkK ?_
    | with_reducible refine State.setGen_keeps ?_

theorem State.setInj_keeps {ρ : State} {s : State} {n : Nat} {v : Inj} (hk : Keeps ρ s) : Keeps ρ (State.setInj s n v) := by
  unfold State.setInj
  repeat' first
    | with_reducible assumption
    | with_reducible refine KeepsR.next ?_
    | fail_if_no_progress with_reducible refine Keeps.mkK ?_

theorem State.modInj_keeps {ρ : State} {s : State} {n : Nat} {g : Inj → Inj} (hk : Keeps ρ s) : Keeps ρ (State.modInj s n g) := by
  unfold State.modInj
  repeat' first
    | with_reducible assumption
    | with_reducible refine KeepsR.next ?_
    | fail_if_no_progress with_reducible refine Keeps.mkK ?_
    | with_reducible refine State.setInj_keeps ?_

theorem State.setSub_keeps {ρ : State} {s : State} {n : Nat} {v : SubCh} (hk : Keeps ρ s) : Keeps ρ (State.setSub s n v) := by
  unfold State.setSub
  repeat' first
    | with_reducible assumption
    | with_reducible refine KeepsR.next ?_
    | fail_if_no_progress with_reducible refine Keeps.mkK ?_

theorem State.modSub_keeps {ρ : State} {s : State} {n : Nat} {g : SubCh → SubCh} (hk : Keeps ρ s) : Keeps ρ (State.modSub s n g) := by
  unfold State.modSub
  repeat' first
    | with_reducible assumption
    | with_reducible refine KeepsR.next ?_
    | fail_if_no_progress with_reducible refine Keeps.mkK ?_
    | with_reducible refine State.setSub_keeps ?_

theorem State.setChan_keeps {ρ : State} {s : State} {n : Nat} {v : Chan} (hk : Keeps ρ s) : Keeps ρ (State.setChan s n v) := by
  unfold State.setChan
  repeat' first
    | with_reducible assumption
    | with_reducible refine KeepsR.next ?_
    | fail_if_no_progress with_reducible refine Keeps.mkK ?_

theorem State.modChan_keeps {ρ : State} {s : State} {n : Nat} {g : Chan → Chan} (hk : Keeps ρ s) : Keeps ρ (State.modChan s n g) := by
  unfold State.modChan
  repeat' first
    | with_reducible assumption
    | with_reducible refine KeepsR.next ?_
    | fail_if_no_progress with_reducible refine Keeps.mkK ?_
    | with_reducible refine State.setChan_keeps ?_

theorem State.setSensor_keeps {ρ : State} {s : State} {n : Nat} {v : Sensor} (hk : Keeps ρ s) : Keeps ρ (State.setSensor s n v) := by
  unfold State.setSensor
  repeat' first
    | with_reducible assumption
    | with_reducible refine KeepsR.next ?_
    | fail_if_no_progress with_reducible refine Keeps.mkK ?_

theorem State.modSensor_keeps {ρ : State} {s : State} {n : Nat} {g : Sensor → Sensor} (hk : Keeps ρ s) : Keeps ρ (State.modSensor s n g) := by
  unfold State.modSensor
  repeat' first
    | with_reducible assumption
    | with_reducible refine KeepsR.next ?_
    | fail_if_no_progress with_reducible refine Keeps.mkK ?_
    | with_reducible refine State.setSensor_keeps ?_

theorem State.setTask_keeps {ρ : State} {s : State} {n : Nat} {v : GlTask} (hk : Keeps ρ s) : Keeps ρ (State.setTask s n v) := by
  unfold State.setTask
  repeat' first
    | with_reducible assumption
    | with_reducible refine KeepsR.next ?_
    | fail_if_no_progress with_reducible refine Keeps.mkK ?_

theorem State.modTask_keeps {ρ : State} {s : State} {n : Nat} {g : GlTask → GlTask} (hk : Keeps ρ s) : Keeps ρ (State.modTask s n g) := by
  unfold State.modTask
  repeat' first
    | with_reducible assumption
    | with_reducible refine KeepsR.next ?_
    | fail_if_no_progress with_reducible refine Keeps.mkK ?_
    | with_reducible refine State.setTask_keeps ?_

theorem State.setMbox_keeps {ρ : State} {s : State} {n : Nat} {v : Mailbox} (hk : Keeps ρ s) : Keeps ρ (State.setMbox s n v) := by
  unfold State.setMbox
  repeat' first
    | with_reducible assumption
    | with_reducible refine KeepsR.next ?_
    | fail_if_no_progress with_reducible refine Keeps.mkK ?_

theorem State.modMbox_keeps {ρ : State} {s : State} {n : Nat} {g : Mailbox → Mailbox} (hk : Keeps ρ s) : Keeps ρ (State.modMbox s n g) := by
  unfold State.modMbox
  repeat' first
    | with_reducible assumption
    | with_reducible refine KeepsR.next ?_
    | fail_if_no_progress with_reducible refine Keeps.mkK ?_
    | with_reducible refine State.setMbox_keeps ?_

theorem State.setSheaf_keeps {ρ : State} {s : State} {n : Nat} {v : Sheaf} (hk : Keeps ρ s) : Keeps ρ (State.setSheaf s n v) := by
  unfold State.setSheaf
  repeat' first
    | with_reducible assumption
    | with_reducible refine KeepsR.next ?_
    | fail_if_no_progress with_reducible refine Keeps.mkK ?_

theorem State.modSheaf_keeps {ρ : State} {s : State} {n : Nat} {g : Sheaf → Sheaf} (hk : Keeps ρ s) : Keeps ρ (State.modSheaf s n g) := by
  unfold State.modSheaf
  repeat' first
    | with_reducible assumption
    | with_reducible refine KeepsR.next ?_
    | fail_if_no_progress with_reducible refine Keeps.mkK ?_
    | with_reducible refine State.setSheaf_keeps ?_

theorem State.setFqueue_keeps {ρ : State} {s : State} {n : Nat} {v : FlipQueue} (hk : Keeps ρ s) : Keeps ρ (State.setFqueue s n v) := by
  unfold State.setFqueue
  repeat' first
    | with_reducible assumption
    | with_reducible refine KeepsR.next ?_
    | fail_if_no_progress with_reducible refine Keeps.mkK ?_

theorem State.modFqueue_keeps {ρ : State} {s : State} {n : Nat} {g : FlipQueue → FlipQueue} (hk : Keeps ρ s) : Keeps ρ (State.modFqueue s n g) := by
  unfold State.modFqueue
  repeat' first
    | with_reducible assumption
    | with_reducible refine KeepsR.next ?_
    | fail_if_no_progress with_reducible refine Keeps.mkK ?_
    | with_reducible refine State.setFqueue_keeps ?_

theorem State.setRing_keeps {ρ : State} {s : State} {n : Nat} {v : List SrcFrame} (hk : Keeps ρ s) : Keeps ρ (State.setRing s n v) := by
  unfold State.setRing
  repeat' first
    | with_reducible assumption
    | with_reducible refine KeepsR.next ?_
    | fail_if_no_progress with_reducible refine Keeps.mkK ?_

theorem State.modRing_keeps {ρ : State} {s : State} {n : Nat} {g : List SrcFrame → List SrcFrame} (hk : Keeps ρ s) : Keeps ρ (State.modRing s n g) := by
  unfold State.modRing
  repeat' first
    | with_reducible assumption
    | with_reducible refine KeepsR.next ?_
    | fail_if_no_progress with_reducible refine Keeps.mkK ?_
    | with_reducible refine State.setRing_keeps ?_

theorem State.setStream_keeps {ρ : State} {s : State} {n : Nat} {v : Stream} (hk : Keeps ρ s) : Keeps ρ (State.setStream s n v) := by
  unfold State.setStream
  repeat' first
    | with_reducible assumption
    | with_reducible refine KeepsR.next ?_
    | fail_if_no_progress with_reducible refine Keeps.mkK ?_

theorem State.modStream_keeps {ρ : State} {s : State} {n : Nat} {g : Stream → Stream} (hk : Keeps ρ s) : Keeps ρ (State.modStream s n g) := by
  unfold State.modStream
  repeat' first
    | with_reducible assumption
    | with_reducible refine KeepsR.next ?_
    | fail_if_no_progress with_reducible refine Keeps.mkK ?_
    | with_reducible refine State.setStream_keeps ?_

theorem State.setSlotOf_keeps {ρ : State} {s : State} {n : Nat} {v : CellarSlot} (hk : Keeps ρ s) : Keeps ρ (State.setSlotOf s n v) := by
  unfold State.setSlotOf
  repeat' first
    | with_reducible assumption
    | with_reducible refine KeepsR.next ?_
    | fail_if_no_progress with_reducible refine Keeps.mkK ?_

theorem State.modSlotOf_keeps {ρ : State} {s : State} {n : Nat} {g : CellarSlot → CellarSlot} (hk : Keeps ρ s) : Keeps ρ (State.modSlotOf s n g) := by
  unfold State.modSlotOf
  repeat' first
    | with_reducible assumption
    | with_reducible refine KeepsR.next ?_
    | fail_if_no_progress with_reducible refine Keeps.mkK ?_
    | with_reducible refine State.setSlotOf_keeps ?_

theorem State.setFld_keeps {ρ : State} {s : State} {f : Field} {v : Nat} (hk : Keeps ρ s) : Keeps ρ (State.setFld s f v) := by
  unfold State.setFld
  repeat' first
    | with_reducible assumption
    | with_reducible refine KeepsR.next ?_
    | fail_if_no_progress with_reducible refine Keeps.mkK ?_
    | with_reducible refine State.setWord_keeps ?_

theorem State.setFlag_keeps {ρ : State} {s : State} {f : Field} {b : Bool} (hk : Keeps ρ s) : Keeps ρ (State.setFlag s f b) := by
  unfold State.setFlag
  repeat' first
    | with_reducible assumption
    | with_reducible refine KeepsR.next ?_
    | fail_if_no_progress with_reducible refine Keeps.mkK ?_
    | with_reducible refine State.setFld_keeps ?_

theorem State.setInt_keeps {ρ : State} {s : State} {f : Field} {i : Int} (hk : Keeps ρ s) : Keeps ρ (State.setInt s f i) := by
  unfold State.setInt
  repeat' first
    | with_reducible assumption
    | with_reducible refine KeepsR.next ?_
    | fail_if_no_progress with_reducible refine Keeps.mkK ?_
    | with_reducible refine State.setFld_keeps ?_

theorem State.count_keeps {ρ : State} {s : State} {f : Field} {n : Nat} (hk : Keeps ρ s) : Keeps ρ (State.count s f n) := by
  unfold State.count
  repeat' first
    | with_reducible assumption
    | with_reducible refine KeepsR.next ?_
    | fail_if_no_progress with_reducible refine Keeps.mkK ?_
    | with_reducible refine State.setFld_keeps ?_

theorem State.countWrap_keeps {ρ : State} {s : State} {f : Field} {n : Nat} (hk : Keeps ρ s) : Keeps ρ (State.countWrap s f n) := by
  unfold State.countWrap
  repeat' first
    | with_reducible assumption
    | with_reducible refine KeepsR.next ?_
    | fail_if_no_progress with_reducible refine Keeps.mkK ?_
    | with_reducible refine State.setFld_keeps ?_

theorem State.emit_keeps {ρ : State} {s : State} {o : Out} (hk : Keeps ρ s) : Keeps ρ (State.emit s o) := by
  unfold State.emit
  repeat' first
    | with_reducible assumption
    | with_reducible refine KeepsR.next ?_
    | fail_if_no_progress with_reducible refine Keeps.mkK ?_

theorem State.draw_keeps {ρ : State} {s : State} (hk : Keeps ρ s) : Keeps ρ (State.draw s).2 := by
  unfold State.draw
  repeat' first
    | with_reducible assumption
    | with_reducible refine KeepsR.next ?_
    | fail_if_no_progress with_reducible refine Keeps.mkK ?_

theorem State.message_keeps {ρ : State} {s : State} {vec : Nat} (hk : Keeps ρ s) : Keeps ρ (State.message s vec) := by
  unfold State.message
  repeat' first
    | with_reducible assumption
    | with_reducible refine KeepsR.next ?_
    | fail_if_no_progress with_reducible refine Keeps.mkK ?_
    | with_reducible refine State.emit_keeps ?_
    | with_reducible refine Keeps.doAll ?_ (fun _ _ _ => ?_)
    | with_reducible refine Keeps.doIf ?_ (fun _ _ => ?_)
    | with_reducible refine Keeps.foldl ?_ (fun _ _ _ => ?_)
    | with_reducible refine Keeps.foldlFst ?_ (fun _ _ _ => ?_)
    | with_reducible refine Keeps.foldlSnd ?_ (fun _ _ _ => ?_)
    | with_reducible refine KeepsR.host ?_ (fun _ _ => ?_)
    | (lift_lets; intro x; clear_value x)
    | with_reducible refine Keeps.ofSnd (by assumption) ?_
    | with_reducible refine Keeps.ofFst (by assumption) ?_
    | split

theorem State.messagesFrom_keeps {ρ : State} {old : State} {s : State} (hk : Keeps ρ s) : Keeps ρ (State.messagesFrom old s) := by
  unfold State.messagesFrom
  repeat' first
    | with_reducible assumption
    | with_reducible refine KeepsR.next ?_
    | fail_if_no_progress with_reducible refine Keeps.mkK ?_
    | with_reducible refine State.message_keeps ?_
    | with_reducible refine Keeps.doAll ?_ (fun _ _ _ => ?_)
    | with_reducible refine Keeps.doIf ?_ (fun _ _ => ?_)

theorem State.setLatch_keeps {ρ : State} {s : State} {i : Nat} {d : Nat} (hk : Keeps ρ s) : Keeps ρ (State.setLatch s i d) := by
  unfold State.setLatch
  repeat' first
    | with_reducible assumption
    | with_reducible refine KeepsR.next ?_
    | fail_if_no_progress with_reducible refine Keeps.mkK ?_

theorem State.raiseData_keeps {ρ : State} {s : State} {i : Nat} {d : Nat} (hk : Keeps ρ s) : Keeps ρ (State.raiseData s i d) := by
  unfold State.raiseData
  repeat' first
    | with_reducible assumption
    | with_reducible refine KeepsR.next ?_
    | fail_if_no_progress with_reducible refine Keeps.mkK ?_
    | with_reducible refine State.message_keeps ?_
    | with_reducible refine State.setLatch_keeps ?_
    | with_reducible refine Keeps.doAll ?_ (fun _ _ _ => ?_)
    | with_reducible refine Keeps.doIf ?_ (fun _ _ => ?_)
    | with_reducible refine Keeps.foldl ?_ (fun _ _ _ => ?_)
    | with_reducible refine Keeps.foldlFst ?_ (fun _ _ _ => ?_)
    | with_reducible refine Keeps.foldlSnd ?_ (fun _ _ _ => ?_)
    | with_reducible refine KeepsR.host ?_ (fun _ _ => ?_)
    | (lift_lets; intro x; clear_value x)
    | with_reducible refine Keeps.ofSnd (by assumption) ?_
    | with_reducible refine Keeps.ofFst (by assumption) ?_
    | split

theorem State.raise2_keeps {ρ : State} {s : State} {i : Nat} {a : Nat} {b : Nat} (hk : Keeps ρ s) : Keeps ρ (State.raise2 s i a b) := by
  unfold State.raise2
  repeat' first
    | with_reducible assumption
    | with_reducible refine KeepsR.next ?_
    | fail_if_no_progress with_reducible refine Keeps.mkK ?_
    | with_reducible refine State.raiseData_keeps ?_

theorem State.raise_keeps {ρ : State} {s : State} {i : Nat} {a : Nat} (hk : Keeps ρ s) : Keeps ρ (State.raise s i a) := by
  unfold State.raise
  repeat' first
    | with_reducible assumption
    | with_reducible refine KeepsR.next ?_
    | fail_if_no_progress with_reducible refine Keeps.mkK ?_
    | with_reducible refine State.raise2_keeps ?_

theorem State.raiseOnce_keeps {ρ : State} {s : State} {i : Nat} {unit : Nat} {a : Nat} {b : Nat} (hk : Keeps ρ s) : Keeps ρ (State.raiseOnce s i unit a b) := by
  unfold State.raiseOnce
  repeat' first
    | with_reducible assumption
    | with_reducible refine KeepsR.next ?_
    | fail_if_no_progress with_reducible refine Keeps.mkK ?_
    | with_reducible refine State.raise2_keeps ?_
    | with_reducible refine Keeps.doAll ?_ (fun _ _ _ => ?_)
    | with_reducible refine Keeps.doIf ?_ (fun _ _ => ?_)
    | with_reducible refine Keeps.foldl ?_ (fun _ _ _ => ?_)
    | with_reducible refine Keeps.foldlFst ?_ (fun _ _ _ => ?_)
    | with_reducible refine Keeps.foldlSnd ?_ (fun _ _ _ => ?_)
    | with_reducible refine KeepsR.host ?_ (fun _ _ => ?_)
    | (lift_lets; intro x; refine Keeps.cut (r := ρ) (x := x) ?_ (fun hx => ?_); (on_goal 1 => dsimp only [x]); (on_goal 2 => clear_value x))
    | with_reducible refine Keeps.ofSnd (by assumption) ?_
    | with_reducible refine Keeps.ofFst (by assumption) ?_
    | split

theorem State.clearOnce_keeps {ρ : State} {s : State} {i : Nat} {unit : Nat} (hk : Keeps ρ s) : Keeps ρ (State.clearOnce s i unit) := by
  unfold State.clearOnce
  repeat' first
    | with_reducible assumption
    | with_reducible refine KeepsR.next ?_
    | fail_if_no_progress with_reducible refine Keeps.mkK ?_

theorem State.clearLatches_keeps {ρ : State} {s : State} {g : Nat} {v : Word} (hk : Keeps ρ s) : Keeps ρ (State.clearLatches s g v) := by
  unfold State.clearLatches
  repeat' first
    | with_reducible assumption
    | with_reducible refine KeepsR.next ?_
    | fail_if_no_progress with_reducible refine Keeps.mkK ?_
    | with_reducible refine State.message_keeps ?_
    | with_reducible refine Keeps.doAll ?_ (fun _ _ _ => ?_)
    | with_reducible refine Keeps.doIf ?_ (fun _ _ => ?_)

theorem State.writeEnables_keeps {ρ : State} {s : State} {g : Nat} {v : Word} (hk : Keeps ρ s) : Keeps ρ (State.writeEnables s g v) := by
  unfold State.writeEnables
  repeat' first
    | with_reducible assumption
    | with_reducible refine KeepsR.next ?_
    | fail_if_no_progress with_reducible refine Keeps.mkK ?_
    | with_reducible refine State.messagesFrom_keeps ?_

theorem State.writeRoute_keeps {ρ : State} {s : State} {i : Nat} {v : Word} (hk : Keeps ρ s) : Keeps ρ (State.writeRoute s i v) := by
  unfold State.writeRoute
  repeat' first
    | with_reducible assumption
    | with_reducible refine KeepsR.next ?_
    | fail_if_no_progress with_reducible refine Keeps.mkK ?_
    | with_reducible refine State.messagesFrom_keeps ?_
    | with_reducible refine Keeps.doAll ?_ (fun _ _ _ => ?_)
    | with_reducible refine Keeps.doIf ?_ (fun _ _ => ?_)
    | with_reducible refine Keeps.foldl ?_ (fun _ _ _ => ?_)
    | with_reducible refine Keeps.foldlFst ?_ (fun _ _ _ => ?_)
    | with_reducible refine Keeps.foldlSnd ?_ (fun _ _ _ => ?_)
    | with_reducible refine KeepsR.host ?_ (fun _ _ => ?_)
    | (lift_lets; intro x; clear_value x)
    | with_reducible refine Keeps.ofSnd (by assumption) ?_
    | with_reducible refine Keeps.ofFst (by assumption) ?_
    | split

theorem State.poison_keeps {ρ : State} {s : State} {line : Nat} (hk : Keeps ρ s) : Keeps ρ (State.poison s line) := by
  unfold State.poison
  repeat' first
    | with_reducible assumption
    | with_reducible refine KeepsR.next ?_
    | fail_if_no_progress with_reducible refine Keeps.mkK ?_
    | with_reducible refine Keeps.doAll ?_ (fun _ _ _ => ?_)
    | with_reducible refine Keeps.doIf ?_ (fun _ _ => ?_)
    | with_reducible refine Keeps.foldl ?_ (fun _ _ _ => ?_)
    | with_reducible refine Keeps.foldlFst ?_ (fun _ _ _ => ?_)
    | with_reducible refine Keeps.foldlSnd ?_ (fun _ _ _ => ?_)
    | with_reducible refine KeepsR.host ?_ (fun _ _ => ?_)
    | with_reducible refine Keeps.ofSnd (by assumption) ?_
    | with_reducible refine Keeps.ofFst (by assumption) ?_
    | split

theorem State.unpoison_keeps {ρ : State} {s : State} {line : Nat} (hk : Keeps ρ s) : Keeps ρ (State.unpoison s line) := by
  unfold State.unpoison
  repeat' first
    | with_reducible assumption
    | with_reducible refine KeepsR.next ?_
    | fail_if_no_progress with_reducible refine Keeps.mkK ?_

theorem State.setOutcome_keeps {ρ : State} {s : State} {m : Nat} {code : Nat} {results : List Word} (hk : Keeps ρ s) : Keeps ρ (State.setOutcome s m code results) := by
  unfold State.setOutcome
  repeat' first
    | with_reducible assumption
    | with_reducible refine KeepsR.next ?_
    | fail_if_no_progress with_reducible refine Keeps.mkK ?_
    | with_reducible refine State.modMbox_keeps ?_

theorem State.outcome0_keeps {ρ : State} {s : State} {m : Nat} {code : Nat} (hk : Keeps ρ s) : Keeps ρ (State.outcome0 s m code) := by
  unfold State.outcome0
  repeat' first
    | with_reducible assumption
    | with_reducible refine KeepsR.next ?_
    | fail_if_no_progress with_reducible refine Keeps.mkK ?_
    | with_reducible refine State.setOutcome_keeps ?_

end Sys2Proof.Machine
end

