-- ==== Sys2Proof/Laws/KeepsMailbox.lean ====
section
/-!
SUPPORT. The relation `Keeps` for the operations of Machine/Mailbox.lean, Machine/Cellar.lean, Machine/Ce.lean, Machine/Layout.lean, Machine/Light.lean.
-/

namespace Sys2Proof.Machine

theorem State.modHead_keeps {ρ : State} {s : State} {m : Nat} {g : MbCmd → MbCmd} (hk : Keeps ρ s) : Keeps ρ (State.modHead s m g) := by
  unfold State.modHead
  repeat' first
    | with_reducible assumption
    | with_reducible refine KeepsR.next ?_
    | fail_if_no_progress with_reducible refine Keeps.mkK ?_
    | with_reducible refine State.modMbox_keeps ?_

theorem State.startHeads_keeps {ρ : State} {s : State} (hk : Keeps ρ s) : Keeps ρ (State.startHeads s) := by
  unfold State.startHeads
  repeat' first
    | with_reducible assumption
    | with_reducible refine KeepsR.next ?_
    | fail_if_no_progress with_reducible refine Keeps.mkK ?_
    | with_reducible refine State.modHead_keeps ?_
    | with_reducible refine Keeps.doAll ?_ (fun _ _ _ => ?_)
    | with_reducible refine Keeps.doIf ?_ (fun _ _ => ?_)
    | with_reducible refine Keeps.foldl ?_ (fun _ _ _ => ?_)
    | with_reducible refine Keeps.foldlFst ?_ (fun _ _ _ => ?_)
    | with_reducible refine Keeps.foldlSnd ?_ (fun _ _ _ => ?_)
    | with_reducible refine KeepsR.host ?_ (fun _ _ => ?_)
    | with_reducible refine Keeps.ofSnd (by assumption) ?_
    | with_reducible refine Keeps.ofFst (by assumption) ?_
    | split

theorem State.newHead_keeps {ρ : State} {s : State} {m : Nat} (hk : Keeps ρ s) : Keeps ρ (State.newHead s m) := by
  unfold State.newHead
  repeat' first
    | with_reducible assumption
    | with_reducible refine KeepsR.next ?_
    | fail_if_no_progress with_reducible refine Keeps.mkK ?_
    | with_reducible refine State.modMbox_keeps ?_
    | with_reducible refine State.modHead_keeps ?_
    | with_reducible refine State.startHeads_keeps ?_

theorem State.popHead_keeps {ρ : State} {s : State} {m : Nat} (hk : Keeps ρ s) : Keeps ρ (State.popHead s m) := by
  unfold State.popHead
  repeat' first
    | with_reducible assumption
    | with_reducible refine KeepsR.next ?_
    | fail_if_no_progress with_reducible refine Keeps.mkK ?_
    | with_reducible refine State.modMbox_keeps ?_
    | with_reducible refine State.newHead_keeps ?_

theorem State.finishHead_keeps {ρ : State} {s : State} {m : Nat} {c : MbCmd} {code : Nat} {results : List Word} (hk : Keeps ρ s) : Keeps ρ (State.finishHead s m c code results) := by
  unfold State.finishHead
  repeat' first
    | with_reducible assumption
    | with_reducible refine KeepsR.next ?_
    | fail_if_no_progress with_reducible refine Keeps.mkK ?_
    | with_reducible refine State.modMbox_keeps ?_
    | with_reducible refine State.raise2_keeps ?_
    | with_reducible refine State.modHead_keeps ?_
    | with_reducible refine State.startHeads_keeps ?_
    | with_reducible refine State.popHead_keeps ?_
    | with_reducible refine Keeps.doAll ?_ (fun _ _ _ => ?_)
    | with_reducible refine Keeps.doIf ?_ (fun _ _ => ?_)
    | with_reducible refine Keeps.foldl ?_ (fun _ _ _ => ?_)
    | with_reducible refine Keeps.foldlFst ?_ (fun _ _ _ => ?_)
    | with_reducible refine Keeps.foldlSnd ?_ (fun _ _ _ => ?_)
    | with_reducible refine KeepsR.host ?_ (fun _ _ => ?_)
    | (lift_lets; intro x; clear_value x)
    | with_reducible refine Keeps.ofSnd (by assumption) ?_
    | with_reducible refine Keeps.ofFst (by assumption) ?_
    | split

theorem State.addPartial_keeps {ρ : State} {s : State} {m : Nat} {rec : List Word} (hk : Keeps ρ s) : Keeps ρ (State.addPartial s m rec) := by
  unfold State.addPartial
  repeat' first
    | with_reducible assumption
    | with_reducible refine KeepsR.next ?_
    | fail_if_no_progress with_reducible refine Keeps.mkK ?_
    | with_reducible refine State.modMbox_keeps ?_
    | with_reducible refine State.modHead_keeps ?_
    | with_reducible refine Keeps.doAll ?_ (fun _ _ _ => ?_)
    | with_reducible refine Keeps.doIf ?_ (fun _ _ => ?_)
    | with_reducible refine Keeps.foldl ?_ (fun _ _ _ => ?_)
    | with_reducible refine Keeps.foldlFst ?_ (fun _ _ _ => ?_)
    | with_reducible refine Keeps.foldlSnd ?_ (fun _ _ _ => ?_)
    | with_reducible refine KeepsR.host ?_ (fun _ _ => ?_)
    | (lift_lets; intro x; clear_value x)
    | with_reducible refine Keeps.ofSnd (by assumption) ?_
    | with_reducible refine Keeps.ofFst (by assumption) ?_
    | split

theorem State.withCmd_keeps {ρ : State} {s : State} {m : Nat} {code : Nat} {f : State → MbCmd → State} (hk : Keeps ρ s) (hkf : ∀ x0 x1, Keeps ρ x0 → Keeps ρ (f x0 x1)) : Keeps ρ (State.withCmd s m code f) := by
  unfold State.withCmd
  repeat' first
    | with_reducible assumption
    | with_reducible refine KeepsR.next ?_
    | fail_if_no_progress with_reducible refine Keeps.mkK ?_
    | with_reducible refine State.outcome0_keeps ?_
    | with_reducible refine hkf _ _ ?_
    | with_reducible refine Keeps.doAll ?_ (fun _ _ _ => ?_)
    | with_reducible refine Keeps.doIf ?_ (fun _ _ => ?_)
    | with_reducible refine Keeps.foldl ?_ (fun _ _ _ => ?_)
    | with_reducible refine Keeps.foldlFst ?_ (fun _ _ _ => ?_)
    | with_reducible refine Keeps.foldlSnd ?_ (fun _ _ _ => ?_)
    | with_reducible refine KeepsR.host ?_ (fun _ _ => ?_)
    | (lift_lets; intro x; clear_value x)
    | with_reducible refine Keeps.ofSnd (by assumption) ?_
    | with_reducible refine Keeps.ofFst (by assumption) ?_
    | split

theorem State.workOn_keeps {ρ : State} {s : State} {m : Nat} {code : Nat} {f : State → MbCmd → State} (hk : Keeps ρ s) (hkf : ∀ x0 x1, Keeps ρ x0 → Keeps ρ (f x0 x1)) : Keeps ρ (State.workOn s m code f) := by
  unfold State.workOn
  repeat' first
    | with_reducible assumption
    | with_reducible refine KeepsR.next ?_
    | fail_if_no_progress with_reducible refine Keeps.mkK ?_
    | with_reducible refine State.outcome0_keeps ?_
    | with_reducible refine hkf _ _ ?_
    | with_reducible refine Keeps.doAll ?_ (fun _ _ _ => ?_)
    | with_reducible refine Keeps.doIf ?_ (fun _ _ => ?_)
    | with_reducible refine Keeps.foldl ?_ (fun _ _ _ => ?_)
    | with_reducible refine Keeps.foldlFst ?_ (fun _ _ _ => ?_)
    | with_reducible refine Keeps.foldlSnd ?_ (fun _ _ _ => ?_)
    | with_reducible refine KeepsR.host ?_ (fun _ _ => ?_)
    | (lift_lets; intro x; clear_value x)
    | with_reducible refine Keeps.ofSnd (by assumption) ?_
    | with_reducible refine Keeps.ofFst (by assumption) ?_
    | split

theorem State.moved_keeps {ρ : State} {s : State} {m : Nat} {k : Nat} {total : Nat} (hk : Keeps ρ s) : Keeps ρ (State.moved s m k total) := by
  unfold State.moved
  repeat' first
    | with_reducible assumption
    | with_reducible refine KeepsR.next ?_
    | fail_if_no_progress with_reducible refine Keeps.mkK ?_
    | with_reducible refine State.modHead_keeps ?_

theorem State.beginHead_keeps {ρ : State} {s : State} {m : Nat} (hk : Keeps ρ s) : Keeps ρ (State.beginHead s m) := by
  unfold State.beginHead
  repeat' first
    | with_reducible assumption
    | with_reducible refine KeepsR.next ?_
    | fail_if_no_progress with_reducible refine Keeps.mkK ?_
    | with_reducible refine State.modHead_keeps ?_

theorem State.reqRaise_keeps {ρ : State} {s : State} {i : Nat} {r : Nat} (hk : Keeps ρ s) : Keeps ρ (State.reqRaise s i r) := by
  unfold State.reqRaise
  repeat' first
    | with_reducible assumption
    | with_reducible refine KeepsR.next ?_
    | fail_if_no_progress with_reducible refine Keeps.mkK ?_
    | with_reducible refine State.raise_keeps ?_
    | with_reducible refine Keeps.doAll ?_ (fun _ _ _ => ?_)
    | with_reducible refine Keeps.doIf ?_ (fun _ _ => ?_)
    | with_reducible refine Keeps.foldl ?_ (fun _ _ _ => ?_)
    | with_reducible refine Keeps.foldlFst ?_ (fun _ _ _ => ?_)
    | with_reducible refine Keeps.foldlSnd ?_ (fun _ _ _ => ?_)
    | with_reducible refine KeepsR.host ?_ (fun _ _ => ?_)
    | (lift_lets; intro x; clear_value x)
    | with_reducible refine Keeps.ofSnd (by assumption) ?_
    | with_reducible refine Keeps.ofFst (by assumption) ?_
    | split

theorem State.outOfRange_keeps {ρ : State} {s : State} {r : Nat} (hk : Keeps ρ s) : Keeps ρ (State.outOfRange s r) := by
  unfold State.outOfRange
  repeat' first
    | with_reducible assumption
    | with_reducible refine KeepsR.next ?_
    | fail_if_no_progress with_reducible refine Keeps.mkK ?_
    | with_reducible refine State.count_keeps ?_
    | with_reducible refine State.reqRaise_keeps ?_

theorem State.replacedLine_keeps {ρ : State} {s : State} {r : Nat} (hk : Keeps ρ s) : Keeps ρ (State.replacedLine s r) := by
  unfold State.replacedLine
  repeat' first
    | with_reducible assumption
    | with_reducible refine KeepsR.next ?_
    | fail_if_no_progress with_reducible refine Keeps.mkK ?_
    | with_reducible refine State.count_keeps ?_
    | with_reducible refine State.reqRaise_keeps ?_

theorem State.glStates_keeps {ρ : State} {s : State} (hk : Keeps ρ s) : Keeps ρ (State.glStates s) := by
  unfold State.glStates
  repeat' first
    | with_reducible assumption
    | with_reducible refine KeepsR.next ?_
    | fail_if_no_progress with_reducible refine Keeps.mkK ?_
    | with_reducible refine State.setFld_keeps ?_
    | with_reducible refine Keeps.doAll ?_ (fun _ _ _ => ?_)

theorem State.wake_keeps {ρ : State} {s : State} (hk : Keeps ρ s) : Keeps ρ (State.wake s) := by
  unfold State.wake
  repeat' first
    | with_reducible assumption
    | with_reducible refine KeepsR.next ?_
    | fail_if_no_progress with_reducible refine Keeps.mkK ?_
    | with_reducible refine State.setFld_keeps ?_
    | with_reducible refine State.emit_keeps ?_
    | with_reducible refine State.glStates_keeps ?_
    | with_reducible refine Keeps.doAll ?_ (fun _ _ _ => ?_)
    | with_reducible refine Keeps.doIf ?_ (fun _ _ => ?_)
    | with_reducible refine Keeps.foldl ?_ (fun _ _ _ => ?_)
    | with_reducible refine Keeps.foldlFst ?_ (fun _ _ _ => ?_)
    | with_reducible refine Keeps.foldlSnd ?_ (fun _ _ _ => ?_)
    | with_reducible refine KeepsR.host ?_ (fun _ _ => ?_)
    | with_reducible refine Keeps.ofSnd (by assumption) ?_
    | with_reducible refine Keeps.ofFst (by assumption) ?_
    | split

theorem State.orElse_keeps {ρ : State} {s : State} {m : Nat} {code : Nat} {f : State → State} (hk : Keeps ρ s) (hkf : ∀ x0, Keeps ρ x0 → Keeps ρ (f x0)) : Keeps ρ (State.orElse s m code f) := by
  unfold State.orElse
  repeat' first
    | with_reducible assumption
    | with_reducible refine KeepsR.next ?_
    | fail_if_no_progress with_reducible refine Keeps.mkK ?_
    | with_reducible refine State.outcome0_keeps ?_
    | with_reducible refine hkf _ ?_
    | with_reducible refine Keeps.doAll ?_ (fun _ _ _ => ?_)
    | with_reducible refine Keeps.doIf ?_ (fun _ _ => ?_)
    | with_reducible refine Keeps.foldl ?_ (fun _ _ _ => ?_)
    | with_reducible refine Keeps.foldlFst ?_ (fun _ _ _ => ?_)
    | with_reducible refine Keeps.foldlSnd ?_ (fun _ _ _ => ?_)
    | with_reducible refine KeepsR.host ?_ (fun _ _ => ?_)
    | with_reducible refine Keeps.ofSnd (by assumption) ?_
    | with_reducible refine Keeps.ofFst (by assumption) ?_
    | split

theorem State.withImage_keeps {ρ : State} {s : State} {m : Nat} {r : Nat} {c : MbCmd} {i : Nat} {align : Nat} {n : Nat} {f : State → Nat → State} (hk : Keeps ρ s) (hkf : ∀ x0 x1, Keeps ρ x0 → Keeps ρ (f x0 x1)) : Keeps ρ (State.withImage s m r c i align n f) := by
  unfold State.withImage
  repeat' first
    | with_reducible assumption
    | with_reducible refine KeepsR.next ?_
    | fail_if_no_progress with_reducible refine Keeps.mkK ?_
    | with_reducible refine State.outcome0_keeps ?_
    | with_reducible refine State.outOfRange_keeps ?_
    | with_reducible refine State.wake_keeps ?_
    | with_reducible refine hkf _ _ ?_
    | with_reducible refine Keeps.doAll ?_ (fun _ _ _ => ?_)
    | with_reducible refine Keeps.doIf ?_ (fun _ _ => ?_)
    | with_reducible refine Keeps.foldl ?_ (fun _ _ _ => ?_)
    | with_reducible refine Keeps.foldlFst ?_ (fun _ _ _ => ?_)
    | with_reducible refine Keeps.foldlSnd ?_ (fun _ _ _ => ?_)
    | with_reducible refine KeepsR.host ?_ (fun _ _ => ?_)
    | with_reducible refine Keeps.ofSnd (by assumption) ?_
    | with_reducible refine Keeps.ofFst (by assumption) ?_
    | split

theorem State.submit_keeps {ρ : State} {s : State} {m : Nat} {spi : Bool} (hk : Keeps ρ s) : Keeps ρ (State.submit s m spi) := by
  unfold State.submit
  repeat' first
    | with_reducible assumption
    | with_reducible refine KeepsR.next ?_
    | fail_if_no_progress with_reducible refine Keeps.mkK ?_
    | with_reducible refine State.setMbox_keeps ?_
    | with_reducible refine State.raise_keeps ?_
    | with_reducible refine State.newHead_keeps ?_
    | with_reducible refine Keeps.doAll ?_ (fun _ _ _ => ?_)
    | with_reducible refine Keeps.doIf ?_ (fun _ _ => ?_)
    | with_reducible refine Keeps.foldl ?_ (fun _ _ _ => ?_)
    | with_reducible refine Keeps.foldlFst ?_ (fun _ _ _ => ?_)
    | with_reducible refine Keeps.foldlSnd ?_ (fun _ _ _ => ?_)
    | with_reducible refine KeepsR.host ?_ (fun _ _ => ?_)
    | (lift_lets; intro x; clear_value x)
    | with_reducible refine Keeps.ofSnd (by assumption) ?_
    | with_reducible refine Keeps.ofFst (by assumption) ?_
    | split

theorem execMailboxDoorbell_keeps {ρ : State} {i : Iface} {m : Fin 8} {v : Word} {s : State} (hk : Keeps ρ s) : KeepsR ρ (execMailboxDoorbell i m v s) := by
  unfold execMailboxDoorbell
  repeat' first
    | with_reducible assumption
    | with_reducible refine KeepsR.next ?_
    | fail_if_no_progress with_reducible refine Keeps.mkK ?_
    | with_reducible refine State.submit_keeps ?_
    | with_reducible refine Keeps.doAll ?_ (fun _ _ _ => ?_)
    | with_reducible refine Keeps.doIf ?_ (fun _ _ => ?_)
    | with_reducible refine Keeps.foldl ?_ (fun _ _ _ => ?_)
    | with_reducible refine Keeps.foldlFst ?_ (fun _ _ _ => ?_)
    | with_reducible refine Keeps.foldlSnd ?_ (fun _ _ _ => ?_)
    | with_reducible refine KeepsR.host ?_ (fun _ _ => ?_)
    | with_reducible refine Keeps.ofSnd (by assumption) ?_
    | with_reducible refine Keeps.ofFst (by assumption) ?_
    | split

theorem State.ackHead_keeps {ρ : State} {s : State} {m : Nat} (hk : Keeps ρ s) : Keeps ρ (State.ackHead s m) := by
  unfold State.ackHead
  repeat' first
    | with_reducible assumption
    | with_reducible refine KeepsR.next ?_
    | fail_if_no_progress with_reducible refine Keeps.mkK ?_
    | with_reducible refine State.popHead_keeps ?_
    | with_reducible refine Keeps.doAll ?_ (fun _ _ _ => ?_)
    | with_reducible refine Keeps.doIf ?_ (fun _ _ => ?_)
    | with_reducible refine Keeps.foldl ?_ (fun _ _ _ => ?_)
    | with_reducible refine Keeps.foldlFst ?_ (fun _ _ _ => ?_)
    | with_reducible refine Keeps.foldlSnd ?_ (fun _ _ _ => ?_)
    | with_reducible refine KeepsR.host ?_ (fun _ _ => ?_)
    | with_reducible refine Keeps.ofSnd (by assumption) ?_
    | with_reducible refine Keeps.ofFst (by assumption) ?_
    | split

theorem State.readStatus_keeps {ρ : State} {s : State} {m : Nat} (hk : Keeps ρ s) : Keeps ρ (State.readStatus s m) := by
  unfold State.readStatus
  repeat' first
    | with_reducible assumption
    | with_reducible refine KeepsR.next ?_
    | fail_if_no_progress with_reducible refine Keeps.mkK ?_
    | with_reducible refine State.modHead_keeps ?_

theorem State.cellarWrite_keeps {ρ : State} {s : State} {n : Nat} {setId : Nat} {payload : List Word} (hk : Keeps ρ s) : Keeps ρ (State.cellarWrite s n setId payload) := by
  unfold State.cellarWrite
  repeat' first
    | with_reducible assumption
    | with_reducible refine KeepsR.next ?_
    | fail_if_no_progress with_reducible refine Keeps.mkK ?_
    | with_reducible refine State.setSlotOf_keeps ?_
    | with_reducible refine State.setFld_keeps ?_
    | with_reducible refine State.raise_keeps ?_
    | with_reducible refine Keeps.doAll ?_ (fun _ _ _ => ?_)
    | with_reducible refine Keeps.doIf ?_ (fun _ _ => ?_)

theorem State.ownWrite_keeps {ρ : State} {s : State} {n : Nat} {payload : List Word} (hk : Keeps ρ s) : Keeps ρ (State.ownWrite s n payload) := by
  unfold State.ownWrite
  repeat' first
    | with_reducible assumption
    | with_reducible refine KeepsR.next ?_
    | fail_if_no_progress with_reducible refine Keeps.mkK ?_
    | with_reducible refine State.count_keeps ?_
    | with_reducible refine State.cellarWrite_keeps ?_
    | with_reducible refine Keeps.doAll ?_ (fun _ _ _ => ?_)
    | with_reducible refine Keeps.doIf ?_ (fun _ _ => ?_)
    | with_reducible refine Keeps.foldl ?_ (fun _ _ _ => ?_)
    | with_reducible refine Keeps.foldlFst ?_ (fun _ _ _ => ?_)
    | with_reducible refine Keeps.foldlSnd ?_ (fun _ _ _ => ?_)
    | with_reducible refine KeepsR.host ?_ (fun _ _ => ?_)
    | (lift_lets; intro x; clear_value x)
    | with_reducible refine Keeps.ofSnd (by assumption) ?_
    | with_reducible refine Keeps.ofFst (by assumption) ?_
    | split

theorem State.undefer_keeps {ρ : State} {s : State} (hk : Keeps ρ s) : Keeps ρ (State.undefer s) := by
  unfold State.undefer
  repeat' first
    | with_reducible assumption
    | with_reducible refine KeepsR.next ?_
    | fail_if_no_progress with_reducible refine Keeps.mkK ?_
    | with_reducible refine State.cellarWrite_keeps ?_
    | with_reducible refine Keeps.doAll ?_ (fun _ _ _ => ?_)

theorem State.dropUncommitted_keeps {ρ : State} {s : State} (hk : Keeps ρ s) : Keeps ρ (State.dropUncommitted s) := by
  unfold State.dropUncommitted
  repeat' first
    | with_reducible assumption
    | with_reducible refine KeepsR.next ?_
    | fail_if_no_progress with_reducible refine Keeps.mkK ?_

theorem State.writeRecords_keeps {ρ : State} {s : State} {id : Nat} {l : List (Nat × List Word)} (hk : Keeps ρ s) : Keeps ρ (State.writeRecords s id l).2 := by
  unfold State.writeRecords
  repeat' first
    | with_reducible assumption
    | with_reducible refine KeepsR.next ?_
    | fail_if_no_progress with_reducible refine Keeps.mkK ?_
    | with_reducible refine State.cellarWrite_keeps ?_
    | with_reducible refine Keeps.doAll ?_ (fun _ _ _ => ?_)
    | with_reducible refine Keeps.doIf ?_ (fun _ _ => ?_)
    | with_reducible refine Keeps.foldl ?_ (fun _ _ _ => ?_)
    | with_reducible refine Keeps.foldlFst ?_ (fun _ _ _ => ?_)
    | with_reducible refine Keeps.foldlSnd ?_ (fun _ _ _ => ?_)
    | with_reducible refine KeepsR.host ?_ (fun _ _ => ?_)
    | with_reducible refine Keeps.ofSnd (by assumption) ?_
    | with_reducible refine Keeps.ofFst (by assumption) ?_
    | split

theorem State.writeSet_keeps {ρ : State} {s : State} {l : List (Nat × List Word)} (hk : Keeps ρ s) : Keeps ρ (State.writeSet s l) := by
  unfold State.writeSet
  repeat' first
    | with_reducible assumption
    | with_reducible refine KeepsR.next ?_
    | fail_if_no_progress with_reducible refine Keeps.mkK ?_
    | with_reducible refine State.cellarWrite_keeps ?_
    | with_reducible refine State.dropUncommitted_keeps ?_
    | with_reducible refine State.writeRecords_keeps ?_
    | with_reducible refine Keeps.doAll ?_ (fun _ _ _ => ?_)
    | with_reducible refine Keeps.doIf ?_ (fun _ _ => ?_)
    | with_reducible refine Keeps.foldl ?_ (fun _ _ _ => ?_)
    | with_reducible refine Keeps.foldlFst ?_ (fun _ _ _ => ?_)
    | with_reducible refine Keeps.foldlSnd ?_ (fun _ _ _ => ?_)
    | with_reducible refine KeepsR.host ?_ (fun _ _ => ?_)
    | (lift_lets; intro x; refine Keeps.cut (r := ρ) (x := x) ?_ (fun hx => ?_); (on_goal 1 => dsimp only [x]); (on_goal 2 => clear_value x))
    | with_reducible refine Keeps.ofSnd (by assumption) ?_
    | with_reducible refine Keeps.ofFst (by assumption) ?_
    | split
    | dsimp only

theorem State.setStale_keeps {ρ : State} {s : State} {item : Nat} {units : List Nat} {b : Bool} (hk : Keeps ρ s) : Keeps ρ (State.setStale s item units b) := by
  unfold State.setStale
  repeat' first
    | with_reducible assumption
    | with_reducible refine KeepsR.next ?_
    | fail_if_no_progress with_reducible refine Keeps.mkK ?_
    | with_reducible refine State.setFlag_keeps ?_
    | with_reducible refine Keeps.doAll ?_ (fun _ _ _ => ?_)
    | with_reducible refine Keeps.doIf ?_ (fun _ _ => ?_)
    | with_reducible refine Keeps.foldl ?_ (fun _ _ _ => ?_)
    | with_reducible refine Keeps.foldlFst ?_ (fun _ _ _ => ?_)
    | with_reducible refine Keeps.foldlSnd ?_ (fun _ _ _ => ?_)
    | with_reducible refine KeepsR.host ?_ (fun _ _ => ?_)
    | with_reducible refine Keeps.ofSnd (by assumption) ?_
    | with_reducible refine Keeps.ofFst (by assumption) ?_
    | split

theorem State.loopWords_keeps {ρ : State} {s : State} (hk : Keeps ρ s) : Keeps ρ (State.loopWords s) := by
  unfold State.loopWords
  repeat' first
    | with_reducible assumption
    | with_reducible refine KeepsR.next ?_
    | fail_if_no_progress with_reducible refine Keeps.mkK ?_
    | with_reducible refine State.setFld_keeps ?_
    | with_reducible refine Keeps.doAll ?_ (fun _ _ _ => ?_)

theorem State.ownWords_keeps {ρ : State} {s : State} (hk : Keeps ρ s) : Keeps ρ (State.ownWords s) := by
  unfold State.ownWords
  repeat' first
    | with_reducible assumption
    | with_reducible refine KeepsR.next ?_
    | fail_if_no_progress with_reducible refine Keeps.mkK ?_
    | with_reducible refine State.setFlag_keeps ?_
    | with_reducible refine Keeps.doAll ?_ (fun _ _ _ => ?_)

theorem State.genWords_keeps {ρ : State} {s : State} {g : Nat} (hk : Keeps ρ s) : Keeps ρ (State.genWords s g) := by
  unfold State.genWords
  repeat' first
    | with_reducible assumption
    | with_reducible refine KeepsR.next ?_
    | fail_if_no_progress with_reducible refine Keeps.mkK ?_
    | with_reducible refine State.setInt_keeps ?_

theorem State.unsettle_keeps {ρ : State} {s : State} {g : Nat} (hk : Keeps ρ s) : Keeps ρ (State.unsettle s g) := by
  unfold State.unsettle
  repeat' first
    | with_reducible assumption
    | with_reducible refine KeepsR.next ?_
    | fail_if_no_progress with_reducible refine Keeps.mkK ?_
    | with_reducible refine State.modGen_keeps ?_
    | with_reducible refine State.setFld_keeps ?_

theorem State.genCommand_keeps {ρ : State} {s : State} {g : Nat} {target : Int} (hk : Keeps ρ s) : Keeps ρ (State.genCommand s g target) := by
  unfold State.genCommand
  repeat' first
    | with_reducible assumption
    | with_reducible refine KeepsR.next ?_
    | fail_if_no_progress with_reducible refine Keeps.mkK ?_
    | with_reducible refine State.modGen_keeps ?_
    | with_reducible refine State.setFld_keeps ?_
    | with_reducible refine State.setInt_keeps ?_
    | with_reducible refine State.genWords_keeps ?_
    | with_reducible refine State.unsettle_keeps ?_
    | with_reducible refine Keeps.doAll ?_ (fun _ _ _ => ?_)
    | with_reducible refine Keeps.doIf ?_ (fun _ _ => ?_)

theorem State.genSample_keeps {ρ : State} {s : State} {g : Nat} (hk : Keeps ρ s) : Keeps ρ (State.genSample s g) := by
  unfold State.genSample
  repeat' first
    | with_reducible assumption
    | with_reducible refine KeepsR.next ?_
    | fail_if_no_progress with_reducible refine Keeps.mkK ?_
    | with_reducible refine State.setGen_keeps ?_
    | with_reducible refine State.setFld_keeps ?_
    | with_reducible refine State.setOutcome_keeps ?_
    | with_reducible refine State.genWords_keeps ?_
    | with_reducible refine Keeps.doAll ?_ (fun _ _ _ => ?_)
    | with_reducible refine Keeps.doIf ?_ (fun _ _ => ?_)
    | with_reducible refine Keeps.foldl ?_ (fun _ _ _ => ?_)
    | with_reducible refine Keeps.foldlFst ?_ (fun _ _ _ => ?_)
    | with_reducible refine Keeps.foldlSnd ?_ (fun _ _ _ => ?_)
    | with_reducible refine KeepsR.host ?_ (fun _ _ => ?_)
    | (lift_lets; intro x; clear_value x)
    | with_reducible refine Keeps.ofSnd (by assumption) ?_
    | with_reducible refine Keeps.ofFst (by assumption) ?_
    | split

theorem State.injSample_keeps {ρ : State} {s : State} {l : Nat} (hk : Keeps ρ s) : Keeps ρ (State.injSample s l) := by
  unfold State.injSample
  repeat' first
    | with_reducible assumption
    | with_reducible refine KeepsR.next ?_
    | fail_if_no_progress with_reducible refine Keeps.mkK ?_
    | with_reducible refine State.setInj_keeps ?_
    | with_reducible refine State.modInj_keeps ?_
    | with_reducible refine Keeps.doAll ?_ (fun _ _ _ => ?_)
    | with_reducible refine Keeps.doIf ?_ (fun _ _ => ?_)
    | with_reducible refine Keeps.foldl ?_ (fun _ _ _ => ?_)
    | with_reducible refine Keeps.foldlFst ?_ (fun _ _ _ => ?_)
    | with_reducible refine Keeps.foldlSnd ?_ (fun _ _ _ => ?_)
    | with_reducible refine KeepsR.host ?_ (fun _ _ => ?_)
    | (lift_lets; intro x; clear_value x)
    | with_reducible refine Keeps.ofSnd (by assumption) ?_
    | with_reducible refine Keeps.ofFst (by assumption) ?_
    | split

theorem State.injEnd_keeps {ρ : State} {s : State} {k : Nat} (hk : Keeps ρ s) : Keeps ρ (State.injEnd s k) := by
  unfold State.injEnd
  repeat' first
    | with_reducible assumption
    | with_reducible refine KeepsR.next ?_
    | fail_if_no_progress with_reducible refine Keeps.mkK ?_
    | with_reducible refine State.setInj_keeps ?_
    | with_reducible refine State.setFld_keeps ?_
    | with_reducible refine State.raise_keeps ?_
    | with_reducible refine Keeps.doAll ?_ (fun _ _ _ => ?_)
    | with_reducible refine Keeps.doIf ?_ (fun _ _ => ?_)
    | with_reducible refine Keeps.foldl ?_ (fun _ _ _ => ?_)
    | with_reducible refine Keeps.foldlFst ?_ (fun _ _ _ => ?_)
    | with_reducible refine Keeps.foldlSnd ?_ (fun _ _ _ => ?_)
    | with_reducible refine KeepsR.host ?_ (fun _ _ => ?_)
    | with_reducible refine Keeps.ofSnd (by assumption) ?_
    | with_reducible refine Keeps.ofFst (by assumption) ?_
    | split

theorem State.capTrigger_keeps {ρ : State} {s : State} {kind : Nat} {unit : Nat} (hk : Keeps ρ s) : Keeps ρ (State.capTrigger s kind unit) := by
  unfold State.capTrigger
  repeat' first
    | with_reducible assumption
    | with_reducible refine KeepsR.next ?_
    | fail_if_no_progress with_reducible refine Keeps.mkK ?_
    | with_reducible refine Keeps.doAll ?_ (fun _ _ _ => ?_)
    | with_reducible refine Keeps.doIf ?_ (fun _ _ => ?_)
    | with_reducible refine Keeps.foldl ?_ (fun _ _ _ => ?_)
    | with_reducible refine Keeps.foldlFst ?_ (fun _ _ _ => ?_)
    | with_reducible refine Keeps.foldlSnd ?_ (fun _ _ _ => ?_)
    | with_reducible refine KeepsR.host ?_ (fun _ _ => ?_)
    | (lift_lets; intro x; clear_value x)
    | with_reducible refine Keeps.ofSnd (by assumption) ?_
    | with_reducible refine Keeps.ofFst (by assumption) ?_
    | split

theorem State.capTake_keeps {ρ : State} {s : State} {sample : List Int} (hk : Keeps ρ s) : Keeps ρ (State.capTake s sample) := by
  unfold State.capTake
  repeat' first
    | with_reducible assumption
    | with_reducible refine KeepsR.next ?_
    | fail_if_no_progress with_reducible refine Keeps.mkK ?_
    | with_reducible refine State.setFld_keeps ?_
    | with_reducible refine Keeps.doAll ?_ (fun _ _ _ => ?_)
    | with_reducible refine Keeps.doIf ?_ (fun _ _ => ?_)
    | with_reducible refine Keeps.foldl ?_ (fun _ _ _ => ?_)
    | with_reducible refine Keeps.foldlFst ?_ (fun _ _ _ => ?_)
    | with_reducible refine Keeps.foldlSnd ?_ (fun _ _ _ => ?_)
    | with_reducible refine KeepsR.host ?_ (fun _ _ => ?_)
    | with_reducible refine Keeps.ofSnd (by assumption) ?_
    | with_reducible refine Keeps.ofFst (by assumption) ?_
    | split

theorem State.capSample_keeps {ρ : State} {s : State} {l : Nat} (hk : Keeps ρ s) : Keeps ρ (State.capSample s l) := by
  unfold State.capSample
  repeat' first
    | with_reducible assumption
    | with_reducible refine KeepsR.next ?_
    | fail_if_no_progress with_reducible refine Keeps.mkK ?_
    | with_reducible refine State.capTake_keeps ?_
    | with_reducible refine Keeps.doAll ?_ (fun _ _ _ => ?_)
    | with_reducible refine Keeps.doIf ?_ (fun _ _ => ?_)
    | with_reducible refine Keeps.foldl ?_ (fun _ _ _ => ?_)
    | with_reducible refine Keeps.foldlFst ?_ (fun _ _ _ => ?_)
    | with_reducible refine Keeps.foldlSnd ?_ (fun _ _ _ => ?_)
    | with_reducible refine KeepsR.host ?_ (fun _ _ => ?_)
    | (lift_lets; intro x; clear_value x)
    | with_reducible refine Keeps.ofSnd (by assumption) ?_
    | with_reducible refine Keeps.ofFst (by assumption) ?_
    | split

theorem State.capArm_keeps {ρ : State} {s : State} (hk : Keeps ρ s) : Keeps ρ (State.capArm s) := by
  unfold State.capArm
  repeat' first
    | with_reducible assumption
    | with_reducible refine KeepsR.next ?_
    | fail_if_no_progress with_reducible refine Keeps.mkK ?_
    | with_reducible refine State.setFld_keeps ?_

theorem State.setHigh_keeps {ρ : State} {s : State} {n : Nat} {period : Nat} {v : Int} (hk : Keeps ρ s) : Keeps ρ (State.setHigh s n period v) := by
  unfold State.setHigh
  repeat' first
    | with_reducible assumption
    | with_reducible refine KeepsR.next ?_
    | fail_if_no_progress with_reducible refine Keeps.mkK ?_
    | with_reducible refine State.modPwm_keeps ?_
    | with_reducible refine State.emit_keeps ?_

theorem State.drive_keeps {ρ : State} {s : State} {l : Nat} {v : Int} (hk : Keeps ρ s) : Keeps ρ (State.drive s l v) := by
  unfold State.drive
  repeat' first
    | with_reducible assumption
    | with_reducible refine KeepsR.next ?_
    | fail_if_no_progress with_reducible refine Keeps.mkK ?_
    | with_reducible refine State.setInt_keeps ?_
    | with_reducible refine State.emit_keeps ?_
    | with_reducible refine State.setHigh_keeps ?_
    | with_reducible refine Keeps.doAll ?_ (fun _ _ _ => ?_)
    | with_reducible refine Keeps.doIf ?_ (fun _ _ => ?_)
    | with_reducible refine Keeps.foldl ?_ (fun _ _ _ => ?_)
    | with_reducible refine Keeps.foldlFst ?_ (fun _ _ _ => ?_)
    | with_reducible refine Keeps.foldlSnd ?_ (fun _ _ _ => ?_)
    | with_reducible refine KeepsR.host ?_ (fun _ _ => ?_)
    | (lift_lets; intro x; refine Keeps.cut (r := ρ) (x := x) ?_ (fun hx => ?_); (on_goal 1 => dsimp only [x]); (on_goal 2 => clear_value x))
    | with_reducible refine Keeps.ofSnd (by assumption) ?_
    | with_reducible refine Keeps.ofFst (by assumption) ?_
    | split

theorem State.loopInit_keeps {ρ : State} {s : State} {l : Nat} (hk : Keeps ρ s) : Keeps ρ (State.loopInit s l) := by
  unfold State.loopInit
  repeat' first
    | with_reducible assumption
    | with_reducible refine KeepsR.next ?_
    | fail_if_no_progress with_reducible refine Keeps.mkK ?_
    | with_reducible refine State.modLoop_keeps ?_
    | with_reducible refine State.setFld_keeps ?_

theorem State.loopUnsettle_keeps {ρ : State} {s : State} {l : Nat} (hk : Keeps ρ s) : Keeps ρ (State.loopUnsettle s l) := by
  unfold State.loopUnsettle
  repeat' first
    | with_reducible assumption
    | with_reducible refine KeepsR.next ?_
    | fail_if_no_progress with_reducible refine Keeps.mkK ?_
    | with_reducible refine State.unsettle_keeps ?_
    | with_reducible refine Keeps.doAll ?_ (fun _ _ _ => ?_)

theorem State.loopEnable_keeps {ρ : State} {s : State} {l : Nat} (hk : Keeps ρ s) : Keeps ρ (State.loopEnable s l) := by
  unfold State.loopEnable
  repeat' first
    | with_reducible assumption
    | with_reducible refine KeepsR.next ?_
    | fail_if_no_progress with_reducible refine Keeps.mkK ?_
    | with_reducible refine State.setLoop_keeps ?_
    | with_reducible refine State.setFld_keeps ?_
    | with_reducible refine State.loopInit_keeps ?_

theorem State.loopDisable_keeps {ρ : State} {s : State} {l : Nat} (hk : Keeps ρ s) : Keeps ρ (State.loopDisable s l) := by
  unfold State.loopDisable
  repeat' first
    | with_reducible assumption
    | with_reducible refine KeepsR.next ?_
    | fail_if_no_progress with_reducible refine Keeps.mkK ?_
    | with_reducible refine State.setLoop_keeps ?_
    | with_reducible refine State.setFld_keeps ?_
    | with_reducible refine State.drive_keeps ?_
    | with_reducible refine State.loopUnsettle_keeps ?_

theorem State.loopFault_keeps {ρ : State} {s : State} {l : Nat} (hk : Keeps ρ s) : Keeps ρ (State.loopFault s l) := by
  unfold State.loopFault
  repeat' first
    | with_reducible assumption
    | with_reducible refine KeepsR.next ?_
    | fail_if_no_progress with_reducible refine Keeps.mkK ?_
    | with_reducible refine State.setFld_keeps ?_
    | with_reducible refine State.raise_keeps ?_
    | with_reducible refine State.capTrigger_keeps ?_
    | with_reducible refine State.drive_keeps ?_
    | with_reducible refine State.loopUnsettle_keeps ?_
    | with_reducible refine Keeps.doAll ?_ (fun _ _ _ => ?_)
    | with_reducible refine Keeps.doIf ?_ (fun _ _ => ?_)
    | with_reducible refine Keeps.foldl ?_ (fun _ _ _ => ?_)
    | with_reducible refine Keeps.foldlFst ?_ (fun _ _ _ => ?_)
    | with_reducible refine Keeps.foldlSnd ?_ (fun _ _ _ => ?_)
    | with_reducible refine KeepsR.host ?_ (fun _ _ => ?_)
    | with_reducible refine Keeps.ofSnd (by assumption) ?_
    | with_reducible refine Keeps.ofFst (by assumption) ?_
    | split

theorem State.loopClear_keeps {ρ : State} {s : State} {l : Nat} (hk : Keeps ρ s) : Keeps ρ (State.loopClear s l) := by
  unfold State.loopClear
  repeat' first
    | with_reducible assumption
    | with_reducible refine KeepsR.next ?_
    | fail_if_no_progress with_reducible refine Keeps.mkK ?_
    | with_reducible refine State.modLoop_keeps ?_
    | with_reducible refine State.setFld_keeps ?_
    | with_reducible refine Keeps.doAll ?_ (fun _ _ _ => ?_)
    | with_reducible refine Keeps.doIf ?_ (fun _ _ => ?_)
    | with_reducible refine Keeps.foldl ?_ (fun _ _ _ => ?_)
    | with_reducible refine Keeps.foldlFst ?_ (fun _ _ _ => ?_)
    | with_reducible refine Keeps.foldlSnd ?_ (fun _ _ _ => ?_)
    | with_reducible refine KeepsR.host ?_ (fun _ _ => ?_)
    | (lift_lets; intro x; refine Keeps.cut (r := ρ) (x := x) ?_ (fun hx => ?_); (on_goal 1 => dsimp only [x]); (on_goal 2 => clear_value x))
    | with_reducible refine Keeps.ofSnd (by assumption) ?_
    | with_reducible refine Keeps.ofFst (by assumption) ?_
    | split

theorem State.feCheck_keeps {ρ : State} {s : State} {l : Nat} {err : Int} (hk : Keeps ρ s) : Keeps ρ (State.feCheck s l err) := by
  unfold State.feCheck
  repeat' first
    | with_reducible assumption
    | with_reducible refine KeepsR.next ?_
    | fail_if_no_progress with_reducible refine Keeps.mkK ?_
    | with_reducible refine State.setLoop_keeps ?_
    | with_reducible refine State.setFld_keeps ?_
    | with_reducible refine State.count_keeps ?_
    | with_reducible refine State.raise_keeps ?_
    | with_reducible refine State.capTrigger_keeps ?_
    | with_reducible refine State.loopFault_keeps ?_
    | with_reducible refine Keeps.doAll ?_ (fun _ _ _ => ?_)
    | with_reducible refine Keeps.doIf ?_ (fun _ _ => ?_)
    | with_reducible refine Keeps.foldl ?_ (fun _ _ _ => ?_)
    | with_reducible refine Keeps.foldlFst ?_ (fun _ _ _ => ?_)
    | with_reducible refine Keeps.foldlSnd ?_ (fun _ _ _ => ?_)
    | with_reducible refine KeepsR.host ?_ (fun _ _ => ?_)
    | (lift_lets; intro x; clear_value x)
    | with_reducible refine Keeps.ofSnd (by assumption) ?_
    | with_reducible refine Keeps.ofFst (by assumption) ?_
    | split

theorem State.settleCheck_keeps {ρ : State} {s : State} {g : Nat} {err : Int} (hk : Keeps ρ s) : Keeps ρ (State.settleCheck s g err) := by
  unfold State.settleCheck
  repeat' first
    | with_reducible assumption
    | with_reducible refine KeepsR.next ?_
    | fail_if_no_progress with_reducible refine Keeps.mkK ?_
    | with_reducible refine State.modGen_keeps ?_
    | with_reducible refine State.setFld_keeps ?_
    | with_reducible refine State.setOutcome_keeps ?_
    | with_reducible refine State.unsettle_keeps ?_
    | with_reducible refine Keeps.doAll ?_ (fun _ _ _ => ?_)
    | with_reducible refine Keeps.doIf ?_ (fun _ _ => ?_)
    | with_reducible refine Keeps.foldl ?_ (fun _ _ _ => ?_)
    | with_reducible refine Keeps.foldlFst ?_ (fun _ _ _ => ?_)
    | with_reducible refine Keeps.foldlSnd ?_ (fun _ _ _ => ?_)
    | with_reducible refine KeepsR.host ?_ (fun _ _ => ?_)
    | (lift_lets; intro x; clear_value x)
    | with_reducible refine Keeps.ofSnd (by assumption) ?_
    | with_reducible refine Keeps.ofFst (by assumption) ?_
    | split

theorem State.setWinner_keeps {ρ : State} {s : State} {n : Nat} {w : Nat} (hk : Keeps ρ s) : Keeps ρ (State.setWinner s n w) := by
  unfold State.setWinner
  repeat' first
    | with_reducible assumption
    | with_reducible refine KeepsR.next ?_
    | fail_if_no_progress with_reducible refine Keeps.mkK ?_
    | with_reducible refine State.setFld_keeps ?_
    | with_reducible refine State.count_keeps ?_
    | with_reducible refine Keeps.doAll ?_ (fun _ _ _ => ?_)
    | with_reducible refine Keeps.doIf ?_ (fun _ _ => ?_)

theorem State.lwJudge_keeps {ρ : State} {s : State} {n : Nat} {tick : Nat} (hk : Keeps ρ s) : Keeps ρ (State.lwJudge s n tick) := by
  unfold State.lwJudge
  repeat' first
    | with_reducible assumption
    | with_reducible refine KeepsR.next ?_
    | fail_if_no_progress with_reducible refine Keeps.mkK ?_
    | with_reducible refine State.modLoop_keeps ?_
    | with_reducible refine State.setFld_keeps ?_
    | with_reducible refine State.setFlag_keeps ?_
    | with_reducible refine State.setWinner_keeps ?_
    | with_reducible refine Keeps.doAll ?_ (fun _ _ _ => ?_)
    | with_reducible refine Keeps.doIf ?_ (fun _ _ => ?_)
    | with_reducible refine Keeps.foldl ?_ (fun _ _ _ => ?_)
    | with_reducible refine Keeps.foldlFst ?_ (fun _ _ _ => ?_)
    | with_reducible refine Keeps.foldlSnd ?_ (fun _ _ _ => ?_)
    | with_reducible refine KeepsR.host ?_ (fun _ _ => ?_)
    | (lift_lets; intro x; clear_value x)
    | with_reducible refine Keeps.ofSnd (by assumption) ?_
    | with_reducible refine Keeps.ofFst (by assumption) ?_
    | split
    | dsimp only

theorem State.setPlaneBit_keeps {ρ : State} {s : State} {h : Nat} {b : Nat} {copy : Nat} {p : Nat} {r : Nat} {x : Nat} {v : Bool} (hk : Keeps ρ s) : Keeps ρ (State.setPlaneBit s h b copy p r x v) := by
  unfold State.setPlaneBit
  repeat' first
    | with_reducible assumption
    | with_reducible refine KeepsR.next ?_
    | fail_if_no_progress with_reducible refine Keeps.mkK ?_
    | with_reducible refine State.setByte_keeps ?_
    | with_reducible refine State.setLoftByte_keeps ?_
    | with_reducible refine Keeps.doAll ?_ (fun _ _ _ => ?_)
    | with_reducible refine Keeps.doIf ?_ (fun _ _ => ?_)
    | with_reducible refine Keeps.foldl ?_ (fun _ _ _ => ?_)
    | with_reducible refine Keeps.foldlFst ?_ (fun _ _ _ => ?_)
    | with_reducible refine Keeps.foldlSnd ?_ (fun _ _ _ => ?_)
    | with_reducible refine KeepsR.host ?_ (fun _ _ => ?_)
    | (lift_lets; intro x; clear_value x)
    | with_reducible refine Keeps.ofSnd (by assumption) ?_
    | with_reducible refine Keeps.ofFst (by assumption) ?_
    | split

theorem State.rebuildEntry_keeps {ρ : State} {s : State} {b : Nat} {w : Nat} {masked : Bool} (hk : Keeps ρ s) : Keeps ρ (State.rebuildEntry s b w masked) := by
  unfold State.rebuildEntry
  repeat' first
    | with_reducible assumption
    | with_reducible refine KeepsR.next ?_
    | fail_if_no_progress with_reducible refine Keeps.mkK ?_
    | with_reducible refine State.setFld_keeps ?_
    | with_reducible refine Keeps.doAll ?_ (fun _ _ _ => ?_)
    | with_reducible refine Keeps.doIf ?_ (fun _ _ => ?_)
    | with_reducible refine Keeps.foldl ?_ (fun _ _ _ => ?_)
    | with_reducible refine Keeps.foldlFst ?_ (fun _ _ _ => ?_)
    | with_reducible refine Keeps.foldlSnd ?_ (fun _ _ _ => ?_)
    | with_reducible refine KeepsR.host ?_ (fun _ _ => ?_)
    | (lift_lets; intro x; clear_value x)
    | with_reducible refine Keeps.ofSnd (by assumption) ?_
    | with_reducible refine Keeps.ofFst (by assumption) ?_
    | split

theorem State.rebuildEff_keeps {ρ : State} {s : State} {b : Nat} {which : Nat → Bool} {masked : Nat → Bool} (hk : Keeps ρ s) : Keeps ρ (State.rebuildEff s b which masked) := by
  unfold State.rebuildEff
  repeat' first
    | with_reducible assumption
    | with_reducible refine KeepsR.next ?_
    | fail_if_no_progress with_reducible refine Keeps.mkK ?_
    | with_reducible refine State.setFlag_keeps ?_
    | with_reducible refine State.rebuildEntry_keeps ?_
    | with_reducible refine Keeps.doAll ?_ (fun _ _ _ => ?_)

theorem State.setTout_keeps {ρ : State} {s : State} {o : Nat} {b : Bool} (hk : Keeps ρ s) : Keeps ρ (State.setTout s o b) := by
  unfold State.setTout
  repeat' first
    | with_reducible assumption
    | with_reducible refine KeepsR.next ?_
    | fail_if_no_progress with_reducible refine Keeps.mkK ?_

theorem State.lowOuts_keeps {ρ : State} {s : State} {l : List Nat} (hk : Keeps ρ s) : Keeps ρ (State.lowOuts s l) := by
  unfold State.lowOuts
  repeat' first
    | with_reducible assumption
    | with_reducible refine KeepsR.next ?_
    | fail_if_no_progress with_reducible refine Keeps.mkK ?_
    | with_reducible refine State.setTout_keeps ?_
    | with_reducible refine Keeps.doAll ?_ (fun _ _ _ => ?_)

theorem State.supplySync_keeps {ρ : State} {s : State} {h : Nat} (hk : Keeps ρ s) : Keeps ρ (State.supplySync s h) := by
  unfold State.supplySync
  repeat' first
    | with_reducible assumption
    | with_reducible refine KeepsR.next ?_
    | fail_if_no_progress with_reducible refine Keeps.mkK ?_
    | with_reducible refine State.setTout_keeps ?_
    | with_reducible refine State.lowOuts_keeps ?_
    | with_reducible refine Keeps.doAll ?_ (fun _ _ _ => ?_)
    | with_reducible refine Keeps.doIf ?_ (fun _ _ => ?_)
    | with_reducible refine Keeps.foldl ?_ (fun _ _ _ => ?_)
    | with_reducible refine Keeps.foldlFst ?_ (fun _ _ _ => ?_)
    | with_reducible refine Keeps.foldlSnd ?_ (fun _ _ _ => ?_)
    | with_reducible refine KeepsR.host ?_ (fun _ _ => ?_)
    | with_reducible refine Keeps.ofSnd (by assumption) ?_
    | with_reducible refine Keeps.ofFst (by assumption) ?_
    | split

theorem State.darkHead_keeps {ρ : State} {s : State} {h : Nat} (hk : Keeps ρ s) : Keeps ρ (State.darkHead s h) := by
  unfold State.darkHead
  repeat' first
    | with_reducible assumption
    | with_reducible refine KeepsR.next ?_
    | fail_if_no_progress with_reducible refine Keeps.mkK ?_
    | with_reducible refine State.lowOuts_keeps ?_

end Sys2Proof.Machine
end

