-- ==== Sys2Proof/Laws/KeepsLink.lean ====
section
/-!
SUPPORT. The relation `Keeps` for the operations of Machine/Wire.lean, Machine/Link.lean, Machine/Bus.lean.
-/

namespace Sys2Proof.Machine

theorem State.putColumn_keeps {ρ : State} {s : State} {h : Nat} {hd : BitVec 4} {f : Nat → BitVec 128} (hk : Keeps ρ s) : Keeps ρ (State.putColumn s h hd f) := by
  unfold State.putColumn
  repeat' first
    | with_reducible assumption
    | with_reducible refine KeepsR.next ?_
    | fail_if_no_progress with_reducible refine Keeps.mkK ?_
    | with_reducible refine State.setPort_keeps ?_

theorem State.sendAm_keeps {ρ : State} {s : State} {h : Nat} (hk : Keeps ρ s) : Keeps ρ (State.sendAm s h) := by
  unfold State.sendAm
  repeat' first
    | with_reducible assumption
    | with_reducible refine KeepsR.next ?_
    | fail_if_no_progress with_reducible refine Keeps.mkK ?_
    | with_reducible refine State.modPort_keeps ?_
    | with_reducible refine State.putColumn_keeps ?_

theorem State.sendColumn_keeps {ρ : State} {s : State} {h : Nat} {hd : BitVec 4} {f : Nat → BitVec 128} (hk : Keeps ρ s) : Keeps ρ (State.sendColumn s h hd f) := by
  unfold State.sendColumn
  repeat' first
    | with_reducible assumption
    | with_reducible refine KeepsR.next ?_
    | fail_if_no_progress with_reducible refine Keeps.mkK ?_
    | with_reducible refine State.putColumn_keeps ?_
    | with_reducible refine State.sendAm_keeps ?_
    | with_reducible refine Keeps.doAll ?_ (fun _ _ _ => ?_)
    | with_reducible refine Keeps.doIf ?_ (fun _ _ => ?_)

theorem State.sendTrain_keeps {ρ : State} {s : State} {h : Nat} (hk : Keeps ρ s) : Keeps ρ (State.sendTrain s h) := by
  unfold State.sendTrain
  repeat' first
    | with_reducible assumption
    | with_reducible refine KeepsR.next ?_
    | fail_if_no_progress with_reducible refine Keeps.mkK ?_
    | with_reducible refine State.sendColumn_keeps ?_

theorem State.sendBlocks_keeps {ρ : State} {s : State} {h : Nat} {l : List (BitVec 128)} (hk : Keeps ρ s) : Keeps ρ (State.sendBlocks s h l) := by
  unfold State.sendBlocks
  repeat' first
    | with_reducible assumption
    | with_reducible refine KeepsR.next ?_
    | fail_if_no_progress with_reducible refine Keeps.mkK ?_
    | with_reducible refine State.modPort_keeps ?_
    | with_reducible refine State.sendColumn_keeps ?_
    | with_reducible refine Keeps.doAll ?_ (fun _ _ _ => ?_)

theorem State.sendPacket_keeps {ρ : State} {s : State} {h : Nat} {o : Out} {type : Nat} {fields : Nat} {payload : List Byte} (hk : Keeps ρ s) : Keeps ρ (State.sendPacket s h o type fields payload) := by
  unfold State.sendPacket
  repeat' first
    | with_reducible assumption
    | with_reducible refine KeepsR.next ?_
    | fail_if_no_progress with_reducible refine Keeps.mkK ?_
    | with_reducible refine State.modPort_keeps ?_
    | with_reducible refine State.emit_keeps ?_
    | with_reducible refine State.sendBlocks_keeps ?_

theorem State.sendFill_keeps {ρ : State} {s : State} {h : Nat} (hk : Keeps ρ s) : Keeps ρ (State.sendFill s h) := by
  unfold State.sendFill
  repeat' first
    | with_reducible assumption
    | with_reducible refine KeepsR.next ?_
    | fail_if_no_progress with_reducible refine Keeps.mkK ?_
    | with_reducible refine State.emit_keeps ?_
    | with_reducible refine State.sendBlocks_keeps ?_

theorem State.receive_keeps {ρ : State} {s : State} {p : Nat} {lane : Nat} {l : List (BitVec 132)} (hk : Keeps ρ s) : Keeps ρ (State.receive s p lane l) := by
  unfold State.receive
  repeat' first
    | with_reducible assumption
    | with_reducible refine KeepsR.next ?_
    | fail_if_no_progress with_reducible refine Keeps.mkK ?_
    | with_reducible refine State.modPort_keeps ?_

theorem State.receiveColumn_keeps {ρ : State} {s : State} {p : Nat} {c : List (BitVec 132)} (hk : Keeps ρ s) : Keeps ρ (State.receiveColumn s p c) := by
  unfold State.receiveColumn
  repeat' first
    | with_reducible assumption
    | with_reducible refine KeepsR.next ?_
    | fail_if_no_progress with_reducible refine Keeps.mkK ?_
    | with_reducible refine State.receive_keeps ?_
    | with_reducible refine Keeps.doAll ?_ (fun _ _ _ => ?_)

theorem State.sendCmd_keeps {ρ : State} {s : State} {h : Nat} {opcode : Nat} {arg0 : Nat} {payload : List Word} {what : Nat} (hk : Keeps ρ s) : Keeps ρ (State.sendCmd s h opcode arg0 payload what) := by
  unfold State.sendCmd
  repeat' first
    | with_reducible assumption
    | with_reducible refine KeepsR.next ?_
    | fail_if_no_progress with_reducible refine Keeps.mkK ?_
    | with_reducible refine State.modPort_keeps ?_
    | with_reducible refine State.sendPacket_keeps ?_

theorem State.sendMode_keeps {ρ : State} {s : State} {h : Nat} (hk : Keeps ρ s) : Keeps ρ (State.sendMode s h) := by
  unfold State.sendMode
  repeat' first
    | with_reducible assumption
    | with_reducible refine KeepsR.next ?_
    | fail_if_no_progress with_reducible refine Keeps.mkK ?_
    | with_reducible refine State.modPort_keeps ?_
    | with_reducible refine State.sendCmd_keeps ?_

theorem State.sendTiming_keeps {ρ : State} {s : State} {h : Nat} (hk : Keeps ρ s) : Keeps ρ (State.sendTiming s h) := by
  unfold State.sendTiming
  repeat' first
    | with_reducible assumption
    | with_reducible refine KeepsR.next ?_
    | fail_if_no_progress with_reducible refine Keeps.mkK ?_
    | with_reducible refine State.modPort_keeps ?_
    | with_reducible refine State.sendCmd_keeps ?_

theorem State.sendHeadCmd_keeps {ρ : State} {s : State} {m : Nat} {h : Nat} (hk : Keeps ρ s) : Keeps ρ (State.sendHeadCmd s m h) := by
  unfold State.sendHeadCmd
  repeat' first
    | with_reducible assumption
    | with_reducible refine KeepsR.next ?_
    | fail_if_no_progress with_reducible refine Keeps.mkK ?_
    | with_reducible refine State.sendCmd_keeps ?_
    | with_reducible refine Keeps.doAll ?_ (fun _ _ _ => ?_)
    | with_reducible refine Keeps.doIf ?_ (fun _ _ => ?_)
    | with_reducible refine Keeps.foldl ?_ (fun _ _ _ => ?_)
    | with_reducible refine Keeps.foldlFst ?_ (fun _ _ _ => ?_)
    | with_reducible refine Keeps.foldlSnd ?_ (fun _ _ _ => ?_)
    | with_reducible refine KeepsR.host ?_ (fun _ _ => ?_)
    | with_reducible refine Keeps.ofSnd (by assumption) ?_
    | with_reducible refine Keeps.ofFst (by assumption) ?_
    | split

theorem State.setPortState_keeps {ρ : State} {s : State} {p : Nat} {st : Nat} (hk : Keeps ρ s) : Keeps ρ (State.setPortState s p st) := by
  unfold State.setPortState
  repeat' first
    | with_reducible assumption
    | with_reducible refine KeepsR.next ?_
    | fail_if_no_progress with_reducible refine Keeps.mkK ?_
    | with_reducible refine State.setFld_keeps ?_
    | with_reducible refine State.outcome0_keeps ?_
    | with_reducible refine State.sendTrain_keeps ?_
    | with_reducible refine Keeps.doAll ?_ (fun _ _ _ => ?_)
    | with_reducible refine Keeps.doIf ?_ (fun _ _ => ?_)

theorem State.dropLoads_keeps {ρ : State} {s : State} {h : Nat} (hk : Keeps ρ s) : Keeps ρ (State.dropLoads s h) := by
  unfold State.dropLoads
  repeat' first
    | with_reducible assumption
    | with_reducible refine KeepsR.next ?_
    | fail_if_no_progress with_reducible refine Keeps.mkK ?_
    | with_reducible refine State.modBandOf_keeps ?_
    | with_reducible refine Keeps.doAll ?_ (fun _ _ _ => ?_)

theorem State.portLost_keeps {ρ : State} {s : State} {p : Nat} (hk : Keeps ρ s) : Keeps ρ (State.portLost s p) := by
  unfold State.portLost
  repeat' first
    | with_reducible assumption
    | with_reducible refine KeepsR.next ?_
    | fail_if_no_progress with_reducible refine Keeps.mkK ?_
    | with_reducible refine State.modPort_keeps ?_
    | with_reducible refine State.darkHead_keeps ?_
    | with_reducible refine State.dropLoads_keeps ?_
    | with_reducible refine Keeps.doAll ?_ (fun _ _ _ => ?_)
    | with_reducible refine Keeps.doIf ?_ (fun _ _ => ?_)
    | with_reducible refine Keeps.foldl ?_ (fun _ _ _ => ?_)
    | with_reducible refine Keeps.foldlFst ?_ (fun _ _ _ => ?_)
    | with_reducible refine Keeps.foldlSnd ?_ (fun _ _ _ => ?_)
    | with_reducible refine KeepsR.host ?_ (fun _ _ => ?_)
    | with_reducible refine Keeps.ofSnd (by assumption) ?_
    | with_reducible refine Keeps.ofFst (by assumption) ?_
    | split

theorem State.startPresets_keeps {ρ : State} {s : State} {h : Nat} {stored : Bool} (hk : Keeps ρ s) : Keeps ρ (State.startPresets s h stored) := by
  unfold State.startPresets
  repeat' first
    | with_reducible assumption
    | with_reducible refine KeepsR.next ?_
    | fail_if_no_progress with_reducible refine Keeps.mkK ?_
    | with_reducible refine State.setPort_keeps ?_
    | with_reducible refine State.emit_keeps ?_
    | with_reducible refine Keeps.doAll ?_ (fun _ _ _ => ?_)
    | with_reducible refine Keeps.doIf ?_ (fun _ _ => ?_)
    | with_reducible refine Keeps.foldl ?_ (fun _ _ _ => ?_)
    | with_reducible refine Keeps.foldlFst ?_ (fun _ _ _ => ?_)
    | with_reducible refine Keeps.foldlSnd ?_ (fun _ _ _ => ?_)
    | with_reducible refine KeepsR.host ?_ (fun _ _ => ?_)
    | (lift_lets; intro x; clear_value x)
    | with_reducible refine Keeps.ofSnd (by assumption) ?_
    | with_reducible refine Keeps.ofFst (by assumption) ?_
    | split

theorem State.trainFail_keeps {ρ : State} {s : State} {p : Nat} (hk : Keeps ρ s) : Keeps ρ (State.trainFail s p) := by
  unfold State.trainFail
  repeat' first
    | with_reducible assumption
    | with_reducible refine KeepsR.next ?_
    | fail_if_no_progress with_reducible refine Keeps.mkK ?_
    | with_reducible refine State.raise_keeps ?_
    | with_reducible refine State.setPortState_keeps ?_

theorem State.equalisation_keeps {ρ : State} {s : State} {p : Nat} (hk : Keeps ρ s) : Keeps ρ (State.equalisation s p).2 := by
  unfold State.equalisation
  repeat' first
    | with_reducible assumption
    | with_reducible refine KeepsR.next ?_
    | fail_if_no_progress with_reducible refine Keeps.mkK ?_
    | with_reducible refine State.draw_keeps ?_
    | with_reducible refine Keeps.doAll ?_ (fun _ _ _ => ?_)
    | with_reducible refine Keeps.doIf ?_ (fun _ _ => ?_)
    | with_reducible refine Keeps.foldl ?_ (fun _ _ _ => ?_)
    | with_reducible refine Keeps.foldlFst ?_ (fun _ _ _ => ?_)
    | with_reducible refine Keeps.foldlSnd ?_ (fun _ _ _ => ?_)

theorem State.writeSerdes_keeps {ρ : State} {s : State} {p : Nat} {l : List Nat} (hk : Keeps ρ s) : Keeps ρ (State.writeSerdes s p l) := by
  unfold State.writeSerdes
  repeat' first
    | with_reducible assumption
    | with_reducible refine KeepsR.next ?_
    | fail_if_no_progress with_reducible refine Keeps.mkK ?_
    | with_reducible refine State.setFld_keeps ?_
    | with_reducible refine State.ownWrite_keeps ?_
    | with_reducible refine State.writeSet_keeps ?_
    | with_reducible refine Keeps.doAll ?_ (fun _ _ _ => ?_)
    | with_reducible refine Keeps.doIf ?_ (fun _ _ => ?_)
    | with_reducible refine Keeps.foldl ?_ (fun _ _ _ => ?_)
    | with_reducible refine Keeps.foldlFst ?_ (fun _ _ _ => ?_)
    | with_reducible refine Keeps.foldlSnd ?_ (fun _ _ _ => ?_)
    | with_reducible refine KeepsR.host ?_ (fun _ _ => ?_)
    | (lift_lets; intro x; clear_value x)
    | with_reducible refine Keeps.ofSnd (by assumption) ?_
    | with_reducible refine Keeps.ofFst (by assumption) ?_
    | split
    | dsimp only

theorem State.toActive_keeps {ρ : State} {s : State} {p : Nat} (hk : Keeps ρ s) : Keeps ρ (State.toActive s p) := by
  unfold State.toActive
  repeat' first
    | with_reducible assumption
    | with_reducible refine KeepsR.next ?_
    | fail_if_no_progress with_reducible refine Keeps.mkK ?_
    | with_reducible refine State.modPort_keeps ?_
    | with_reducible refine State.setFld_keeps ?_
    | with_reducible refine State.raise2_keeps ?_
    | with_reducible refine State.supplySync_keeps ?_
    | with_reducible refine State.sendMode_keeps ?_
    | with_reducible refine State.sendTiming_keeps ?_
    | with_reducible refine State.sendHeadCmd_keeps ?_
    | with_reducible refine State.setPortState_keeps ?_
    | with_reducible refine State.equalisation_keeps ?_
    | with_reducible refine State.writeSerdes_keeps ?_
    | with_reducible refine Keeps.doAll ?_ (fun _ _ _ => ?_)
    | with_reducible refine Keeps.doIf ?_ (fun _ _ => ?_)
    | with_reducible refine Keeps.foldl ?_ (fun _ _ _ => ?_)
    | with_reducible refine Keeps.foldlFst ?_ (fun _ _ _ => ?_)
    | with_reducible refine Keeps.foldlSnd ?_ (fun _ _ _ => ?_)
    | with_reducible refine KeepsR.host ?_ (fun _ _ => ?_)
    | (lift_lets; intro x; refine Keeps.cut (r := ρ) (x := x) ?_ (fun hx => ?_); (on_goal 1 => dsimp only [x]); (on_goal 2 => clear_value x))
    | (lift_lets; intro x; clear_value x)
    | with_reducible refine Keeps.ofSnd (by assumption) ?_
    | with_reducible refine Keeps.ofFst (by assumption) ?_
    | split

theorem State.locksDone_keeps {ρ : State} {s : State} {p : Nat} (hk : Keeps ρ s) : Keeps ρ (State.locksDone s p) := by
  unfold State.locksDone
  repeat' first
    | with_reducible assumption
    | with_reducible refine KeepsR.next ?_
    | fail_if_no_progress with_reducible refine Keeps.mkK ?_
    | with_reducible refine State.modPort_keeps ?_
    | with_reducible refine State.setPortState_keeps ?_
    | with_reducible refine Keeps.doAll ?_ (fun _ _ _ => ?_)
    | with_reducible refine Keeps.doIf ?_ (fun _ _ => ?_)
    | with_reducible refine Keeps.foldl ?_ (fun _ _ _ => ?_)
    | with_reducible refine Keeps.foldlFst ?_ (fun _ _ _ => ?_)
    | with_reducible refine Keeps.foldlSnd ?_ (fun _ _ _ => ?_)
    | with_reducible refine KeepsR.host ?_ (fun _ _ => ?_)
    | (lift_lets; intro x; clear_value x)
    | with_reducible refine Keeps.ofSnd (by assumption) ?_
    | with_reducible refine Keeps.ofFst (by assumption) ?_
    | split

theorem State.blockLock_keeps {ρ : State} {s : State} {p : Nat} (hk : Keeps ρ s) : Keeps ρ (State.blockLock s p) := by
  unfold State.blockLock
  repeat' first
    | with_reducible assumption
    | with_reducible refine KeepsR.next ?_
    | fail_if_no_progress with_reducible refine Keeps.mkK ?_
    | with_reducible refine State.setPortState_keeps ?_
    | with_reducible refine State.locksDone_keeps ?_

theorem State.startTraining_keeps {ρ : State} {s : State} {p : Nat} (hk : Keeps ρ s) : Keeps ρ (State.startTraining s p) := by
  unfold State.startTraining
  repeat' first
    | with_reducible assumption
    | with_reducible refine KeepsR.next ?_
    | fail_if_no_progress with_reducible refine Keeps.mkK ?_
    | with_reducible refine State.modPort_keeps ?_
    | with_reducible refine State.setPortState_keeps ?_
    | with_reducible refine State.portLost_keeps ?_
    | with_reducible refine State.blockLock_keeps ?_
    | with_reducible refine Keeps.doAll ?_ (fun _ _ _ => ?_)
    | with_reducible refine Keeps.doIf ?_ (fun _ _ => ?_)
    | with_reducible refine Keeps.foldl ?_ (fun _ _ _ => ?_)
    | with_reducible refine Keeps.foldlFst ?_ (fun _ _ _ => ?_)
    | with_reducible refine Keeps.foldlSnd ?_ (fun _ _ _ => ?_)
    | with_reducible refine KeepsR.host ?_ (fun _ _ => ?_)
    | (lift_lets; intro x; refine Keeps.cut (r := ρ) (x := x) ?_ (fun hx => ?_); (on_goal 1 => dsimp only [x]); (on_goal 2 => clear_value x))
    | with_reducible refine Keeps.ofSnd (by assumption) ?_
    | with_reducible refine Keeps.ofFst (by assumption) ?_
    | split

theorem State.retrain_keeps {ρ : State} {s : State} {p : Nat} (hk : Keeps ρ s) : Keeps ρ (State.retrain s p) := by
  unfold State.retrain
  repeat' first
    | with_reducible assumption
    | with_reducible refine KeepsR.next ?_
    | fail_if_no_progress with_reducible refine Keeps.mkK ?_
    | with_reducible refine State.modPort_keeps ?_
    | with_reducible refine State.setFld_keeps ?_
    | with_reducible refine State.setPortState_keeps ?_
    | with_reducible refine State.portLost_keeps ?_
    | with_reducible refine State.startPresets_keeps ?_
    | with_reducible refine State.blockLock_keeps ?_
    | with_reducible refine Keeps.doAll ?_ (fun _ _ _ => ?_)
    | with_reducible refine Keeps.doIf ?_ (fun _ _ => ?_)
    | with_reducible refine Keeps.foldl ?_ (fun _ _ _ => ?_)
    | with_reducible refine Keeps.foldlFst ?_ (fun _ _ _ => ?_)
    | with_reducible refine Keeps.foldlSnd ?_ (fun _ _ _ => ?_)
    | with_reducible refine KeepsR.host ?_ (fun _ _ => ?_)
    | (lift_lets; intro x; refine Keeps.cut (r := ρ) (x := x) ?_ (fun hx => ?_); (on_goal 1 => dsimp only [x]); (on_goal 2 => clear_value x))
    | with_reducible refine Keeps.ofSnd (by assumption) ?_
    | with_reducible refine Keeps.ofFst (by assumption) ?_
    | split

theorem State.portEnable_keeps {ρ : State} {s : State} {p : Nat} (hk : Keeps ρ s) : Keeps ρ (State.portEnable s p) := by
  unfold State.portEnable
  repeat' first
    | with_reducible assumption
    | with_reducible refine KeepsR.next ?_
    | fail_if_no_progress with_reducible refine Keeps.mkK ?_
    | with_reducible refine State.setPort_keeps ?_
    | with_reducible refine State.setFld_keeps ?_
    | with_reducible refine State.startTraining_keeps ?_
    | with_reducible refine Keeps.doAll ?_ (fun _ _ _ => ?_)
    | with_reducible refine Keeps.doIf ?_ (fun _ _ => ?_)

theorem State.portDisable_keeps {ρ : State} {s : State} {p : Nat} (hk : Keeps ρ s) : Keeps ρ (State.portDisable s p) := by
  unfold State.portDisable
  repeat' first
    | with_reducible assumption
    | with_reducible refine KeepsR.next ?_
    | fail_if_no_progress with_reducible refine Keeps.mkK ?_
    | with_reducible refine State.setPort_keeps ?_
    | with_reducible refine State.setFld_keeps ?_
    | with_reducible refine State.setPortState_keeps ?_
    | with_reducible refine State.portLost_keeps ?_
    | with_reducible refine Keeps.doAll ?_ (fun _ _ _ => ?_)
    | with_reducible refine Keeps.doIf ?_ (fun _ _ => ?_)
    | with_reducible refine Keeps.foldl ?_ (fun _ _ _ => ?_)
    | with_reducible refine Keeps.foldlFst ?_ (fun _ _ _ => ?_)
    | with_reducible refine Keeps.foldlSnd ?_ (fun _ _ _ => ?_)
    | with_reducible refine KeepsR.host ?_ (fun _ _ => ?_)
    | (lift_lets; intro x; refine Keeps.cut (r := ρ) (x := x) ?_ (fun hx => ?_); (on_goal 1 => dsimp only [x]); (on_goal 2 => clear_value x))
    | with_reducible refine Keeps.ofSnd (by assumption) ?_
    | with_reducible refine Keeps.ofFst (by assumption) ?_
    | split

theorem State.portRetrain_keeps {ρ : State} {s : State} {p : Nat} (hk : Keeps ρ s) : Keeps ρ (State.portRetrain s p) := by
  unfold State.portRetrain
  repeat' first
    | with_reducible assumption
    | with_reducible refine KeepsR.next ?_
    | fail_if_no_progress with_reducible refine Keeps.mkK ?_
    | with_reducible refine State.retrain_keeps ?_
    | with_reducible refine Keeps.doAll ?_ (fun _ _ _ => ?_)
    | with_reducible refine Keeps.doIf ?_ (fun _ _ => ?_)
    | with_reducible refine Keeps.foldl ?_ (fun _ _ _ => ?_)
    | with_reducible refine Keeps.foldlFst ?_ (fun _ _ _ => ?_)
    | with_reducible refine Keeps.foldlSnd ?_ (fun _ _ _ => ?_)
    | with_reducible refine KeepsR.host ?_ (fun _ _ => ?_)
    | with_reducible refine Keeps.ofSnd (by assumption) ?_
    | with_reducible refine Keeps.ofFst (by assumption) ?_
    | split

theorem execTrainingTimeout_keeps {ρ : State} {port : Fin 6} {s : State} (hk : Keeps ρ s) : KeepsR ρ (execTrainingTimeout port s) := by
  unfold execTrainingTimeout
  repeat' first
    | with_reducible assumption
    | with_reducible refine KeepsR.next ?_
    | fail_if_no_progress with_reducible refine Keeps.mkK ?_
    | with_reducible refine State.setFld_keeps ?_
    | with_reducible refine State.portLost_keeps ?_
    | with_reducible refine State.trainFail_keeps ?_
    | with_reducible refine State.startTraining_keeps ?_
    | with_reducible refine Keeps.doAll ?_ (fun _ _ _ => ?_)
    | with_reducible refine Keeps.doIf ?_ (fun _ _ => ?_)
    | with_reducible refine Keeps.foldl ?_ (fun _ _ _ => ?_)
    | with_reducible refine Keeps.foldlFst ?_ (fun _ _ _ => ?_)
    | with_reducible refine Keeps.foldlSnd ?_ (fun _ _ _ => ?_)
    | with_reducible refine KeepsR.host ?_ (fun _ _ => ?_)
    | (lift_lets; intro x; clear_value x)
    | with_reducible refine Keeps.ofSnd (by assumption) ?_
    | with_reducible refine Keeps.ofFst (by assumption) ?_
    | split
    | dsimp only

theorem execTallyLockAcquired_keeps {ρ : State} {h : Fin 4} {s : State} (hk : Keeps ρ s) : KeepsR ρ (execTallyLockAcquired h s) := by
  unfold execTallyLockAcquired
  repeat' first
    | with_reducible assumption
    | with_reducible refine KeepsR.next ?_
    | fail_if_no_progress with_reducible refine Keeps.mkK ?_
    | with_reducible refine State.setPortState_keeps ?_
    | with_reducible refine Keeps.doAll ?_ (fun _ _ _ => ?_)
    | with_reducible refine Keeps.doIf ?_ (fun _ _ => ?_)
    | with_reducible refine Keeps.foldl ?_ (fun _ _ _ => ?_)
    | with_reducible refine Keeps.foldlFst ?_ (fun _ _ _ => ?_)
    | with_reducible refine Keeps.foldlSnd ?_ (fun _ _ _ => ?_)
    | with_reducible refine KeepsR.host ?_ (fun _ _ => ?_)
    | with_reducible refine Keeps.ofSnd (by assumption) ?_
    | with_reducible refine Keeps.ofFst (by assumption) ?_
    | split

theorem execTallyLoss_keeps {ρ : State} {h : Fin 4} {s : State} (hk : Keeps ρ s) : KeepsR ρ (execTallyLoss h s) := by
  unfold execTallyLoss
  repeat' first
    | with_reducible assumption
    | with_reducible refine KeepsR.next ?_
    | fail_if_no_progress with_reducible refine Keeps.mkK ?_
    | with_reducible refine State.retrain_keeps ?_
    | with_reducible refine Keeps.doAll ?_ (fun _ _ _ => ?_)
    | with_reducible refine Keeps.doIf ?_ (fun _ _ => ?_)
    | with_reducible refine Keeps.foldl ?_ (fun _ _ _ => ?_)
    | with_reducible refine Keeps.foldlFst ?_ (fun _ _ _ => ?_)
    | with_reducible refine Keeps.foldlSnd ?_ (fun _ _ _ => ?_)
    | with_reducible refine KeepsR.host ?_ (fun _ _ => ?_)
    | with_reducible refine Keeps.ofSnd (by assumption) ?_
    | with_reducible refine Keeps.ofFst (by assumption) ?_
    | split

theorem State.tallyError_keeps {ρ : State} {s : State} {h : Nat} (hk : Keeps ρ s) : Keeps ρ (State.tallyError s h) := by
  unfold State.tallyError
  repeat' first
    | with_reducible assumption
    | with_reducible refine KeepsR.next ?_
    | fail_if_no_progress with_reducible refine Keeps.mkK ?_
    | with_reducible refine State.count_keeps ?_

theorem State.badStatus_keeps {ρ : State} {s : State} {h : Nat} {chars : List (BitVec 9)} (hk : Keeps ρ s) : Keeps ρ (State.badStatus s h chars) := by
  unfold State.badStatus
  repeat' first
    | with_reducible assumption
    | with_reducible refine KeepsR.next ?_
    | fail_if_no_progress with_reducible refine Keeps.mkK ?_
    | with_reducible refine State.setPort_keeps ?_
    | with_reducible refine State.tallyError_keeps ?_
    | with_reducible refine Keeps.doAll ?_ (fun _ _ _ => ?_)
    | with_reducible refine Keeps.doIf ?_ (fun _ _ => ?_)
    | with_reducible refine Keeps.foldl ?_ (fun _ _ _ => ?_)
    | with_reducible refine Keeps.foldlFst ?_ (fun _ _ _ => ?_)
    | with_reducible refine Keeps.foldlSnd ?_ (fun _ _ _ => ?_)
    | with_reducible refine KeepsR.host ?_ (fun _ _ => ?_)
    | (lift_lets; intro x; clear_value x)
    | with_reducible refine Keeps.ofSnd (by assumption) ?_
    | with_reducible refine Keeps.ofFst (by assumption) ?_
    | split

theorem State.withStatus_keeps {ρ : State} {s : State} {h : Nat} {chars : List (BitVec 9)} {g : State → BitVec 128 → List Byte → State} (hk : Keeps ρ s) (hkg : ∀ x0 x1 x2, Keeps ρ x0 → Keeps ρ (g x0 x1 x2)) : Keeps ρ (State.withStatus s h chars g) := by
  unfold State.withStatus
  repeat' first
    | with_reducible assumption
    | with_reducible refine KeepsR.next ?_
    | fail_if_no_progress with_reducible refine Keeps.mkK ?_
    | with_reducible refine State.modPort_keeps ?_
    | with_reducible refine State.badStatus_keeps ?_
    | with_reducible refine hkg _ _ _ ?_
    | with_reducible refine Keeps.doAll ?_ (fun _ _ _ => ?_)
    | with_reducible refine Keeps.doIf ?_ (fun _ _ => ?_)
    | with_reducible refine Keeps.foldl ?_ (fun _ _ _ => ?_)
    | with_reducible refine Keeps.foldlFst ?_ (fun _ _ _ => ?_)
    | with_reducible refine Keeps.foldlSnd ?_ (fun _ _ _ => ?_)
    | with_reducible refine KeepsR.host ?_ (fun _ _ => ?_)
    | with_reducible refine Keeps.ofSnd (by assumption) ?_
    | with_reducible refine Keeps.ofFst (by assumption) ?_
    | split

theorem State.takeCaps_keeps {ρ : State} {s : State} {h : Nat} {caps : BitVec 128} (hk : Keeps ρ s) : Keeps ρ (State.takeCaps s h caps) := by
  unfold State.takeCaps
  repeat' first
    | with_reducible assumption
    | with_reducible refine KeepsR.next ?_
    | fail_if_no_progress with_reducible refine Keeps.mkK ?_
    | with_reducible refine State.modPort_keeps ?_
    | with_reducible refine State.setFld_keeps ?_
    | with_reducible refine State.raise_keeps ?_
    | with_reducible refine State.setPortState_keeps ?_
    | with_reducible refine State.startPresets_keeps ?_
    | with_reducible refine State.blockLock_keeps ?_
    | with_reducible refine Keeps.doAll ?_ (fun _ _ _ => ?_)
    | with_reducible refine Keeps.doIf ?_ (fun _ _ => ?_)
    | with_reducible refine Keeps.foldl ?_ (fun _ _ _ => ?_)
    | with_reducible refine Keeps.foldlFst ?_ (fun _ _ _ => ?_)
    | with_reducible refine Keeps.foldlSnd ?_ (fun _ _ _ => ?_)
    | with_reducible refine KeepsR.host ?_ (fun _ _ => ?_)
    | (lift_lets; intro x; refine Keeps.cut (r := ρ) (x := x) ?_ (fun hx => ?_); (on_goal 1 => dsimp only [x]); (on_goal 2 => clear_value x))
    | with_reducible refine Keeps.ofSnd (by assumption) ?_
    | with_reducible refine Keeps.ofFst (by assumption) ?_
    | split

theorem execCapsReceive_keeps {ρ : State} {h : Fin 4} {chars : List (BitVec 9)} {s : State} (hk : Keeps ρ s) : KeepsR ρ (execCapsReceive h chars s) := by
  unfold execCapsReceive
  repeat' first
    | with_reducible assumption
    | with_reducible refine KeepsR.next ?_
    | fail_if_no_progress with_reducible refine Keeps.mkK ?_
    | with_reducible refine State.withStatus_keeps ?_ (fun _ _ _ _ => ?_)
    | with_reducible refine State.takeCaps_keeps ?_
    | with_reducible refine Keeps.doAll ?_ (fun _ _ _ => ?_)
    | with_reducible refine Keeps.doIf ?_ (fun _ _ => ?_)
    | with_reducible refine Keeps.foldl ?_ (fun _ _ _ => ?_)
    | with_reducible refine Keeps.foldlFst ?_ (fun _ _ _ => ?_)
    | with_reducible refine Keeps.foldlSnd ?_ (fun _ _ _ => ?_)
    | with_reducible refine KeepsR.host ?_ (fun _ _ => ?_)
    | with_reducible refine Keeps.ofSnd (by assumption) ?_
    | with_reducible refine Keeps.ofFst (by assumption) ?_
    | split

theorem State.unawait_keeps {ρ : State} {s : State} {h : Nat} {ctag : Nat} (hk : Keeps ρ s) : Keeps ρ (State.unawait s h ctag) := by
  unfold State.unawait
  repeat' first
    | with_reducible assumption
    | with_reducible refine KeepsR.next ?_
    | fail_if_no_progress with_reducible refine Keeps.mkK ?_
    | with_reducible refine State.modPort_keeps ?_

theorem State.modeFail_keeps {ρ : State} {s : State} {h : Nat} (hk : Keeps ρ s) : Keeps ρ (State.modeFail s h) := by
  unfold State.modeFail
  repeat' first
    | with_reducible assumption
    | with_reducible refine KeepsR.next ?_
    | fail_if_no_progress with_reducible refine Keeps.mkK ?_
    | with_reducible refine State.modPort_keeps ?_
    | with_reducible refine State.raise_keeps ?_

theorem State.timingFail_keeps {ρ : State} {s : State} {h : Nat} (hk : Keeps ρ s) : Keeps ρ (State.timingFail s h) := by
  unfold State.timingFail
  repeat' first
    | with_reducible assumption
    | with_reducible refine KeepsR.next ?_
    | fail_if_no_progress with_reducible refine Keeps.mkK ?_
    | with_reducible refine State.modPort_keeps ?_
    | with_reducible refine State.raise_keeps ?_

theorem State.takeAnswer_keeps {ρ : State} {s : State} {h : Nat} {ctag : Nat} {result : Nat} {payload : List Byte} (hk : Keeps ρ s) : Keeps ρ (State.takeAnswer s h ctag result payload) := by
  unfold State.takeAnswer
  repeat' first
    | with_reducible assumption
    | with_reducible refine KeepsR.next ?_
    | fail_if_no_progress with_reducible refine Keeps.mkK ?_
    | with_reducible refine State.modPort_keeps ?_
    | with_reducible refine State.setOutcome_keeps ?_
    | with_reducible refine State.unawait_keeps ?_
    | with_reducible refine State.modeFail_keeps ?_
    | with_reducible refine State.timingFail_keeps ?_
    | with_reducible refine Keeps.doAll ?_ (fun _ _ _ => ?_)
    | with_reducible refine Keeps.doIf ?_ (fun _ _ => ?_)
    | with_reducible refine Keeps.foldl ?_ (fun _ _ _ => ?_)
    | with_reducible refine Keeps.foldlFst ?_ (fun _ _ _ => ?_)
    | with_reducible refine Keeps.foldlSnd ?_ (fun _ _ _ => ?_)
    | with_reducible refine KeepsR.host ?_ (fun _ _ => ?_)
    | (lift_lets; intro x; refine Keeps.cut (r := ρ) (x := x) ?_ (fun hx => ?_); (on_goal 1 => dsimp only [x]); (on_goal 2 => clear_value x))
    | with_reducible refine Keeps.ofSnd (by assumption) ?_
    | with_reducible refine Keeps.ofFst (by assumption) ?_
    | split

theorem execStatusPacket_keeps {ρ : State} {h : Fin 4} {chars : List (BitVec 9)} {s : State} (hk : Keeps ρ s) : KeepsR ρ (execStatusPacket h chars s) := by
  unfold execStatusPacket
  repeat' first
    | with_reducible assumption
    | with_reducible refine KeepsR.next ?_
    | fail_if_no_progress with_reducible refine Keeps.mkK ?_
    | with_reducible refine State.withStatus_keeps ?_ (fun _ _ _ _ => ?_)
    | with_reducible refine State.takeAnswer_keeps ?_

theorem execCmdStatusTimeout_keeps {ρ : State} {h : Fin 4} {ctag : BitVec 16} {s : State} (hk : Keeps ρ s) : KeepsR ρ (execCmdStatusTimeout h ctag s) := by
  unfold execCmdStatusTimeout
  repeat' first
    | with_reducible assumption
    | with_reducible refine KeepsR.next ?_
    | fail_if_no_progress with_reducible refine Keeps.mkK ?_
    | with_reducible refine State.outcome0_keeps ?_
    | with_reducible refine State.unawait_keeps ?_
    | with_reducible refine State.modeFail_keeps ?_
    | with_reducible refine Keeps.doAll ?_ (fun _ _ _ => ?_)
    | with_reducible refine Keeps.doIf ?_ (fun _ _ => ?_)
    | with_reducible refine Keeps.foldl ?_ (fun _ _ _ => ?_)
    | with_reducible refine Keeps.foldlFst ?_ (fun _ _ _ => ?_)
    | with_reducible refine Keeps.foldlSnd ?_ (fun _ _ _ => ?_)
    | with_reducible refine KeepsR.host ?_ (fun _ _ => ?_)
    | with_reducible refine Keeps.ofSnd (by assumption) ?_
    | with_reducible refine Keeps.ofFst (by assumption) ?_
    | split

theorem execLoadTimingTimeout_keeps {ρ : State} {h : Fin 4} {s : State} (hk : Keeps ρ s) : KeepsR ρ (execLoadTimingTimeout h s) := by
  unfold execLoadTimingTimeout
  repeat' first
    | with_reducible assumption
    | with_reducible refine KeepsR.next ?_
    | fail_if_no_progress with_reducible refine Keeps.mkK ?_
    | with_reducible refine State.unawait_keeps ?_
    | with_reducible refine State.timingFail_keeps ?_
    | with_reducible refine Keeps.doAll ?_ (fun _ _ _ => ?_)
    | with_reducible refine Keeps.doIf ?_ (fun _ _ => ?_)
    | with_reducible refine Keeps.foldl ?_ (fun _ _ _ => ?_)
    | with_reducible refine Keeps.foldlFst ?_ (fun _ _ _ => ?_)
    | with_reducible refine Keeps.foldlSnd ?_ (fun _ _ _ => ?_)
    | with_reducible refine KeepsR.host ?_ (fun _ _ => ?_)
    | with_reducible refine Keeps.ofSnd (by assumption) ?_
    | with_reducible refine Keeps.ofFst (by assumption) ?_
    | split

theorem State.setLock_keeps {ρ : State} {s : State} {p : Nat} {lane : Nat} {b : Bool} (hk : Keeps ρ s) : Keeps ρ (State.setLock s p lane b) := by
  unfold State.setLock
  repeat' first
    | with_reducible assumption
    | with_reducible refine KeepsR.next ?_
    | fail_if_no_progress with_reducible refine Keeps.mkK ?_
    | with_reducible refine State.modPort_keeps ?_
    | with_reducible refine State.setFld_keeps ?_
    | with_reducible refine Keeps.doAll ?_ (fun _ _ _ => ?_)
    | with_reducible refine Keeps.doIf ?_ (fun _ _ => ?_)

theorem execLaneBlockLock_keeps {ρ : State} {port : Fin 6} {lane : Fin 42} {blocks : List (BitVec 132)} {s : State} (hk : Keeps ρ s) : KeepsR ρ (execLaneBlockLock port lane blocks s) := by
  unfold execLaneBlockLock
  repeat' first
    | with_reducible assumption
    | with_reducible refine KeepsR.next ?_
    | fail_if_no_progress with_reducible refine Keeps.mkK ?_
    | with_reducible refine State.setFld_keeps ?_
    | with_reducible refine State.receive_keeps ?_
    | with_reducible refine State.locksDone_keeps ?_
    | with_reducible refine State.setLock_keeps ?_
    | with_reducible refine Keeps.doAll ?_ (fun _ _ _ => ?_)
    | with_reducible refine Keeps.doIf ?_ (fun _ _ => ?_)
    | with_reducible refine Keeps.foldl ?_ (fun _ _ _ => ?_)
    | with_reducible refine Keeps.foldlFst ?_ (fun _ _ _ => ?_)
    | with_reducible refine Keeps.foldlSnd ?_ (fun _ _ _ => ?_)
    | with_reducible refine KeepsR.host ?_ (fun _ _ => ?_)
    | (lift_lets; intro x; clear_value x)
    | with_reducible refine Keeps.ofSnd (by assumption) ?_
    | with_reducible refine Keeps.ofFst (by assumption) ?_
    | split
    | dsimp only

theorem State.startSparing_keeps {ρ : State} {s : State} {h : Nat} {k : Nat} (hk : Keeps ρ s) : Keeps ρ (State.startSparing s h k) := by
  unfold State.startSparing
  repeat' first
    | with_reducible assumption
    | with_reducible refine KeepsR.next ?_
    | fail_if_no_progress with_reducible refine Keeps.mkK ?_
    | with_reducible refine State.modPort_keeps ?_
    | with_reducible refine State.emit_keeps ?_
    | with_reducible refine State.setPortState_keeps ?_
    | with_reducible refine State.retrain_keeps ?_
    | with_reducible refine Keeps.doAll ?_ (fun _ _ _ => ?_)
    | with_reducible refine Keeps.doIf ?_ (fun _ _ => ?_)
    | with_reducible refine Keeps.foldl ?_ (fun _ _ _ => ?_)
    | with_reducible refine Keeps.foldlFst ?_ (fun _ _ _ => ?_)
    | with_reducible refine Keeps.foldlSnd ?_ (fun _ _ _ => ?_)
    | with_reducible refine KeepsR.host ?_ (fun _ _ => ?_)
    | (lift_lets; intro x; clear_value x)
    | with_reducible refine Keeps.ofSnd (by assumption) ?_
    | with_reducible refine Keeps.ofFst (by assumption) ?_
    | split

theorem State.headLaneFail_keeps {ρ : State} {s : State} {h : Nat} {lane : Nat} (hk : Keeps ρ s) : Keeps ρ (State.headLaneFail s h lane) := by
  unfold State.headLaneFail
  repeat' first
    | with_reducible assumption
    | with_reducible refine KeepsR.next ?_
    | fail_if_no_progress with_reducible refine Keeps.mkK ?_
    | with_reducible refine State.retrain_keeps ?_
    | with_reducible refine State.startSparing_keeps ?_
    | with_reducible refine Keeps.doAll ?_ (fun _ _ _ => ?_)
    | with_reducible refine Keeps.doIf ?_ (fun _ _ => ?_)
    | with_reducible refine Keeps.foldl ?_ (fun _ _ _ => ?_)
    | with_reducible refine Keeps.foldlFst ?_ (fun _ _ _ => ?_)
    | with_reducible refine Keeps.foldlSnd ?_ (fun _ _ _ => ?_)
    | with_reducible refine KeepsR.host ?_ (fun _ _ => ?_)
    | with_reducible refine Keeps.ofSnd (by assumption) ?_
    | with_reducible refine Keeps.ofFst (by assumption) ?_
    | split

theorem State.ingestLaneFail_keeps {ρ : State} {s : State} {p : Nat} {lane : Nat} (hk : Keeps ρ s) : Keeps ρ (State.ingestLaneFail s p lane) := by
  unfold State.ingestLaneFail
  repeat' first
    | with_reducible assumption
    | with_reducible refine KeepsR.next ?_
    | fail_if_no_progress with_reducible refine Keeps.mkK ?_
    | with_reducible refine State.setFld_keeps ?_
    | with_reducible refine State.raise2_keeps ?_
    | with_reducible refine State.retrain_keeps ?_
    | with_reducible refine Keeps.doAll ?_ (fun _ _ _ => ?_)
    | with_reducible refine Keeps.doIf ?_ (fun _ _ => ?_)
    | with_reducible refine Keeps.foldl ?_ (fun _ _ _ => ?_)
    | with_reducible refine Keeps.foldlFst ?_ (fun _ _ _ => ?_)
    | with_reducible refine Keeps.foldlSnd ?_ (fun _ _ _ => ?_)
    | with_reducible refine KeepsR.host ?_ (fun _ _ => ?_)
    | (lift_lets; intro x; clear_value x)
    | with_reducible refine Keeps.ofSnd (by assumption) ?_
    | with_reducible refine Keeps.ofFst (by assumption) ?_
    | split

theorem State.laneLost_keeps {ρ : State} {s : State} {p : Nat} {lane : Nat} (hk : Keeps ρ s) : Keeps ρ (State.laneLost s p lane) := by
  unfold State.laneLost
  repeat' first
    | with_reducible assumption
    | with_reducible refine KeepsR.next ?_
    | fail_if_no_progress with_reducible refine Keeps.mkK ?_
    | with_reducible refine State.setLock_keeps ?_
    | with_reducible refine State.headLaneFail_keeps ?_
    | with_reducible refine State.ingestLaneFail_keeps ?_
    | with_reducible refine Keeps.doAll ?_ (fun _ _ _ => ?_)
    | with_reducible refine Keeps.doIf ?_ (fun _ _ => ?_)
    | with_reducible refine Keeps.foldl ?_ (fun _ _ _ => ?_)
    | with_reducible refine Keeps.foldlFst ?_ (fun _ _ _ => ?_)
    | with_reducible refine Keeps.foldlSnd ?_ (fun _ _ _ => ?_)
    | with_reducible refine KeepsR.host ?_ (fun _ _ => ?_)
    | (lift_lets; intro x; refine Keeps.cut (r := ρ) (x := x) ?_ (fun hx => ?_); (on_goal 1 => dsimp only [x]); (on_goal 2 => clear_value x))
    | with_reducible refine Keeps.ofSnd (by assumption) ?_
    | with_reducible refine Keeps.ofFst (by assumption) ?_
    | split

theorem execLaneLossOfLock_keeps {ρ : State} {port : Fin 6} {lane : Fin 42} {blocks : List (BitVec 132)} {s : State} (hk : Keeps ρ s) : KeepsR ρ (execLaneLossOfLock port lane blocks s) := by
  unfold execLaneLossOfLock
  repeat' first
    | with_reducible assumption
    | with_reducible refine KeepsR.next ?_
    | fail_if_no_progress with_reducible refine Keeps.mkK ?_
    | with_reducible refine State.receive_keeps ?_
    | with_reducible refine State.laneLost_keeps ?_
    | with_reducible refine Keeps.doAll ?_ (fun _ _ _ => ?_)
    | with_reducible refine Keeps.doIf ?_ (fun _ _ => ?_)
    | with_reducible refine Keeps.foldl ?_ (fun _ _ _ => ?_)
    | with_reducible refine Keeps.foldlFst ?_ (fun _ _ _ => ?_)
    | with_reducible refine Keeps.foldlSnd ?_ (fun _ _ _ => ?_)
    | with_reducible refine KeepsR.host ?_ (fun _ _ => ?_)
    | (lift_lets; intro x; clear_value x)
    | with_reducible refine Keeps.ofSnd (by assumption) ?_
    | with_reducible refine Keeps.ofFst (by assumption) ?_
    | split
    | dsimp only

theorem State.columnIn_keeps {ρ : State} {s : State} {p : Nat} {c : List (BitVec 132)} (hk : Keeps ρ s) : Keeps ρ (State.columnIn s p c) := by
  unfold State.columnIn
  repeat' first
    | with_reducible assumption
    | with_reducible refine KeepsR.next ?_
    | fail_if_no_progress with_reducible refine Keeps.mkK ?_
    | with_reducible refine State.receiveColumn_keeps ?_
    | with_reducible refine State.ingestLaneFail_keeps ?_
    | with_reducible refine Keeps.doAll ?_ (fun _ _ _ => ?_)

theorem State.ingestAm_keeps {ρ : State} {s : State} {p : Nat} {c : List (BitVec 132)} (hk : Keeps ρ s) : Keeps ρ (State.ingestAm s p c) := by
  unfold State.ingestAm
  repeat' first
    | with_reducible assumption
    | with_reducible refine KeepsR.next ?_
    | fail_if_no_progress with_reducible refine Keeps.mkK ?_
    | with_reducible refine State.modPort_keeps ?_
    | with_reducible refine State.toActive_keeps ?_
    | with_reducible refine State.columnIn_keeps ?_
    | with_reducible refine Keeps.doAll ?_ (fun _ _ _ => ?_)
    | with_reducible refine Keeps.doIf ?_ (fun _ _ => ?_)
    | with_reducible refine Keeps.foldl ?_ (fun _ _ _ => ?_)
    | with_reducible refine Keeps.foldlFst ?_ (fun _ _ _ => ?_)
    | with_reducible refine Keeps.foldlSnd ?_ (fun _ _ _ => ?_)
    | with_reducible refine KeepsR.host ?_ (fun _ _ => ?_)
    | (lift_lets; intro x; refine Keeps.cut (r := ρ) (x := x) ?_ (fun hx => ?_); (on_goal 1 => dsimp only [x]); (on_goal 2 => clear_value x))
    | with_reducible refine Keeps.ofSnd (by assumption) ?_
    | with_reducible refine Keeps.ofFst (by assumption) ?_
    | split

theorem execAmColumn_keeps {ρ : State} {port : Fin 6} {column : List (BitVec 132)} {s : State} (hk : Keeps ρ s) : KeepsR ρ (execAmColumn port column s) := by
  unfold execAmColumn
  repeat' first
    | with_reducible assumption
    | with_reducible refine KeepsR.next ?_
    | fail_if_no_progress with_reducible refine Keeps.mkK ?_
    | with_reducible refine State.sendAm_keeps ?_
    | with_reducible refine State.sendTrain_keeps ?_
    | with_reducible refine State.ingestAm_keeps ?_
    | with_reducible refine Keeps.doAll ?_ (fun _ _ _ => ?_)
    | with_reducible refine Keeps.doIf ?_ (fun _ _ => ?_)
    | with_reducible refine Keeps.foldl ?_ (fun _ _ _ => ?_)
    | with_reducible refine Keeps.foldlFst ?_ (fun _ _ _ => ?_)
    | with_reducible refine Keeps.foldlSnd ?_ (fun _ _ _ => ?_)
    | with_reducible refine KeepsR.host ?_ (fun _ _ => ?_)
    | (lift_lets; intro x; clear_value x)
    | with_reducible refine Keeps.ofSnd (by assumption) ?_
    | with_reducible refine Keeps.ofFst (by assumption) ?_
    | split

theorem State.tally_keeps {ρ : State} {s : State} {h : Nat} {type : Nat} {arg : BitVec 48} {crc : Byte} {g : State → Nat → State} (hk : Keeps ρ s) (hkg : ∀ x0 x1, Keeps ρ x0 → Keeps ρ (g x0 x1)) : Keeps ρ (State.tally s h type arg crc g) := by
  unfold State.tally
  repeat' first
    | with_reducible assumption
    | with_reducible refine KeepsR.next ?_
    | fail_if_no_progress with_reducible refine Keeps.mkK ?_
    | with_reducible refine State.tallyError_keeps ?_
    | with_reducible refine hkg _ _ ?_
    | with_reducible refine Keeps.doAll ?_ (fun _ _ _ => ?_)
    | with_reducible refine Keeps.doIf ?_ (fun _ _ => ?_)
    | with_reducible refine Keeps.foldl ?_ (fun _ _ _ => ?_)
    | with_reducible refine Keeps.foldlFst ?_ (fun _ _ _ => ?_)
    | with_reducible refine Keeps.foldlSnd ?_ (fun _ _ _ => ?_)
    | with_reducible refine KeepsR.host ?_ (fun _ _ => ?_)
    | with_reducible refine Keeps.ofSnd (by assumption) ?_
    | with_reducible refine Keeps.ofFst (by assumption) ?_
    | split

theorem execEqReq_keeps {ρ : State} {h : Fin 4} {arg : BitVec 48} {crc : Byte} {s : State} (hk : Keeps ρ s) : KeepsR ρ (execEqReq h arg crc s) := by
  unfold execEqReq
  repeat' first
    | with_reducible assumption
    | with_reducible refine KeepsR.next ?_
    | fail_if_no_progress with_reducible refine Keeps.mkK ?_
    | with_reducible refine State.modPort_keeps ?_
    | with_reducible refine State.emit_keeps ?_
    | with_reducible refine State.sendTrain_keeps ?_
    | with_reducible refine State.tally_keeps ?_ (fun _ _ _ => ?_)
    | with_reducible refine Keeps.doAll ?_ (fun _ _ _ => ?_)
    | with_reducible refine Keeps.doIf ?_ (fun _ _ => ?_)
    | with_reducible refine Keeps.foldl ?_ (fun _ _ _ => ?_)
    | with_reducible refine Keeps.foldlFst ?_ (fun _ _ _ => ?_)
    | with_reducible refine Keeps.foldlSnd ?_ (fun _ _ _ => ?_)
    | with_reducible refine KeepsR.host ?_ (fun _ _ => ?_)
    | (lift_lets; intro x; clear_value x)
    | with_reducible refine Keeps.ofSnd (by assumption) ?_
    | with_reducible refine Keeps.ofFst (by assumption) ?_
    | split

theorem execEqDone_keeps {ρ : State} {h : Fin 4} {arg : BitVec 48} {crc : Byte} {s : State} (hk : Keeps ρ s) : KeepsR ρ (execEqDone h arg crc s) := by
  unfold execEqDone
  repeat' first
    | with_reducible assumption
    | with_reducible refine KeepsR.next ?_
    | fail_if_no_progress with_reducible refine Keeps.mkK ?_
    | with_reducible refine State.setPortState_keeps ?_
    | with_reducible refine State.tally_keeps ?_ (fun _ _ _ => ?_)
    | with_reducible refine Keeps.doAll ?_ (fun _ _ _ => ?_)
    | with_reducible refine Keeps.doIf ?_ (fun _ _ => ?_)
    | with_reducible refine Keeps.foldl ?_ (fun _ _ _ => ?_)
    | with_reducible refine Keeps.foldlFst ?_ (fun _ _ _ => ?_)
    | with_reducible refine Keeps.foldlSnd ?_ (fun _ _ _ => ?_)
    | with_reducible refine KeepsR.host ?_ (fun _ _ => ?_)
    | with_reducible refine Keeps.ofSnd (by assumption) ?_
    | with_reducible refine Keeps.ofFst (by assumption) ?_
    | split

theorem execDeskewDone_keeps {ρ : State} {h : Fin 4} {arg : BitVec 48} {crc : Byte} {s : State} (hk : Keeps ρ s) : KeepsR ρ (execDeskewDone h arg crc s) := by
  unfold execDeskewDone
  repeat' first
    | with_reducible assumption
    | with_reducible refine KeepsR.next ?_
    | fail_if_no_progress with_reducible refine Keeps.mkK ?_
    | with_reducible refine State.toActive_keeps ?_
    | with_reducible refine State.tally_keeps ?_ (fun _ _ _ => ?_)
    | with_reducible refine Keeps.doAll ?_ (fun _ _ _ => ?_)
    | with_reducible refine Keeps.doIf ?_ (fun _ _ => ?_)
    | with_reducible refine Keeps.foldl ?_ (fun _ _ _ => ?_)
    | with_reducible refine Keeps.foldlFst ?_ (fun _ _ _ => ?_)
    | with_reducible refine Keeps.foldlSnd ?_ (fun _ _ _ => ?_)
    | with_reducible refine KeepsR.host ?_ (fun _ _ => ?_)
    | with_reducible refine Keeps.ofSnd (by assumption) ?_
    | with_reducible refine Keeps.ofFst (by assumption) ?_
    | split

theorem State.laneReport_keeps {ρ : State} {s : State} {h : Nat} (hk : Keeps ρ s) : Keeps ρ (State.laneReport s h) := by
  unfold State.laneReport
  repeat' first
    | with_reducible assumption
    | with_reducible refine KeepsR.next ?_
    | fail_if_no_progress with_reducible refine Keeps.mkK ?_
    | with_reducible refine State.modPort_keeps ?_
    | with_reducible refine State.emit_keeps ?_
    | with_reducible refine State.sendColumn_keeps ?_
    | with_reducible refine State.headLaneFail_keeps ?_
    | with_reducible refine Keeps.doAll ?_ (fun _ _ _ => ?_)
    | with_reducible refine Keeps.doIf ?_ (fun _ _ => ?_)
    | with_reducible refine Keeps.foldl ?_ (fun _ _ _ => ?_)
    | with_reducible refine Keeps.foldlFst ?_ (fun _ _ _ => ?_)
    | with_reducible refine Keeps.foldlSnd ?_ (fun _ _ _ => ?_)
    | with_reducible refine KeepsR.host ?_ (fun _ _ => ?_)
    | (lift_lets; intro x; clear_value x)
    | with_reducible refine Keeps.ofSnd (by assumption) ?_
    | with_reducible refine Keeps.ofFst (by assumption) ?_
    | split
    | dsimp only

theorem execLaneLock_keeps {ρ : State} {h : Fin 4} {arg : BitVec 48} {crc : Byte} {s : State} (hk : Keeps ρ s) : KeepsR ρ (execLaneLock h arg crc s) := by
  unfold execLaneLock
  repeat' first
    | with_reducible assumption
    | with_reducible refine KeepsR.next ?_
    | fail_if_no_progress with_reducible refine Keeps.mkK ?_
    | with_reducible refine State.modPort_keeps ?_
    | with_reducible refine State.locksDone_keeps ?_
    | with_reducible refine State.tally_keeps ?_ (fun _ _ _ => ?_)
    | with_reducible refine State.laneReport_keeps ?_
    | with_reducible refine Keeps.doAll ?_ (fun _ _ _ => ?_)
    | with_reducible refine Keeps.doIf ?_ (fun _ _ => ?_)
    | with_reducible refine Keeps.foldl ?_ (fun _ _ _ => ?_)
    | with_reducible refine Keeps.foldlFst ?_ (fun _ _ _ => ?_)
    | with_reducible refine Keeps.foldlSnd ?_ (fun _ _ _ => ?_)
    | with_reducible refine KeepsR.host ?_ (fun _ _ => ?_)
    | (lift_lets; intro x; refine Keeps.cut (r := ρ) (x := x) ?_ (fun hx => ?_); (on_goal 1 => dsimp only [x]); (on_goal 2 => clear_value x))
    | with_reducible refine Keeps.ofSnd (by assumption) ?_
    | with_reducible refine Keeps.ofFst (by assumption) ?_
    | split

theorem execLaneHealth_keeps {ρ : State} {h : Fin 4} {arg : BitVec 48} {crc : Byte} {s : State} (hk : Keeps ρ s) : KeepsR ρ (execLaneHealth h arg crc s) := by
  unfold execLaneHealth
  repeat' first
    | with_reducible assumption
    | with_reducible refine KeepsR.next ?_
    | fail_if_no_progress with_reducible refine Keeps.mkK ?_
    | with_reducible refine State.headLaneFail_keeps ?_
    | with_reducible refine State.tally_keeps ?_ (fun _ _ _ => ?_)
    | with_reducible refine Keeps.doAll ?_ (fun _ _ _ => ?_)
    | with_reducible refine Keeps.doIf ?_ (fun _ _ => ?_)

theorem execLaneMapSwitch_keeps {ρ : State} {h : Fin 4} {s : State} (hk : Keeps ρ s) : KeepsR ρ (execLaneMapSwitch h s) := by
  unfold execLaneMapSwitch
  repeat' first
    | with_reducible assumption
    | with_reducible refine KeepsR.next ?_
    | fail_if_no_progress with_reducible refine Keeps.mkK ?_
    | with_reducible refine State.setPort_keeps ?_
    | with_reducible refine State.setFld_keeps ?_
    | with_reducible refine State.raise2_keeps ?_
    | with_reducible refine State.setPortState_keeps ?_
    | with_reducible refine State.headLaneFail_keeps ?_
    | with_reducible refine Keeps.doAll ?_ (fun _ _ _ => ?_)
    | with_reducible refine Keeps.doIf ?_ (fun _ _ => ?_)
    | with_reducible refine Keeps.foldl ?_ (fun _ _ _ => ?_)
    | with_reducible refine Keeps.foldlFst ?_ (fun _ _ _ => ?_)
    | with_reducible refine Keeps.foldlSnd ?_ (fun _ _ _ => ?_)
    | with_reducible refine KeepsR.host ?_ (fun _ _ => ?_)
    | (lift_lets; intro x; clear_value x)
    | with_reducible refine Keeps.ofSnd (by assumption) ?_
    | with_reducible refine Keeps.ofFst (by assumption) ?_
    | split
    | dsimp only

theorem State.setLoad_keeps {ρ : State} {s : State} {h : Nat} {b : Nat} {l : Option Load} (hk : Keeps ρ s) : Keeps ρ (State.setLoad s h b l) := by
  unfold State.setLoad
  repeat' first
    | with_reducible assumption
    | with_reducible refine KeepsR.next ?_
    | fail_if_no_progress with_reducible refine Keeps.mkK ?_
    | with_reducible refine State.modBandOf_keeps ?_

theorem execBandOk_keeps {ρ : State} {h : Fin 4} {arg : BitVec 48} {crc : Byte} {s : State} (hk : Keeps ρ s) : KeepsR ρ (execBandOk h arg crc s) := by
  unfold execBandOk
  repeat' first
    | with_reducible assumption
    | with_reducible refine KeepsR.next ?_
    | fail_if_no_progress with_reducible refine Keeps.mkK ?_
    | with_reducible refine State.tally_keeps ?_ (fun _ _ _ => ?_)
    | with_reducible refine State.setLoad_keeps ?_
    | with_reducible refine Keeps.doAll ?_ (fun _ _ _ => ?_)
    | with_reducible refine Keeps.doIf ?_ (fun _ _ => ?_)
    | with_reducible refine Keeps.foldl ?_ (fun _ _ _ => ?_)
    | with_reducible refine Keeps.foldlFst ?_ (fun _ _ _ => ?_)
    | with_reducible refine Keeps.foldlSnd ?_ (fun _ _ _ => ?_)
    | with_reducible refine KeepsR.host ?_ (fun _ _ => ?_)
    | with_reducible refine Keeps.ofSnd (by assumption) ?_
    | with_reducible refine Keeps.ofFst (by assumption) ?_
    | split

theorem State.resend_keeps {ρ : State} {s : State} {h : Nat} {b : Nat} {l : Load} {first : Nat} {last : Nat} (hk : Keeps ρ s) : Keeps ρ (State.resend s h b l first last) := by
  unfold State.resend
  repeat' first
    | with_reducible assumption
    | with_reducible refine KeepsR.next ?_
    | fail_if_no_progress with_reducible refine Keeps.mkK ?_
    | with_reducible refine State.setLoad_keeps ?_
    | with_reducible refine Keeps.doAll ?_ (fun _ _ _ => ?_)
    | with_reducible refine Keeps.doIf ?_ (fun _ _ => ?_)
    | with_reducible refine Keeps.foldl ?_ (fun _ _ _ => ?_)
    | with_reducible refine Keeps.foldlFst ?_ (fun _ _ _ => ?_)
    | with_reducible refine Keeps.foldlSnd ?_ (fun _ _ _ => ?_)
    | with_reducible refine KeepsR.host ?_ (fun _ _ => ?_)
    | with_reducible refine Keeps.ofSnd (by assumption) ?_
    | with_reducible refine Keeps.ofFst (by assumption) ?_
    | split

theorem execBandErr_keeps {ρ : State} {h : Fin 4} {arg : BitVec 48} {crc : Byte} {s : State} (hk : Keeps ρ s) : KeepsR ρ (execBandErr h arg crc s) := by
  unfold execBandErr
  repeat' first
    | with_reducible assumption
    | with_reducible refine KeepsR.next ?_
    | fail_if_no_progress with_reducible refine Keeps.mkK ?_
    | with_reducible refine State.tally_keeps ?_ (fun _ _ _ => ?_)
    | with_reducible refine State.resend_keeps ?_
    | with_reducible refine Keeps.doAll ?_ (fun _ _ _ => ?_)
    | with_reducible refine Keeps.doIf ?_ (fun _ _ => ?_)
    | with_reducible refine Keeps.foldl ?_ (fun _ _ _ => ?_)
    | with_reducible refine Keeps.foldlFst ?_ (fun _ _ _ => ?_)
    | with_reducible refine Keeps.foldlSnd ?_ (fun _ _ _ => ?_)
    | with_reducible refine KeepsR.host ?_ (fun _ _ => ?_)
    | with_reducible refine Keeps.ofSnd (by assumption) ?_
    | with_reducible refine Keeps.ofFst (by assumption) ?_
    | split

theorem State.stale_keeps {ρ : State} {s : State} {h : Nat} {b : Nat} (hk : Keeps ρ s) : Keeps ρ (State.stale s h b) := by
  unfold State.stale
  repeat' first
    | with_reducible assumption
    | with_reducible refine KeepsR.next ?_
    | fail_if_no_progress with_reducible refine Keeps.mkK ?_
    | with_reducible refine State.modBandOf_keeps ?_
    | with_reducible refine State.count_keeps ?_
    | with_reducible refine State.raise2_keeps ?_

theorem execBandStale_keeps {ρ : State} {h : Fin 4} {arg : BitVec 48} {crc : Byte} {s : State} (hk : Keeps ρ s) : KeepsR ρ (execBandStale h arg crc s) := by
  unfold execBandStale
  repeat' first
    | with_reducible assumption
    | with_reducible refine KeepsR.next ?_
    | fail_if_no_progress with_reducible refine Keeps.mkK ?_
    | with_reducible refine State.tally_keeps ?_ (fun _ _ _ => ?_)
    | with_reducible refine State.stale_keeps ?_
    | with_reducible refine Keeps.doAll ?_ (fun _ _ _ => ?_)
    | with_reducible refine Keeps.doIf ?_ (fun _ _ => ?_)
    | with_reducible refine Keeps.foldl ?_ (fun _ _ _ => ?_)
    | with_reducible refine Keeps.foldlFst ?_ (fun _ _ _ => ?_)
    | with_reducible refine Keeps.foldlSnd ?_ (fun _ _ _ => ?_)
    | with_reducible refine KeepsR.host ?_ (fun _ _ => ?_)
    | (lift_lets; intro x; clear_value x)
    | with_reducible refine Keeps.ofSnd (by assumption) ?_
    | with_reducible refine Keeps.ofFst (by assumption) ?_
    | split

theorem execLineErr_keeps {ρ : State} {h : Fin 4} {arg : BitVec 48} {crc : Byte} {s : State} (hk : Keeps ρ s) : KeepsR ρ (execLineErr h arg crc s) := by
  unfold execLineErr
  repeat' first
    | with_reducible assumption
    | with_reducible refine KeepsR.next ?_
    | fail_if_no_progress with_reducible refine Keeps.mkK ?_
    | with_reducible refine State.count_keeps ?_
    | with_reducible refine State.raiseOnce_keeps ?_
    | with_reducible refine State.tally_keeps ?_ (fun _ _ _ => ?_)

theorem execFault_keeps {ρ : State} {h : Fin 4} {arg : BitVec 48} {crc : Byte} {s : State} (hk : Keeps ρ s) : KeepsR ρ (execFault h arg crc s) := by
  unfold execFault
  repeat' first
    | with_reducible assumption
    | with_reducible refine KeepsR.next ?_
    | fail_if_no_progress with_reducible refine Keeps.mkK ?_
    | with_reducible refine State.setFld_keeps ?_
    | with_reducible refine State.raise2_keeps ?_
    | with_reducible refine State.tally_keeps ?_ (fun _ _ _ => ?_)

theorem execBandTallyTimeout_keeps {ρ : State} {h : Fin 4} {band : Fin 32} {s : State} (hk : Keeps ρ s) : KeepsR ρ (execBandTallyTimeout h band s) := by
  unfold execBandTallyTimeout
  repeat' first
    | with_reducible assumption
    | with_reducible refine KeepsR.next ?_
    | fail_if_no_progress with_reducible refine Keeps.mkK ?_
    | with_reducible refine State.resend_keeps ?_
    | with_reducible refine Keeps.doAll ?_ (fun _ _ _ => ?_)
    | with_reducible refine Keeps.doIf ?_ (fun _ _ => ?_)
    | with_reducible refine Keeps.foldl ?_ (fun _ _ _ => ?_)
    | with_reducible refine Keeps.foldlFst ?_ (fun _ _ _ => ?_)
    | with_reducible refine Keeps.foldlSnd ?_ (fun _ _ _ => ?_)
    | with_reducible refine KeepsR.host ?_ (fun _ _ => ?_)
    | with_reducible refine Keeps.ofSnd (by assumption) ?_
    | with_reducible refine Keeps.ofFst (by assumption) ?_
    | split

theorem State.headerBlock_keeps {ρ : State} {s : State} {p : Nat} {hd : BitVec 128} (hk : Keeps ρ s) : Keeps ρ (State.headerBlock s p hd) := by
  unfold State.headerBlock
  repeat' first
    | with_reducible assumption
    | with_reducible refine KeepsR.next ?_
    | fail_if_no_progress with_reducible refine Keeps.mkK ?_
    | with_reducible refine State.setPort_keeps ?_
    | with_reducible refine State.count_keeps ?_
    | with_reducible refine Keeps.doAll ?_ (fun _ _ _ => ?_)
    | with_reducible refine Keeps.doIf ?_ (fun _ _ => ?_)
    | with_reducible refine Keeps.foldl ?_ (fun _ _ _ => ?_)
    | with_reducible refine Keeps.foldlFst ?_ (fun _ _ _ => ?_)
    | with_reducible refine Keeps.foldlSnd ?_ (fun _ _ _ => ?_)
    | with_reducible refine KeepsR.host ?_ (fun _ _ => ?_)
    | (lift_lets; intro x; clear_value x)
    | with_reducible refine Keeps.ofSnd (by assumption) ?_
    | with_reducible refine Keeps.ofFst (by assumption) ?_
    | split

theorem execReceiveBadHeader_keeps {ρ : State} {p : Fin 2} {lane : Fin 17} {column : List (BitVec 132)} {s : State} (hk : Keeps ρ s) : KeepsR ρ (execReceiveBadHeader p lane column s) := by
  unfold execReceiveBadHeader
  repeat' first
    | with_reducible assumption
    | with_reducible refine KeepsR.next ?_
    | fail_if_no_progress with_reducible refine Keeps.mkK ?_
    | with_reducible refine State.columnIn_keeps ?_
    | with_reducible refine State.headerBlock_keeps ?_
    | with_reducible refine Keeps.doAll ?_ (fun _ _ _ => ?_)
    | with_reducible refine Keeps.doIf ?_ (fun _ _ => ?_)
    | with_reducible refine Keeps.foldl ?_ (fun _ _ _ => ?_)
    | with_reducible refine Keeps.foldlFst ?_ (fun _ _ _ => ?_)
    | with_reducible refine Keeps.foldlSnd ?_ (fun _ _ _ => ?_)
    | with_reducible refine KeepsR.host ?_ (fun _ _ => ?_)
    | (lift_lets; intro x; refine Keeps.cut (r := ρ) (x := x) ?_ (fun hx => ?_); (on_goal 1 => dsimp only [x]); (on_goal 2 => clear_value x))
    | with_reducible refine Keeps.ofSnd (by assumption) ?_
    | with_reducible refine Keeps.ofFst (by assumption) ?_
    | split

theorem State.busEmit_keeps {ρ : State} {s : State} {p : Nat} {f : List Byte} (hk : Keeps ρ s) : Keeps ρ (State.busEmit s p f) := by
  unfold State.busEmit
  repeat' first
    | with_reducible assumption
    | with_reducible refine KeepsR.next ?_
    | fail_if_no_progress with_reducible refine Keeps.mkK ?_
    | with_reducible refine State.emit_keeps ?_

theorem State.busNext_keeps {ρ : State} {s : State} {p : Nat} (hk : Keeps ρ s) : Keeps ρ (State.busNext s p) := by
  unfold State.busNext
  repeat' first
    | with_reducible assumption
    | with_reducible refine KeepsR.next ?_
    | fail_if_no_progress with_reducible refine Keeps.mkK ?_
    | with_reducible refine State.setDbPort_keeps ?_
    | with_reducible refine State.busEmit_keeps ?_
    | with_reducible refine Keeps.doAll ?_ (fun _ _ _ => ?_)
    | with_reducible refine Keeps.doIf ?_ (fun _ _ => ?_)
    | with_reducible refine Keeps.foldl ?_ (fun _ _ _ => ?_)
    | with_reducible refine Keeps.foldlFst ?_ (fun _ _ _ => ?_)
    | with_reducible refine Keeps.foldlSnd ?_ (fun _ _ _ => ?_)
    | with_reducible refine KeepsR.host ?_ (fun _ _ => ?_)
    | (lift_lets; intro x; clear_value x)
    | with_reducible refine Keeps.ofSnd (by assumption) ?_
    | with_reducible refine Keeps.ofFst (by assumption) ?_
    | split

theorem State.busSend_keeps {ρ : State} {s : State} {p : Nat} {addr : Nat} {op : Nat} {payload : List Byte} (hk : Keeps ρ s) : Keeps ρ (State.busSend s p addr op payload) := by
  unfold State.busSend
  repeat' first
    | with_reducible assumption
    | with_reducible refine KeepsR.next ?_
    | fail_if_no_progress with_reducible refine Keeps.mkK ?_
    | with_reducible refine State.modDbPort_keeps ?_
    | with_reducible refine State.busNext_keeps ?_
    | with_reducible refine Keeps.doAll ?_ (fun _ _ _ => ?_)
    | with_reducible refine Keeps.doIf ?_ (fun _ _ => ?_)
    | with_reducible refine Keeps.foldl ?_ (fun _ _ _ => ?_)
    | with_reducible refine Keeps.foldlFst ?_ (fun _ _ _ => ?_)
    | with_reducible refine Keeps.foldlSnd ?_ (fun _ _ _ => ?_)
    | with_reducible refine KeepsR.host ?_ (fun _ _ => ?_)
    | with_reducible refine Keeps.ofSnd (by assumption) ?_
    | with_reducible refine Keeps.ofFst (by assumption) ?_
    | split

theorem State.busCast_keeps {ρ : State} {s : State} {p : Nat} {op : Nat} {payload : List Byte} (hk : Keeps ρ s) : Keeps ρ (State.busCast s p op payload) := by
  unfold State.busCast
  repeat' first
    | with_reducible assumption
    | with_reducible refine KeepsR.next ?_
    | fail_if_no_progress with_reducible refine Keeps.mkK ?_
    | with_reducible refine State.busEmit_keeps ?_
    | with_reducible refine Keeps.doAll ?_ (fun _ _ _ => ?_)
    | with_reducible refine Keeps.doIf ?_ (fun _ _ => ?_)
    | with_reducible refine Keeps.foldl ?_ (fun _ _ _ => ?_)
    | with_reducible refine Keeps.foldlFst ?_ (fun _ _ _ => ?_)
    | with_reducible refine Keeps.foldlSnd ?_ (fun _ _ _ => ?_)
    | with_reducible refine KeepsR.host ?_ (fun _ _ => ?_)
    | with_reducible refine Keeps.ofSnd (by assumption) ?_
    | with_reducible refine Keeps.ofFst (by assumption) ?_
    | split

theorem State.busDone_keeps {ρ : State} {s : State} {p : Nat} (hk : Keeps ρ s) : Keeps ρ (State.busDone s p) := by
  unfold State.busDone
  repeat' first
    | with_reducible assumption
    | with_reducible refine KeepsR.next ?_
    | fail_if_no_progress with_reducible refine Keeps.mkK ?_
    | with_reducible refine State.modDbPort_keeps ?_
    | with_reducible refine State.busNext_keeps ?_

theorem State.drawTag_keeps {ρ : State} {s : State} (hk : Keeps ρ s) : Keeps ρ (State.drawTag s).2 := by
  unfold State.drawTag
  repeat' first
    | with_reducible assumption
    | with_reducible refine KeepsR.next ?_
    | fail_if_no_progress with_reducible refine Keeps.mkK ?_

theorem State.sendRow_keeps {ρ : State} {s : State} {z : Nat} {m : Nat} (hk : Keeps ρ s) : Keeps ρ (State.sendRow s z m) := by
  unfold State.sendRow
  repeat' first
    | with_reducible assumption
    | with_reducible refine KeepsR.next ?_
    | fail_if_no_progress with_reducible refine Keeps.mkK ?_
    | with_reducible refine State.setFlag_keeps ?_
    | with_reducible refine State.busSend_keeps ?_
    | with_reducible refine Keeps.doAll ?_ (fun _ _ _ => ?_)
    | with_reducible refine Keeps.doIf ?_ (fun _ _ => ?_)

end Sys2Proof.Machine
end

