-- ==== Sys2Proof/Laws/KeepsLayers.lean ====
section
/-!
SUPPORT. The relation `Keeps` for the operations of Machine/Layers.lean, Machine/Colour.lean, Machine/Ingest.lean, Machine/SetPoints.lean, Machine/Planes.lean.
-/

namespace Sys2Proof.Machine

theorem State.retire_keeps {ρ : State} {s : State} {q : Nat} {r : Retired} (hk : Keeps ρ s) : Keeps ρ (State.retire s q r) := by
  unfold State.retire
  repeat' first
    | with_reducible assumption
    | with_reducible refine KeepsR.next ?_
    | fail_if_no_progress with_reducible refine Keeps.mkK ?_
    | with_reducible refine State.setFqueue_keeps ?_
    | with_reducible refine State.raise2_keeps ?_
    | with_reducible refine Keeps.doAll ?_ (fun _ _ _ => ?_)
    | with_reducible refine Keeps.doIf ?_ (fun _ _ => ?_)
    | with_reducible refine Keeps.foldl ?_ (fun _ _ _ => ?_)
    | with_reducible refine Keeps.foldlFst ?_ (fun _ _ _ => ?_)
    | with_reducible refine Keeps.foldlSnd ?_ (fun _ _ _ => ?_)
    | with_reducible refine KeepsR.host ?_ (fun _ _ => ?_)
    | (lift_lets; intro x; clear_value x)
    | with_reducible refine Keeps.ofSnd (by assumption) ?_
    | with_reducible refine Keeps.ofFst (by assumption) ?_
    | split

theorem State.fqResult_keeps {ρ : State} {s : State} {q : Nat} {code : Nat} (hk : Keeps ρ s) : Keeps ρ (State.fqResult s q code) := by
  unfold State.fqResult
  repeat' first
    | with_reducible assumption
    | with_reducible refine KeepsR.next ?_
    | fail_if_no_progress with_reducible refine Keeps.mkK ?_
    | with_reducible refine State.modFqueue_keeps ?_

theorem State.fqSubmit_keeps {ρ : State} {s : State} {q : Nat} {v : Word} (hk : Keeps ρ s) : Keeps ρ (State.fqSubmit s q v) := by
  unfold State.fqSubmit
  repeat' first
    | with_reducible assumption
    | with_reducible refine KeepsR.next ?_
    | fail_if_no_progress with_reducible refine Keeps.mkK ?_
    | with_reducible refine State.setFqueue_keeps ?_
    | with_reducible refine State.raise2_keeps ?_
    | with_reducible refine State.fqResult_keeps ?_
    | with_reducible refine Keeps.doAll ?_ (fun _ _ _ => ?_)
    | with_reducible refine Keeps.doIf ?_ (fun _ _ => ?_)
    | with_reducible refine Keeps.foldl ?_ (fun _ _ _ => ?_)
    | with_reducible refine Keeps.foldlFst ?_ (fun _ _ _ => ?_)
    | with_reducible refine Keeps.foldlSnd ?_ (fun _ _ _ => ?_)
    | with_reducible refine KeepsR.host ?_ (fun _ _ => ?_)
    | (lift_lets; intro x; clear_value x)
    | with_reducible refine Keeps.ofSnd (by assumption) ?_
    | with_reducible refine Keeps.ofFst (by assumption) ?_
    | split
    | dsimp only

theorem execFqSubmit_keeps {ρ : State} {i : Iface} {q : Fin 16} {v : Word} {s : State} (hk : Keeps ρ s) : KeepsR ρ (execFqSubmit i q v s) := by
  unfold execFqSubmit
  repeat' first
    | with_reducible assumption
    | with_reducible refine KeepsR.next ?_
    | fail_if_no_progress with_reducible refine Keeps.mkK ?_
    | with_reducible refine State.fqSubmit_keeps ?_
    | with_reducible refine Keeps.doAll ?_ (fun _ _ _ => ?_)
    | with_reducible refine Keeps.doIf ?_ (fun _ _ => ?_)
    | with_reducible refine Keeps.foldl ?_ (fun _ _ _ => ?_)
    | with_reducible refine Keeps.foldlFst ?_ (fun _ _ _ => ?_)
    | with_reducible refine Keeps.foldlSnd ?_ (fun _ _ _ => ?_)
    | with_reducible refine KeepsR.host ?_ (fun _ _ => ?_)

theorem State.fqUnregister_keeps {ρ : State} {s : State} {q : Nat} {n : Nat} (hk : Keeps ρ s) : Keeps ρ (State.fqUnregister s q n) := by
  unfold State.fqUnregister
  repeat' first
    | with_reducible assumption
    | with_reducible refine KeepsR.next ?_
    | fail_if_no_progress with_reducible refine Keeps.mkK ?_
    | with_reducible refine State.setFqueue_keeps ?_
    | with_reducible refine State.retire_keeps ?_
    | with_reducible refine Keeps.doAll ?_ (fun _ _ _ => ?_)
    | with_reducible refine Keeps.doIf ?_ (fun _ _ => ?_)
    | with_reducible refine Keeps.foldl ?_ (fun _ _ _ => ?_)
    | with_reducible refine Keeps.foldlFst ?_ (fun _ _ _ => ?_)
    | with_reducible refine Keeps.foldlSnd ?_ (fun _ _ _ => ?_)
    | with_reducible refine KeepsR.host ?_ (fun _ _ => ?_)
    | (lift_lets; intro x; clear_value x)
    | with_reducible refine Keeps.ofSnd (by assumption) ?_
    | with_reducible refine Keeps.ofFst (by assumption) ?_
    | split
    | dsimp only

theorem State.fqWriteHi_keeps {ρ : State} {s : State} {q : Nat} {n : Nat} {v : Word} (hk : Keeps ρ s) : Keeps ρ (State.fqWriteHi s q n v) := by
  unfold State.fqWriteHi
  repeat' first
    | with_reducible assumption
    | with_reducible refine KeepsR.next ?_
    | fail_if_no_progress with_reducible refine Keeps.mkK ?_
    | with_reducible refine State.setFqueue_keeps ?_
    | with_reducible refine State.fqResult_keeps ?_
    | with_reducible refine State.fqUnregister_keeps ?_
    | with_reducible refine Keeps.doAll ?_ (fun _ _ _ => ?_)
    | with_reducible refine Keeps.doIf ?_ (fun _ _ => ?_)
    | with_reducible refine Keeps.foldl ?_ (fun _ _ _ => ?_)
    | with_reducible refine Keeps.foldlFst ?_ (fun _ _ _ => ?_)
    | with_reducible refine Keeps.foldlSnd ?_ (fun _ _ _ => ?_)
    | with_reducible refine KeepsR.host ?_ (fun _ _ => ?_)
    | (lift_lets; intro x; clear_value x)
    | with_reducible refine Keeps.ofSnd (by assumption) ?_
    | with_reducible refine Keeps.ofFst (by assumption) ?_
    | split

theorem State.fqWritePlain_keeps {ρ : State} {s : State} {q : Nat} {n : Nat} {g : FqSlot → FqSlot} (hk : Keeps ρ s) : Keeps ρ (State.fqWritePlain s q n g) := by
  unfold State.fqWritePlain
  repeat' first
    | with_reducible assumption
    | with_reducible refine KeepsR.next ?_
    | fail_if_no_progress with_reducible refine Keeps.mkK ?_
    | with_reducible refine State.setFqueue_keeps ?_
    | with_reducible refine State.fqResult_keeps ?_
    | with_reducible refine Keeps.doAll ?_ (fun _ _ _ => ?_)
    | with_reducible refine Keeps.doIf ?_ (fun _ _ => ?_)
    | with_reducible refine Keeps.foldl ?_ (fun _ _ _ => ?_)
    | with_reducible refine Keeps.foldlFst ?_ (fun _ _ _ => ?_)
    | with_reducible refine Keeps.foldlSnd ?_ (fun _ _ _ => ?_)
    | with_reducible refine KeepsR.host ?_ (fun _ _ => ?_)
    | (lift_lets; intro x; clear_value x)
    | with_reducible refine Keeps.ofSnd (by assumption) ?_
    | with_reducible refine Keeps.ofFst (by assumption) ?_
    | split

theorem State.fqWrite_keeps {ρ : State} {s : State} {q : Nat} {n : Nat} {r : SlotReg} {v : Word} (hk : Keeps ρ s) : Keeps ρ (State.fqWrite s q n r v) := by
  unfold State.fqWrite
  repeat' first
    | with_reducible assumption
    | with_reducible refine KeepsR.next ?_
    | fail_if_no_progress with_reducible refine Keeps.mkK ?_
    | with_reducible refine State.fqWriteHi_keeps ?_
    | with_reducible refine State.fqWritePlain_keeps ?_
    | with_reducible refine Keeps.doAll ?_ (fun _ _ _ => ?_)
    | with_reducible refine Keeps.doIf ?_ (fun _ _ => ?_)
    | with_reducible refine Keeps.foldl ?_ (fun _ _ _ => ?_)
    | with_reducible refine Keeps.foldlFst ?_ (fun _ _ _ => ?_)
    | with_reducible refine Keeps.foldlSnd ?_ (fun _ _ _ => ?_)
    | with_reducible refine KeepsR.host ?_ (fun _ _ => ?_)
    | with_reducible refine Keeps.ofSnd (by assumption) ?_
    | with_reducible refine Keeps.ofFst (by assumption) ?_
    | split

theorem execFqSlotWrite_keeps {ρ : State} {i : Iface} {q : Fin 16} {slot : Fin 8} {reg : SlotReg} {v : Word} {s : State} (hk : Keeps ρ s) : KeepsR ρ (execFqSlotWrite i q slot reg v s) := by
  unfold execFqSlotWrite
  repeat' first
    | with_reducible assumption
    | with_reducible refine KeepsR.next ?_
    | fail_if_no_progress with_reducible refine Keeps.mkK ?_
    | with_reducible refine State.fqWrite_keeps ?_
    | with_reducible refine Keeps.doAll ?_ (fun _ _ _ => ?_)
    | with_reducible refine Keeps.doIf ?_ (fun _ _ => ?_)
    | with_reducible refine Keeps.foldl ?_ (fun _ _ _ => ?_)
    | with_reducible refine Keeps.foldlFst ?_ (fun _ _ _ => ?_)
    | with_reducible refine Keeps.foldlSnd ?_ (fun _ _ _ => ?_)
    | with_reducible refine KeepsR.host ?_ (fun _ _ => ?_)

theorem execFqSlotRegister_keeps {ρ : State} {i : Iface} {q : Fin 16} {slot : Fin 8} {v : Word} {s : State} (hk : Keeps ρ s) : KeepsR ρ (execFqSlotRegister i q slot v s) := by
  unfold execFqSlotRegister
  repeat' first
    | with_reducible assumption
    | with_reducible refine KeepsR.next ?_
    | fail_if_no_progress with_reducible refine Keeps.mkK ?_
    | with_reducible refine State.fqWriteHi_keeps ?_
    | with_reducible refine Keeps.doAll ?_ (fun _ _ _ => ?_)
    | with_reducible refine Keeps.doIf ?_ (fun _ _ => ?_)
    | with_reducible refine Keeps.foldl ?_ (fun _ _ _ => ?_)
    | with_reducible refine Keeps.foldlFst ?_ (fun _ _ _ => ?_)
    | with_reducible refine Keeps.foldlSnd ?_ (fun _ _ _ => ?_)
    | with_reducible refine KeepsR.host ?_ (fun _ _ => ?_)

theorem execFqSlotUnregister_keeps {ρ : State} {i : Iface} {q : Fin 16} {slot : Fin 8} {v : Word} {s : State} (hk : Keeps ρ s) : KeepsR ρ (execFqSlotUnregister i q slot v s) := by
  unfold execFqSlotUnregister
  repeat' first
    | with_reducible assumption
    | with_reducible refine KeepsR.next ?_
    | fail_if_no_progress with_reducible refine Keeps.mkK ?_
    | with_reducible refine State.fqWriteHi_keeps ?_
    | with_reducible refine Keeps.doAll ?_ (fun _ _ _ => ?_)
    | with_reducible refine Keeps.doIf ?_ (fun _ _ => ?_)
    | with_reducible refine Keeps.foldl ?_ (fun _ _ _ => ?_)
    | with_reducible refine Keeps.foldlFst ?_ (fun _ _ _ => ?_)
    | with_reducible refine Keeps.foldlSnd ?_ (fun _ _ _ => ?_)
    | with_reducible refine KeepsR.host ?_ (fun _ _ => ?_)

theorem State.fqPop_keeps {ρ : State} {s : State} {q : Nat} (hk : Keeps ρ s) : Keeps ρ (State.fqPop s q).2 := by
  unfold State.fqPop
  repeat' first
    | with_reducible assumption
    | with_reducible refine KeepsR.next ?_
    | fail_if_no_progress with_reducible refine Keeps.mkK ?_
    | with_reducible refine State.setFqueue_keeps ?_
    | with_reducible refine State.retire_keeps ?_
    | with_reducible refine Keeps.doAll ?_ (fun _ _ _ => ?_)
    | with_reducible refine Keeps.doIf ?_ (fun _ _ => ?_)
    | with_reducible refine Keeps.foldl ?_ (fun _ _ _ => ?_)
    | with_reducible refine Keeps.foldlFst ?_ (fun _ _ _ => ?_)
    | with_reducible refine Keeps.foldlSnd ?_ (fun _ _ _ => ?_)
    | with_reducible refine KeepsR.host ?_ (fun _ _ => ?_)
    | (lift_lets; intro x; clear_value x)
    | with_reducible refine Keeps.ofSnd (by assumption) ?_
    | with_reducible refine Keeps.ofFst (by assumption) ?_
    | split
    | dsimp only

theorem State.respond_keeps {ρ : State} {s : State} {l : List Byte} (hk : Keeps ρ s) : Keeps ρ (State.respond s l) := by
  unfold State.respond
  repeat' first
    | with_reducible assumption
    | with_reducible refine KeepsR.next ?_
    | fail_if_no_progress with_reducible refine Keeps.mkK ?_

theorem execFqRetiredPop_keeps {ρ : State} {i : Iface} {q : Fin 16} {s : State} (hk : Keeps ρ s) : KeepsR ρ (execFqRetiredPop i q s) := by
  unfold execFqRetiredPop
  repeat' first
    | with_reducible assumption
    | with_reducible refine KeepsR.next ?_
    | fail_if_no_progress with_reducible refine Keeps.mkK ?_
    | with_reducible refine State.fqPop_keeps ?_
    | with_reducible refine State.respond_keeps ?_
    | with_reducible refine Keeps.doAll ?_ (fun _ _ _ => ?_)
    | with_reducible refine Keeps.doIf ?_ (fun _ _ => ?_)
    | with_reducible refine Keeps.foldl ?_ (fun _ _ _ => ?_)
    | with_reducible refine Keeps.foldlFst ?_ (fun _ _ _ => ?_)
    | with_reducible refine Keeps.foldlSnd ?_ (fun _ _ _ => ?_)
    | with_reducible refine KeepsR.host ?_ (fun _ _ => ?_)

theorem State.stillBreak_keeps {ρ : State} {s : State} {g : Nat} (hk : Keeps ρ s) : Keeps ρ (State.stillBreak s g) := by
  unfold State.stillBreak
  repeat' first
    | with_reducible assumption
    | with_reducible refine KeepsR.next ?_
    | fail_if_no_progress with_reducible refine Keeps.mkK ?_
    | with_reducible refine State.modGroup_keeps ?_

theorem State.fqBoundary_keeps {ρ : State} {s : State} {q : Nat} (hk : Keeps ρ s) : Keeps ρ (State.fqBoundary s q) := by
  unfold State.fqBoundary
  repeat' first
    | with_reducible assumption
    | with_reducible refine KeepsR.next ?_
    | fail_if_no_progress with_reducible refine Keeps.mkK ?_
    | with_reducible refine State.setFqueue_keeps ?_
    | with_reducible refine State.retire_keeps ?_
    | with_reducible refine State.stillBreak_keeps ?_
    | with_reducible refine Keeps.doAll ?_ (fun _ _ _ => ?_)
    | with_reducible refine Keeps.doIf ?_ (fun _ _ => ?_)
    | with_reducible refine Keeps.foldl ?_ (fun _ _ _ => ?_)
    | with_reducible refine Keeps.foldlFst ?_ (fun _ _ _ => ?_)
    | with_reducible refine Keeps.foldlSnd ?_ (fun _ _ _ => ?_)
    | with_reducible refine KeepsR.host ?_ (fun _ _ => ?_)
    | (lift_lets; intro x; clear_value x)
    | with_reducible refine Keeps.ofSnd (by assumption) ?_
    | with_reducible refine Keeps.ofFst (by assumption) ?_
    | split
    | dsimp only

theorem State.fetchCheck_keeps {ρ : State} {s : State} {q : Nat} {n : Nat} (hk : Keeps ρ s) : Keeps ρ (State.fetchCheck s q n) := by
  unfold State.fetchCheck
  repeat' first
    | with_reducible assumption
    | with_reducible refine KeepsR.next ?_
    | fail_if_no_progress with_reducible refine Keeps.mkK ?_
    | with_reducible refine State.setFqueue_keeps ?_
    | with_reducible refine State.count_keeps ?_
    | with_reducible refine State.raise2_keeps ?_
    | with_reducible refine State.retire_keeps ?_
    | with_reducible refine Keeps.doAll ?_ (fun _ _ _ => ?_)
    | with_reducible refine Keeps.doIf ?_ (fun _ _ => ?_)
    | with_reducible refine Keeps.foldl ?_ (fun _ _ _ => ?_)
    | with_reducible refine Keeps.foldlFst ?_ (fun _ _ _ => ?_)
    | with_reducible refine Keeps.foldlSnd ?_ (fun _ _ _ => ?_)
    | with_reducible refine KeepsR.host ?_ (fun _ _ => ?_)
    | (lift_lets; intro x; clear_value x)
    | with_reducible refine Keeps.ofSnd (by assumption) ?_
    | with_reducible refine Keeps.ofFst (by assumption) ?_
    | split

theorem State.fallBack_keeps {ρ : State} {s : State} {q : Nat} (hk : Keeps ρ s) : Keeps ρ (State.fallBack s q) := by
  unfold State.fallBack
  repeat' first
    | with_reducible assumption
    | with_reducible refine KeepsR.next ?_
    | fail_if_no_progress with_reducible refine Keeps.mkK ?_
    | with_reducible refine State.setFqueue_keeps ?_
    | with_reducible refine State.fetchCheck_keeps ?_
    | with_reducible refine Keeps.doAll ?_ (fun _ _ _ => ?_)
    | with_reducible refine Keeps.doIf ?_ (fun _ _ => ?_)
    | with_reducible refine Keeps.foldl ?_ (fun _ _ _ => ?_)
    | with_reducible refine Keeps.foldlFst ?_ (fun _ _ _ => ?_)
    | with_reducible refine Keeps.foldlSnd ?_ (fun _ _ _ => ?_)
    | with_reducible refine KeepsR.host ?_ (fun _ _ => ?_)
    | (lift_lets; intro x; clear_value x)
    | with_reducible refine Keeps.ofSnd (by assumption) ?_
    | with_reducible refine Keeps.ofFst (by assumption) ?_
    | split

theorem State.flipFetch_keeps {ρ : State} {s : State} {q : Nat} (hk : Keeps ρ s) : Keeps ρ (State.flipFetch s q) := by
  unfold State.flipFetch
  repeat' first
    | with_reducible assumption
    | with_reducible refine KeepsR.next ?_
    | fail_if_no_progress with_reducible refine Keeps.mkK ?_
    | with_reducible refine State.fetchCheck_keeps ?_
    | with_reducible refine State.fallBack_keeps ?_
    | with_reducible refine Keeps.doAll ?_ (fun _ _ _ => ?_)
    | with_reducible refine Keeps.doIf ?_ (fun _ _ => ?_)
    | with_reducible refine Keeps.foldl ?_ (fun _ _ _ => ?_)
    | with_reducible refine Keeps.foldlFst ?_ (fun _ _ _ => ?_)
    | with_reducible refine Keeps.foldlSnd ?_ (fun _ _ _ => ?_)
    | with_reducible refine KeepsR.host ?_ (fun _ _ => ?_)
    | with_reducible refine Keeps.ofSnd (by assumption) ?_
    | with_reducible refine Keeps.ofFst (by assumption) ?_
    | split

theorem State.failBands_keeps {ρ : State} {s : State} {g : Nat} {b : Nat} (hk : Keeps ρ s) : Keeps ρ (State.failBands s g b) := by
  unfold State.failBands
  repeat' first
    | with_reducible assumption
    | with_reducible refine KeepsR.next ?_
    | fail_if_no_progress with_reducible refine Keeps.mkK ?_
    | with_reducible refine State.modBandOf_keeps ?_
    | with_reducible refine Keeps.doAll ?_ (fun _ _ _ => ?_)

theorem execBandTagCheck_keeps {ρ : State} {g : Fin 4} {band : Fin 32} {s : State} (hk : Keeps ρ s) : KeepsR ρ (execBandTagCheck g band s) := by
  unfold execBandTagCheck
  repeat' first
    | with_reducible assumption
    | with_reducible refine KeepsR.next ?_
    | fail_if_no_progress with_reducible refine Keeps.mkK ?_
    | with_reducible refine State.setFqueue_keeps ?_
    | with_reducible refine State.count_keeps ?_
    | with_reducible refine State.raise2_keeps ?_
    | with_reducible refine State.retire_keeps ?_
    | with_reducible refine State.failBands_keeps ?_
    | with_reducible refine Keeps.doAll ?_ (fun _ _ _ => ?_)
    | with_reducible refine Keeps.doIf ?_ (fun _ _ => ?_)
    | with_reducible refine Keeps.foldl ?_ (fun _ _ _ => ?_)
    | with_reducible refine Keeps.foldlFst ?_ (fun _ _ _ => ?_)
    | with_reducible refine Keeps.foldlSnd ?_ (fun _ _ _ => ?_)
    | with_reducible refine KeepsR.host ?_ (fun _ _ => ?_)
    | (lift_lets; intro x; clear_value x)
    | with_reducible refine Keeps.ofSnd (by assumption) ?_
    | with_reducible refine Keeps.ofFst (by assumption) ?_
    | split
    | dsimp only

theorem State.unpoisonRange_keeps {ρ : State} {s : State} {a : Nat} {n : Nat} (hk : Keeps ρ s) : Keeps ρ (State.unpoisonRange s a n) := by
  unfold State.unpoisonRange
  repeat' first
    | with_reducible assumption
    | with_reducible refine KeepsR.next ?_
    | fail_if_no_progress with_reducible refine Keeps.mkK ?_

theorem State.store_keeps {ρ : State} {s : State} {a : Nat} {l : List Byte} (hk : Keeps ρ s) : Keeps ρ (State.store s a l) := by
  unfold State.store
  repeat' first
    | with_reducible assumption
    | with_reducible refine KeepsR.next ?_
    | fail_if_no_progress with_reducible refine Keeps.mkK ?_
    | with_reducible refine State.setBytes_keeps ?_
    | with_reducible refine State.unpoisonRange_keeps ?_

theorem State.substitute_keeps {ρ : State} {s : State} {q : Nat} {first : Bool} {chroma : Bool} {y : Nat} (hk : Keeps ρ s) : Keeps ρ (State.substitute s q first chroma y) := by
  unfold State.substitute
  repeat' first
    | with_reducible assumption
    | with_reducible refine KeepsR.next ?_
    | fail_if_no_progress with_reducible refine Keeps.mkK ?_
    | with_reducible refine State.store_keeps ?_
    | with_reducible refine Keeps.doAll ?_ (fun _ _ _ => ?_)
    | with_reducible refine Keeps.doIf ?_ (fun _ _ => ?_)
    | with_reducible refine Keeps.foldl ?_ (fun _ _ _ => ?_)
    | with_reducible refine Keeps.foldlFst ?_ (fun _ _ _ => ?_)
    | with_reducible refine Keeps.foldlSnd ?_ (fun _ _ _ => ?_)
    | with_reducible refine KeepsR.host ?_ (fun _ _ => ?_)
    | with_reducible refine Keeps.ofSnd (by assumption) ?_
    | with_reducible refine Keeps.ofFst (by assumption) ?_
    | split

theorem State.closeFrame_keeps {ρ : State} {s : State} {p : Nat} {st : Nat} (hk : Keeps ρ s) : Keeps ρ (State.closeFrame s p st) := by
  unfold State.closeFrame
  repeat' first
    | with_reducible assumption
    | with_reducible refine KeepsR.next ?_
    | fail_if_no_progress with_reducible refine Keeps.mkK ?_
    | with_reducible refine State.modRing_keeps ?_
    | with_reducible refine State.setStream_keeps ?_
    | with_reducible refine State.count_keeps ?_
    | with_reducible refine State.raise2_keeps ?_
    | with_reducible refine State.stillBreak_keeps ?_
    | with_reducible refine State.substitute_keeps ?_
    | with_reducible refine Keeps.doAll ?_ (fun _ _ _ => ?_)
    | with_reducible refine Keeps.doIf ?_ (fun _ _ => ?_)
    | with_reducible refine Keeps.foldl ?_ (fun _ _ _ => ?_)
    | with_reducible refine Keeps.foldlFst ?_ (fun _ _ _ => ?_)
    | with_reducible refine Keeps.foldlSnd ?_ (fun _ _ _ => ?_)
    | with_reducible refine KeepsR.host ?_ (fun _ _ => ?_)
    | (lift_lets; intro x; clear_value x)
    | with_reducible refine Keeps.ofSnd (by assumption) ?_
    | with_reducible refine Keeps.ofFst (by assumption) ?_
    | split
    | dsimp only

theorem State.openFrame_keeps {ρ : State} {s : State} {p : Nat} {st : Nat} {n : Nat} (hk : Keeps ρ s) : Keeps ρ (State.openFrame s p st n) := by
  unfold State.openFrame
  repeat' first
    | with_reducible assumption
    | with_reducible refine KeepsR.next ?_
    | fail_if_no_progress with_reducible refine Keeps.mkK ?_
    | with_reducible refine State.modRing_keeps ?_
    | with_reducible refine State.modStream_keeps ?_
    | with_reducible refine Keeps.doAll ?_ (fun _ _ _ => ?_)

theorem State.resolve0_keeps {ρ : State} {s : State} {ls : List Nat} (hk : Keeps ρ s) : Keeps ρ (State.resolve0 s ls) := by
  unfold State.resolve0
  repeat' first
    | with_reducible assumption
    | with_reducible refine KeepsR.next ?_
    | fail_if_no_progress with_reducible refine Keeps.mkK ?_
    | with_reducible refine State.modRing_keeps ?_
    | with_reducible refine Keeps.doAll ?_ (fun _ _ _ => ?_)

theorem State.markLine_keeps {ρ : State} {s : State} {k : Nat} {chroma : Bool} {y : Nat} {good : Bool} (hk : Keeps ρ s) : Keeps ρ (State.markLine s k chroma y good) := by
  unfold State.markLine
  repeat' first
    | with_reducible assumption
    | with_reducible refine KeepsR.next ?_
    | fail_if_no_progress with_reducible refine Keeps.mkK ?_
    | with_reducible refine State.modStream_keeps ?_

theorem State.takeLine_keeps {ρ : State} {s : State} {p : Nat} {st : Nat} {chroma : Bool} {y : Nat} {good : Bool} {sum : Word} {payload : List Byte} (hk : Keeps ρ s) : Keeps ρ (State.takeLine s p st chroma y good sum payload) := by
  unfold State.takeLine
  repeat' first
    | with_reducible assumption
    | with_reducible refine KeepsR.next ?_
    | fail_if_no_progress with_reducible refine Keeps.mkK ?_
    | with_reducible refine State.modStream_keeps ?_
    | with_reducible refine State.stillBreak_keeps ?_
    | with_reducible refine State.store_keeps ?_
    | with_reducible refine State.resolve0_keeps ?_
    | with_reducible refine State.markLine_keeps ?_
    | with_reducible refine Keeps.doAll ?_ (fun _ _ _ => ?_)
    | with_reducible refine Keeps.doIf ?_ (fun _ _ => ?_)
    | with_reducible refine Keeps.foldl ?_ (fun _ _ _ => ?_)
    | with_reducible refine Keeps.foldlFst ?_ (fun _ _ _ => ?_)
    | with_reducible refine Keeps.foldlSnd ?_ (fun _ _ _ => ?_)
    | with_reducible refine KeepsR.host ?_ (fun _ _ => ?_)
    | with_reducible refine Keeps.ofSnd (by assumption) ?_
    | with_reducible refine Keeps.ofFst (by assumption) ?_
    | split

theorem State.ingestFetch_keeps {ρ : State} {s : State} {g : Nat} {l : Nat} {again : Bool} (hk : Keeps ρ s) : Keeps ρ (State.ingestFetch s g l again) := by
  unfold State.ingestFetch
  repeat' first
    | with_reducible assumption
    | with_reducible refine KeepsR.next ?_
    | fail_if_no_progress with_reducible refine Keeps.mkK ?_
    | with_reducible refine State.setRing_keeps ?_
    | with_reducible refine State.count_keeps ?_
    | with_reducible refine Keeps.doAll ?_ (fun _ _ _ => ?_)
    | with_reducible refine Keeps.doIf ?_ (fun _ _ => ?_)
    | with_reducible refine Keeps.foldl ?_ (fun _ _ _ => ?_)
    | with_reducible refine Keeps.foldlFst ?_ (fun _ _ _ => ?_)
    | with_reducible refine Keeps.foldlSnd ?_ (fun _ _ _ => ?_)
    | with_reducible refine KeepsR.host ?_ (fun _ _ => ?_)
    | (lift_lets; intro x; clear_value x)
    | with_reducible refine Keeps.ofSnd (by assumption) ?_
    | with_reducible refine Keeps.ofFst (by assumption) ?_
    | split
    | dsimp only

theorem State.underrun_keeps {ρ : State} {s : State} {g : Nat} {l : Nat} (hk : Keeps ρ s) : Keeps ρ (State.underrun s g l) := by
  unfold State.underrun
  repeat' first
    | with_reducible assumption
    | with_reducible refine KeepsR.next ?_
    | fail_if_no_progress with_reducible refine Keeps.mkK ?_
    | with_reducible refine State.count_keeps ?_
    | with_reducible refine State.raiseOnce_keeps ?_
    | with_reducible refine State.stillBreak_keeps ?_

theorem State.composeFrom_keeps {ρ : State} {s : State} {g : Nat} {x : Nat} {y : Nat} {supplied : BitVec 4} {d : Nat × Nat × Nat} {l : Nat} {src : Option Source} (hk : Keeps ρ s) : Keeps ρ (State.composeFrom s g x y supplied d l src).1 := by
  unfold State.composeFrom
  repeat' first
    | with_reducible assumption
    | with_reducible refine KeepsR.next ?_
    | fail_if_no_progress with_reducible refine Keeps.mkK ?_
    | with_reducible refine State.modGroup_keeps ?_
    | with_reducible refine State.underrun_keeps ?_
    | with_reducible refine Keeps.doAll ?_ (fun _ _ _ => ?_)
    | with_reducible refine Keeps.doIf ?_ (fun _ _ => ?_)
    | with_reducible refine Keeps.foldl ?_ (fun _ _ _ => ?_)
    | with_reducible refine Keeps.foldlFst ?_ (fun _ _ _ => ?_)
    | with_reducible refine Keeps.foldlSnd ?_ (fun _ _ _ => ?_)
    | with_reducible refine KeepsR.host ?_ (fun _ _ => ?_)
    | (lift_lets; intro x; refine Keeps.cut (r := ρ) (x := x) ?_ (fun hx => ?_); (on_goal 1 => dsimp only [x]); (on_goal 2 => clear_value x))
    | (lift_lets; intro x; clear_value x)
    | with_reducible refine Keeps.ofSnd (by assumption) ?_
    | with_reducible refine Keeps.ofFst (by assumption) ?_
    | split

theorem State.composeLayer_keeps {ρ : State} {s : State} {g : Nat} {x : Nat} {y : Nat} {supplied : BitVec 4} {d : Nat × Nat × Nat} {l : Nat} (hk : Keeps ρ s) : Keeps ρ (State.composeLayer s g x y supplied d l).1 := by
  unfold State.composeLayer
  repeat' first
    | with_reducible assumption
    | with_reducible refine KeepsR.next ?_
    | fail_if_no_progress with_reducible refine Keeps.mkK ?_
    | with_reducible refine State.composeFrom_keeps ?_

theorem State.compose_keeps {ρ : State} {s : State} {g : Nat} {x : Nat} {y : Nat} {supplied : BitVec 4} (hk : Keeps ρ s) : Keeps ρ (State.compose s g x y supplied).1 := by
  unfold State.compose
  repeat' first
    | with_reducible assumption
    | with_reducible refine KeepsR.next ?_
    | fail_if_no_progress with_reducible refine Keeps.mkK ?_
    | with_reducible refine State.composeLayer_keeps ?_
    | with_reducible refine Keeps.doAll ?_ (fun _ _ _ => ?_)
    | with_reducible refine Keeps.doIf ?_ (fun _ _ => ?_)
    | with_reducible refine Keeps.foldl ?_ (fun _ _ _ => ?_)
    | with_reducible refine Keeps.foldlFst ?_ (fun _ _ _ => ?_)

theorem State.crcPixel_keeps {ρ : State} {s : State} {g : Nat} {x : Nat} {y : Nat} {p : Nat × Nat × Nat} (hk : Keeps ρ s) : Keeps ρ (State.crcPixel s g x y p) := by
  unfold State.crcPixel
  repeat' first
    | with_reducible assumption
    | with_reducible refine KeepsR.next ?_
    | fail_if_no_progress with_reducible refine Keeps.mkK ?_
    | with_reducible refine State.modGroup_keeps ?_

theorem State.monAbandon_keeps {ρ : State} {s : State} (hk : Keeps ρ s) : Keeps ρ (State.monAbandon s) := by
  unfold State.monAbandon
  repeat' first
    | with_reducible assumption
    | with_reducible refine KeepsR.next ?_
    | fail_if_no_progress with_reducible refine Keeps.mkK ?_
    | with_reducible refine State.modSub_keeps ?_
    | with_reducible refine State.count_keeps ?_
    | with_reducible refine Keeps.doAll ?_ (fun _ _ _ => ?_)

theorem State.monPicture_keeps {ρ : State} {s : State} (hk : Keeps ρ s) : Keeps ρ (State.monPicture s) := by
  unfold State.monPicture
  repeat' first
    | with_reducible assumption
    | with_reducible refine KeepsR.next ?_
    | fail_if_no_progress with_reducible refine Keeps.mkK ?_
    | with_reducible refine State.store_keeps ?_
    | with_reducible refine State.monAbandon_keeps ?_
    | with_reducible refine Keeps.doAll ?_ (fun _ _ _ => ?_)
    | with_reducible refine Keeps.doIf ?_ (fun _ _ => ?_)
    | with_reducible refine Keeps.foldl ?_ (fun _ _ _ => ?_)
    | with_reducible refine Keeps.foldlFst ?_ (fun _ _ _ => ?_)
    | with_reducible refine Keeps.foldlSnd ?_ (fun _ _ _ => ?_)
    | with_reducible refine KeepsR.host ?_ (fun _ _ => ?_)
    | (lift_lets; intro x; clear_value x)
    | with_reducible refine Keeps.ofSnd (by assumption) ?_
    | with_reducible refine Keeps.ofFst (by assumption) ?_
    | split

theorem execLastActiveLineEnd_keeps {ρ : State} {g : Fin 4} {s : State} (hk : Keeps ρ s) : KeepsR ρ (execLastActiveLineEnd g s) := by
  unfold execLastActiveLineEnd
  repeat' first
    | with_reducible assumption
    | with_reducible refine KeepsR.next ?_
    | fail_if_no_progress with_reducible refine Keeps.mkK ?_
    | with_reducible refine State.modGroup_keeps ?_
    | with_reducible refine State.setWord_keeps ?_
    | with_reducible refine State.setFld_keeps ?_
    | with_reducible refine State.raise2_keeps ?_
    | with_reducible refine State.monPicture_keeps ?_
    | with_reducible refine Keeps.doAll ?_ (fun _ _ _ => ?_)
    | with_reducible refine Keeps.doIf ?_ (fun _ _ => ?_)
    | with_reducible refine Keeps.foldl ?_ (fun _ _ _ => ?_)
    | with_reducible refine Keeps.foldlFst ?_ (fun _ _ _ => ?_)
    | with_reducible refine Keeps.foldlSnd ?_ (fun _ _ _ => ?_)
    | with_reducible refine KeepsR.host ?_ (fun _ _ => ?_)
    | (lift_lets; intro x; clear_value x)
    | with_reducible refine Keeps.ofSnd (by assumption) ?_
    | with_reducible refine Keeps.ofFst (by assumption) ?_
    | split

theorem State.monPixel_keeps {ρ : State} {s : State} {g : Nat} {x : Nat} {y : Nat} {p : Nat × Nat × Nat} (hk : Keeps ρ s) : Keeps ρ (State.monPixel s g x y p) := by
  unfold State.monPixel
  repeat' first
    | with_reducible assumption
    | with_reducible refine KeepsR.next ?_
    | fail_if_no_progress with_reducible refine Keeps.mkK ?_
    | with_reducible refine Keeps.doAll ?_ (fun _ _ _ => ?_)
    | with_reducible refine Keeps.doIf ?_ (fun _ _ => ?_)
    | with_reducible refine Keeps.foldl ?_ (fun _ _ _ => ?_)
    | with_reducible refine Keeps.foldlFst ?_ (fun _ _ _ => ?_)
    | with_reducible refine Keeps.foldlSnd ?_ (fun _ _ _ => ?_)
    | with_reducible refine KeepsR.host ?_ (fun _ _ => ?_)
    | (lift_lets; intro x; clear_value x)
    | with_reducible refine Keeps.ofSnd (by assumption) ?_
    | with_reducible refine Keeps.ofFst (by assumption) ?_
    | split
    | dsimp only

theorem execPixelDue_keeps {ρ : State} {g : Fin 4} {x : Nat} {y : Nat} {supplied : BitVec 4} {s : State} (hk : Keeps ρ s) : KeepsR ρ (execPixelDue g x y supplied s) := by
  unfold execPixelDue
  repeat' first
    | with_reducible assumption
    | with_reducible refine KeepsR.next ?_
    | fail_if_no_progress with_reducible refine Keeps.mkK ?_
    | with_reducible refine State.modGroup_keeps ?_
    | with_reducible refine State.compose_keeps ?_
    | with_reducible refine State.crcPixel_keeps ?_
    | with_reducible refine State.monPixel_keeps ?_
    | with_reducible refine Keeps.doAll ?_ (fun _ _ _ => ?_)
    | with_reducible refine Keeps.doIf ?_ (fun _ _ => ?_)
    | with_reducible refine Keeps.foldl ?_ (fun _ _ _ => ?_)
    | with_reducible refine Keeps.foldlFst ?_ (fun _ _ _ => ?_)
    | with_reducible refine Keeps.foldlSnd ?_ (fun _ _ _ => ?_)
    | with_reducible refine KeepsR.host ?_ (fun _ _ => ?_)
    | with_reducible refine Keeps.ofSnd (by assumption) ?_
    | with_reducible refine Keeps.ofFst (by assumption) ?_
    | split

theorem State.fetch_keeps {ρ : State} {s : State} {g : Nat} {again : Option Nat} (hk : Keeps ρ s) : Keeps ρ (State.fetch s g again) := by
  unfold State.fetch
  repeat' first
    | with_reducible assumption
    | with_reducible refine KeepsR.next ?_
    | fail_if_no_progress with_reducible refine Keeps.mkK ?_
    | with_reducible refine State.modGroup_keeps ?_
    | with_reducible refine State.flipFetch_keeps ?_
    | with_reducible refine State.ingestFetch_keeps ?_
    | with_reducible refine Keeps.doAll ?_ (fun _ _ _ => ?_)
    | with_reducible refine Keeps.doIf ?_ (fun _ _ => ?_)
    | with_reducible refine Keeps.foldl ?_ (fun _ _ _ => ?_)
    | with_reducible refine Keeps.foldlFst ?_ (fun _ _ _ => ?_)
    | with_reducible refine Keeps.foldlSnd ?_ (fun _ _ _ => ?_)
    | with_reducible refine KeepsR.host ?_ (fun _ _ => ?_)
    | with_reducible refine Keeps.ofSnd (by assumption) ?_
    | with_reducible refine Keeps.ofFst (by assumption) ?_
    | split

theorem execFetchStart_keeps {ρ : State} {g : Fin 4} {s : State} (hk : Keeps ρ s) : KeepsR ρ (execFetchStart g s) := by
  unfold execFetchStart
  repeat' first
    | with_reducible assumption
    | with_reducible refine KeepsR.next ?_
    | fail_if_no_progress with_reducible refine Keeps.mkK ?_
    | with_reducible refine State.fetch_keeps ?_
    | with_reducible refine Keeps.doAll ?_ (fun _ _ _ => ?_)
    | with_reducible refine Keeps.doIf ?_ (fun _ _ => ?_)
    | with_reducible refine Keeps.foldl ?_ (fun _ _ _ => ?_)
    | with_reducible refine Keeps.foldlFst ?_ (fun _ _ _ => ?_)
    | with_reducible refine Keeps.foldlSnd ?_ (fun _ _ _ => ?_)
    | with_reducible refine KeepsR.host ?_ (fun _ _ => ?_)
    | with_reducible refine Keeps.ofSnd (by assumption) ?_
    | with_reducible refine Keeps.ofFst (by assumption) ?_
    | split

theorem State.pace_keeps {ρ : State} {s : State} {g : Nat} (hk : Keeps ρ s) : Keeps ρ (State.pace s g) := by
  unfold State.pace
  repeat' first
    | with_reducible assumption
    | with_reducible refine KeepsR.next ?_
    | fail_if_no_progress with_reducible refine Keeps.mkK ?_
    | with_reducible refine State.count_keeps ?_
    | with_reducible refine State.raise_keeps ?_
    | with_reducible refine State.fetch_keeps ?_
    | with_reducible refine Keeps.doAll ?_ (fun _ _ _ => ?_)
    | with_reducible refine Keeps.doIf ?_ (fun _ _ => ?_)
    | with_reducible refine Keeps.foldl ?_ (fun _ _ _ => ?_)
    | with_reducible refine Keeps.foldlFst ?_ (fun _ _ _ => ?_)
    | with_reducible refine Keeps.foldlSnd ?_ (fun _ _ _ => ?_)
    | with_reducible refine KeepsR.host ?_ (fun _ _ => ?_)
    | (lift_lets; intro x; clear_value x)
    | with_reducible refine Keeps.ofSnd (by assumption) ?_
    | with_reducible refine Keeps.ofFst (by assumption) ?_
    | split
    | dsimp only

theorem execLineBoundary_keeps {ρ : State} {g : Fin 4} {s : State} (hk : Keeps ρ s) : KeepsR ρ (execLineBoundary g s) := by
  unfold execLineBoundary
  repeat' first
    | with_reducible assumption
    | with_reducible refine KeepsR.next ?_
    | fail_if_no_progress with_reducible refine Keeps.mkK ?_
    | with_reducible refine State.modGroup_keeps ?_
    | with_reducible refine State.pace_keeps ?_

theorem State.monSend_keeps {ρ : State} {s : State} (hk : Keeps ρ s) : Keeps ρ (State.monSend s) := by
  unfold State.monSend
  repeat' first
    | with_reducible assumption
    | with_reducible refine KeepsR.next ?_
    | fail_if_no_progress with_reducible refine Keeps.mkK ?_
    | with_reducible refine State.countWrap_keeps ?_
    | with_reducible refine State.emit_keeps ?_

theorem execMonitorRefresh_keeps {ρ : State} {s : State} (hk : Keeps ρ s) : KeepsR ρ (execMonitorRefresh s) := by
  unfold execMonitorRefresh
  repeat' first
    | with_reducible assumption
    | with_reducible refine KeepsR.next ?_
    | fail_if_no_progress with_reducible refine Keeps.mkK ?_
    | with_reducible refine State.monSend_keeps ?_
    | with_reducible refine Keeps.doAll ?_ (fun _ _ _ => ?_)
    | with_reducible refine Keeps.doIf ?_ (fun _ _ => ?_)
    | with_reducible refine Keeps.foldl ?_ (fun _ _ _ => ?_)
    | with_reducible refine Keeps.foldlFst ?_ (fun _ _ _ => ?_)
    | with_reducible refine Keeps.foldlSnd ?_ (fun _ _ _ => ?_)
    | with_reducible refine KeepsR.host ?_ (fun _ _ => ?_)
    | (lift_lets; intro x; clear_value x)
    | with_reducible refine Keeps.ofSnd (by assumption) ?_
    | with_reducible refine Keeps.ofFst (by assumption) ?_
    | split

theorem execDsiTeEdge_keeps {ρ : State} {falling : Bool} {s : State} (hk : Keeps ρ s) : KeepsR ρ (execDsiTeEdge falling s) := by
  unfold execDsiTeEdge
  repeat' first
    | with_reducible assumption
    | with_reducible refine KeepsR.next ?_
    | fail_if_no_progress with_reducible refine Keeps.mkK ?_
    | with_reducible refine State.monSend_keeps ?_
    | with_reducible refine Keeps.doAll ?_ (fun _ _ _ => ?_)
    | with_reducible refine Keeps.doIf ?_ (fun _ _ => ?_)
    | with_reducible refine Keeps.foldl ?_ (fun _ _ _ => ?_)
    | with_reducible refine Keeps.foldlFst ?_ (fun _ _ _ => ?_)
    | with_reducible refine Keeps.foldlSnd ?_ (fun _ _ _ => ?_)
    | with_reducible refine KeepsR.host ?_ (fun _ _ => ?_)
    | with_reducible refine Keeps.ofSnd (by assumption) ?_
    | with_reducible refine Keeps.ofFst (by assumption) ?_
    | split

theorem execTeTimeout_keeps {ρ : State} {s : State} (hk : Keeps ρ s) : KeepsR ρ (execTeTimeout s) := by
  unfold execTeTimeout
  repeat' first
    | with_reducible assumption
    | with_reducible refine KeepsR.next ?_
    | fail_if_no_progress with_reducible refine Keeps.mkK ?_
    | with_reducible refine State.count_keeps ?_
    | with_reducible refine State.raise_keeps ?_
    | with_reducible refine State.monSend_keeps ?_
    | with_reducible refine Keeps.doAll ?_ (fun _ _ _ => ?_)
    | with_reducible refine Keeps.doIf ?_ (fun _ _ => ?_)
    | with_reducible refine Keeps.foldl ?_ (fun _ _ _ => ?_)
    | with_reducible refine Keeps.foldlFst ?_ (fun _ _ _ => ?_)
    | with_reducible refine Keeps.foldlSnd ?_ (fun _ _ _ => ?_)
    | with_reducible refine KeepsR.host ?_ (fun _ _ => ?_)
    | (lift_lets; intro x; refine Keeps.cut (r := ρ) (x := x) ?_ (fun hx => ?_); (on_goal 1 => dsimp only [x]); (on_goal 2 => clear_value x))
    | with_reducible refine Keeps.ofSnd (by assumption) ?_
    | with_reducible refine Keeps.ofFst (by assumption) ?_
    | split

theorem State.clipCount_keeps {ρ : State} {s : State} {g : Nat} {t : List Int} (hk : Keeps ρ s) : Keeps ρ (State.clipCount s g t) := by
  unfold State.clipCount
  repeat' first
    | with_reducible assumption
    | with_reducible refine KeepsR.next ?_
    | fail_if_no_progress with_reducible refine Keeps.mkK ?_
    | with_reducible refine State.count_keeps ?_
    | with_reducible refine State.raiseOnce_keeps ?_
    | with_reducible refine Keeps.doAll ?_ (fun _ _ _ => ?_)
    | with_reducible refine Keeps.doIf ?_ (fun _ _ => ?_)

theorem State.finish_keeps {ρ : State} {s : State} {h : Nat} {c : Nat} {x : Nat} {y : Nat} {p : Nat} (hk : Keeps ρ s) : Keeps ρ (State.finish s h c x y p) := by
  unfold State.finish
  repeat' first
    | with_reducible assumption
    | with_reducible refine KeepsR.next ?_
    | fail_if_no_progress with_reducible refine Keeps.mkK ?_
    | with_reducible refine State.modHeadOf_keeps ?_
    | with_reducible refine Keeps.doAll ?_ (fun _ _ _ => ?_)
    | with_reducible refine Keeps.doIf ?_ (fun _ _ => ?_)
    | with_reducible refine Keeps.foldl ?_ (fun _ _ _ => ?_)
    | with_reducible refine Keeps.foldlFst ?_ (fun _ _ _ => ?_)
    | with_reducible refine Keeps.foldlSnd ?_ (fun _ _ _ => ?_)
    | with_reducible refine KeepsR.host ?_ (fun _ _ => ?_)
    | (lift_lets; intro x; clear_value x)
    | with_reducible refine Keeps.ofSnd (by assumption) ?_
    | with_reducible refine Keeps.ofFst (by assumption) ?_
    | split

theorem State.splitIn_keeps {ρ : State} {s : State} {h : Nat} {c : Nat} {x : Nat} {y : Nat} {t : Nat} (hk : Keeps ρ s) : Keeps ρ (State.splitIn s h c x y t) := by
  unfold State.splitIn
  repeat' first
    | with_reducible assumption
    | with_reducible refine KeepsR.next ?_
    | fail_if_no_progress with_reducible refine Keeps.mkK ?_
    | with_reducible refine State.modHeadOf_keeps ?_

theorem State.splitLevels_keeps {ρ : State} {s : State} {h : Nat} {z : Nat} {m : Nat} (hk : Keeps ρ s) : Keeps ρ (State.splitLevels s h z m) := by
  unfold State.splitLevels
  repeat' first
    | with_reducible assumption
    | with_reducible refine KeepsR.next ?_
    | fail_if_no_progress with_reducible refine Keeps.mkK ?_
    | with_reducible refine State.modHeadOf_keeps ?_
    | with_reducible refine State.setFld_keeps ?_
    | with_reducible refine Keeps.doAll ?_ (fun _ _ _ => ?_)

theorem State.splitOut_keeps {ρ : State} {s : State} {h : Nat} {z : Nat} {c : Nat} {x : Nat} {y : Nat} (hk : Keeps ρ s) : Keeps ρ (State.splitOut s h z c x y) := by
  unfold State.splitOut
  repeat' first
    | with_reducible assumption
    | with_reducible refine KeepsR.next ?_
    | fail_if_no_progress with_reducible refine Keeps.mkK ?_
    | with_reducible refine State.count_keeps ?_
    | with_reducible refine State.raiseOnce_keeps ?_
    | with_reducible refine State.finish_keeps ?_
    | with_reducible refine Keeps.doAll ?_ (fun _ _ _ => ?_)
    | with_reducible refine Keeps.doIf ?_ (fun _ _ => ?_)

theorem State.pipePixel_keeps {ρ : State} {s : State} {h : Nat} {x : Nat} {y : Nat} {p : Nat × Nat × Nat} (hk : Keeps ρ s) : Keeps ρ (State.pipePixel s h x y p) := by
  unfold State.pipePixel
  repeat' first
    | with_reducible assumption
    | with_reducible refine KeepsR.next ?_
    | fail_if_no_progress with_reducible refine Keeps.mkK ?_
    | with_reducible refine State.clipCount_keeps ?_
    | with_reducible refine State.finish_keeps ?_
    | with_reducible refine State.splitIn_keeps ?_
    | with_reducible refine Keeps.doAll ?_ (fun _ _ _ => ?_)
    | with_reducible refine Keeps.doIf ?_ (fun _ _ => ?_)
    | with_reducible refine Keeps.foldl ?_ (fun _ _ _ => ?_)
    | with_reducible refine Keeps.foldlFst ?_ (fun _ _ _ => ?_)
    | with_reducible refine Keeps.foldlSnd ?_ (fun _ _ _ => ?_)
    | with_reducible refine KeepsR.host ?_ (fun _ _ => ?_)
    | (lift_lets; intro x; clear_value x)
    | with_reducible refine Keeps.ofSnd (by assumption) ?_
    | with_reducible refine Keeps.ofFst (by assumption) ?_
    | split

theorem execColourPipelinePixel_keeps {ρ : State} {h : Fin 4} {x : Nat} {y : Nat} {r : BitVec 16} {g : BitVec 16} {b : BitVec 16} {s : State} (hk : Keeps ρ s) : KeepsR ρ (execColourPipelinePixel h x y r g b s) := by
  unfold execColourPipelinePixel
  repeat' first
    | with_reducible assumption
    | with_reducible refine KeepsR.next ?_
    | fail_if_no_progress with_reducible refine Keeps.mkK ?_
    | with_reducible refine State.pipePixel_keeps ?_

theorem execCellRowComplete_keeps {ρ : State} {h : Fin 4} {m : Nat} {s : State} (hk : Keeps ρ s) : KeepsR ρ (execCellRowComplete h m s) := by
  unfold execCellRowComplete
  repeat' first
    | with_reducible assumption
    | with_reducible refine KeepsR.next ?_
    | fail_if_no_progress with_reducible refine Keeps.mkK ?_
    | with_reducible refine State.modHeadOf_keeps ?_
    | with_reducible refine State.setFld_keeps ?_
    | with_reducible refine State.sendRow_keeps ?_
    | with_reducible refine State.splitLevels_keeps ?_
    | with_reducible refine State.splitOut_keeps ?_
    | with_reducible refine Keeps.doAll ?_ (fun _ _ _ => ?_)
    | with_reducible refine Keeps.doIf ?_ (fun _ _ => ?_)
    | with_reducible refine Keeps.foldl ?_ (fun _ _ _ => ?_)
    | with_reducible refine Keeps.foldlFst ?_ (fun _ _ _ => ?_)
    | with_reducible refine Keeps.foldlSnd ?_ (fun _ _ _ => ?_)
    | with_reducible refine KeepsR.host ?_ (fun _ _ => ?_)
    | (lift_lets; intro x; refine Keeps.cut (r := ρ) (x := x) ?_ (fun hx => ?_); (on_goal 1 => dsimp only [x]); (on_goal 2 => clear_value x))
    | (lift_lets; intro x; clear_value x)
    | with_reducible refine Keeps.ofSnd (by assumption) ?_
    | with_reducible refine Keeps.ofFst (by assumption) ?_
    | split

theorem State.pipeRow_keeps {ρ : State} {s : State} {g : Nat} {y : Nat} {row : List (Nat × Nat × Nat)} (hk : Keeps ρ s) : Keeps ρ (State.pipeRow s g y row) := by
  unfold State.pipeRow
  repeat' first
    | with_reducible assumption
    | with_reducible refine KeepsR.next ?_
    | fail_if_no_progress with_reducible refine Keeps.mkK ?_
    | with_reducible refine State.pipePixel_keeps ?_
    | with_reducible refine Keeps.doAll ?_ (fun _ _ _ => ?_)

theorem State.heldLines_keeps {ρ s : State} {g : Nat} {l : Tab (List Byte)} (hk : Keeps ρ s) : Keeps ρ (s.heldLines g l) := by
  unfold State.heldLines
  refine Keeps.doAll ?_ (fun _ _ hu => State.setBytes_keeps hu)
  exact ⟨hk.pending, hk.fuses, fun c => ⟨rfl, (hk.canonical c).loft, (hk.canonical c).flash, (hk.canonical c).regs⟩⟩

theorem State.directLine_keeps {ρ : State} {s : State} {g : Nat} {k : Nat} {chroma : Bool} {y : Nat} (hk : Keeps ρ s) : Keeps ρ (State.directLine s g k chroma y) := by
  unfold State.directLine
  repeat' first
    | with_reducible assumption
    | with_reducible refine KeepsR.next ?_
    | fail_if_no_progress with_reducible refine Keeps.mkK ?_
    | with_reducible refine State.pipeRow_keeps ?_
    | with_reducible refine State.heldLines_keeps ?_
    | with_reducible refine Keeps.doAll ?_ (fun _ _ _ => ?_)
    | with_reducible refine Keeps.doIf ?_ (fun _ _ => ?_)
    | with_reducible refine Keeps.foldl ?_ (fun _ _ _ => ?_)
    | with_reducible refine Keeps.foldlFst ?_ (fun _ _ _ => ?_)
    | with_reducible refine Keeps.foldlSnd ?_ (fun _ _ _ => ?_)
    | with_reducible refine KeepsR.host ?_ (fun _ _ => ?_)
    | with_reducible refine Keeps.ofSnd (by assumption) ?_
    | with_reducible refine Keeps.ofFst (by assumption) ?_
    | split

theorem State.directIn_keeps {ρ : State} {s : State} {k : Nat} {ls : List Nat} {chroma : Bool} {y : Nat} {payload : List Byte} (hk : Keeps ρ s) : Keeps ρ (State.directIn s k ls chroma y payload) := by
  unfold State.directIn
  repeat' first
    | with_reducible assumption
    | with_reducible refine KeepsR.next ?_
    | fail_if_no_progress with_reducible refine Keeps.mkK ?_
    | with_reducible refine State.modStream_keeps ?_
    | with_reducible refine State.directLine_keeps ?_
    | with_reducible refine Keeps.doAll ?_ (fun _ _ _ => ?_)
    | with_reducible refine Keeps.doIf ?_ (fun _ _ => ?_)
    | with_reducible refine Keeps.foldl ?_ (fun _ _ _ => ?_)
    | with_reducible refine Keeps.foldlFst ?_ (fun _ _ _ => ?_)
    | with_reducible refine Keeps.foldlSnd ?_ (fun _ _ _ => ?_)
    | with_reducible refine KeepsR.host ?_ (fun _ _ => ?_)
    | (lift_lets; intro x; clear_value x)
    | with_reducible refine Keeps.ofSnd (by assumption) ?_
    | with_reducible refine Keeps.ofFst (by assumption) ?_
    | split

theorem State.lateLine_keeps {ρ : State} {s : State} {h : Nat} {line : Nat} (hk : Keeps ρ s) : Keeps ρ (State.lateLine s h line) := by
  unfold State.lateLine
  repeat' first
    | with_reducible assumption
    | with_reducible refine KeepsR.next ?_
    | fail_if_no_progress with_reducible refine Keeps.mkK ?_
    | with_reducible refine State.count_keeps ?_
    | with_reducible refine State.pipeRow_keeps ?_
    | with_reducible refine Keeps.doAll ?_ (fun _ _ _ => ?_)
    | with_reducible refine Keeps.doIf ?_ (fun _ _ => ?_)
    | with_reducible refine Keeps.foldl ?_ (fun _ _ _ => ?_)
    | with_reducible refine Keeps.foldlFst ?_ (fun _ _ _ => ?_)
    | with_reducible refine Keeps.foldlSnd ?_ (fun _ _ _ => ?_)
    | with_reducible refine KeepsR.host ?_ (fun _ _ => ?_)
    | (lift_lets; intro x; clear_value x)
    | with_reducible refine Keeps.ofSnd (by assumption) ?_
    | with_reducible refine Keeps.ofFst (by assumption) ?_
    | split

theorem State.streamsReset_keeps {ρ : State} {s : State} {p : Nat} (hk : Keeps ρ s) : Keeps ρ (State.streamsReset s p) := by
  unfold State.streamsReset
  repeat' first
    | with_reducible assumption
    | with_reducible refine KeepsR.next ?_
    | fail_if_no_progress with_reducible refine Keeps.mkK ?_
    | with_reducible refine State.modRing_keeps ?_
    | with_reducible refine State.setStream_keeps ?_
    | with_reducible refine Keeps.doAll ?_ (fun _ _ _ => ?_)

theorem State.videoLine_keeps {ρ : State} {s : State} {p : Nat} {hd : BitVec 128} {payload : List Byte} {good : Bool} {room : Bool} (hk : Keeps ρ s) : Keeps ρ (State.videoLine s p hd payload good room) := by
  unfold State.videoLine
  repeat' first
    | with_reducible assumption
    | with_reducible refine KeepsR.next ?_
    | fail_if_no_progress with_reducible refine Keeps.mkK ?_
    | with_reducible refine State.modRing_keeps ?_
    | with_reducible refine State.modStream_keeps ?_
    | with_reducible refine State.count_keeps ?_
    | with_reducible refine State.raise_keeps ?_
    | with_reducible refine State.stillBreak_keeps ?_
    | with_reducible refine State.closeFrame_keeps ?_
    | with_reducible refine State.openFrame_keeps ?_
    | with_reducible refine State.markLine_keeps ?_
    | with_reducible refine State.takeLine_keeps ?_
    | with_reducible refine State.directIn_keeps ?_
    | with_reducible refine Keeps.doAll ?_ (fun _ _ _ => ?_)
    | with_reducible refine Keeps.doIf ?_ (fun _ _ => ?_)
    | with_reducible refine Keeps.foldl ?_ (fun _ _ _ => ?_)
    | with_reducible refine Keeps.foldlFst ?_ (fun _ _ _ => ?_)
    | with_reducible refine Keeps.foldlSnd ?_ (fun _ _ _ => ?_)
    | with_reducible refine KeepsR.host ?_ (fun _ _ => ?_)
    | (lift_lets; intro x; clear_value x)
    | with_reducible refine Keeps.ofSnd (by assumption) ?_
    | with_reducible refine Keeps.ofFst (by assumption) ?_
    | split
    | dsimp only

theorem execVideoLine_keeps {ρ : State} {p : Fin 2} {header : BitVec 128} {payload : List Byte} {trailer : BitVec 128} {room : Bool} {s : State} (hk : Keeps ρ s) : KeepsR ρ (execVideoLine p header payload trailer room s) := by
  unfold execVideoLine
  repeat' first
    | with_reducible assumption
    | with_reducible refine KeepsR.next ?_
    | fail_if_no_progress with_reducible refine Keeps.mkK ?_
    | with_reducible refine State.headerBlock_keeps ?_
    | with_reducible refine State.videoLine_keeps ?_
    | with_reducible refine Keeps.doAll ?_ (fun _ _ _ => ?_)
    | with_reducible refine Keeps.doIf ?_ (fun _ _ => ?_)
    | with_reducible refine Keeps.foldl ?_ (fun _ _ _ => ?_)
    | with_reducible refine Keeps.foldlFst ?_ (fun _ _ _ => ?_)
    | with_reducible refine Keeps.foldlSnd ?_ (fun _ _ _ => ?_)
    | with_reducible refine KeepsR.host ?_ (fun _ _ => ?_)
    | (lift_lets; intro x; refine Keeps.cut (r := ρ) (x := x) ?_ (fun hx => ?_); (on_goal 1 => dsimp only [x]); (on_goal 2 => clear_value x))
    | with_reducible refine Keeps.ofSnd (by assumption) ?_
    | with_reducible refine Keeps.ofFst (by assumption) ?_
    | split

theorem State.fadeFrame_keeps {ρ : State} {s : State} {b : Nat} (hk : Keeps ρ s) : Keeps ρ (State.fadeFrame s b) := by
  unfold State.fadeFrame
  repeat' first
    | with_reducible assumption
    | with_reducible refine KeepsR.next ?_
    | fail_if_no_progress with_reducible refine Keeps.mkK ?_
    | with_reducible refine State.setBank_keeps ?_
    | with_reducible refine State.modBank_keeps ?_
    | with_reducible refine State.setFld_keeps ?_
    | with_reducible refine Keeps.doAll ?_ (fun _ _ _ => ?_)
    | with_reducible refine Keeps.doIf ?_ (fun _ _ => ?_)
    | with_reducible refine Keeps.foldl ?_ (fun _ _ _ => ?_)
    | with_reducible refine Keeps.foldlFst ?_ (fun _ _ _ => ?_)
    | with_reducible refine Keeps.foldlSnd ?_ (fun _ _ _ => ?_)
    | with_reducible refine KeepsR.host ?_ (fun _ _ => ?_)
    | (lift_lets; intro x; clear_value x)
    | with_reducible refine Keeps.ofSnd (by assumption) ?_
    | with_reducible refine Keeps.ofFst (by assumption) ?_
    | split
    | dsimp only

theorem State.scaleFrame_keeps {ρ : State} {s : State} {b : Nat} (hk : Keeps ρ s) : Keeps ρ (State.scaleFrame s b) := by
  unfold State.scaleFrame
  repeat' first
    | with_reducible assumption
    | with_reducible refine KeepsR.next ?_
    | fail_if_no_progress with_reducible refine Keeps.mkK ?_
    | with_reducible refine State.setFld_keeps ?_
    | with_reducible refine State.setWinner_keeps ?_

theorem State.withEntries_keeps {ρ : State} {s : State} {l : List Entry} (hk : Keeps ρ s) : Keeps ρ (State.withEntries s l) := by
  unfold State.withEntries
  repeat' first
    | with_reducible assumption
    | with_reducible refine KeepsR.next ?_
    | fail_if_no_progress with_reducible refine Keeps.mkK ?_
    | with_reducible refine State.setWord_keeps ?_
    | with_reducible refine Keeps.doAll ?_ (fun _ _ _ => ?_)

theorem State.latchView_keeps {ρ : State} {s : State} {g : Nat} (hk : Keeps ρ s) : Keeps ρ (State.latchView s g) := by
  unfold State.latchView
  repeat' first
    | with_reducible assumption
    | with_reducible refine KeepsR.next ?_
    | fail_if_no_progress with_reducible refine Keeps.mkK ?_
    | with_reducible refine State.withEntries_keeps ?_

theorem State.sendDriver_keeps {ρ : State} {s : State} {v : State} {g : Nat} {tag : Nat} {d : Nat × Nat} (hk : Keeps ρ s) : Keeps ρ (State.sendDriver s v g tag d) := by
  unfold State.sendDriver
  repeat' first
    | with_reducible assumption
    | with_reducible refine KeepsR.next ?_
    | fail_if_no_progress with_reducible refine Keeps.mkK ?_
    | with_reducible refine State.setDriver_keeps ?_
    | with_reducible refine State.resend_keeps ?_
    | with_reducible refine State.busSend_keeps ?_
    | with_reducible refine Keeps.doAll ?_ (fun _ _ _ => ?_)
    | with_reducible refine Keeps.doIf ?_ (fun _ _ => ?_)
    | with_reducible refine Keeps.foldl ?_ (fun _ _ _ => ?_)
    | with_reducible refine Keeps.foldlFst ?_ (fun _ _ _ => ?_)
    | with_reducible refine Keeps.foldlSnd ?_ (fun _ _ _ => ?_)
    | with_reducible refine KeepsR.host ?_ (fun _ _ => ?_)
    | (lift_lets; intro x; clear_value x)
    | with_reducible refine Keeps.ofSnd (by assumption) ?_
    | with_reducible refine Keeps.ofFst (by assumption) ?_
    | split
    | dsimp only

theorem State.sendCodes_keeps {ρ : State} {s : State} {g : Nat} (hk : Keeps ρ s) : Keeps ρ (State.sendCodes s g) := by
  unfold State.sendCodes
  repeat' first
    | with_reducible assumption
    | with_reducible refine KeepsR.next ?_
    | fail_if_no_progress with_reducible refine Keeps.mkK ?_
    | with_reducible refine State.latchView_keeps ?_
    | with_reducible refine State.sendDriver_keeps ?_
    | with_reducible refine Keeps.doAll ?_ (fun _ _ _ => ?_)
    | with_reducible refine Keeps.doIf ?_ (fun _ _ => ?_)
    | with_reducible refine Keeps.foldl ?_ (fun _ _ _ => ?_)
    | with_reducible refine Keeps.foldlFst ?_ (fun _ _ _ => ?_)
    | with_reducible refine Keeps.foldlSnd ?_ (fun _ _ _ => ?_)
    | with_reducible refine KeepsR.host ?_ (fun _ _ => ?_)
    | (lift_lets; intro x; refine Keeps.cut (r := ρ) (x := x) ?_ (fun hx => ?_); (on_goal 1 => dsimp only [x]); (on_goal 2 => clear_value x))
    | with_reducible refine Keeps.ofSnd (by assumption) ?_
    | with_reducible refine Keeps.ofFst (by assumption) ?_
    | split

theorem State.updateWeights_keeps {ρ : State} {s : State} {h : Nat} (hk : Keeps ρ s) : Keeps ρ (State.updateWeights s h) := by
  unfold State.updateWeights
  repeat' first
    | with_reducible assumption
    | with_reducible refine KeepsR.next ?_
    | fail_if_no_progress with_reducible refine Keeps.mkK ?_
    | with_reducible refine State.setFld_keeps ?_
    | with_reducible refine State.setFlag_keeps ?_
    | with_reducible refine Keeps.doAll ?_ (fun _ _ _ => ?_)

theorem State.planeWords_keeps {ρ : State} {s : State} {h : Nat} (hk : Keeps ρ s) : Keeps ρ (State.planeWords s h) := by
  unfold State.planeWords
  repeat' first
    | with_reducible assumption
    | with_reducible refine KeepsR.next ?_
    | fail_if_no_progress with_reducible refine Keeps.mkK ?_
    | with_reducible refine State.setFld_keeps ?_

theorem State.copyView_keeps {ρ : State} {s : State} {h : Nat} {b : Nat} {copy : Nat} (hk : Keeps ρ s) : Keeps ρ (State.copyView s h b copy) := by
  unfold State.copyView
  repeat' first
    | with_reducible assumption
    | with_reducible refine KeepsR.next ?_
    | fail_if_no_progress with_reducible refine Keeps.mkK ?_
    | with_reducible refine State.setWord_keeps ?_
    | with_reducible refine Keeps.doAll ?_ (fun _ _ _ => ?_)
    | with_reducible refine Keeps.doIf ?_ (fun _ _ => ?_)
    | with_reducible refine Keeps.foldl ?_ (fun _ _ _ => ?_)
    | with_reducible refine Keeps.foldlFst ?_ (fun _ _ _ => ?_)
    | with_reducible refine Keeps.foldlSnd ?_ (fun _ _ _ => ?_)
    | with_reducible refine KeepsR.host ?_ (fun _ _ => ?_)
    | with_reducible refine Keeps.ofSnd (by assumption) ?_
    | with_reducible refine Keeps.ofFst (by assumption) ?_
    | split

theorem State.beginBand_keeps {ρ : State} {s : State} {h : Nat} {b : Nat} (hk : Keeps ρ s) : Keeps ρ (State.beginBand s h b) := by
  unfold State.beginBand
  repeat' first
    | with_reducible assumption
    | with_reducible refine KeepsR.next ?_
    | fail_if_no_progress with_reducible refine Keeps.mkK ?_
    | with_reducible refine State.setBandOf_keeps ?_
    | with_reducible refine State.count_keeps ?_
    | with_reducible refine State.raiseOnce_keeps ?_
    | with_reducible refine Keeps.doAll ?_ (fun _ _ _ => ?_)
    | with_reducible refine Keeps.doIf ?_ (fun _ _ => ?_)

theorem State.writeEntry_keeps {ρ : State} {s : State} {h : Nat} {b : Nat} {c : Nat} {r : Nat} {x : Nat} {e : Nat} (hk : Keeps ρ s) : Keeps ρ (State.writeEntry s h b c r x e) := by
  unfold State.writeEntry
  repeat' first
    | with_reducible assumption
    | with_reducible refine KeepsR.next ?_
    | fail_if_no_progress with_reducible refine Keeps.mkK ?_
    | with_reducible refine State.setPlaneBit_keeps ?_
    | with_reducible refine Keeps.doAll ?_ (fun _ _ _ => ?_)

theorem State.padRow_keeps {ρ : State} {s : State} {h : Nat} {b : Nat} {c : Nat} {r : Nat} (hk : Keeps ρ s) : Keeps ρ (State.padRow s h b c r) := by
  unfold State.padRow
  repeat' first
    | with_reducible assumption
    | with_reducible refine KeepsR.next ?_
    | fail_if_no_progress with_reducible refine Keeps.mkK ?_
    | with_reducible refine State.writeEntry_keeps ?_
    | with_reducible refine Keeps.doAll ?_ (fun _ _ _ => ?_)

theorem execThreshPixel_keeps {ρ : State} {h : Fin 4} {x : Nat} {y : Nat} {s : State} (hk : Keeps ρ s) : KeepsR ρ (execThreshPixel h x y s) := by
  unfold execThreshPixel
  repeat' first
    | with_reducible assumption
    | with_reducible refine KeepsR.next ?_
    | fail_if_no_progress with_reducible refine Keeps.mkK ?_
    | with_reducible refine State.beginBand_keeps ?_
    | with_reducible refine State.writeEntry_keeps ?_
    | with_reducible refine State.padRow_keeps ?_
    | with_reducible refine Keeps.doAll ?_ (fun _ _ _ => ?_)
    | with_reducible refine Keeps.doIf ?_ (fun _ _ => ?_)
    | with_reducible refine Keeps.foldl ?_ (fun _ _ _ => ?_)
    | with_reducible refine Keeps.foldlFst ?_ (fun _ _ _ => ?_)
    | with_reducible refine Keeps.foldlSnd ?_ (fun _ _ _ => ?_)
    | with_reducible refine KeepsR.host ?_ (fun _ _ => ?_)
    | (lift_lets; intro x; clear_value x)
    | with_reducible refine Keeps.ofSnd (by assumption) ?_
    | with_reducible refine Keeps.ofFst (by assumption) ?_
    | split
    | dsimp only

theorem execBandCopyReady_keeps {ρ : State} {h : Fin 4} {band : Fin 32} {s : State} (hk : Keeps ρ s) : KeepsR ρ (execBandCopyReady h band s) := by
  unfold execBandCopyReady
  repeat' first
    | with_reducible assumption
    | with_reducible refine KeepsR.next ?_
    | fail_if_no_progress with_reducible refine Keeps.mkK ?_
    | with_reducible refine State.setBandOf_keeps ?_
    | with_reducible refine State.unpoisonRange_keeps ?_
    | with_reducible refine Keeps.doAll ?_ (fun _ _ _ => ?_)
    | with_reducible refine Keeps.doIf ?_ (fun _ _ => ?_)
    | with_reducible refine Keeps.foldl ?_ (fun _ _ _ => ?_)
    | with_reducible refine Keeps.foldlFst ?_ (fun _ _ _ => ?_)
    | with_reducible refine Keeps.foldlSnd ?_ (fun _ _ _ => ?_)
    | with_reducible refine KeepsR.host ?_ (fun _ _ => ?_)
    | (lift_lets; intro x; clear_value x)
    | with_reducible refine Keeps.ofSnd (by assumption) ?_
    | with_reducible refine Keeps.ofFst (by assumption) ?_
    | split

theorem execTsLoadTable_keeps {ρ : State} {m : Fin 8} {s : State} (hk : Keeps ρ s) : KeepsR ρ (execTsLoadTable m s) := by
  unfold execTsLoadTable
  repeat' first
    | with_reducible assumption
    | with_reducible refine KeepsR.next ?_
    | fail_if_no_progress with_reducible refine Keeps.mkK ?_
    | with_reducible refine State.setOutcome_keeps ?_
    | with_reducible refine State.outcome0_keeps ?_
    | with_reducible refine State.withCmd_keeps ?_ (fun _ _ _ => ?_)
    | with_reducible refine State.orElse_keeps ?_ (fun _ _ => ?_)
    | with_reducible refine State.withImage_keeps ?_ (fun _ _ _ => ?_)
    | with_reducible refine Keeps.doAll ?_ (fun _ _ _ => ?_)
    | with_reducible refine Keeps.doIf ?_ (fun _ _ => ?_)
    | with_reducible refine Keeps.foldl ?_ (fun _ _ _ => ?_)
    | with_reducible refine Keeps.foldlFst ?_ (fun _ _ _ => ?_)
    | with_reducible refine Keeps.foldlSnd ?_ (fun _ _ _ => ?_)
    | with_reducible refine KeepsR.host ?_ (fun _ _ => ?_)
    | (lift_lets; intro x; clear_value x)
    | with_reducible refine Keeps.ofSnd (by assumption) ?_
    | with_reducible refine Keeps.ofFst (by assumption) ?_
    | split

end Sys2Proof.Machine
end

