-- ==== Sys2Proof/Laws/KeepsLamps.lean ====
section
/-!
SUPPORT. The relation `Keeps` for the operations of Machine/SheafBase.lean, Machine/Image.lean, Machine/FwBus.lean, Machine/Lamps.lean, Machine/Replay.lean, Machine/Zone.lean, Machine/Cc.lean.
-/

namespace Sys2Proof.Machine

theorem State.swapWords_keeps {ρ : State} {s : State} (hk : Keeps ρ s) : Keeps ρ (State.swapWords s) := by
  unfold State.swapWords
  repeat' first
    | with_reducible assumption
    | with_reducible refine KeepsR.next ?_
    | fail_if_no_progress with_reducible refine Keeps.mkK ?_
    | with_reducible refine State.modHeadOf_keeps ?_
    | with_reducible refine State.setFlag_keeps ?_
    | with_reducible refine Keeps.doAll ?_ (fun _ _ _ => ?_)

theorem State.commandSheafEnd_keeps {ρ : State} {s : State} {n : Nat} {code : Nat} (hk : Keeps ρ s) : Keeps ρ (State.commandSheafEnd s n code) := by
  unfold State.commandSheafEnd
  repeat' first
    | with_reducible assumption
    | with_reducible refine KeepsR.next ?_
    | fail_if_no_progress with_reducible refine Keeps.mkK ?_
    | with_reducible refine State.setSheaf_keeps ?_
    | with_reducible refine State.setOutcome_keeps ?_
    | with_reducible refine Keeps.doAll ?_ (fun _ _ _ => ?_)
    | with_reducible refine Keeps.doIf ?_ (fun _ _ => ?_)
    | with_reducible refine Keeps.foldl ?_ (fun _ _ _ => ?_)
    | with_reducible refine Keeps.foldlFst ?_ (fun _ _ _ => ?_)
    | with_reducible refine Keeps.foldlSnd ?_ (fun _ _ _ => ?_)
    | with_reducible refine KeepsR.host ?_ (fun _ _ => ?_)
    | (lift_lets; intro x; clear_value x)
    | with_reducible refine Keeps.ofSnd (by assumption) ?_
    | with_reducible refine Keeps.ofFst (by assumption) ?_
    | split

theorem State.refuseSheaf_keeps {ρ : State} {s : State} {n : Nat} {code : Nat} {fail : Nat} (hk : Keeps ρ s) : Keeps ρ (State.refuseSheaf s n code fail) := by
  unfold State.refuseSheaf
  repeat' first
    | with_reducible assumption
    | with_reducible refine KeepsR.next ?_
    | fail_if_no_progress with_reducible refine Keeps.mkK ?_
    | with_reducible refine State.modSheaf_keeps ?_
    | with_reducible refine State.raise2_keeps ?_
    | with_reducible refine State.commandSheafEnd_keeps ?_
    | with_reducible refine Keeps.doAll ?_ (fun _ _ _ => ?_)
    | with_reducible refine Keeps.doIf ?_ (fun _ _ => ?_)
    | with_reducible refine Keeps.foldl ?_ (fun _ _ _ => ?_)
    | with_reducible refine Keeps.foldlFst ?_ (fun _ _ _ => ?_)
    | with_reducible refine Keeps.foldlSnd ?_ (fun _ _ _ => ?_)
    | with_reducible refine KeepsR.host ?_ (fun _ _ => ?_)
    | with_reducible refine Keeps.ofSnd (by assumption) ?_
    | with_reducible refine Keeps.ofFst (by assumption) ?_
    | split

theorem State.abortSheaf_keeps {ρ : State} {s : State} {n : Nat} {code : Nat} (hk : Keeps ρ s) : Keeps ρ (State.abortSheaf s n code) := by
  unfold State.abortSheaf
  repeat' first
    | with_reducible assumption
    | with_reducible refine KeepsR.next ?_
    | fail_if_no_progress with_reducible refine Keeps.mkK ?_
    | with_reducible refine State.modSheaf_keeps ?_
    | with_reducible refine State.raise2_keeps ?_
    | with_reducible refine State.sendCodes_keeps ?_
    | with_reducible refine State.swapWords_keeps ?_
    | with_reducible refine State.commandSheafEnd_keeps ?_
    | with_reducible refine Keeps.doAll ?_ (fun _ _ _ => ?_)
    | with_reducible refine Keeps.doIf ?_ (fun _ _ => ?_)

theorem State.completeSheaf_keeps {ρ : State} {s : State} {n : Nat} (hk : Keeps ρ s) : Keeps ρ (State.completeSheaf s n) := by
  unfold State.completeSheaf
  repeat' first
    | with_reducible assumption
    | with_reducible refine KeepsR.next ?_
    | fail_if_no_progress with_reducible refine Keeps.mkK ?_
    | with_reducible refine State.modSheaf_keeps ?_
    | with_reducible refine State.raise_keeps ?_
    | with_reducible refine State.swapWords_keeps ?_
    | with_reducible refine State.commandSheafEnd_keeps ?_

theorem State.abortStopped_keeps {ρ : State} {s : State} (hk : Keeps ρ s) : Keeps ρ (State.abortStopped s) := by
  unfold State.abortStopped
  repeat' first
    | with_reducible assumption
    | with_reducible refine KeepsR.next ?_
    | fail_if_no_progress with_reducible refine Keeps.mkK ?_
    | with_reducible refine State.abortSheaf_keeps ?_
    | with_reducible refine Keeps.doAll ?_ (fun _ _ _ => ?_)
    | with_reducible refine Keeps.doIf ?_ (fun _ _ => ?_)

theorem State.restPhase_keeps {ρ : State} {s : State} (hk : Keeps ρ s) : Keeps ρ (State.restPhase s) := by
  unfold State.restPhase
  repeat' first
    | with_reducible assumption
    | with_reducible refine KeepsR.next ?_
    | fail_if_no_progress with_reducible refine Keeps.mkK ?_
    | with_reducible refine State.setFld_keeps ?_

theorem State.unstage_keeps {ρ : State} {s : State} (hk : Keeps ρ s) : Keeps ρ (State.unstage s) := by
  unfold State.unstage
  repeat' first
    | with_reducible assumption
    | with_reducible refine KeepsR.next ?_
    | fail_if_no_progress with_reducible refine Keeps.mkK ?_
    | with_reducible refine State.setFld_keeps ?_
    | with_reducible refine State.restPhase_keeps ?_

theorem State.loadDriver_keeps {ρ : State} {s : State} {key : Nat} {b : DrvBody} (hk : Keeps ρ s) : Keeps ρ (State.loadDriver s key b) := by
  unfold State.loadDriver
  repeat' first
    | with_reducible assumption
    | with_reducible refine KeepsR.next ?_
    | fail_if_no_progress with_reducible refine Keeps.mkK ?_
    | with_reducible refine State.busSend_keeps ?_
    | with_reducible refine Keeps.doAll ?_ (fun _ _ _ => ?_)

theorem State.fwUpdate_keeps {ρ : State} {s : State} {g : Nat} {tag : Nat} (hk : Keeps ρ s) : Keeps ρ (State.fwUpdate s g tag) := by
  unfold State.fwUpdate
  repeat' first
    | with_reducible assumption
    | with_reducible refine KeepsR.next ?_
    | fail_if_no_progress with_reducible refine Keeps.mkK ?_
    | with_reducible refine State.modDriver_keeps ?_
    | with_reducible refine State.busSend_keeps ?_
    | with_reducible refine Keeps.doAll ?_ (fun _ _ _ => ?_)
    | with_reducible refine Keeps.doIf ?_ (fun _ _ => ?_)
    | with_reducible refine Keeps.foldl ?_ (fun _ _ _ => ?_)
    | with_reducible refine Keeps.foldlFst ?_ (fun _ _ _ => ?_)
    | with_reducible refine Keeps.foldlSnd ?_ (fun _ _ _ => ?_)
    | with_reducible refine KeepsR.host ?_ (fun _ _ => ?_)
    | (lift_lets; intro x; clear_value x)
    | with_reducible refine Keeps.ofSnd (by assumption) ?_
    | with_reducible refine Keeps.ofFst (by assumption) ?_
    | split

theorem State.fwLatch_keeps {ρ : State} {s : State} {g : Nat} {tag : Nat} (hk : Keeps ρ s) : Keeps ρ (State.fwLatch s g tag) := by
  unfold State.fwLatch
  repeat' first
    | with_reducible assumption
    | with_reducible refine KeepsR.next ?_
    | fail_if_no_progress with_reducible refine Keeps.mkK ?_
    | with_reducible refine State.modDriver_keeps ?_
    | with_reducible refine State.busSend_keeps ?_
    | with_reducible refine Keeps.doAll ?_ (fun _ _ _ => ?_)

theorem State.trip_keeps {ρ : State} {s : State} {b : Nat} (hk : Keeps ρ s) : Keeps ρ (State.trip s b) := by
  unfold State.trip
  repeat' first
    | with_reducible assumption
    | with_reducible refine KeepsR.next ?_
    | fail_if_no_progress with_reducible refine Keeps.mkK ?_
    | with_reducible refine State.modBank_keeps ?_
    | with_reducible refine State.setFld_keeps ?_
    | with_reducible refine State.raise_keeps ?_
    | with_reducible refine State.lowOuts_keeps ?_
    | with_reducible refine State.busSend_keeps ?_
    | with_reducible refine Keeps.doAll ?_ (fun _ _ _ => ?_)

theorem State.strFault_keeps {ρ : State} {s : State} {n : Nat} {st : Nat} (hk : Keeps ρ s) : Keeps ρ (State.strFault s n st) := by
  unfold State.strFault
  repeat' first
    | with_reducible assumption
    | with_reducible refine KeepsR.next ?_
    | fail_if_no_progress with_reducible refine Keeps.mkK ?_
    | with_reducible refine State.modStr_keeps ?_
    | with_reducible refine State.setFld_keeps ?_
    | with_reducible refine State.count_keeps ?_
    | with_reducible refine State.raise2_keeps ?_
    | with_reducible refine State.lowOuts_keeps ?_
    | with_reducible refine State.sendCodes_keeps ?_
    | with_reducible refine State.trip_keeps ?_
    | with_reducible refine Keeps.doAll ?_ (fun _ _ _ => ?_)
    | with_reducible refine Keeps.doIf ?_ (fun _ _ => ?_)
    | with_reducible refine Keeps.foldl ?_ (fun _ _ _ => ?_)
    | with_reducible refine Keeps.foldlFst ?_ (fun _ _ _ => ?_)
    | with_reducible refine Keeps.foldlSnd ?_ (fun _ _ _ => ?_)
    | with_reducible refine KeepsR.host ?_ (fun _ _ => ?_)
    | (lift_lets; intro x; clear_value x)
    | with_reducible refine Keeps.ofSnd (by assumption) ?_
    | with_reducible refine Keeps.ofFst (by assumption) ?_
    | split

theorem State.strEnter_keeps {ρ : State} {s : State} {n : Nat} {st : Nat} (hk : Keeps ρ s) : Keeps ρ (State.strEnter s n st) := by
  unfold State.strEnter
  repeat' first
    | with_reducible assumption
    | with_reducible refine KeepsR.next ?_
    | fail_if_no_progress with_reducible refine Keeps.mkK ?_
    | with_reducible refine State.setFld_keeps ?_
    | with_reducible refine State.strFault_keeps ?_
    | with_reducible refine Keeps.doAll ?_ (fun _ _ _ => ?_)
    | with_reducible refine Keeps.doIf ?_ (fun _ _ => ?_)
    | with_reducible refine Keeps.foldl ?_ (fun _ _ _ => ?_)
    | with_reducible refine Keeps.foldlFst ?_ (fun _ _ _ => ?_)
    | with_reducible refine Keeps.foldlSnd ?_ (fun _ _ _ => ?_)
    | with_reducible refine KeepsR.host ?_ (fun _ _ => ?_)
    | with_reducible refine Keeps.ofSnd (by assumption) ?_
    | with_reducible refine Keeps.ofFst (by assumption) ?_
    | split

theorem State.kindSample_keeps {ρ : State} {s : State} {n : Nat} {kind : Nat} {bad : Bool} (hk : Keeps ρ s) : Keeps ρ (State.kindSample s n kind bad) := by
  unfold State.kindSample
  repeat' first
    | with_reducible assumption
    | with_reducible refine KeepsR.next ?_
    | fail_if_no_progress with_reducible refine Keeps.mkK ?_
    | with_reducible refine State.modStr_keeps ?_
    | with_reducible refine State.strFault_keeps ?_
    | with_reducible refine Keeps.doAll ?_ (fun _ _ _ => ?_)
    | with_reducible refine Keeps.doIf ?_ (fun _ _ => ?_)

theorem State.goodSample_keeps {ρ : State} {s : State} {n : Nat} (hk : Keeps ρ s) : Keeps ρ (State.goodSample s n) := by
  unfold State.goodSample
  repeat' first
    | with_reducible assumption
    | with_reducible refine KeepsR.next ?_
    | fail_if_no_progress with_reducible refine Keeps.mkK ?_
    | with_reducible refine State.setFld_keeps ?_

theorem execDiagnosisSample_keeps {ρ : State} {n : Fin 64} {code : BitVec 12} {s : State} (hk : Keeps ρ s) : KeepsR ρ (execDiagnosisSample n code s) := by
  unfold execDiagnosisSample
  repeat' first
    | with_reducible assumption
    | with_reducible refine KeepsR.next ?_
    | fail_if_no_progress with_reducible refine Keeps.mkK ?_
    | with_reducible refine State.modStr_keeps ?_
    | with_reducible refine State.setFld_keeps ?_
    | with_reducible refine State.kindSample_keeps ?_
    | with_reducible refine State.goodSample_keeps ?_
    | with_reducible refine Keeps.doAll ?_ (fun _ _ _ => ?_)
    | with_reducible refine Keeps.doIf ?_ (fun _ _ => ?_)
    | with_reducible refine Keeps.foldl ?_ (fun _ _ _ => ?_)
    | with_reducible refine Keeps.foldlFst ?_ (fun _ _ _ => ?_)
    | with_reducible refine Keeps.foldlSnd ?_ (fun _ _ _ => ?_)
    | with_reducible refine KeepsR.host ?_ (fun _ _ => ?_)
    | (lift_lets; intro x; clear_value x)
    | with_reducible refine Keeps.ofSnd (by assumption) ?_
    | with_reducible refine Keeps.ofFst (by assumption) ?_
    | split

theorem State.classify_keeps {ρ : State} {s : State} {h : Nat} (hk : Keeps ρ s) : Keeps ρ (State.classify s h) := by
  unfold State.classify
  repeat' first
    | with_reducible assumption
    | with_reducible refine KeepsR.next ?_
    | fail_if_no_progress with_reducible refine Keeps.mkK ?_
    | with_reducible refine State.modStr_keeps ?_
    | with_reducible refine State.setFlag_keeps ?_
    | with_reducible refine State.raise_keeps ?_
    | with_reducible refine Keeps.doAll ?_ (fun _ _ _ => ?_)
    | with_reducible refine Keeps.doIf ?_ (fun _ _ => ?_)
    | with_reducible refine Keeps.foldl ?_ (fun _ _ _ => ?_)
    | with_reducible refine Keeps.foldlFst ?_ (fun _ _ _ => ?_)
    | with_reducible refine Keeps.foldlSnd ?_ (fun _ _ _ => ?_)
    | with_reducible refine KeepsR.host ?_ (fun _ _ => ?_)
    | (lift_lets; intro x; clear_value x)
    | with_reducible refine Keeps.ofSnd (by assumption) ?_
    | with_reducible refine Keeps.ofFst (by assumption) ?_
    | split
    | dsimp only

theorem State.vmodeRead_keeps {ρ : State} {s : State} {b : Nat} (hk : Keeps ρ s) : Keeps ρ (State.vmodeRead s b) := by
  unfold State.vmodeRead
  repeat' first
    | with_reducible assumption
    | with_reducible refine KeepsR.next ?_
    | fail_if_no_progress with_reducible refine Keeps.mkK ?_
    | with_reducible refine State.emit_keeps ?_

theorem State.vbusRequest_keeps {ρ : State} {s : State} {b : Nat} {mv : Nat} (hk : Keeps ρ s) : Keeps ρ (State.vbusRequest s b mv) := by
  unfold State.vbusRequest
  repeat' first
    | with_reducible assumption
    | with_reducible refine KeepsR.next ?_
    | fail_if_no_progress with_reducible refine Keeps.mkK ?_
    | with_reducible refine State.setFld_keeps ?_
    | with_reducible refine State.emit_keeps ?_

theorem execPmbusTransactionFail_keeps {ρ : State} {b : Fin 8} {s : State} (hk : Keeps ρ s) : KeepsR ρ (execPmbusTransactionFail b s) := by
  unfold execPmbusTransactionFail
  repeat' first
    | with_reducible assumption
    | with_reducible refine KeepsR.next ?_
    | fail_if_no_progress with_reducible refine Keeps.mkK ?_
    | with_reducible refine State.modBank_keeps ?_
    | with_reducible refine State.setFld_keeps ?_
    | with_reducible refine State.raise_keeps ?_
    | with_reducible refine Keeps.doAll ?_ (fun _ _ _ => ?_)
    | with_reducible refine Keeps.doIf ?_ (fun _ _ => ?_)
    | with_reducible refine Keeps.foldl ?_ (fun _ _ _ => ?_)
    | with_reducible refine Keeps.foldlFst ?_ (fun _ _ _ => ?_)
    | with_reducible refine Keeps.foldlSnd ?_ (fun _ _ _ => ?_)
    | with_reducible refine KeepsR.host ?_ (fun _ _ => ?_)
    | (lift_lets; intro x; refine Keeps.cut (r := ρ) (x := x) ?_ (fun hx => ?_); (on_goal 1 => dsimp only [x]); (on_goal 2 => clear_value x))
    | with_reducible refine Keeps.ofSnd (by assumption) ?_
    | with_reducible refine Keeps.ofFst (by assumption) ?_
    | split

theorem State.roundDone_keeps {ρ : State} {s : State} {b : Nat} (hk : Keeps ρ s) : Keeps ρ (State.roundDone s b) := by
  unfold State.roundDone
  repeat' first
    | with_reducible assumption
    | with_reducible refine KeepsR.next ?_
    | fail_if_no_progress with_reducible refine Keeps.mkK ?_
    | with_reducible refine State.modBank_keeps ?_
    | with_reducible refine State.setFld_keeps ?_
    | with_reducible refine State.setFlag_keeps ?_
    | with_reducible refine State.raise_keeps ?_
    | with_reducible refine State.vbusRequest_keeps ?_
    | with_reducible refine State.answered_keeps ?_
    | with_reducible refine State.retry_keeps ?_
    | with_reducible refine Keeps.doAll ?_ (fun _ _ _ => ?_)
    | with_reducible refine Keeps.doIf ?_ (fun _ _ => ?_)
    | with_reducible refine Keeps.foldl ?_ (fun _ _ _ => ?_)
    | with_reducible refine Keeps.foldlFst ?_ (fun _ _ _ => ?_)
    | with_reducible refine Keeps.foldlSnd ?_ (fun _ _ _ => ?_)
    | with_reducible refine KeepsR.host ?_ (fun _ _ => ?_)
    | with_reducible refine Keeps.ofSnd (by assumption) ?_
    | with_reducible refine Keeps.ofFst (by assumption) ?_
    | split

theorem State.answered_keeps {ρ : State} {s : State} {p : Nat} {addr : Nat} (hk : Keeps ρ s) : Keeps ρ (State.answered s p addr) := by
  unfold State.answered
  repeat' first
    | with_reducible assumption
    | with_reducible refine KeepsR.next ?_
    | fail_if_no_progress with_reducible refine Keeps.mkK ?_
    | with_reducible refine State.modBank_keeps ?_
    | with_reducible refine State.roundDone_keeps ?_
    | with_reducible refine Keeps.doAll ?_ (fun _ _ _ => ?_)
    | with_reducible refine Keeps.doIf ?_ (fun _ _ => ?_)
    | with_reducible refine Keeps.foldl ?_ (fun _ _ _ => ?_)
    | with_reducible refine Keeps.foldlFst ?_ (fun _ _ _ => ?_)
    | with_reducible refine Keeps.foldlSnd ?_ (fun _ _ _ => ?_)
    | with_reducible refine KeepsR.host ?_ (fun _ _ => ?_)
    | (lift_lets; intro x; clear_value x)
    | with_reducible refine Keeps.ofSnd (by assumption) ?_
    | with_reducible refine Keeps.ofFst (by assumption) ?_
    | split
    | dsimp only

theorem State.telemString_keeps {ρ : State} {s : State} {n : Nat} {temp : Nat} {hm : Nat} {fb : Nat} (hk : Keeps ρ s) : Keeps ρ (State.telemString s n temp hm fb) := by
  unfold State.telemString
  repeat' first
    | with_reducible assumption
    | with_reducible refine KeepsR.next ?_
    | fail_if_no_progress with_reducible refine Keeps.mkK ?_
    | with_reducible refine State.setFld_keeps ?_
    | with_reducible refine State.strEnter_keeps ?_
    | with_reducible refine State.kindSample_keeps ?_
    | with_reducible refine Keeps.doAll ?_ (fun _ _ _ => ?_)
    | with_reducible refine Keeps.doIf ?_ (fun _ _ => ?_)
    | with_reducible refine Keeps.foldl ?_ (fun _ _ _ => ?_)
    | with_reducible refine Keeps.foldlFst ?_ (fun _ _ _ => ?_)
    | with_reducible refine Keeps.foldlSnd ?_ (fun _ _ _ => ?_)
    | with_reducible refine KeepsR.host ?_ (fun _ _ => ?_)
    | (lift_lets; intro x; clear_value x)
    | with_reducible refine Keeps.ofSnd (by assumption) ?_
    | with_reducible refine Keeps.ofFst (by assumption) ?_
    | split
    | dsimp only

theorem State.driverBack_keeps {ρ : State} {s : State} {p : Nat} {addr : Nat} (hk : Keeps ρ s) : Keeps ρ (State.driverBack s p addr) := by
  unfold State.driverBack
  repeat' first
    | with_reducible assumption
    | with_reducible refine KeepsR.next ?_
    | fail_if_no_progress with_reducible refine Keeps.mkK ?_
    | with_reducible refine State.modStr_keeps ?_
    | with_reducible refine State.modDriver_keeps ?_
    | with_reducible refine State.setFld_keeps ?_
    | with_reducible refine State.resend_keeps ?_
    | with_reducible refine Keeps.doAll ?_ (fun _ _ _ => ?_)
    | with_reducible refine Keeps.doIf ?_ (fun _ _ => ?_)
    | with_reducible refine Keeps.foldl ?_ (fun _ _ _ => ?_)
    | with_reducible refine Keeps.foldlFst ?_ (fun _ _ _ => ?_)
    | with_reducible refine Keeps.foldlSnd ?_ (fun _ _ _ => ?_)
    | with_reducible refine KeepsR.host ?_ (fun _ _ => ?_)
    | (lift_lets; intro x; refine Keeps.cut (r := ρ) (x := x) ?_ (fun hx => ?_); (on_goal 1 => dsimp only [x]); (on_goal 2 => clear_value x))
    | with_reducible refine Keeps.ofSnd (by assumption) ?_
    | with_reducible refine Keeps.ofFst (by assumption) ?_
    | split

theorem State.latchCheck_keeps {ρ : State} {s : State} {p : Nat} {addr : Nat} {tag : Nat} (hk : Keeps ρ s) : Keeps ρ (State.latchCheck s p addr tag) := by
  unfold State.latchCheck
  repeat' first
    | with_reducible assumption
    | with_reducible refine KeepsR.next ?_
    | fail_if_no_progress with_reducible refine Keeps.mkK ?_
    | with_reducible refine State.modDriver_keeps ?_
    | with_reducible refine State.count_keeps ?_
    | with_reducible refine State.raise2_keeps ?_
    | with_reducible refine State.resend_keeps ?_
    | with_reducible refine Keeps.doAll ?_ (fun _ _ _ => ?_)
    | with_reducible refine Keeps.doIf ?_ (fun _ _ => ?_)
    | with_reducible refine Keeps.foldl ?_ (fun _ _ _ => ?_)
    | with_reducible refine Keeps.foldlFst ?_ (fun _ _ _ => ?_)
    | with_reducible refine Keeps.foldlSnd ?_ (fun _ _ _ => ?_)
    | with_reducible refine KeepsR.host ?_ (fun _ _ => ?_)
    | with_reducible refine Keeps.ofSnd (by assumption) ?_
    | with_reducible refine Keeps.ofFst (by assumption) ?_
    | split

theorem State.telemReport_keeps {ρ : State} {s : State} {p : Nat} {addr : Nat} {pl : List Byte} (hk : Keeps ρ s) : Keeps ρ (State.telemReport s p addr pl) := by
  unfold State.telemReport
  repeat' first
    | with_reducible assumption
    | with_reducible refine KeepsR.next ?_
    | fail_if_no_progress with_reducible refine Keeps.mkK ?_
    | with_reducible refine State.answered_keeps ?_
    | with_reducible refine State.telemString_keeps ?_
    | with_reducible refine State.driverBack_keeps ?_
    | with_reducible refine State.latchCheck_keeps ?_
    | with_reducible refine Keeps.doAll ?_ (fun _ _ _ => ?_)
    | with_reducible refine Keeps.doIf ?_ (fun _ _ => ?_)
    | with_reducible refine Keeps.foldl ?_ (fun _ _ _ => ?_)
    | with_reducible refine Keeps.foldlFst ?_ (fun _ _ _ => ?_)
    | with_reducible refine Keeps.foldlSnd ?_ (fun _ _ _ => ?_)
    | with_reducible refine KeepsR.host ?_ (fun _ _ => ?_)
    | (lift_lets; intro x; clear_value x)
    | with_reducible refine Keeps.ofSnd (by assumption) ?_
    | with_reducible refine Keeps.ofFst (by assumption) ?_
    | split

theorem State.stringsComms_keeps {ρ : State} {s : State} {p : Nat} {addr : Nat} (hk : Keeps ρ s) : Keeps ρ (State.stringsComms s p addr) := by
  unfold State.stringsComms
  repeat' first
    | with_reducible assumption
    | with_reducible refine KeepsR.next ?_
    | fail_if_no_progress with_reducible refine Keeps.mkK ?_
    | with_reducible refine State.modDriver_keeps ?_
    | with_reducible refine State.resend_keeps ?_
    | with_reducible refine State.withEntries_keeps ?_
    | with_reducible refine State.abortSheaf_keeps ?_
    | with_reducible refine State.strEnter_keeps ?_
    | with_reducible refine State.answered_keeps ?_
    | with_reducible refine Keeps.doAll ?_ (fun _ _ _ => ?_)

theorem State.bankEnable_keeps {ρ : State} {s : State} {b : Nat} (hk : Keeps ρ s) : Keeps ρ (State.bankEnable s b) := by
  unfold State.bankEnable
  repeat' first
    | with_reducible assumption
    | with_reducible refine KeepsR.next ?_
    | fail_if_no_progress with_reducible refine Keeps.mkK ?_
    | with_reducible refine State.setStr_keeps ?_
    | with_reducible refine State.setBank_keeps ?_
    | with_reducible refine State.modBank_keeps ?_
    | with_reducible refine State.setFld_keeps ?_
    | with_reducible refine State.rebuildEff_keeps ?_
    | with_reducible refine State.busSend_keeps ?_
    | with_reducible refine State.vmodeRead_keeps ?_
    | with_reducible refine State.vbusRequest_keeps ?_
    | with_reducible refine Keeps.doAll ?_ (fun _ _ _ => ?_)

theorem State.bankDisable_keeps {ρ : State} {s : State} {b : Nat} (hk : Keeps ρ s) : Keeps ρ (State.bankDisable s b) := by
  unfold State.bankDisable
  repeat' first
    | with_reducible assumption
    | with_reducible refine KeepsR.next ?_
    | fail_if_no_progress with_reducible refine Keeps.mkK ?_
    | with_reducible refine State.setFld_keeps ?_
    | with_reducible refine State.lowOuts_keeps ?_
    | with_reducible refine Keeps.doAll ?_ (fun _ _ _ => ?_)

theorem State.strSync_keeps {ρ : State} {s : State} {n : Nat} (hk : Keeps ρ s) : Keeps ρ (State.strSync s n) := by
  unfold State.strSync
  repeat' first
    | with_reducible assumption
    | with_reducible refine KeepsR.next ?_
    | fail_if_no_progress with_reducible refine Keeps.mkK ?_
    | with_reducible refine State.setStr_keeps ?_
    | with_reducible refine State.setFld_keeps ?_
    | with_reducible refine State.lowOuts_keeps ?_
    | with_reducible refine Keeps.doAll ?_ (fun _ _ _ => ?_)
    | with_reducible refine Keeps.doIf ?_ (fun _ _ => ?_)
    | with_reducible refine Keeps.foldl ?_ (fun _ _ _ => ?_)
    | with_reducible refine Keeps.foldlFst ?_ (fun _ _ _ => ?_)
    | with_reducible refine Keeps.foldlSnd ?_ (fun _ _ _ => ?_)
    | with_reducible refine KeepsR.host ?_ (fun _ _ => ?_)
    | with_reducible refine Keeps.ofSnd (by assumption) ?_
    | with_reducible refine Keeps.ofFst (by assumption) ?_
    | split

theorem State.strClear_keeps {ρ : State} {s : State} {n : Nat} (hk : Keeps ρ s) : Keeps ρ (State.strClear s n) := by
  unfold State.strClear
  repeat' first
    | with_reducible assumption
    | with_reducible refine KeepsR.next ?_
    | fail_if_no_progress with_reducible refine Keeps.mkK ?_
    | with_reducible refine State.modStr_keeps ?_
    | with_reducible refine Keeps.doAll ?_ (fun _ _ _ => ?_)
    | with_reducible refine Keeps.doIf ?_ (fun _ _ => ?_)
    | with_reducible refine Keeps.foldl ?_ (fun _ _ _ => ?_)
    | with_reducible refine Keeps.foldlFst ?_ (fun _ _ _ => ?_)
    | with_reducible refine Keeps.foldlSnd ?_ (fun _ _ _ => ?_)
    | with_reducible refine KeepsR.host ?_ (fun _ _ => ?_)
    | with_reducible refine Keeps.ofSnd (by assumption) ?_
    | with_reducible refine Keeps.ofFst (by assumption) ?_
    | split

theorem State.rearm_keeps {ρ : State} {s : State} {b : Nat} (hk : Keeps ρ s) : Keeps ρ (State.rearm s b) := by
  unfold State.rearm
  repeat' first
    | with_reducible assumption
    | with_reducible refine KeepsR.next ?_
    | fail_if_no_progress with_reducible refine Keeps.mkK ?_
    | with_reducible refine State.setFld_keeps ?_
    | with_reducible refine Keeps.doAll ?_ (fun _ _ _ => ?_)
    | with_reducible refine Keeps.doIf ?_ (fun _ _ => ?_)
    | with_reducible refine Keeps.foldl ?_ (fun _ _ _ => ?_)
    | with_reducible refine Keeps.foldlFst ?_ (fun _ _ _ => ?_)
    | with_reducible refine Keeps.foldlSnd ?_ (fun _ _ _ => ?_)
    | with_reducible refine KeepsR.host ?_ (fun _ _ => ?_)
    | with_reducible refine Keeps.ofSnd (by assumption) ?_
    | with_reducible refine Keeps.ofFst (by assumption) ?_
    | split

theorem State.fadeWrite_keeps {ρ : State} {s : State} {b : Nat} {cmd : Nat} (hk : Keeps ρ s) : Keeps ρ (State.fadeWrite s b cmd) := by
  unfold State.fadeWrite
  repeat' first
    | with_reducible assumption
    | with_reducible refine KeepsR.next ?_
    | fail_if_no_progress with_reducible refine Keeps.mkK ?_
    | with_reducible refine State.modBank_keeps ?_
    | with_reducible refine Keeps.doAll ?_ (fun _ _ _ => ?_)
    | with_reducible refine Keeps.doIf ?_ (fun _ _ => ?_)
    | with_reducible refine Keeps.foldl ?_ (fun _ _ _ => ?_)
    | with_reducible refine Keeps.foldlFst ?_ (fun _ _ _ => ?_)
    | with_reducible refine Keeps.foldlSnd ?_ (fun _ _ _ => ?_)
    | with_reducible refine KeepsR.host ?_ (fun _ _ => ?_)
    | with_reducible refine Keeps.ofSnd (by assumption) ?_
    | with_reducible refine Keeps.ofFst (by assumption) ?_
    | split

theorem State.strFrame_keeps {ρ : State} {s : State} {b : Nat} {f : Nat} {n : Nat} (hk : Keeps ρ s) : Keeps ρ (State.strFrame s b f n) := by
  unfold State.strFrame
  repeat' first
    | with_reducible assumption
    | with_reducible refine KeepsR.next ?_
    | fail_if_no_progress with_reducible refine Keeps.mkK ?_
    | with_reducible refine State.setStr_keeps ?_
    | with_reducible refine State.modStr_keeps ?_
    | with_reducible refine State.setFld_keeps ?_
    | with_reducible refine Keeps.doAll ?_ (fun _ _ _ => ?_)
    | with_reducible refine Keeps.doIf ?_ (fun _ _ => ?_)

theorem State.effFrame_keeps {ρ : State} {s : State} {b : Nat} (hk : Keeps ρ s) : Keeps ρ (State.effFrame s b) := by
  unfold State.effFrame
  repeat' first
    | with_reducible assumption
    | with_reducible refine KeepsR.next ?_
    | fail_if_no_progress with_reducible refine Keeps.mkK ?_
    | with_reducible refine State.rebuildEff_keeps ?_
    | with_reducible refine State.updateWeights_keeps ?_
    | with_reducible refine Keeps.doAll ?_ (fun _ _ _ => ?_)
    | with_reducible refine Keeps.doIf ?_ (fun _ _ => ?_)

theorem State.bankFrame_keeps {ρ : State} {s : State} {b : Nat} (hk : Keeps ρ s) : Keeps ρ (State.bankFrame s b) := by
  unfold State.bankFrame
  repeat' first
    | with_reducible assumption
    | with_reducible refine KeepsR.next ?_
    | fail_if_no_progress with_reducible refine Keeps.mkK ?_
    | with_reducible refine State.fadeFrame_keeps ?_
    | with_reducible refine State.scaleFrame_keeps ?_
    | with_reducible refine State.strFrame_keeps ?_
    | with_reducible refine State.effFrame_keeps ?_
    | with_reducible refine Keeps.doAll ?_ (fun _ _ _ => ?_)

theorem State.updateFrame_keeps {ρ : State} {s : State} {g : Nat} (hk : Keeps ρ s) : Keeps ρ (State.updateFrame s g) := by
  unfold State.updateFrame
  repeat' first
    | with_reducible assumption
    | with_reducible refine KeepsR.next ?_
    | fail_if_no_progress with_reducible refine Keeps.mkK ?_
    | with_reducible refine State.modGroup_keeps ?_
    | with_reducible refine State.modSheaf_keeps ?_
    | with_reducible refine State.drawTag_keeps ?_
    | with_reducible refine State.sendCodes_keeps ?_
    | with_reducible refine State.fwUpdate_keeps ?_
    | with_reducible refine Keeps.doAll ?_ (fun _ _ _ => ?_)
    | with_reducible refine Keeps.doIf ?_ (fun _ _ => ?_)
    | with_reducible refine Keeps.foldl ?_ (fun _ _ _ => ?_)
    | with_reducible refine Keeps.foldlFst ?_ (fun _ _ _ => ?_)
    | with_reducible refine Keeps.foldlSnd ?_ (fun _ _ _ => ?_)
    | with_reducible refine KeepsR.host ?_ (fun _ _ => ?_)
    | (lift_lets; intro x; refine Keeps.cut (r := ρ) (x := x) ?_ (fun hx => ?_); (on_goal 1 => dsimp only [x]); (on_goal 2 => clear_value x))
    | with_reducible refine Keeps.ofSnd (by assumption) ?_
    | with_reducible refine Keeps.ofFst (by assumption) ?_
    | split

theorem State.latchDriver_keeps {ρ : State} {s : State} {tag : Nat} {key : Nat} (hk : Keeps ρ s) : Keeps ρ (State.latchDriver s tag key) := by
  unfold State.latchDriver
  repeat' first
    | with_reducible assumption
    | with_reducible refine KeepsR.next ?_
    | fail_if_no_progress with_reducible refine Keeps.mkK ?_
    | with_reducible refine State.setDriver_keeps ?_
    | with_reducible refine State.setFld_keeps ?_
    | with_reducible refine Keeps.doAll ?_ (fun _ _ _ => ?_)
    | with_reducible refine Keeps.doIf ?_ (fun _ _ => ?_)
    | with_reducible refine Keeps.foldl ?_ (fun _ _ _ => ?_)
    | with_reducible refine Keeps.foldlFst ?_ (fun _ _ _ => ?_)
    | with_reducible refine Keeps.foldlSnd ?_ (fun _ _ _ => ?_)
    | with_reducible refine KeepsR.host ?_ (fun _ _ => ?_)
    | (lift_lets; intro x; clear_value x)
    | with_reducible refine Keeps.ofSnd (by assumption) ?_
    | with_reducible refine Keeps.ofFst (by assumption) ?_
    | split

theorem execLatchAll_keeps {ρ : State} {g : Fin 4} {s : State} (hk : Keeps ρ s) : KeepsR ρ (execLatchAll g s) := by
  unfold execLatchAll
  repeat' first
    | with_reducible assumption
    | with_reducible refine KeepsR.next ?_
    | fail_if_no_progress with_reducible refine Keeps.mkK ?_
    | with_reducible refine State.modGroup_keeps ?_
    | with_reducible refine State.modDbPort_keeps ?_
    | with_reducible refine State.modSheaf_keeps ?_
    | with_reducible refine State.count_keeps ?_
    | with_reducible refine State.emit_keeps ?_
    | with_reducible refine State.busCast_keeps ?_
    | with_reducible refine State.latchView_keeps ?_
    | with_reducible refine State.fwLatch_keeps ?_
    | with_reducible refine State.latchDriver_keeps ?_
    | with_reducible refine Keeps.doAll ?_ (fun _ _ _ => ?_)
    | with_reducible refine Keeps.doIf ?_ (fun _ _ => ?_)
    | with_reducible refine Keeps.foldl ?_ (fun _ _ _ => ?_)
    | with_reducible refine Keeps.foldlFst ?_ (fun _ _ _ => ?_)
    | with_reducible refine Keeps.foldlSnd ?_ (fun _ _ _ => ?_)
    | with_reducible refine KeepsR.host ?_ (fun _ _ => ?_)
    | (lift_lets; intro x; refine Keeps.cut (r := ρ) (x := x) ?_ (fun hx => ?_); (on_goal 1 => dsimp only [x]); (on_goal 2 => clear_value x))
    | (lift_lets; intro x; clear_value x)
    | with_reducible refine Keeps.ofSnd (by assumption) ?_
    | with_reducible refine Keeps.ofFst (by assumption) ?_
    | split
    | dsimp only

theorem State.setZone_keeps {ρ : State} {s : State} {c : Nat} {st : Nat} (hk : Keeps ρ s) : Keeps ρ (State.setZone s c st) := by
  unfold State.setZone
  repeat' first
    | with_reducible assumption
    | with_reducible refine KeepsR.next ?_
    | fail_if_no_progress with_reducible refine Keeps.mkK ?_
    | with_reducible refine State.setFld_keeps ?_
    | with_reducible refine Keeps.doAll ?_ (fun _ _ _ => ?_)
    | with_reducible refine Keeps.doIf ?_ (fun _ _ => ?_)
    | with_reducible refine Keeps.foldl ?_ (fun _ _ _ => ?_)
    | with_reducible refine Keeps.foldlFst ?_ (fun _ _ _ => ?_)
    | with_reducible refine Keeps.foldlSnd ?_ (fun _ _ _ => ?_)
    | with_reducible refine KeepsR.host ?_ (fun _ _ => ?_)
    | (lift_lets; intro x; refine Keeps.cut (r := ρ) (x := x) ?_ (fun hx => ?_); (on_goal 1 => dsimp only [x]); (on_goal 2 => clear_value x))
    | (lift_lets; intro x; clear_value x)
    | with_reducible refine Keeps.ofSnd (by assumption) ?_
    | with_reducible refine Keeps.ofFst (by assumption) ?_
    | split
    | dsimp only

theorem State.zoneFault_keeps {ρ : State} {s : State} {c : Nat} {st : Nat} (hk : Keeps ρ s) : Keeps ρ (State.zoneFault s c st) := by
  unfold State.zoneFault
  repeat' first
    | with_reducible assumption
    | with_reducible refine KeepsR.next ?_
    | fail_if_no_progress with_reducible refine Keeps.mkK ?_
    | with_reducible refine State.setZone_keeps ?_
    | with_reducible refine Keeps.doAll ?_ (fun _ _ _ => ?_)
    | with_reducible refine Keeps.doIf ?_ (fun _ _ => ?_)
    | with_reducible refine Keeps.foldl ?_ (fun _ _ _ => ?_)
    | with_reducible refine Keeps.foldlFst ?_ (fun _ _ _ => ?_)
    | with_reducible refine Keeps.foldlSnd ?_ (fun _ _ _ => ?_)
    | with_reducible refine KeepsR.host ?_ (fun _ _ => ?_)
    | (lift_lets; intro x; refine Keeps.cut (r := ρ) (x := x) ?_ (fun hx => ?_); (on_goal 1 => dsimp only [x]); (on_goal 2 => clear_value x))
    | with_reducible refine Keeps.ofSnd (by assumption) ?_
    | with_reducible refine Keeps.ofFst (by assumption) ?_
    | split

theorem State.zoneEnter_keeps {ρ : State} {s : State} {c : Nat} {st : Nat} (hk : Keeps ρ s) : Keeps ρ (State.zoneEnter s c st) := by
  unfold State.zoneEnter
  repeat' first
    | with_reducible assumption
    | with_reducible refine KeepsR.next ?_
    | fail_if_no_progress with_reducible refine Keeps.mkK ?_
    | with_reducible refine State.setZone_keeps ?_
    | with_reducible refine State.zoneFault_keeps ?_
    | with_reducible refine Keeps.doAll ?_ (fun _ _ _ => ?_)
    | with_reducible refine Keeps.doIf ?_ (fun _ _ => ?_)
    | with_reducible refine Keeps.foldl ?_ (fun _ _ _ => ?_)
    | with_reducible refine Keeps.foldlFst ?_ (fun _ _ _ => ?_)
    | with_reducible refine Keeps.foldlSnd ?_ (fun _ _ _ => ?_)
    | with_reducible refine KeepsR.host ?_ (fun _ _ => ?_)
    | with_reducible refine Keeps.ofSnd (by assumption) ?_
    | with_reducible refine Keeps.ofFst (by assumption) ?_
    | split

theorem State.zonePoll_keeps {ρ : State} {s : State} {z : Nat} {c : Nat} {fb : Nat} (hk : Keeps ρ s) : Keeps ρ (State.zonePoll s z c fb) := by
  unfold State.zonePoll
  repeat' first
    | with_reducible assumption
    | with_reducible refine KeepsR.next ?_
    | fail_if_no_progress with_reducible refine Keeps.mkK ?_
    | with_reducible refine State.raise2_keeps ?_
    | with_reducible refine State.zoneFault_keeps ?_
    | with_reducible refine State.zoneEnter_keeps ?_
    | with_reducible refine Keeps.doAll ?_ (fun _ _ _ => ?_)
    | with_reducible refine Keeps.doIf ?_ (fun _ _ => ?_)
    | with_reducible refine Keeps.foldl ?_ (fun _ _ _ => ?_)
    | with_reducible refine Keeps.foldlFst ?_ (fun _ _ _ => ?_)
    | with_reducible refine Keeps.foldlSnd ?_ (fun _ _ _ => ?_)
    | with_reducible refine KeepsR.host ?_ (fun _ _ => ?_)
    | (lift_lets; intro x; clear_value x)
    | with_reducible refine Keeps.ofSnd (by assumption) ?_
    | with_reducible refine Keeps.ofFst (by assumption) ?_
    | split
    | dsimp only

theorem State.zoneReport_keeps {ρ : State} {s : State} {z : Nat} {d : Nat} {pl : List Byte} (hk : Keeps ρ s) : Keeps ρ (State.zoneReport s z d pl) := by
  unfold State.zoneReport
  repeat' first
    | with_reducible assumption
    | with_reducible refine KeepsR.next ?_
    | fail_if_no_progress with_reducible refine Keeps.mkK ?_
    | with_reducible refine State.modMatrix_keeps ?_
    | with_reducible refine State.setFld_keeps ?_
    | with_reducible refine State.count_keeps ?_
    | with_reducible refine State.setZone_keeps ?_
    | with_reducible refine State.zonePoll_keeps ?_
    | with_reducible refine Keeps.doAll ?_ (fun _ _ _ => ?_)
    | with_reducible refine Keeps.doIf ?_ (fun _ _ => ?_)
    | with_reducible refine Keeps.foldl ?_ (fun _ _ _ => ?_)
    | with_reducible refine Keeps.foldlFst ?_ (fun _ _ _ => ?_)
    | with_reducible refine Keeps.foldlSnd ?_ (fun _ _ _ => ?_)
    | with_reducible refine KeepsR.host ?_ (fun _ _ => ?_)
    | with_reducible refine Keeps.ofSnd (by assumption) ?_
    | with_reducible refine Keeps.ofFst (by assumption) ?_
    | split

theorem State.zonesComms_keeps {ρ : State} {s : State} {p : Nat} {addr : Nat} (hk : Keeps ρ s) : Keeps ρ (State.zonesComms s p addr) := by
  unfold State.zonesComms
  repeat' first
    | with_reducible assumption
    | with_reducible refine KeepsR.next ?_
    | fail_if_no_progress with_reducible refine Keeps.mkK ?_
    | with_reducible refine State.modDriver_keeps ?_
    | with_reducible refine State.zoneEnter_keeps ?_
    | with_reducible refine Keeps.doAll ?_ (fun _ _ _ => ?_)
    | with_reducible refine Keeps.doIf ?_ (fun _ _ => ?_)
    | with_reducible refine Keeps.foldl ?_ (fun _ _ _ => ?_)
    | with_reducible refine Keeps.foldlFst ?_ (fun _ _ _ => ?_)
    | with_reducible refine Keeps.foldlSnd ?_ (fun _ _ _ => ?_)
    | with_reducible refine KeepsR.host ?_ (fun _ _ => ?_)
    | with_reducible refine Keeps.ofSnd (by assumption) ?_
    | with_reducible refine Keeps.ofFst (by assumption) ?_
    | split

theorem State.zonesClear_keeps {ρ : State} {s : State} {l : List Nat} (hk : Keeps ρ s) : Keeps ρ (State.zonesClear s l) := by
  unfold State.zonesClear
  repeat' first
    | with_reducible assumption
    | with_reducible refine KeepsR.next ?_
    | fail_if_no_progress with_reducible refine Keeps.mkK ?_

theorem State.zoneCfg_keeps {ρ : State} {s : State} {z : Nat} (hk : Keeps ρ s) : Keeps ρ (State.zoneCfg s z) := by
  unfold State.zoneCfg
  repeat' first
    | with_reducible assumption
    | with_reducible refine KeepsR.next ?_
    | fail_if_no_progress with_reducible refine Keeps.mkK ?_
    | with_reducible refine State.busSend_keeps ?_
    | with_reducible refine Keeps.doAll ?_ (fun _ _ _ => ?_)

theorem State.matrixEnable_keeps {ρ : State} {s : State} {z : Nat} (hk : Keeps ρ s) : Keeps ρ (State.matrixEnable s z) := by
  unfold State.matrixEnable
  repeat' first
    | with_reducible assumption
    | with_reducible refine KeepsR.next ?_
    | fail_if_no_progress with_reducible refine Keeps.mkK ?_
    | with_reducible refine State.setMatrix_keeps ?_
    | with_reducible refine State.setFld_keeps ?_
    | with_reducible refine State.setFlag_keeps ?_
    | with_reducible refine State.supplySync_keeps ?_
    | with_reducible refine State.busSend_keeps ?_
    | with_reducible refine State.zoneCfg_keeps ?_
    | with_reducible refine Keeps.doAll ?_ (fun _ _ _ => ?_)

theorem State.matrixDisable_keeps {ρ : State} {s : State} {z : Nat} (hk : Keeps ρ s) : Keeps ρ (State.matrixDisable s z) := by
  unfold State.matrixDisable
  repeat' first
    | with_reducible assumption
    | with_reducible refine KeepsR.next ?_
    | fail_if_no_progress with_reducible refine Keeps.mkK ?_
    | with_reducible refine State.setFld_keeps ?_
    | with_reducible refine State.lowOuts_keeps ?_

theorem State.countFaulted_keeps {ρ : State} {s : State} {z : Nat} (hk : Keeps ρ s) : Keeps ρ (State.countFaulted s z) := by
  unfold State.countFaulted
  repeat' first
    | with_reducible assumption
    | with_reducible refine KeepsR.next ?_
    | fail_if_no_progress with_reducible refine Keeps.mkK ?_
    | with_reducible refine State.setFld_keeps ?_

theorem State.ageRow_keeps {ρ : State} {s : State} {z : Nat} {b : Nat} {r : Nat} {lit : Nat} (hk : Keeps ρ s) : Keeps ρ (State.ageRow s z b r lit) := by
  unfold State.ageRow
  repeat' first
    | with_reducible assumption
    | with_reducible refine KeepsR.next ?_
    | fail_if_no_progress with_reducible refine Keeps.mkK ?_
    | with_reducible refine State.count_keeps ?_
    | with_reducible refine Keeps.doAll ?_ (fun _ _ _ => ?_)
    | with_reducible refine Keeps.doIf ?_ (fun _ _ => ?_)

theorem State.newLevels_keeps {ρ : State} {s : State} {z : Nat} {tag : Nat} {d : Nat} (hk : Keeps ρ s) : Keeps ρ (State.newLevels s z tag d) := by
  unfold State.newLevels
  repeat' first
    | with_reducible assumption
    | with_reducible refine KeepsR.next ?_
    | fail_if_no_progress with_reducible refine Keeps.mkK ?_
    | with_reducible refine State.setDriver_keeps ?_
    | with_reducible refine State.setFlag_keeps ?_
    | with_reducible refine State.count_keeps ?_
    | with_reducible refine State.raiseOnce_keeps ?_
    | with_reducible refine Keeps.doAll ?_ (fun _ _ _ => ?_)
    | with_reducible refine Keeps.doIf ?_ (fun _ _ => ?_)
    | with_reducible refine Keeps.foldl ?_ (fun _ _ _ => ?_)
    | with_reducible refine Keeps.foldlFst ?_ (fun _ _ _ => ?_)
    | with_reducible refine Keeps.foldlSnd ?_ (fun _ _ _ => ?_)
    | with_reducible refine KeepsR.host ?_ (fun _ _ => ?_)
    | (lift_lets; intro x; clear_value x)
    | with_reducible refine Keeps.ofSnd (by assumption) ?_
    | with_reducible refine Keeps.ofFst (by assumption) ?_
    | split
    | dsimp only

theorem State.levelsAcked_keeps {ρ : State} {s : State} {p : Nat} {addr : Nat} {tag : Nat} {n : Nat} (hk : Keeps ρ s) : Keeps ρ (State.levelsAcked s p addr tag n) := by
  unfold State.levelsAcked
  repeat' first
    | with_reducible assumption
    | with_reducible refine KeepsR.next ?_
    | fail_if_no_progress with_reducible refine Keeps.mkK ?_
    | with_reducible refine State.modDriver_keeps ?_

theorem execZoneStep_keeps {ρ : State} {z : Fin 4} {band : Fin 32} {row : Fin 16} {s : State} (hk : Keeps ρ s) : KeepsR ρ (execZoneStep z band row s) := by
  unfold execZoneStep
  repeat' first
    | with_reducible assumption
    | with_reducible refine KeepsR.next ?_
    | fail_if_no_progress with_reducible refine Keeps.mkK ?_
    | with_reducible refine State.modBandOf_keeps ?_
    | with_reducible refine State.busCast_keeps ?_
    | with_reducible refine State.newLevels_keeps ?_
    | with_reducible refine Keeps.doAll ?_ (fun _ _ _ => ?_)
    | with_reducible refine Keeps.doIf ?_ (fun _ _ => ?_)
    | with_reducible refine Keeps.foldl ?_ (fun _ _ _ => ?_)
    | with_reducible refine Keeps.foldlFst ?_ (fun _ _ _ => ?_)
    | with_reducible refine Keeps.foldlSnd ?_ (fun _ _ _ => ?_)
    | with_reducible refine KeepsR.host ?_ (fun _ _ => ?_)
    | (lift_lets; intro x; clear_value x)
    | with_reducible refine Keeps.ofSnd (by assumption) ?_
    | with_reducible refine Keeps.ofFst (by assumption) ?_
    | split
    | dsimp only

theorem execZoneSwap_keeps {ρ : State} {z : Fin 4} {band : Fin 32} {s : State} (hk : Keeps ρ s) : KeepsR ρ (execZoneSwap z band s) := by
  unfold execZoneSwap
  repeat' first
    | with_reducible assumption
    | with_reducible refine KeepsR.next ?_
    | fail_if_no_progress with_reducible refine Keeps.mkK ?_
    | with_reducible refine State.busCast_keeps ?_
    | with_reducible refine State.newLevels_keeps ?_
    | with_reducible refine Keeps.doAll ?_ (fun _ _ _ => ?_)
    | with_reducible refine Keeps.doIf ?_ (fun _ _ => ?_)
    | with_reducible refine Keeps.foldl ?_ (fun _ _ _ => ?_)
    | with_reducible refine Keeps.foldlFst ?_ (fun _ _ _ => ?_)
    | with_reducible refine Keeps.foldlSnd ?_ (fun _ _ _ => ?_)
    | with_reducible refine KeepsR.host ?_ (fun _ _ => ?_)
    | (lift_lets; intro x; clear_value x)
    | with_reducible refine Keeps.ofSnd (by assumption) ?_
    | with_reducible refine Keeps.ofFst (by assumption) ?_
    | split

theorem State.zoneFallback_keeps {ρ : State} {s : State} {z : Nat} (hk : Keeps ρ s) : Keeps ρ (State.zoneFallback s z) := by
  unfold State.zoneFallback
  repeat' first
    | with_reducible assumption
    | with_reducible refine KeepsR.next ?_
    | fail_if_no_progress with_reducible refine Keeps.mkK ?_
    | with_reducible refine State.setMatrix_keeps ?_
    | with_reducible refine State.modMatrix_keeps ?_
    | with_reducible refine State.setFld_keeps ?_
    | with_reducible refine State.raise_keeps ?_
    | with_reducible refine State.zoneCfg_keeps ?_
    | with_reducible refine Keeps.doAll ?_ (fun _ _ _ => ?_)
    | with_reducible refine Keeps.doIf ?_ (fun _ _ => ?_)
    | with_reducible refine Keeps.foldl ?_ (fun _ _ _ => ?_)
    | with_reducible refine Keeps.foldlFst ?_ (fun _ _ _ => ?_)
    | with_reducible refine Keeps.foldlSnd ?_ (fun _ _ _ => ?_)
    | with_reducible refine KeepsR.host ?_ (fun _ _ => ?_)
    | (lift_lets; intro x; clear_value x)
    | with_reducible refine Keeps.ofSnd (by assumption) ?_
    | with_reducible refine Keeps.ofFst (by assumption) ?_
    | split
    | dsimp only

theorem State.zoneFrame_keeps {ρ : State} {s : State} {z : Nat} (hk : Keeps ρ s) : Keeps ρ (State.zoneFrame s z) := by
  unfold State.zoneFrame
  repeat' first
    | with_reducible assumption
    | with_reducible refine KeepsR.next ?_
    | fail_if_no_progress with_reducible refine Keeps.mkK ?_
    | with_reducible refine State.modMatrix_keeps ?_
    | with_reducible refine State.clearOnce_keeps ?_
    | with_reducible refine State.drawTag_keeps ?_
    | with_reducible refine State.sendRow_keeps ?_
    | with_reducible refine State.setZone_keeps ?_
    | with_reducible refine State.zoneFallback_keeps ?_
    | with_reducible refine Keeps.doAll ?_ (fun _ _ _ => ?_)
    | with_reducible refine Keeps.doIf ?_ (fun _ _ => ?_)
    | with_reducible refine Keeps.foldl ?_ (fun _ _ _ => ?_)
    | with_reducible refine Keeps.foldlFst ?_ (fun _ _ _ => ?_)
    | with_reducible refine Keeps.foldlSnd ?_ (fun _ _ _ => ?_)
    | with_reducible refine KeepsR.host ?_ (fun _ _ => ?_)
    | (lift_lets; intro x; clear_value x)
    | with_reducible refine Keeps.ofSnd (by assumption) ?_
    | with_reducible refine Keeps.ofFst (by assumption) ?_
    | split
    | dsimp only

theorem State.scanMode_keeps {ρ : State} {s : State} {z : Nat} (hk : Keeps ρ s) : Keeps ρ (State.scanMode s z) := by
  unfold State.scanMode
  repeat' first
    | with_reducible assumption
    | with_reducible refine KeepsR.next ?_
    | fail_if_no_progress with_reducible refine Keeps.mkK ?_
    | with_reducible refine State.modMatrix_keeps ?_
    | with_reducible refine State.setFlag_keeps ?_
    | with_reducible refine State.raise_keeps ?_
    | with_reducible refine State.zoneCfg_keeps ?_
    | with_reducible refine Keeps.doAll ?_ (fun _ _ _ => ?_)
    | with_reducible refine Keeps.doIf ?_ (fun _ _ => ?_)
    | with_reducible refine Keeps.foldl ?_ (fun _ _ _ => ?_)
    | with_reducible refine Keeps.foldlFst ?_ (fun _ _ _ => ?_)
    | with_reducible refine Keeps.foldlSnd ?_ (fun _ _ _ => ?_)
    | with_reducible refine KeepsR.host ?_ (fun _ _ => ?_)
    | (lift_lets; intro x; clear_value x)
    | with_reducible refine Keeps.ofSnd (by assumption) ?_
    | with_reducible refine Keeps.ofFst (by assumption) ?_
    | split

theorem State.ccRebuild_keeps {ρ : State} {s : State} {g : Nat} (hk : Keeps ρ s) : Keeps ρ (State.ccRebuild s g) := by
  unfold State.ccRebuild
  repeat' first
    | with_reducible assumption
    | with_reducible refine KeepsR.next ?_
    | fail_if_no_progress with_reducible refine Keeps.mkK ?_
    | with_reducible refine State.modCcGroup_keeps ?_
    | with_reducible refine State.raise_keeps ?_
    | with_reducible refine Keeps.doAll ?_ (fun _ _ _ => ?_)

theorem State.ccCommit_keeps {ρ : State} {s0 : State} {s : State} {g : Nat} (hk : Keeps ρ s) : Keeps ρ (State.ccCommit s0 s g) := by
  unfold State.ccCommit
  repeat' first
    | with_reducible assumption
    | with_reducible refine KeepsR.next ?_
    | fail_if_no_progress with_reducible refine Keeps.mkK ?_
    | with_reducible refine State.ccRebuild_keeps ?_
    | with_reducible refine Keeps.doAll ?_ (fun _ _ _ => ?_)
    | with_reducible refine Keeps.doIf ?_ (fun _ _ => ?_)
    | with_reducible refine Keeps.foldl ?_ (fun _ _ _ => ?_)
    | with_reducible refine Keeps.foldlFst ?_ (fun _ _ _ => ?_)
    | with_reducible refine Keeps.foldlSnd ?_ (fun _ _ _ => ?_)
    | with_reducible refine KeepsR.host ?_ (fun _ _ => ?_)
    | with_reducible refine Keeps.ofSnd (by assumption) ?_
    | with_reducible refine Keeps.ofFst (by assumption) ?_
    | split

theorem State.itemWords_keeps {ρ : State} {s : State} {g : Nat} (hk : Keeps ρ s) : Keeps ρ (State.itemWords s g) := by
  unfold State.itemWords
  repeat' first
    | with_reducible assumption
    | with_reducible refine KeepsR.next ?_
    | fail_if_no_progress with_reducible refine Keeps.mkK ?_
    | with_reducible refine State.setFld_keeps ?_
    | with_reducible refine Keeps.doAll ?_ (fun _ _ _ => ?_)
    | with_reducible refine Keeps.doIf ?_ (fun _ _ => ?_)
    | with_reducible refine Keeps.foldl ?_ (fun _ _ _ => ?_)
    | with_reducible refine Keeps.foldlFst ?_ (fun _ _ _ => ?_)
    | with_reducible refine Keeps.foldlSnd ?_ (fun _ _ _ => ?_)
    | with_reducible refine KeepsR.host ?_ (fun _ _ => ?_)
    | with_reducible refine Keeps.ofSnd (by assumption) ?_
    | with_reducible refine Keeps.ofFst (by assumption) ?_
    | split

theorem State.nextItem_keeps {ρ : State} {s : State} {g : Nat} (hk : Keeps ρ s) : Keeps ρ (State.nextItem s g) := by
  unfold State.nextItem
  repeat' first
    | with_reducible assumption
    | with_reducible refine KeepsR.next ?_
    | fail_if_no_progress with_reducible refine Keeps.mkK ?_
    | with_reducible refine State.setCcGroup_keeps ?_
    | with_reducible refine State.itemWords_keeps ?_

theorem State.ccShow_keeps {ρ : State} {s : State} {g : Nat} (hk : Keeps ρ s) : Keeps ρ (State.ccShow s g) := by
  unfold State.ccShow
  repeat' first
    | with_reducible assumption
    | with_reducible refine KeepsR.next ?_
    | fail_if_no_progress with_reducible refine Keeps.mkK ?_
    | with_reducible refine State.modCcGroup_keeps ?_
    | with_reducible refine State.setFld_keeps ?_
    | with_reducible refine Keeps.doAll ?_ (fun _ _ _ => ?_)
    | with_reducible refine Keeps.doIf ?_ (fun _ _ => ?_)
    | with_reducible refine Keeps.foldl ?_ (fun _ _ _ => ?_)
    | with_reducible refine Keeps.foldlFst ?_ (fun _ _ _ => ?_)
    | with_reducible refine Keeps.foldlSnd ?_ (fun _ _ _ => ?_)
    | with_reducible refine KeepsR.host ?_ (fun _ _ => ?_)
    | with_reducible refine Keeps.ofSnd (by assumption) ?_
    | with_reducible refine Keeps.ofFst (by assumption) ?_
    | split

theorem State.setDemand_keeps {ρ : State} {s : State} {g : Nat} {d : Xyz} (hk : Keeps ρ s) : Keeps ρ (State.setDemand s g d) := by
  unfold State.setDemand
  repeat' first
    | with_reducible assumption
    | with_reducible refine KeepsR.next ?_
    | fail_if_no_progress with_reducible refine Keeps.mkK ?_
    | with_reducible refine State.modCcGroup_keeps ?_
    | with_reducible refine State.setFld_keeps ?_
    | with_reducible refine Keeps.doAll ?_ (fun _ _ _ => ?_)

theorem State.lumaShow_keeps {ρ : State} {s : State} {g : Nat} (hk : Keeps ρ s) : Keeps ρ (State.lumaShow s g) := by
  unfold State.lumaShow
  repeat' first
    | with_reducible assumption
    | with_reducible refine KeepsR.next ?_
    | fail_if_no_progress with_reducible refine Keeps.mkK ?_
    | with_reducible refine State.setFld_keeps ?_
    | with_reducible refine State.draw_keeps ?_
    | with_reducible refine Keeps.doAll ?_ (fun _ _ _ => ?_)
    | with_reducible refine Keeps.doIf ?_ (fun _ _ => ?_)
    | with_reducible refine Keeps.foldl ?_ (fun _ _ _ => ?_)
    | with_reducible refine Keeps.foldlFst ?_ (fun _ _ _ => ?_)
    | with_reducible refine Keeps.foldlSnd ?_ (fun _ _ _ => ?_)
    | with_reducible refine KeepsR.host ?_ (fun _ _ => ?_)
    | with_reducible refine Keeps.ofSnd (by assumption) ?_
    | with_reducible refine Keeps.ofFst (by assumption) ?_
    | split

theorem State.ccLimit_keeps {ρ : State} {s : State} {g : Nat} {limited : Bool} (hk : Keeps ρ s) : Keeps ρ (State.ccLimit s g limited) := by
  unfold State.ccLimit
  repeat' first
    | with_reducible assumption
    | with_reducible refine KeepsR.next ?_
    | fail_if_no_progress with_reducible refine Keeps.mkK ?_
    | with_reducible refine State.modCcGroup_keeps ?_
    | with_reducible refine State.raise2_keeps ?_
    | with_reducible refine State.ccShow_keeps ?_
    | with_reducible refine Keeps.doAll ?_ (fun _ _ _ => ?_)
    | with_reducible refine Keeps.doIf ?_ (fun _ _ => ?_)

theorem State.ccUpdate_keeps {ρ : State} {s : State} {g : Nat} (hk : Keeps ρ s) : Keeps ρ (State.ccUpdate s g) := by
  unfold State.ccUpdate
  repeat' first
    | with_reducible assumption
    | with_reducible refine KeepsR.next ?_
    | fail_if_no_progress with_reducible refine Keeps.mkK ?_
    | with_reducible refine State.modCcGroup_keeps ?_
    | with_reducible refine State.setFld_keeps ?_
    | with_reducible refine State.count_keeps ?_
    | with_reducible refine State.raise_keeps ?_
    | with_reducible refine State.setDemand_keeps ?_
    | with_reducible refine State.lumaShow_keeps ?_
    | with_reducible refine State.ccLimit_keeps ?_
    | with_reducible refine Keeps.doAll ?_ (fun _ _ _ => ?_)
    | with_reducible refine Keeps.doIf ?_ (fun _ _ => ?_)
    | with_reducible refine Keeps.foldl ?_ (fun _ _ _ => ?_)
    | with_reducible refine Keeps.foldlFst ?_ (fun _ _ _ => ?_)
    | with_reducible refine Keeps.foldlSnd ?_ (fun _ _ _ => ?_)
    | with_reducible refine KeepsR.host ?_ (fun _ _ => ?_)
    | (lift_lets; intro x; refine Keeps.cut (r := ρ) (x := x) ?_ (fun hx => ?_); (on_goal 1 => dsimp only [x]); (on_goal 2 => clear_value x))
    | (lift_lets; intro x; clear_value x)
    | with_reducible refine Keeps.ofSnd (by assumption) ?_
    | with_reducible refine Keeps.ofFst (by assumption) ?_
    | split

theorem State.itemDone_keeps {ρ : State} {s : State} {g : Nat} {b : Nat} {w : Nat} {v : Xyz} (hk : Keeps ρ s) : Keeps ρ (State.itemDone s g b w v) := by
  unfold State.itemDone
  repeat' first
    | with_reducible assumption
    | with_reducible refine KeepsR.next ?_
    | fail_if_no_progress with_reducible refine Keeps.mkK ?_
    | with_reducible refine State.modBank_keeps ?_
    | with_reducible refine State.setFld_keeps ?_
    | with_reducible refine State.draw_keeps ?_
    | with_reducible refine State.updateWeights_keeps ?_
    | with_reducible refine State.nextItem_keeps ?_
    | with_reducible refine State.ccUpdate_keeps ?_
    | with_reducible refine Keeps.doAll ?_ (fun _ _ _ => ?_)
    | with_reducible refine Keeps.doIf ?_ (fun _ _ => ?_)
    | with_reducible refine Keeps.foldl ?_ (fun _ _ _ => ?_)
    | with_reducible refine Keeps.foldlFst ?_ (fun _ _ _ => ?_)
    | with_reducible refine Keeps.foldlSnd ?_ (fun _ _ _ => ?_)
    | with_reducible refine KeepsR.host ?_ (fun _ _ => ?_)
    | (lift_lets; intro x; refine Keeps.cut (r := ρ) (x := x) ?_ (fun hx => ?_); (on_goal 1 => dsimp only [x]); (on_goal 2 => clear_value x))
    | with_reducible refine Keeps.ofSnd (by assumption) ?_
    | with_reducible refine Keeps.ofFst (by assumption) ?_
    | split

theorem State.takeReading_keeps {ρ : State} {s : State} {r : TriadReading} {b : Nat} {w : Nat} {skip : Nat} {dur : Nat} (hk : Keeps ρ s) : Keeps ρ (State.takeReading s r b w skip dur).1 := by
  unfold State.takeReading
  repeat' first
    | with_reducible assumption
    | with_reducible refine KeepsR.next ?_
    | fail_if_no_progress with_reducible refine Keeps.mkK ?_
    | with_reducible refine State.setFld_keeps ?_
    | with_reducible refine State.count_keeps ?_
    | with_reducible refine State.stale_keeps ?_
    | with_reducible refine Keeps.doAll ?_ (fun _ _ _ => ?_)
    | with_reducible refine Keeps.doIf ?_ (fun _ _ => ?_)
    | with_reducible refine Keeps.foldl ?_ (fun _ _ _ => ?_)
    | with_reducible refine Keeps.foldlFst ?_ (fun _ _ _ => ?_)
    | with_reducible refine Keeps.foldlSnd ?_ (fun _ _ _ => ?_)
    | with_reducible refine KeepsR.host ?_ (fun _ _ => ?_)
    | (lift_lets; intro x; clear_value x)
    | with_reducible refine Keeps.ofSnd (by assumption) ?_
    | with_reducible refine Keeps.ofFst (by assumption) ?_
    | split
    | dsimp only

theorem State.useReading_keeps {ρ : State} {s : State} {g : Nat} {t : Nat} {b : Nat} {w : Nat} {v : Xyz} (hk : Keeps ρ s) : Keeps ρ (State.useReading s g t b w v) := by
  unfold State.useReading
  repeat' first
    | with_reducible assumption
    | with_reducible refine KeepsR.next ?_
    | fail_if_no_progress with_reducible refine Keeps.mkK ?_
    | with_reducible refine State.modCcGroup_keeps ?_
    | with_reducible refine State.setFld_keeps ?_
    | with_reducible refine State.count_keeps ?_
    | with_reducible refine State.raise2_keeps ?_
    | with_reducible refine Keeps.doAll ?_ (fun _ _ _ => ?_)
    | with_reducible refine Keeps.doIf ?_ (fun _ _ => ?_)
    | with_reducible refine Keeps.foldl ?_ (fun _ _ _ => ?_)
    | with_reducible refine Keeps.foldlFst ?_ (fun _ _ _ => ?_)
    | with_reducible refine Keeps.foldlSnd ?_ (fun _ _ _ => ?_)
    | with_reducible refine KeepsR.host ?_ (fun _ _ => ?_)
    | (lift_lets; intro x; clear_value x)
    | with_reducible refine Keeps.ofSnd (by assumption) ?_
    | with_reducible refine Keeps.ofFst (by assumption) ?_
    | split
    | dsimp only

theorem State.frameReadings_keeps {ρ : State} {s : State} {g : Nat} {b : Nat} {w : Nat} (hk : Keeps ρ s) : Keeps ρ (State.frameReadings s g b w) := by
  unfold State.frameReadings
  repeat' first
    | with_reducible assumption
    | with_reducible refine KeepsR.next ?_
    | fail_if_no_progress with_reducible refine Keeps.mkK ?_
    | with_reducible refine State.setCcGroup_keeps ?_
    | with_reducible refine State.itemDone_keeps ?_
    | with_reducible refine Keeps.doAll ?_ (fun _ _ _ => ?_)
    | with_reducible refine Keeps.doIf ?_ (fun _ _ => ?_)
    | with_reducible refine Keeps.foldl ?_ (fun _ _ _ => ?_)
    | with_reducible refine Keeps.foldlFst ?_ (fun _ _ _ => ?_)
    | with_reducible refine Keeps.foldlSnd ?_ (fun _ _ _ => ?_)
    | with_reducible refine KeepsR.host ?_ (fun _ _ => ?_)
    | (lift_lets; intro x; clear_value x)
    | with_reducible refine Keeps.ofSnd (by assumption) ?_
    | with_reducible refine Keeps.ofFst (by assumption) ?_
    | split

theorem execMeasureSlotEnd_keeps {ρ : State} {h : Fin 4} {band : Fin 32} {readings : List TriadReading} {s : State} (hk : Keeps ρ s) : KeepsR ρ (execMeasureSlotEnd h band readings s) := by
  unfold execMeasureSlotEnd
  repeat' first
    | with_reducible assumption
    | with_reducible refine KeepsR.next ?_
    | fail_if_no_progress with_reducible refine Keeps.mkK ?_
    | with_reducible refine State.takeReading_keeps ?_
    | with_reducible refine State.useReading_keeps ?_
    | with_reducible refine State.frameReadings_keeps ?_
    | with_reducible refine Keeps.doAll ?_ (fun _ _ _ => ?_)
    | with_reducible refine Keeps.doIf ?_ (fun _ _ => ?_)
    | with_reducible refine Keeps.foldl ?_ (fun _ _ _ => ?_)
    | with_reducible refine Keeps.foldlFst ?_ (fun _ _ _ => ?_)
    | with_reducible refine Keeps.foldlSnd ?_ (fun _ _ _ => ?_)
    | with_reducible refine KeepsR.host ?_ (fun _ _ => ?_)
    | (lift_lets; intro x; clear_value x)
    | with_reducible refine Keeps.ofSnd (by assumption) ?_
    | with_reducible refine Keeps.ofFst (by assumption) ?_
    | split
    | dsimp only

theorem State.antiWindup_keeps {ρ : State} {s : State} {g : Nat} (hk : Keeps ρ s) : Keeps ρ (State.antiWindup s g) := by
  unfold State.antiWindup
  repeat' first
    | with_reducible assumption
    | with_reducible refine KeepsR.next ?_
    | fail_if_no_progress with_reducible refine Keeps.mkK ?_
    | with_reducible refine State.setDemand_keeps ?_

theorem State.ccName_keeps {ρ : State} {s : State} {g : Nat} (hk : Keeps ρ s) : Keeps ρ (State.ccName s g) := by
  unfold State.ccName
  repeat' first
    | with_reducible assumption
    | with_reducible refine KeepsR.next ?_
    | fail_if_no_progress with_reducible refine Keeps.mkK ?_
    | with_reducible refine State.modCcGroup_keeps ?_
    | with_reducible refine State.count_keeps ?_
    | with_reducible refine State.raise2_keeps ?_
    | with_reducible refine State.nextItem_keeps ?_
    | with_reducible refine Keeps.doAll ?_ (fun _ _ _ => ?_)
    | with_reducible refine Keeps.doIf ?_ (fun _ _ => ?_)
    | with_reducible refine Keeps.foldl ?_ (fun _ _ _ => ?_)
    | with_reducible refine Keeps.foldlFst ?_ (fun _ _ _ => ?_)
    | with_reducible refine Keeps.foldlSnd ?_ (fun _ _ _ => ?_)
    | with_reducible refine KeepsR.host ?_ (fun _ _ => ?_)
    | with_reducible refine Keeps.ofSnd (by assumption) ?_
    | with_reducible refine Keeps.ofFst (by assumption) ?_
    | split

theorem State.ccFrame_keeps {ρ : State} {s : State} {g : Nat} (hk : Keeps ρ s) : Keeps ρ (State.ccFrame s g) := by
  unfold State.ccFrame
  repeat' first
    | with_reducible assumption
    | with_reducible refine KeepsR.next ?_
    | fail_if_no_progress with_reducible refine Keeps.mkK ?_
    | with_reducible refine State.modCcGroup_keeps ?_
    | with_reducible refine State.ccShow_keeps ?_
    | with_reducible refine State.lumaShow_keeps ?_
    | with_reducible refine State.antiWindup_keeps ?_
    | with_reducible refine State.ccName_keeps ?_
    | with_reducible refine Keeps.doAll ?_ (fun _ _ _ => ?_)
    | with_reducible refine Keeps.doIf ?_ (fun _ _ => ?_)
    | with_reducible refine Keeps.foldl ?_ (fun _ _ _ => ?_)
    | with_reducible refine Keeps.foldlFst ?_ (fun _ _ _ => ?_)
    | with_reducible refine Keeps.foldlSnd ?_ (fun _ _ _ => ?_)
    | with_reducible refine KeepsR.host ?_ (fun _ _ => ?_)
    | (lift_lets; intro x; refine Keeps.cut (r := ρ) (x := x) ?_ (fun hx => ?_); (on_goal 1 => dsimp only [x]); (on_goal 2 => clear_value x))
    | with_reducible refine Keeps.ofSnd (by assumption) ?_
    | with_reducible refine Keeps.ofFst (by assumption) ?_
    | split

theorem State.ccEnable_keeps {ρ : State} {s : State} {g : Nat} (hk : Keeps ρ s) : Keeps ρ (State.ccEnable s g) := by
  unfold State.ccEnable
  repeat' first
    | with_reducible assumption
    | with_reducible refine KeepsR.next ?_
    | fail_if_no_progress with_reducible refine Keeps.mkK ?_
    | with_reducible refine State.modBank_keeps ?_
    | with_reducible refine State.setCcGroup_keeps ?_
    | with_reducible refine State.ccRebuild_keeps ?_
    | with_reducible refine State.ccShow_keeps ?_
    | with_reducible refine Keeps.doAll ?_ (fun _ _ _ => ?_)

theorem State.ccDisable_keeps {ρ : State} {s : State} {g : Nat} (hk : Keeps ρ s) : Keeps ρ (State.ccDisable s g) := by
  unfold State.ccDisable
  repeat' first
    | with_reducible assumption
    | with_reducible refine KeepsR.next ?_
    | fail_if_no_progress with_reducible refine Keeps.mkK ?_
    | with_reducible refine State.modCcGroup_keeps ?_
    | with_reducible refine State.ccShow_keeps ?_

theorem State.ccLearn_keeps {ρ : State} {s : State} {g : Nat} (hk : Keeps ρ s) : Keeps ρ (State.ccLearn s g) := by
  unfold State.ccLearn
  repeat' first
    | with_reducible assumption
    | with_reducible refine KeepsR.next ?_
    | fail_if_no_progress with_reducible refine Keeps.mkK ?_
    | with_reducible refine State.setFld_keeps ?_
    | with_reducible refine State.setDemand_keeps ?_
    | with_reducible refine Keeps.doAll ?_ (fun _ _ _ => ?_)

theorem State.triadClear_keeps {ρ : State} {s : State} {t : Nat} (hk : Keeps ρ s) : Keeps ρ (State.triadClear s t) := by
  unfold State.triadClear
  repeat' first
    | with_reducible assumption
    | with_reducible refine KeepsR.next ?_
    | fail_if_no_progress with_reducible refine Keeps.mkK ?_
    | with_reducible refine State.setFld_keeps ?_

end Sys2Proof.Machine
end

