-- ==== Sys2Proof/Laws/KeepsSeq.lean ====
section
/-!
SUPPORT. The relation `Keeps` for the operations of Machine/Line.lean, Machine/Seq.lean, Machine/Avs.lean, Machine/CeRun.lean.
-/

namespace Sys2Proof.Machine

theorem State.setLen_keeps {ρ : State} {s : State} {n : Nat} {b : Bool} (hk : Keeps ρ s) : Keeps ρ (State.setLen s n b) := by
  unfold State.setLen
  repeat' first
    | with_reducible assumption
    | with_reducible refine KeepsR.next ?_
    | fail_if_no_progress with_reducible refine Keeps.mkK ?_

theorem State.disarm_keeps {ρ : State} {s : State} {h : Nat} (hk : Keeps ρ s) : Keeps ρ (State.disarm s h) := by
  unfold State.disarm
  repeat' first
    | with_reducible assumption
    | with_reducible refine KeepsR.next ?_
    | fail_if_no_progress with_reducible refine Keeps.mkK ?_
    | with_reducible refine State.setFld_keeps ?_
    | with_reducible refine State.setLen_keeps ?_
    | with_reducible refine Keeps.doAll ?_ (fun _ _ _ => ?_)

theorem State.gate_keeps {ρ : State} {s : State} {h : Nat} (hk : Keeps ρ s) : Keeps ρ (State.gate s h) := by
  unfold State.gate
  repeat' first
    | with_reducible assumption
    | with_reducible refine KeepsR.next ?_
    | fail_if_no_progress with_reducible refine Keeps.mkK ?_
    | with_reducible refine State.setFld_keeps ?_
    | with_reducible refine State.count_keeps ?_
    | with_reducible refine State.raise2_keeps ?_
    | with_reducible refine State.disarm_keeps ?_
    | with_reducible refine Keeps.doAll ?_ (fun _ _ _ => ?_)
    | with_reducible refine Keeps.doIf ?_ (fun _ _ => ?_)
    | with_reducible refine Keeps.foldl ?_ (fun _ _ _ => ?_)
    | with_reducible refine Keeps.foldlFst ?_ (fun _ _ _ => ?_)
    | with_reducible refine Keeps.foldlSnd ?_ (fun _ _ _ => ?_)
    | with_reducible refine KeepsR.host ?_ (fun _ _ => ?_)
    | (lift_lets; intro x; clear_value x)
    | with_reducible refine Keeps.ofSnd (by assumption) ?_
    | with_reducible refine Keeps.ofFst (by assumption) ?_
    | split

theorem State.gates_keeps {ρ : State} {s : State} (hk : Keeps ρ s) : Keeps ρ (State.gates s) := by
  unfold State.gates
  repeat' first
    | with_reducible assumption
    | with_reducible refine KeepsR.next ?_
    | fail_if_no_progress with_reducible refine Keeps.mkK ?_
    | with_reducible refine State.gate_keeps ?_
    | with_reducible refine Keeps.doAll ?_ (fun _ _ _ => ?_)

theorem State.arm_keeps {ρ : State} {s : State} {h : Nat} (hk : Keeps ρ s) : Keeps ρ (State.arm s h) := by
  unfold State.arm
  repeat' first
    | with_reducible assumption
    | with_reducible refine KeepsR.next ?_
    | fail_if_no_progress with_reducible refine Keeps.mkK ?_
    | with_reducible refine State.setFld_keeps ?_
    | with_reducible refine State.raise2_keeps ?_
    | with_reducible refine State.setLen_keeps ?_
    | with_reducible refine State.gate_keeps ?_
    | with_reducible refine Keeps.doAll ?_ (fun _ _ _ => ?_)
    | with_reducible refine Keeps.doIf ?_ (fun _ _ => ?_)
    | with_reducible refine Keeps.foldl ?_ (fun _ _ _ => ?_)
    | with_reducible refine Keeps.foldlFst ?_ (fun _ _ _ => ?_)
    | with_reducible refine Keeps.foldlSnd ?_ (fun _ _ _ => ?_)
    | with_reducible refine KeepsR.host ?_ (fun _ _ => ?_)
    | (lift_lets; intro x; refine Keeps.cut (r := ρ) (x := x) ?_ (fun hx => ?_); (on_goal 1 => dsimp only [x]); (on_goal 2 => clear_value x))
    | with_reducible refine Keeps.ofSnd (by assumption) ?_
    | with_reducible refine Keeps.ofFst (by assumption) ?_
    | split
    | dsimp only

theorem State.setIlk_keeps {ρ : State} {s : State} {high : Bool} (hk : Keeps ρ s) : Keeps ρ (State.setIlk s high) := by
  unfold State.setIlk
  repeat' first
    | with_reducible assumption
    | with_reducible refine KeepsR.next ?_
    | fail_if_no_progress with_reducible refine Keeps.mkK ?_
    | with_reducible refine State.gates_keeps ?_

theorem execIlkNFall_keeps {ρ : State} {lowNs : Option Nat} {s : State} (hk : Keeps ρ s) : KeepsR ρ (execIlkNFall lowNs s) := by
  unfold execIlkNFall
  repeat' first
    | with_reducible assumption
    | with_reducible refine KeepsR.next ?_
    | fail_if_no_progress with_reducible refine Keeps.mkK ?_
    | with_reducible refine State.draw_keeps ?_
    | with_reducible refine State.setIlk_keeps ?_
    | with_reducible refine Keeps.doAll ?_ (fun _ _ _ => ?_)
    | with_reducible refine Keeps.doIf ?_ (fun _ _ => ?_)
    | with_reducible refine Keeps.foldl ?_ (fun _ _ _ => ?_)
    | with_reducible refine Keeps.foldlFst ?_ (fun _ _ _ => ?_)
    | with_reducible refine Keeps.foldlSnd ?_ (fun _ _ _ => ?_)
    | with_reducible refine KeepsR.host ?_ (fun _ _ => ?_)
    | with_reducible refine Keeps.ofSnd (by assumption) ?_
    | with_reducible refine Keeps.ofFst (by assumption) ?_
    | split

theorem State.halfWord_keeps {ρ : State} {s : State} {h : Nat} (hk : Keeps ρ s) : Keeps ρ (State.halfWord s h) := by
  unfold State.halfWord
  repeat' first
    | with_reducible assumption
    | with_reducible refine KeepsR.next ?_
    | fail_if_no_progress with_reducible refine Keeps.mkK ?_
    | with_reducible refine State.setFld_keeps ?_

theorem State.errWord_keeps {ρ : State} {s : State} {h : Nat} {e : Int} (hk : Keeps ρ s) : Keeps ρ (State.errWord s h e) := by
  unfold State.errWord
  repeat' first
    | with_reducible assumption
    | with_reducible refine KeepsR.next ?_
    | fail_if_no_progress with_reducible refine Keeps.mkK ?_
    | with_reducible refine State.setInt_keeps ?_

theorem State.unlock_keeps {ρ : State} {s : State} {h : Nat} (hk : Keeps ρ s) : Keeps ρ (State.unlock s h) := by
  unfold State.unlock
  repeat' first
    | with_reducible assumption
    | with_reducible refine KeepsR.next ?_
    | fail_if_no_progress with_reducible refine Keeps.mkK ?_
    | with_reducible refine State.modLine_keeps ?_
    | with_reducible refine State.setFld_keeps ?_
    | with_reducible refine State.count_keeps ?_
    | with_reducible refine State.raise_keeps ?_
    | with_reducible refine Keeps.doAll ?_ (fun _ _ _ => ?_)
    | with_reducible refine Keeps.doIf ?_ (fun _ _ => ?_)
    | with_reducible refine Keeps.foldl ?_ (fun _ _ _ => ?_)
    | with_reducible refine Keeps.foldlFst ?_ (fun _ _ _ => ?_)
    | with_reducible refine Keeps.foldlSnd ?_ (fun _ _ _ => ?_)
    | with_reducible refine KeepsR.host ?_ (fun _ _ => ?_)
    | (lift_lets; intro x; refine Keeps.cut (r := ρ) (x := x) ?_ (fun hx => ?_); (on_goal 1 => dsimp only [x]); (on_goal 2 => clear_value x))
    | with_reducible refine Keeps.ofSnd (by assumption) ?_
    | with_reducible refine Keeps.ofFst (by assumption) ?_
    | split

theorem State.judgeLock_keeps {ρ : State} {s : State} {h : Nat} {e : Int} (hk : Keeps ρ s) : Keeps ρ (State.judgeLock s h e) := by
  unfold State.judgeLock
  repeat' first
    | with_reducible assumption
    | with_reducible refine KeepsR.next ?_
    | fail_if_no_progress with_reducible refine Keeps.mkK ?_
    | with_reducible refine State.modLine_keeps ?_
    | with_reducible refine State.setFld_keeps ?_
    | with_reducible refine State.raise_keeps ?_
    | with_reducible refine State.unlock_keeps ?_
    | with_reducible refine Keeps.doAll ?_ (fun _ _ _ => ?_)
    | with_reducible refine Keeps.doIf ?_ (fun _ _ => ?_)
    | with_reducible refine Keeps.foldl ?_ (fun _ _ _ => ?_)
    | with_reducible refine Keeps.foldlFst ?_ (fun _ _ _ => ?_)
    | with_reducible refine Keeps.foldlSnd ?_ (fun _ _ _ => ?_)
    | with_reducible refine KeepsR.host ?_ (fun _ _ => ?_)
    | (lift_lets; intro x; clear_value x)
    | with_reducible refine Keeps.ofSnd (by assumption) ?_
    | with_reducible refine Keeps.ofFst (by assumption) ?_
    | split
    | dsimp only

theorem State.crossing_keeps {ρ : State} {s : State} {h : Nat} {z : Int} {rising : Bool} (hk : Keeps ρ s) : Keeps ρ (State.crossing s h z rising) := by
  unfold State.crossing
  repeat' first
    | with_reducible assumption
    | with_reducible refine KeepsR.next ?_
    | fail_if_no_progress with_reducible refine Keeps.mkK ?_
    | with_reducible refine State.setLine_keeps ?_
    | with_reducible refine State.halfWord_keeps ?_
    | with_reducible refine State.errWord_keeps ?_
    | with_reducible refine State.judgeLock_keeps ?_
    | with_reducible refine Keeps.doAll ?_ (fun _ _ _ => ?_)
    | with_reducible refine Keeps.doIf ?_ (fun _ _ => ?_)
    | with_reducible refine Keeps.foldl ?_ (fun _ _ _ => ?_)
    | with_reducible refine Keeps.foldlFst ?_ (fun _ _ _ => ?_)
    | with_reducible refine Keeps.foldlSnd ?_ (fun _ _ _ => ?_)
    | with_reducible refine KeepsR.host ?_ (fun _ _ => ?_)
    | (lift_lets; intro x; clear_value x)
    | with_reducible refine Keeps.ofSnd (by assumption) ?_
    | with_reducible refine Keeps.ofFst (by assumption) ?_
    | split
    | dsimp only

theorem execCrossingMiss_keeps {ρ : State} {h : Fin 4} {s : State} (hk : Keeps ρ s) : KeepsR ρ (execCrossingMiss h s) := by
  unfold execCrossingMiss
  repeat' first
    | with_reducible assumption
    | with_reducible refine KeepsR.next ?_
    | fail_if_no_progress with_reducible refine Keeps.mkK ?_
    | with_reducible refine State.setLine_keeps ?_
    | with_reducible refine State.errWord_keeps ?_
    | with_reducible refine State.unlock_keeps ?_
    | with_reducible refine Keeps.doAll ?_ (fun _ _ _ => ?_)
    | with_reducible refine Keeps.doIf ?_ (fun _ _ => ?_)
    | with_reducible refine Keeps.foldl ?_ (fun _ _ _ => ?_)
    | with_reducible refine Keeps.foldlFst ?_ (fun _ _ _ => ?_)
    | with_reducible refine Keeps.foldlSnd ?_ (fun _ _ _ => ?_)
    | with_reducible refine KeepsR.host ?_ (fun _ _ => ?_)
    | (lift_lets; intro x; clear_value x)
    | with_reducible refine Keeps.ofSnd (by assumption) ?_
    | with_reducible refine Keeps.ofFst (by assumption) ?_
    | split

theorem State.prepare_keeps {ρ : State} {s : State} {h : Nat} {a : Nat} {late : Rat} {zhat : Int} {reverse : Bool} (hk : Keeps ρ s) : Keeps ρ (State.prepare s h a late zhat reverse) := by
  unfold State.prepare
  repeat' first
    | with_reducible assumption
    | with_reducible refine KeepsR.next ?_
    | fail_if_no_progress with_reducible refine Keeps.mkK ?_
    | with_reducible refine State.modLine_keeps ?_
    | with_reducible refine State.lateLine_keeps ?_
    | with_reducible refine Keeps.doAll ?_ (fun _ _ _ => ?_)
    | with_reducible refine Keeps.doIf ?_ (fun _ _ => ?_)

theorem execSweepStart_keeps {ρ : State} {h : Fin 4} {gap : Fin 4096} {am : Bool} {s : State} (hk : Keeps ρ s) : KeepsR ρ (execSweepStart h gap am s) := by
  unfold execSweepStart
  repeat' first
    | with_reducible assumption
    | with_reducible refine KeepsR.next ?_
    | fail_if_no_progress with_reducible refine Keeps.mkK ?_
    | with_reducible refine State.setLine_keeps ?_
    | with_reducible refine State.modLine_keeps ?_
    | with_reducible refine State.count_keeps ?_
    | with_reducible refine State.raiseOnce_keeps ?_
    | with_reducible refine State.prepare_keeps ?_
    | with_reducible refine State.act_keeps ?_
    | with_reducible refine Keeps.doAll ?_ (fun _ _ _ => ?_)
    | with_reducible refine Keeps.doIf ?_ (fun _ _ => ?_)
    | with_reducible refine Keeps.foldl ?_ (fun _ _ _ => ?_)
    | with_reducible refine Keeps.foldlFst ?_ (fun _ _ _ => ?_)
    | with_reducible refine Keeps.foldlSnd ?_ (fun _ _ _ => ?_)
    | with_reducible refine KeepsR.host ?_ (fun _ _ => ?_)
    | (lift_lets; intro x; clear_value x)
    | with_reducible refine Keeps.ofSnd (by assumption) ?_
    | with_reducible refine Keeps.ofFst (by assumption) ?_
    | split

theorem execLineStartColumn_keeps {ρ : State} {h : Fin 4} {s : State} (hk : Keeps ρ s) : KeepsR ρ (execLineStartColumn h s) := by
  unfold execLineStartColumn
  repeat' first
    | with_reducible assumption
    | with_reducible refine KeepsR.next ?_
    | fail_if_no_progress with_reducible refine Keeps.mkK ?_
    | with_reducible refine State.modLine_keeps ?_
    | with_reducible refine State.emit_keeps ?_
    | with_reducible refine State.sendColumn_keeps ?_
    | with_reducible refine Keeps.doAll ?_ (fun _ _ _ => ?_)
    | with_reducible refine Keeps.doIf ?_ (fun _ _ => ?_)
    | with_reducible refine Keeps.foldl ?_ (fun _ _ _ => ?_)
    | with_reducible refine Keeps.foldlFst ?_ (fun _ _ _ => ?_)
    | with_reducible refine Keeps.foldlSnd ?_ (fun _ _ _ => ?_)
    | with_reducible refine KeepsR.host ?_ (fun _ _ => ?_)
    | (lift_lets; intro x; clear_value x)
    | with_reducible refine Keeps.ofSnd (by assumption) ?_
    | with_reducible refine Keeps.ofFst (by assumption) ?_
    | split
    | dsimp only

theorem State.lineFrame_keeps {ρ : State} {s : State} {h : Nat} (hk : Keeps ρ s) : Keeps ρ (State.lineFrame s h) := by
  unfold State.lineFrame
  repeat' first
    | with_reducible assumption
    | with_reducible refine KeepsR.next ?_
    | fail_if_no_progress with_reducible refine Keeps.mkK ?_
    | with_reducible refine State.setLine_keeps ?_
    | with_reducible refine State.clearOnce_keeps ?_
    | with_reducible refine State.genCommand_keeps ?_
    | with_reducible refine State.sendTiming_keeps ?_
    | with_reducible refine Keeps.doAll ?_ (fun _ _ _ => ?_)
    | with_reducible refine Keeps.doIf ?_ (fun _ _ => ?_)
    | with_reducible refine Keeps.foldl ?_ (fun _ _ _ => ?_)
    | with_reducible refine Keeps.foldlFst ?_ (fun _ _ _ => ?_)
    | with_reducible refine Keeps.foldlSnd ?_ (fun _ _ _ => ?_)
    | with_reducible refine KeepsR.host ?_ (fun _ _ => ?_)
    | (lift_lets; intro x; clear_value x)
    | with_reducible refine Keeps.ofSnd (by assumption) ?_
    | with_reducible refine Keeps.ofFst (by assumption) ?_
    | split

theorem execLmLoadTable_keeps {ρ : State} {m : Fin 8} {s : State} (hk : Keeps ρ s) : KeepsR ρ (execLmLoadTable m s) := by
  unfold execLmLoadTable
  repeat' first
    | with_reducible assumption
    | with_reducible refine KeepsR.next ?_
    | fail_if_no_progress with_reducible refine Keeps.mkK ?_
    | with_reducible refine State.setOutcome_keeps ?_
    | with_reducible refine State.outcome0_keeps ?_
    | with_reducible refine State.withCmd_keeps ?_ (fun _ _ _ => ?_)
    | with_reducible refine State.orElse_keeps ?_ (fun _ _ => ?_)
    | with_reducible refine State.withImage_keeps ?_ (fun _ _ _ => ?_)
    | with_reducible refine Keeps.doAll ?_ (fun _ _ _ => ?_)
    | with_reducible refine Keeps.doIf ?_ (fun _ _ => ?_)
    | with_reducible refine Keeps.foldl ?_ (fun _ _ _ => ?_)
    | with_reducible refine Keeps.foldlFst ?_ (fun _ _ _ => ?_)
    | with_reducible refine Keeps.foldlSnd ?_ (fun _ _ _ => ?_)
    | with_reducible refine KeepsR.host ?_ (fun _ _ => ?_)
    | (lift_lets; intro x; clear_value x)
    | with_reducible refine Keeps.ofSnd (by assumption) ?_
    | with_reducible refine Keeps.ofFst (by assumption) ?_
    | split

theorem State.seqWords_keeps {ρ : State} {s : State} {h : Nat} {old : List Slot} (hk : Keeps ρ s) : Keeps ρ (State.seqWords s h old) := by
  unfold State.seqWords
  repeat' first
    | with_reducible assumption
    | with_reducible refine KeepsR.next ?_
    | fail_if_no_progress with_reducible refine Keeps.mkK ?_
    | with_reducible refine State.setFld_keeps ?_

theorem State.releaseLoad_keeps {ρ : State} {s : State} {h : Nat} {b : Nat} {l : List Slot} {start : Nat} {first : Bool} (hk : Keeps ρ s) : Keeps ρ (State.releaseLoad s h b l start first) := by
  unfold State.releaseLoad
  repeat' first
    | with_reducible assumption
    | with_reducible refine KeepsR.next ?_
    | fail_if_no_progress with_reducible refine Keeps.mkK ?_
    | with_reducible refine State.setBandOf_keeps ?_
    | with_reducible refine State.resend_keeps ?_
    | with_reducible refine State.copyView_keeps ?_
    | with_reducible refine Keeps.doAll ?_ (fun _ _ _ => ?_)
    | with_reducible refine Keeps.doIf ?_ (fun _ _ => ?_)
    | with_reducible refine Keeps.foldl ?_ (fun _ _ _ => ?_)
    | with_reducible refine Keeps.foldlFst ?_ (fun _ _ _ => ?_)
    | with_reducible refine Keeps.foldlSnd ?_ (fun _ _ _ => ?_)
    | with_reducible refine KeepsR.host ?_ (fun _ _ => ?_)
    | (lift_lets; intro x; refine Keeps.cut (r := ρ) (x := x) ?_ (fun hx => ?_); (on_goal 1 => dsimp only [x]); (on_goal 2 => clear_value x))
    | (lift_lets; intro x; clear_value x)
    | with_reducible refine Keeps.ofSnd (by assumption) ?_
    | with_reducible refine Keeps.ofFst (by assumption) ?_
    | split

theorem State.lostWindows_keeps {ρ : State} {s : State} {h : Nat} {l : List HeldWindow} {upTo : Nat} (hk : Keeps ρ s) : Keeps ρ (State.lostWindows s h l upTo) := by
  unfold State.lostWindows
  repeat' first
    | with_reducible assumption
    | with_reducible refine KeepsR.next ?_
    | fail_if_no_progress with_reducible refine Keeps.mkK ?_
    | with_reducible refine State.count_keeps ?_
    | with_reducible refine State.raiseOnce_keeps ?_
    | with_reducible refine Keeps.doAll ?_ (fun _ _ _ => ?_)
    | with_reducible refine Keeps.doIf ?_ (fun _ _ => ?_)
    | with_reducible refine Keeps.foldl ?_ (fun _ _ _ => ?_)
    | with_reducible refine Keeps.foldlFst ?_ (fun _ _ _ => ?_)
    | with_reducible refine Keeps.foldlSnd ?_ (fun _ _ _ => ?_)
    | with_reducible refine KeepsR.host ?_ (fun _ _ => ?_)
    | (lift_lets; intro x; clear_value x)
    | with_reducible refine Keeps.ofSnd (by assumption) ?_
    | with_reducible refine Keeps.ofFst (by assumption) ?_
    | split

theorem State.shiftEnd_keeps {ρ : State} {s : State} {h : Nat} (hk : Keeps ρ s) : Keeps ρ (State.shiftEnd s h) := by
  unfold State.shiftEnd
  repeat' first
    | with_reducible assumption
    | with_reducible refine KeepsR.next ?_
    | fail_if_no_progress with_reducible refine Keeps.mkK ?_
    | with_reducible refine State.modHeadOf_keeps ?_
    | with_reducible refine State.lostWindows_keeps ?_

theorem execDecisionInstant_keeps {ρ : State} {h : Fin 4} {band : Fin 32} {s : State} (hk : Keeps ρ s) : KeepsR ρ (execDecisionInstant h band s) := by
  unfold execDecisionInstant
  repeat' first
    | with_reducible assumption
    | with_reducible refine KeepsR.next ?_
    | fail_if_no_progress with_reducible refine Keeps.mkK ?_
    | with_reducible refine State.setBandOf_keeps ?_
    | with_reducible refine State.modHeadOf_keeps ?_
    | with_reducible refine State.setFld_keeps ?_
    | with_reducible refine State.count_keeps ?_
    | with_reducible refine State.raiseOnce_keeps ?_
    | with_reducible refine State.releaseLoad_keeps ?_
    | with_reducible refine State.shiftEnd_keeps ?_
    | with_reducible refine Keeps.doAll ?_ (fun _ _ _ => ?_)
    | with_reducible refine Keeps.doIf ?_ (fun _ _ => ?_)
    | with_reducible refine Keeps.foldl ?_ (fun _ _ _ => ?_)
    | with_reducible refine Keeps.foldlFst ?_ (fun _ _ _ => ?_)
    | with_reducible refine Keeps.foldlSnd ?_ (fun _ _ _ => ?_)
    | with_reducible refine KeepsR.host ?_ (fun _ _ => ?_)
    | (lift_lets; intro x; clear_value x)
    | with_reducible refine Keeps.ofSnd (by assumption) ?_
    | with_reducible refine Keeps.ofFst (by assumption) ?_
    | split

theorem State.place_keeps {ρ : State} {s : State} {out : Nat} {at0 : Int} {level : Bool} (hk : Keeps ρ s) : Keeps ρ (State.place s out at0 level) := by
  unfold State.place
  repeat' first
    | with_reducible assumption
    | with_reducible refine KeepsR.next ?_
    | fail_if_no_progress with_reducible refine Keeps.mkK ?_

theorem State.lightWindow_keeps {ρ : State} {s : State} {h : Nat} {w : HeldWindow} {onEdge : Bool} (hk : Keeps ρ s) : Keeps ρ (State.lightWindow s h w onEdge) := by
  unfold State.lightWindow
  repeat' first
    | with_reducible assumption
    | with_reducible refine KeepsR.next ?_
    | fail_if_no_progress with_reducible refine Keeps.mkK ?_
    | with_reducible refine State.modHeadOf_keeps ?_
    | with_reducible refine State.ageRow_keeps ?_
    | with_reducible refine State.place_keeps ?_
    | with_reducible refine Keeps.doAll ?_ (fun _ _ _ => ?_)
    | with_reducible refine Keeps.doIf ?_ (fun _ _ => ?_)
    | with_reducible refine Keeps.foldl ?_ (fun _ _ _ => ?_)
    | with_reducible refine Keeps.foldlFst ?_ (fun _ _ _ => ?_)
    | with_reducible refine Keeps.foldlSnd ?_ (fun _ _ _ => ?_)
    | with_reducible refine KeepsR.host ?_ (fun _ _ => ?_)
    | (lift_lets; intro x; refine Keeps.cut (r := ρ) (x := x) ?_ (fun hx => ?_); (on_goal 1 => dsimp only [x]); (on_goal 2 => clear_value x))
    | with_reducible refine Keeps.ofSnd (by assumption) ?_
    | with_reducible refine Keeps.ofFst (by assumption) ?_
    | split

theorem State.floodWindow_keeps {ρ : State} {s : State} {h : Nat} {before : Option Slot} {k : Slot} {after : Option Slot} {on : Nat} {off : Nat} (hk : Keeps ρ s) : Keeps ρ (State.floodWindow s h before k after on off) := by
  unfold State.floodWindow
  repeat' first
    | with_reducible assumption
    | with_reducible refine KeepsR.next ?_
    | fail_if_no_progress with_reducible refine Keeps.mkK ?_
    | with_reducible refine State.lightWindow_keeps ?_
    | with_reducible refine Keeps.doAll ?_ (fun _ _ _ => ?_)

theorem State.shiftSettled_keeps {ρ : State} {s : State} {h : Nat} (hk : Keeps ρ s) : Keeps ρ (State.shiftSettled s h) := by
  unfold State.shiftSettled
  repeat' first
    | with_reducible assumption
    | with_reducible refine KeepsR.next ?_
    | fail_if_no_progress with_reducible refine Keeps.mkK ?_
    | with_reducible refine State.modHeadOf_keeps ?_
    | with_reducible refine State.lostWindows_keeps ?_
    | with_reducible refine State.lightWindow_keeps ?_
    | with_reducible refine Keeps.doAll ?_ (fun _ _ _ => ?_)
    | with_reducible refine Keeps.doIf ?_ (fun _ _ => ?_)
    | with_reducible refine Keeps.foldl ?_ (fun _ _ _ => ?_)
    | with_reducible refine Keeps.foldlFst ?_ (fun _ _ _ => ?_)
    | with_reducible refine Keeps.foldlSnd ?_ (fun _ _ _ => ?_)
    | with_reducible refine KeepsR.host ?_ (fun _ _ => ?_)
    | (lift_lets; intro x; clear_value x)
    | with_reducible refine Keeps.ofSnd (by assumption) ?_
    | with_reducible refine Keeps.ofFst (by assumption) ?_
    | split

theorem State.zoneWindow_keeps {ρ : State} {s : State} {h : Nat} {z : Nat} {b : Nat} {before : Option Slot} {k : Slot} {after : Option Slot} {on : Nat} {len : Nat} (hk : Keeps ρ s) : Keeps ρ (State.zoneWindow s h z b before k after on len) := by
  unfold State.zoneWindow
  repeat' first
    | with_reducible assumption
    | with_reducible refine KeepsR.next ?_
    | fail_if_no_progress with_reducible refine Keeps.mkK ?_
    | with_reducible refine State.gate_keeps ?_
    | with_reducible refine State.lightWindow_keeps ?_
    | with_reducible refine Keeps.doAll ?_ (fun _ _ _ => ?_)
    | with_reducible refine Keeps.doIf ?_ (fun _ _ => ?_)
    | with_reducible refine Keeps.foldl ?_ (fun _ _ _ => ?_)
    | with_reducible refine Keeps.foldlFst ?_ (fun _ _ _ => ?_)
    | with_reducible refine Keeps.foldlSnd ?_ (fun _ _ _ => ?_)
    | with_reducible refine KeepsR.host ?_ (fun _ _ => ?_)
    | (lift_lets; intro x; clear_value x)
    | with_reducible refine Keeps.ofSnd (by assumption) ?_
    | with_reducible refine Keeps.ofFst (by assumption) ?_
    | split

theorem State.probePulses_keeps {ρ : State} {s : State} {h : Nat} {k : Slot} {start : Nat} (hk : Keeps ρ s) : Keeps ρ (State.probePulses s h k start) := by
  unfold State.probePulses
  repeat' first
    | with_reducible assumption
    | with_reducible refine KeepsR.next ?_
    | fail_if_no_progress with_reducible refine Keeps.mkK ?_
    | with_reducible refine State.modStr_keeps ?_
    | with_reducible refine State.count_keeps ?_
    | with_reducible refine State.place_keeps ?_
    | with_reducible refine Keeps.doAll ?_ (fun _ _ _ => ?_)

theorem State.slotLight_keeps {ρ : State} {s : State} {h : Nat} {b : Nat} {before : Option Slot} {k : Slot} {after : Option Slot} {start : Nat} (hk : Keeps ρ s) : Keeps ρ (State.slotLight s h b before k after start) := by
  unfold State.slotLight
  repeat' first
    | with_reducible assumption
    | with_reducible refine KeepsR.next ?_
    | fail_if_no_progress with_reducible refine Keeps.mkK ?_
    | with_reducible refine State.floodWindow_keeps ?_
    | with_reducible refine State.zoneWindow_keeps ?_
    | with_reducible refine State.probePulses_keeps ?_
    | with_reducible refine Keeps.doAll ?_ (fun _ _ _ => ?_)
    | with_reducible refine Keeps.doIf ?_ (fun _ _ => ?_)
    | with_reducible refine Keeps.foldl ?_ (fun _ _ _ => ?_)
    | with_reducible refine Keeps.foldlFst ?_ (fun _ _ _ => ?_)
    | with_reducible refine Keeps.foldlSnd ?_ (fun _ _ _ => ?_)
    | with_reducible refine KeepsR.host ?_ (fun _ _ => ?_)
    | (lift_lets; intro x; clear_value x)
    | with_reducible refine Keeps.ofSnd (by assumption) ?_
    | with_reducible refine Keeps.ofFst (by assumption) ?_
    | split

theorem execSlotStart_keeps {ρ : State} {h : Fin 4} {band : Fin 32} {s : State} (hk : Keeps ρ s) : KeepsR ρ (execSlotStart h band s) := by
  unfold execSlotStart
  repeat' first
    | with_reducible assumption
    | with_reducible refine KeepsR.next ?_
    | fail_if_no_progress with_reducible refine Keeps.mkK ?_
    | with_reducible refine State.setBandOf_keeps ?_
    | with_reducible refine State.modHeadOf_keeps ?_
    | with_reducible refine State.count_keeps ?_
    | with_reducible refine State.genCommand_keeps ?_
    | with_reducible refine State.releaseLoad_keeps ?_
    | with_reducible refine State.slotLight_keeps ?_
    | with_reducible refine Keeps.doAll ?_ (fun _ _ _ => ?_)
    | with_reducible refine Keeps.doIf ?_ (fun _ _ => ?_)
    | with_reducible refine Keeps.foldl ?_ (fun _ _ _ => ?_)
    | with_reducible refine Keeps.foldlFst ?_ (fun _ _ _ => ?_)
    | with_reducible refine Keeps.foldlSnd ?_ (fun _ _ _ => ?_)
    | with_reducible refine KeepsR.host ?_ (fun _ _ => ?_)
    | (lift_lets; intro x; clear_value x)
    | with_reducible refine Keeps.ofSnd (by assumption) ?_
    | with_reducible refine Keeps.ofFst (by assumption) ?_
    | split

theorem execEdgeInstant_keeps {ρ : State} {out : Fin 136} {s : State} (hk : Keeps ρ s) : KeepsR ρ (execEdgeInstant out s) := by
  unfold execEdgeInstant
  repeat' first
    | with_reducible assumption
    | with_reducible refine KeepsR.next ?_
    | fail_if_no_progress with_reducible refine Keeps.mkK ?_
    | with_reducible refine State.setTout_keeps ?_
    | with_reducible refine Keeps.doAll ?_ (fun _ _ _ => ?_)
    | with_reducible refine Keeps.doIf ?_ (fun _ _ => ?_)
    | with_reducible refine Keeps.foldl ?_ (fun _ _ _ => ?_)
    | with_reducible refine Keeps.foldlFst ?_ (fun _ _ _ => ?_)
    | with_reducible refine Keeps.foldlSnd ?_ (fun _ _ _ => ?_)
    | with_reducible refine KeepsR.host ?_ (fun _ _ => ?_)
    | (lift_lets; intro x; refine Keeps.cut (r := ρ) (x := x) ?_ (fun hx => ?_); (on_goal 1 => dsimp only [x]); (on_goal 2 => clear_value x))
    | (lift_lets; intro x; clear_value x)
    | with_reducible refine Keeps.ofSnd (by assumption) ?_
    | with_reducible refine Keeps.ofFst (by assumption) ?_
    | split

theorem State.resetBand_keeps {ρ : State} {s : State} {h : Nat} {b : Nat} {late : Nat} {dump : Bool} (hk : Keeps ρ s) : Keeps ρ (State.resetBand s h b late dump) := by
  unfold State.resetBand
  repeat' first
    | with_reducible assumption
    | with_reducible refine KeepsR.next ?_
    | fail_if_no_progress with_reducible refine Keeps.mkK ?_
    | with_reducible refine State.setBandOf_keeps ?_
    | with_reducible refine State.resend_keeps ?_
    | with_reducible refine State.stale_keeps ?_
    | with_reducible refine Keeps.doAll ?_ (fun _ _ _ => ?_)
    | with_reducible refine Keeps.doIf ?_ (fun _ _ => ?_)
    | with_reducible refine Keeps.foldl ?_ (fun _ _ _ => ?_)
    | with_reducible refine Keeps.foldlFst ?_ (fun _ _ _ => ?_)
    | with_reducible refine Keeps.foldlSnd ?_ (fun _ _ _ => ?_)
    | with_reducible refine KeepsR.host ?_ (fun _ _ => ?_)
    | (lift_lets; intro x; clear_value x)
    | with_reducible refine Keeps.ofSnd (by assumption) ?_
    | with_reducible refine Keeps.ofFst (by assumption) ?_
    | split
    | dsimp only

theorem execResetColumn_keeps {ρ : State} {h : Fin 4} {band : Fin 32} {gap : Fin 4096} {s : State} (hk : Keeps ρ s) : KeepsR ρ (execResetColumn h band gap s) := by
  unfold execResetColumn
  repeat' first
    | with_reducible assumption
    | with_reducible refine KeepsR.next ?_
    | fail_if_no_progress with_reducible refine Keeps.mkK ?_
    | with_reducible refine State.modPort_keeps ?_
    | with_reducible refine State.emit_keeps ?_
    | with_reducible refine State.sendColumn_keeps ?_
    | with_reducible refine State.resetBand_keeps ?_
    | with_reducible refine Keeps.doAll ?_ (fun _ _ _ => ?_)
    | with_reducible refine Keeps.doIf ?_ (fun _ _ => ?_)
    | with_reducible refine Keeps.foldl ?_ (fun _ _ _ => ?_)
    | with_reducible refine Keeps.foldlFst ?_ (fun _ _ _ => ?_)
    | with_reducible refine Keeps.foldlSnd ?_ (fun _ _ _ => ?_)
    | with_reducible refine KeepsR.host ?_ (fun _ _ => ?_)
    | (lift_lets; intro x; clear_value x)
    | with_reducible refine Keeps.ofSnd (by assumption) ?_
    | with_reducible refine Keeps.ofFst (by assumption) ?_
    | split

theorem State.poisonRow_keeps {ρ : State} {s : State} {h : Nat} {b : Nat} (hk : Keeps ρ s) : Keeps ρ (State.poisonRow s h b) := by
  unfold State.poisonRow
  repeat' first
    | with_reducible assumption
    | with_reducible refine KeepsR.next ?_
    | fail_if_no_progress with_reducible refine Keeps.mkK ?_
    | with_reducible refine State.modBandOf_keeps ?_
    | with_reducible refine State.count_keeps ?_
    | with_reducible refine State.raiseOnce_keeps ?_
    | with_reducible refine Keeps.doAll ?_ (fun _ _ _ => ?_)
    | with_reducible refine Keeps.doIf ?_ (fun _ _ => ?_)

theorem State.sendPlaneRow_keeps {ρ : State} {s : State} {h : Nat} {b : Nat} {l : Load} {y : Nat} {resend : Bool} (hk : Keeps ρ s) : Keeps ρ (State.sendPlaneRow s h b l y resend) := by
  unfold State.sendPlaneRow
  repeat' first
    | with_reducible assumption
    | with_reducible refine KeepsR.next ?_
    | fail_if_no_progress with_reducible refine Keeps.mkK ?_
    | with_reducible refine State.sendPacket_keeps ?_
    | with_reducible refine State.resend_keeps ?_
    | with_reducible refine State.poisonRow_keeps ?_
    | with_reducible refine Keeps.doAll ?_ (fun _ _ _ => ?_)
    | with_reducible refine Keeps.doIf ?_ (fun _ _ => ?_)

theorem State.sendNext_keeps {ρ : State} {s : State} {h : Nat} {b : Nat} (hk : Keeps ρ s) : Keeps ρ (State.sendNext s h b) := by
  unfold State.sendNext
  repeat' first
    | with_reducible assumption
    | with_reducible refine KeepsR.next ?_
    | fail_if_no_progress with_reducible refine Keeps.mkK ?_
    | with_reducible refine State.modBandOf_keeps ?_
    | with_reducible refine State.count_keeps ?_
    | with_reducible refine State.sendPlaneRow_keeps ?_
    | with_reducible refine Keeps.doAll ?_ (fun _ _ _ => ?_)
    | with_reducible refine Keeps.doIf ?_ (fun _ _ => ?_)
    | with_reducible refine Keeps.foldl ?_ (fun _ _ _ => ?_)
    | with_reducible refine Keeps.foldlFst ?_ (fun _ _ _ => ?_)
    | with_reducible refine Keeps.foldlSnd ?_ (fun _ _ _ => ?_)
    | with_reducible refine KeepsR.host ?_ (fun _ _ => ?_)
    | (lift_lets; intro x; clear_value x)
    | with_reducible refine Keeps.ofSnd (by assumption) ?_
    | with_reducible refine Keeps.ofFst (by assumption) ?_
    | split

theorem State.sendLine_keeps {ρ : State} {s : State} {h : Nat} {o : Out} (hk : Keeps ρ s) : Keeps ρ (State.sendLine s h o) := by
  unfold State.sendLine
  repeat' first
    | with_reducible assumption
    | with_reducible refine KeepsR.next ?_
    | fail_if_no_progress with_reducible refine Keeps.mkK ?_
    | with_reducible refine State.sendPacket_keeps ?_
    | with_reducible refine Keeps.doAll ?_ (fun _ _ _ => ?_)
    | with_reducible refine Keeps.doIf ?_ (fun _ _ => ?_)
    | with_reducible refine Keeps.foldl ?_ (fun _ _ _ => ?_)
    | with_reducible refine Keeps.foldlFst ?_ (fun _ _ _ => ?_)
    | with_reducible refine Keeps.foldlSnd ?_ (fun _ _ _ => ?_)
    | with_reducible refine KeepsR.host ?_ (fun _ _ => ?_)
    | with_reducible refine Keeps.ofSnd (by assumption) ?_
    | with_reducible refine Keeps.ofFst (by assumption) ?_
    | split

theorem execPacketBoundary_keeps {ρ : State} {h : Fin 4} {s : State} (hk : Keeps ρ s) : KeepsR ρ (execPacketBoundary h s) := by
  unfold execPacketBoundary
  repeat' first
    | with_reducible assumption
    | with_reducible refine KeepsR.next ?_
    | fail_if_no_progress with_reducible refine Keeps.mkK ?_
    | with_reducible refine State.modLine_keeps ?_
    | with_reducible refine State.sendFill_keeps ?_
    | with_reducible refine State.sendNext_keeps ?_
    | with_reducible refine State.sendLine_keeps ?_
    | with_reducible refine Keeps.doAll ?_ (fun _ _ _ => ?_)
    | with_reducible refine Keeps.doIf ?_ (fun _ _ => ?_)
    | with_reducible refine Keeps.foldl ?_ (fun _ _ _ => ?_)
    | with_reducible refine Keeps.foldlFst ?_ (fun _ _ _ => ?_)
    | with_reducible refine Keeps.foldlSnd ?_ (fun _ _ _ => ?_)
    | with_reducible refine KeepsR.host ?_ (fun _ _ => ?_)
    | (lift_lets; intro x; refine Keeps.cut (r := ρ) (x := x) ?_ (fun hx => ?_); (on_goal 1 => dsimp only [x]); (on_goal 2 => clear_value x))
    | with_reducible refine Keeps.ofSnd (by assumption) ?_
    | with_reducible refine Keeps.ofFst (by assumption) ?_
    | split

theorem State.takeSeq_keeps {ρ s : State} {m h a : Nat} (hk : Keeps ρ s) : Keeps ρ (s.takeSeq m h a) := by
  unfold State.takeSeq
  extract_lets slot r bank words t
  split
  · exact State.setOutcome_keeps hk
  · split
    · exact State.outcome0_keeps hk
    · refine State.setOutcome_keeps ?_
      exact ⟨hk.pending, hk.fuses, fun c =>
        ⟨(hk.canonical c).mem, (hk.canonical c).loft, (hk.canonical c).flash, tabWf_put (hk.canonical c).regs⟩⟩

theorem execSeqLoad_keeps {ρ : State} {m : Fin 8} {s : State} (hk : Keeps ρ s) : KeepsR ρ (execSeqLoad m s) := by
  unfold execSeqLoad
  repeat' first
    | with_reducible assumption
    | with_reducible refine KeepsR.next ?_
    | fail_if_no_progress with_reducible refine Keeps.mkK ?_
    | with_reducible refine State.outcome0_keeps ?_
    | with_reducible refine State.withCmd_keeps ?_ (fun _ _ _ => ?_)
    | with_reducible refine State.withImage_keeps ?_ (fun _ _ _ => ?_)
    | with_reducible refine State.takeSeq_keeps ?_
    | with_reducible refine Keeps.doAll ?_ (fun _ _ _ => ?_)
    | with_reducible refine Keeps.doIf ?_ (fun _ _ => ?_)
    | with_reducible refine Keeps.foldl ?_ (fun _ _ _ => ?_)
    | with_reducible refine Keeps.foldlFst ?_ (fun _ _ _ => ?_)
    | with_reducible refine Keeps.foldlSnd ?_ (fun _ _ _ => ?_)
    | with_reducible refine KeepsR.host ?_ (fun _ _ => ?_)
    | with_reducible refine Keeps.ofSnd (by assumption) ?_
    | with_reducible refine Keeps.ofFst (by assumption) ?_
    | split

theorem State.avsRequest_keeps {ρ : State} {s : State} {mv : Nat} (hk : Keeps ρ s) : Keeps ρ (State.avsRequest s mv) := by
  unfold State.avsRequest
  repeat' first
    | with_reducible assumption
    | with_reducible refine KeepsR.next ?_
    | fail_if_no_progress with_reducible refine Keeps.mkK ?_
    | with_reducible refine State.setFld_keeps ?_
    | with_reducible refine State.emit_keeps ?_

theorem State.avsRaise_keeps {ρ : State} {s : State} (hk : Keeps ρ s) : Keeps ρ (State.avsRaise s) := by
  unfold State.avsRaise
  repeat' first
    | with_reducible assumption
    | with_reducible refine KeepsR.next ?_
    | fail_if_no_progress with_reducible refine Keeps.mkK ?_
    | with_reducible refine State.setFld_keeps ?_
    | with_reducible refine State.setFlag_keeps ?_
    | with_reducible refine State.raise_keeps ?_
    | with_reducible refine State.avsRequest_keeps ?_
    | with_reducible refine Keeps.doAll ?_ (fun _ _ _ => ?_)
    | with_reducible refine Keeps.doIf ?_ (fun _ _ => ?_)

theorem State.avsLower_keeps {ρ : State} {s : State} (hk : Keeps ρ s) : Keeps ρ (State.avsLower s) := by
  unfold State.avsLower
  repeat' first
    | with_reducible assumption
    | with_reducible refine KeepsR.next ?_
    | fail_if_no_progress with_reducible refine Keeps.mkK ?_
    | with_reducible refine State.setFlag_keeps ?_
    | with_reducible refine State.avsRequest_keeps ?_

theorem execReplicaMeasurement_keeps {ρ : State} {ps : Nat} {s : State} (hk : Keeps ρ s) : KeepsR ρ (execReplicaMeasurement ps s) := by
  unfold execReplicaMeasurement
  repeat' first
    | with_reducible assumption
    | with_reducible refine KeepsR.next ?_
    | fail_if_no_progress with_reducible refine Keeps.mkK ?_
    | with_reducible refine State.setFld_keeps ?_
    | with_reducible refine State.avsRaise_keeps ?_
    | with_reducible refine State.avsLower_keeps ?_
    | with_reducible refine State.retry_keeps ?_
    | with_reducible refine Keeps.doAll ?_ (fun _ _ _ => ?_)
    | with_reducible refine Keeps.doIf ?_ (fun _ _ => ?_)
    | with_reducible refine Keeps.foldl ?_ (fun _ _ _ => ?_)
    | with_reducible refine Keeps.foldlFst ?_ (fun _ _ _ => ?_)
    | with_reducible refine Keeps.foldlSnd ?_ (fun _ _ _ => ?_)
    | with_reducible refine KeepsR.host ?_ (fun _ _ => ?_)
    | (lift_lets; intro x; clear_value x)
    | with_reducible refine Keeps.ofSnd (by assumption) ?_
    | with_reducible refine Keeps.ofFst (by assumption) ?_
    | split
    | dsimp only

theorem execAvsbusTransactionFail_keeps {ρ : State} {s : State} (hk : Keeps ρ s) : KeepsR ρ (execAvsbusTransactionFail s) := by
  unfold execAvsbusTransactionFail
  repeat' first
    | with_reducible assumption
    | with_reducible refine KeepsR.next ?_
    | fail_if_no_progress with_reducible refine Keeps.mkK ?_
    | with_reducible refine State.setFld_keeps ?_
    | with_reducible refine State.raise_keeps ?_

theorem execAvsRetry_keeps {ρ : State} {ok : Bool} {s : State} (hk : Keeps ρ s) : KeepsR ρ (execAvsRetry ok s) := by
  unfold execAvsRetry
  repeat' first
    | with_reducible assumption
    | with_reducible refine KeepsR.next ?_
    | fail_if_no_progress with_reducible refine Keeps.mkK ?_
    | with_reducible refine State.setFld_keeps ?_
    | with_reducible refine State.emit_keeps ?_
    | with_reducible refine State.raise_keeps ?_
    | with_reducible refine State.retry_keeps ?_
    | with_reducible refine Keeps.doAll ?_ (fun _ _ _ => ?_)
    | with_reducible refine Keeps.doIf ?_ (fun _ _ => ?_)
    | with_reducible refine Keeps.foldl ?_ (fun _ _ _ => ?_)
    | with_reducible refine Keeps.foldlFst ?_ (fun _ _ _ => ?_)
    | with_reducible refine Keeps.foldlSnd ?_ (fun _ _ _ => ?_)
    | with_reducible refine KeepsR.host ?_ (fun _ _ => ?_)
    | (lift_lets; intro x; refine Keeps.cut (r := ρ) (x := x) ?_ (fun hx => ?_); (on_goal 1 => dsimp only [x]); (on_goal 2 => clear_value x))
    | with_reducible refine Keeps.ofSnd (by assumption) ?_
    | with_reducible refine Keeps.ofFst (by assumption) ?_
    | split

theorem execLoopSample_keeps {ρ : State} {l : Fin 64} {raw : Word} {s : State} (hk : Keeps ρ s) : KeepsR ρ (execLoopSample l raw s) := by
  unfold execLoopSample
  repeat' first
    | with_reducible assumption
    | with_reducible refine KeepsR.next ?_
    | fail_if_no_progress with_reducible refine Keeps.mkK ?_
    | with_reducible refine State.modLoop_keeps ?_
    | with_reducible refine State.genSample_keeps ?_
    | with_reducible refine State.injSample_keeps ?_
    | with_reducible refine Keeps.doAll ?_ (fun _ _ _ => ?_)
    | with_reducible refine Keeps.doIf ?_ (fun _ _ => ?_)
    | with_reducible refine Keeps.foldl ?_ (fun _ _ _ => ?_)
    | with_reducible refine Keeps.foldlFst ?_ (fun _ _ _ => ?_)
    | with_reducible refine Keeps.foldlSnd ?_ (fun _ _ _ => ?_)
    | with_reducible refine KeepsR.host ?_ (fun _ _ => ?_)
    | (lift_lets; intro x; clear_value x)
    | with_reducible refine Keeps.ofSnd (by assumption) ?_
    | with_reducible refine Keeps.ofFst (by assumption) ?_
    | split

theorem State.sampleWords_keeps {ρ : State} {s : State} {l : Nat} {tick : Nat} {y : Int} (hk : Keeps ρ s) : Keeps ρ (State.sampleWords s l tick y) := by
  unfold State.sampleWords
  repeat' first
    | with_reducible assumption
    | with_reducible refine KeepsR.next ?_
    | fail_if_no_progress with_reducible refine Keeps.mkK ?_
    | with_reducible refine State.modLoop_keeps ?_
    | with_reducible refine State.setFld_keeps ?_
    | with_reducible refine State.setInt_keeps ?_
    | with_reducible refine State.crossing_keeps ?_
    | with_reducible refine Keeps.doAll ?_ (fun _ _ _ => ?_)
    | with_reducible refine Keeps.doIf ?_ (fun _ _ => ?_)
    | with_reducible refine Keeps.foldl ?_ (fun _ _ _ => ?_)
    | with_reducible refine Keeps.foldlFst ?_ (fun _ _ _ => ?_)
    | with_reducible refine Keeps.foldlSnd ?_ (fun _ _ _ => ?_)
    | with_reducible refine KeepsR.host ?_ (fun _ _ => ?_)
    | (lift_lets; intro x; clear_value x)
    | with_reducible refine Keeps.ofSnd (by assumption) ?_
    | with_reducible refine Keeps.ofFst (by assumption) ?_
    | split
    | dsimp only

theorem State.settleAll_keeps {ρ : State} {s : State} {l : Nat} {err : Int} (hk : Keeps ρ s) : Keeps ρ (State.settleAll s l err) := by
  unfold State.settleAll
  repeat' first
    | with_reducible assumption
    | with_reducible refine KeepsR.next ?_
    | fail_if_no_progress with_reducible refine Keeps.mkK ?_
    | with_reducible refine State.settleCheck_keeps ?_
    | with_reducible refine State.shiftSettled_keeps ?_
    | with_reducible refine Keeps.doAll ?_ (fun _ _ _ => ?_)
    | with_reducible refine Keeps.doIf ?_ (fun _ _ => ?_)
    | with_reducible refine Keeps.foldl ?_ (fun _ _ _ => ?_)
    | with_reducible refine Keeps.foldlFst ?_ (fun _ _ _ => ?_)
    | with_reducible refine Keeps.foldlSnd ?_ (fun _ _ _ => ?_)
    | with_reducible refine KeepsR.host ?_ (fun _ _ => ?_)
    | (lift_lets; intro x; refine Keeps.cut (r := ρ) (x := x) ?_ (fun hx => ?_); (on_goal 1 => dsimp only [x]); (on_goal 2 => clear_value x))
    | with_reducible refine Keeps.ofSnd (by assumption) ?_
    | with_reducible refine Keeps.ofFst (by assumption) ?_
    | split

theorem State.control_keeps {ρ : State} {s : State} {l : Nat} {q : LoopSample} {y : Int} {r : Int} (hk : Keeps ρ s) : Keeps ρ (State.control s l q y r) := by
  unfold State.control
  repeat' first
    | with_reducible assumption
    | with_reducible refine KeepsR.next ?_
    | fail_if_no_progress with_reducible refine Keeps.mkK ?_
    | with_reducible refine State.modLoop_keeps ?_
    | with_reducible refine State.setFld_keeps ?_
    | with_reducible refine State.setInt_keeps ?_
    | with_reducible refine State.count_keeps ?_
    | with_reducible refine State.raise_keeps ?_
    | with_reducible refine Keeps.doAll ?_ (fun _ _ _ => ?_)
    | with_reducible refine Keeps.doIf ?_ (fun _ _ => ?_)

theorem State.runLoop_keeps {ρ : State} {s : State} {l : Nat} {q : LoopSample} {y : Int} (hk : Keeps ρ s) : Keeps ρ (State.runLoop s l q y) := by
  unfold State.runLoop
  repeat' first
    | with_reducible assumption
    | with_reducible refine KeepsR.next ?_
    | fail_if_no_progress with_reducible refine Keeps.mkK ?_
    | with_reducible refine State.modLoop_keeps ?_
    | with_reducible refine State.feCheck_keeps ?_
    | with_reducible refine State.settleAll_keeps ?_
    | with_reducible refine State.control_keeps ?_
    | with_reducible refine Keeps.doAll ?_ (fun _ _ _ => ?_)
    | with_reducible refine Keeps.doIf ?_ (fun _ _ => ?_)

theorem State.loopTurn_keeps {ρ : State} {s : State} {l : Nat} (hk : Keeps ρ s) : Keeps ρ (State.loopTurn s l) := by
  unfold State.loopTurn
  repeat' first
    | with_reducible assumption
    | with_reducible refine KeepsR.next ?_
    | fail_if_no_progress with_reducible refine Keeps.mkK ?_
    | with_reducible refine State.modLoop_keeps ?_
    | with_reducible refine State.setFld_keeps ?_
    | with_reducible refine State.loopInit_keeps ?_
    | with_reducible refine State.loopUnsettle_keeps ?_
    | with_reducible refine Keeps.doAll ?_ (fun _ _ _ => ?_)
    | with_reducible refine Keeps.doIf ?_ (fun _ _ => ?_)
    | with_reducible refine Keeps.foldl ?_ (fun _ _ _ => ?_)
    | with_reducible refine Keeps.foldlFst ?_ (fun _ _ _ => ?_)
    | with_reducible refine Keeps.foldlSnd ?_ (fun _ _ _ => ?_)
    | with_reducible refine KeepsR.host ?_ (fun _ _ => ?_)
    | (lift_lets; intro x; refine Keeps.cut (r := ρ) (x := x) ?_ (fun hx => ?_); (on_goal 1 => dsimp only [x]); (on_goal 2 => clear_value x))
    | with_reducible refine Keeps.ofSnd (by assumption) ?_
    | with_reducible refine Keeps.ofFst (by assumption) ?_
    | split

theorem State.judgeGroup_keeps {ρ : State} {s : State} {l : Nat} {tick : Nat} (hk : Keeps ρ s) : Keeps ρ (State.judgeGroup s l tick) := by
  unfold State.judgeGroup
  repeat' first
    | with_reducible assumption
    | with_reducible refine KeepsR.next ?_
    | fail_if_no_progress with_reducible refine Keeps.mkK ?_
    | with_reducible refine State.lwJudge_keeps ?_
    | with_reducible refine Keeps.doAll ?_ (fun _ _ _ => ?_)
    | with_reducible refine Keeps.doIf ?_ (fun _ _ => ?_)
    | with_reducible refine Keeps.foldl ?_ (fun _ _ _ => ?_)
    | with_reducible refine Keeps.foldlFst ?_ (fun _ _ _ => ?_)
    | with_reducible refine Keeps.foldlSnd ?_ (fun _ _ _ => ?_)
    | with_reducible refine KeepsR.host ?_ (fun _ _ => ?_)
    | with_reducible refine Keeps.ofSnd (by assumption) ?_
    | with_reducible refine Keeps.ofFst (by assumption) ?_
    | split

theorem execLoopEvaluation_keeps {ρ : State} {l : Fin 64} {s : State} (hk : Keeps ρ s) : KeepsR ρ (execLoopEvaluation l s) := by
  unfold execLoopEvaluation
  repeat' first
    | with_reducible assumption
    | with_reducible refine KeepsR.next ?_
    | fail_if_no_progress with_reducible refine Keeps.mkK ?_
    | with_reducible refine State.modLoop_keeps ?_
    | with_reducible refine State.sampleWords_keeps ?_
    | with_reducible refine State.runLoop_keeps ?_
    | with_reducible refine State.loopTurn_keeps ?_
    | with_reducible refine State.judgeGroup_keeps ?_
    | with_reducible refine Keeps.doAll ?_ (fun _ _ _ => ?_)
    | with_reducible refine Keeps.doIf ?_ (fun _ _ => ?_)
    | with_reducible refine Keeps.foldl ?_ (fun _ _ _ => ?_)
    | with_reducible refine Keeps.foldlFst ?_ (fun _ _ _ => ?_)
    | with_reducible refine Keeps.foldlSnd ?_ (fun _ _ _ => ?_)
    | with_reducible refine KeepsR.host ?_ (fun _ _ => ?_)
    | (lift_lets; intro x; refine Keeps.cut (r := ρ) (x := x) ?_ (fun hx => ?_); (on_goal 1 => dsimp only [x]); (on_goal 2 => clear_value x))
    | (lift_lets; intro x; clear_value x)
    | with_reducible refine Keeps.ofSnd (by assumption) ?_
    | with_reducible refine Keeps.ofFst (by assumption) ?_
    | split

theorem State.overrun_keeps {ρ : State} {s : State} {l : Nat} (hk : Keeps ρ s) : Keeps ρ (State.overrun s l) := by
  unfold State.overrun
  repeat' first
    | with_reducible assumption
    | with_reducible refine KeepsR.next ?_
    | fail_if_no_progress with_reducible refine Keeps.mkK ?_
    | with_reducible refine State.modLoop_keeps ?_
    | with_reducible refine State.count_keeps ?_
    | with_reducible refine State.raise_keeps ?_
    | with_reducible refine State.loopFault_keeps ?_
    | with_reducible refine Keeps.doAll ?_ (fun _ _ _ => ?_)
    | with_reducible refine Keeps.doIf ?_ (fun _ _ => ?_)

theorem State.gateLatch_keeps {ρ : State} {s : State} {l : Nat} (hk : Keeps ρ s) : Keeps ρ (State.gateLatch s l) := by
  unfold State.gateLatch
  repeat' first
    | with_reducible assumption
    | with_reducible refine KeepsR.next ?_
    | fail_if_no_progress with_reducible refine Keeps.mkK ?_
    | with_reducible refine State.modLoop_keeps ?_

theorem execOutputInstant_keeps {ρ : State} {l : Fin 64} {s : State} (hk : Keeps ρ s) : KeepsR ρ (execOutputInstant l s) := by
  unfold execOutputInstant
  repeat' first
    | with_reducible assumption
    | with_reducible refine KeepsR.next ?_
    | fail_if_no_progress with_reducible refine Keeps.mkK ?_
    | with_reducible refine State.modLoop_keeps ?_
    | with_reducible refine State.capSample_keeps ?_
    | with_reducible refine State.drive_keeps ?_
    | with_reducible refine State.gates_keeps ?_
    | with_reducible refine State.overrun_keeps ?_
    | with_reducible refine State.gateLatch_keeps ?_
    | with_reducible refine Keeps.doAll ?_ (fun _ _ _ => ?_)
    | with_reducible refine Keeps.doIf ?_ (fun _ _ => ?_)
    | with_reducible refine Keeps.foldl ?_ (fun _ _ _ => ?_)
    | with_reducible refine Keeps.foldlFst ?_ (fun _ _ _ => ?_)
    | with_reducible refine Keeps.foldlSnd ?_ (fun _ _ _ => ?_)
    | with_reducible refine KeepsR.host ?_ (fun _ _ => ?_)
    | (lift_lets; intro x; refine Keeps.cut (r := ρ) (x := x) ?_ (fun hx => ?_); (on_goal 1 => dsimp only [x]); (on_goal 2 => clear_value x))
    | (lift_lets; intro x; clear_value x)
    | with_reducible refine Keeps.ofSnd (by assumption) ?_
    | with_reducible refine Keeps.ofFst (by assumption) ?_
    | split

theorem execInjectionEnd_keeps {ρ : State} {k : Fin 4} {s : State} (hk : Keeps ρ s) : KeepsR ρ (execInjectionEnd k s) := by
  unfold execInjectionEnd
  repeat' first
    | with_reducible assumption
    | with_reducible refine KeepsR.next ?_
    | fail_if_no_progress with_reducible refine Keeps.mkK ?_
    | with_reducible refine State.injEnd_keeps ?_
    | with_reducible refine Keeps.doAll ?_ (fun _ _ _ => ?_)
    | with_reducible refine Keeps.doIf ?_ (fun _ _ => ?_)
    | with_reducible refine Keeps.foldl ?_ (fun _ _ _ => ?_)
    | with_reducible refine Keeps.foldlFst ?_ (fun _ _ _ => ?_)
    | with_reducible refine Keeps.foldlSnd ?_ (fun _ _ _ => ?_)
    | with_reducible refine KeepsR.host ?_ (fun _ _ => ?_)
    | with_reducible refine Keeps.ofSnd (by assumption) ?_
    | with_reducible refine Keeps.ofFst (by assumption) ?_
    | split

theorem execCaptureFillEnd_keeps {ρ : State} {s : State} (hk : Keeps ρ s) : KeepsR ρ (execCaptureFillEnd s) := by
  unfold execCaptureFillEnd
  repeat' first
    | with_reducible assumption
    | with_reducible refine KeepsR.next ?_
    | fail_if_no_progress with_reducible refine Keeps.mkK ?_
    | with_reducible refine State.setFld_keeps ?_
    | with_reducible refine State.raise_keeps ?_
    | with_reducible refine Keeps.doAll ?_ (fun _ _ _ => ?_)
    | with_reducible refine Keeps.doIf ?_ (fun _ _ => ?_)
    | with_reducible refine Keeps.foldl ?_ (fun _ _ _ => ?_)
    | with_reducible refine Keeps.foldlFst ?_ (fun _ _ _ => ?_)
    | with_reducible refine Keeps.foldlSnd ?_ (fun _ _ _ => ?_)
    | with_reducible refine KeepsR.host ?_ (fun _ _ => ?_)
    | with_reducible refine Keeps.ofSnd (by assumption) ?_
    | with_reducible refine Keeps.ofFst (by assumption) ?_
    | split

theorem execCeMove_keeps {ρ : State} {m : Fin 8} {s : State} (hk : Keeps ρ s) : KeepsR ρ (execCeMove m s) := by
  unfold execCeMove
  repeat' first
    | with_reducible assumption
    | with_reducible refine KeepsR.next ?_
    | fail_if_no_progress with_reducible refine Keeps.mkK ?_
    | with_reducible refine State.outcome0_keeps ?_
    | with_reducible refine State.withCmd_keeps ?_ (fun _ _ _ => ?_)
    | with_reducible refine State.beginHead_keeps ?_
    | with_reducible refine State.genCommand_keeps ?_
    | with_reducible refine Keeps.doAll ?_ (fun _ _ _ => ?_)
    | with_reducible refine Keeps.doIf ?_ (fun _ _ => ?_)
    | with_reducible refine Keeps.foldl ?_ (fun _ _ _ => ?_)
    | with_reducible refine Keeps.foldlFst ?_ (fun _ _ _ => ?_)
    | with_reducible refine Keeps.foldlSnd ?_ (fun _ _ _ => ?_)
    | with_reducible refine KeepsR.host ?_ (fun _ _ => ?_)
    | (lift_lets; intro x; clear_value x)
    | with_reducible refine Keeps.ofSnd (by assumption) ?_
    | with_reducible refine Keeps.ofFst (by assumption) ?_
    | split

theorem execMoveTimeout_keeps {ρ : State} {m : Fin 8} {s : State} (hk : Keeps ρ s) : KeepsR ρ (execMoveTimeout m s) := by
  unfold execMoveTimeout
  repeat' first
    | with_reducible assumption
    | with_reducible refine KeepsR.next ?_
    | fail_if_no_progress with_reducible refine Keeps.mkK ?_
    | with_reducible refine State.outcome0_keeps ?_
    | with_reducible refine Keeps.doAll ?_ (fun _ _ _ => ?_)
    | with_reducible refine Keeps.doIf ?_ (fun _ _ => ?_)
    | with_reducible refine Keeps.foldl ?_ (fun _ _ _ => ?_)
    | with_reducible refine Keeps.foldlFst ?_ (fun _ _ _ => ?_)
    | with_reducible refine Keeps.foldlSnd ?_ (fun _ _ _ => ?_)
    | with_reducible refine KeepsR.host ?_ (fun _ _ => ?_)
    | with_reducible refine Keeps.ofSnd (by assumption) ?_
    | with_reducible refine Keeps.ofFst (by assumption) ?_
    | split

end Sys2Proof.Machine
end

