-- ==== Sys2Proof/Laws/KeepsGranary.lean ====
section
/-!
SUPPORT. The relation `Keeps` for the operations of Machine/Granary.lean, Machine/Thermal.lean.
-/

namespace Sys2Proof.Machine

theorem State.burst_keeps {ρ : State} {s : State} {write : Bool} {cs : Nat} {a : Nat} {word : List Nat} (hk : Keeps ρ s) : Keeps ρ (State.burst s write cs a word) := by
  unfold State.burst
  repeat' first
    | with_reducible assumption
    | with_reducible refine KeepsR.next ?_
    | fail_if_no_progress with_reducible refine Keeps.mkK ?_
    | with_reducible refine State.emit_keeps ?_

theorem State.enter_keeps {ρ : State} {s : State} {k : Nat} {q : Req} (hk : Keeps ρ s) : Keeps ρ (State.enter s k q) := by
  unfold State.enter
  repeat' first
    | with_reducible assumption
    | with_reducible refine KeepsR.next ?_
    | fail_if_no_progress with_reducible refine Keeps.mkK ?_
    | with_reducible refine State.setSub_keeps ?_
    | with_reducible refine State.count_keeps ?_
    | with_reducible refine State.store_keeps ?_
    | with_reducible refine Keeps.doAll ?_ (fun _ _ _ => ?_)
    | with_reducible refine Keeps.doIf ?_ (fun _ _ => ?_)
    | with_reducible refine Keeps.foldl ?_ (fun _ _ _ => ?_)
    | with_reducible refine Keeps.foldlFst ?_ (fun _ _ _ => ?_)
    | with_reducible refine Keeps.foldlSnd ?_ (fun _ _ _ => ?_)
    | with_reducible refine KeepsR.host ?_ (fun _ _ => ?_)
    | (lift_lets; intro x; clear_value x)
    | with_reducible refine Keeps.ofSnd (by assumption) ?_
    | with_reducible refine Keeps.ofFst (by assumption) ?_
    | split

theorem State.takeIn_keeps {ρ s : State} {k n : Nat} (hk : Keeps ρ s) : Keeps ρ (s.takeIn k n) := by
  induction n generalizing s with
  | zero => exact hk
  | succ n ih =>
    unfold State.takeIn
    extract_lets x
    split
    · exact ih (State.enter_keeps (State.setSub_keeps hk))
    · exact hk

theorem execGranaryRequest_keeps {ρ : State} {r : Fin 37} {addr : BitVec 40} {write : Bool} {fill : Fin 9} {data : List Byte} {s : State} (hk : Keeps ρ s) : KeepsR ρ (execGranaryRequest r addr write fill data s) := by
  unfold execGranaryRequest
  repeat' first
    | with_reducible assumption
    | with_reducible refine KeepsR.next ?_
    | fail_if_no_progress with_reducible refine Keeps.mkK ?_
    | with_reducible refine State.modSub_keeps ?_
    | with_reducible refine State.modChan_keeps ?_
    | with_reducible refine State.emit_keeps ?_
    | with_reducible refine State.outOfRange_keeps ?_
    | with_reducible refine State.glStates_keeps ?_
    | with_reducible refine State.wake_keeps ?_
    | with_reducible refine State.takeIn_keeps ?_
    | with_reducible refine Keeps.doAll ?_ (fun _ _ _ => ?_)
    | with_reducible refine Keeps.doIf ?_ (fun _ _ => ?_)
    | with_reducible refine Keeps.foldl ?_ (fun _ _ _ => ?_)
    | with_reducible refine Keeps.foldlFst ?_ (fun _ _ _ => ?_)
    | with_reducible refine Keeps.foldlSnd ?_ (fun _ _ _ => ?_)
    | with_reducible refine KeepsR.host ?_ (fun _ _ => ?_)
    | (lift_lets; intro x; clear_value x)
    | with_reducible refine Keeps.ofSnd (by assumption) ?_
    | with_reducible refine Keeps.ofFst (by assumption) ?_
    | split
    | dsimp only

theorem State.halve_keeps {ρ : State} {s : State} {ch : Nat} {bank : Nat} {r : Nat} (hk : Keeps ρ s) : Keeps ρ (State.halve s ch bank r) := by
  unfold State.halve
  repeat' first
    | with_reducible assumption
    | with_reducible refine KeepsR.next ?_
    | fail_if_no_progress with_reducible refine Keeps.mkK ?_
    | with_reducible refine State.setChan_keeps ?_
    | with_reducible refine State.count_keeps ?_
    | with_reducible refine State.raise2_keeps ?_
    | with_reducible refine Keeps.doAll ?_ (fun _ _ _ => ?_)
    | with_reducible refine Keeps.doIf ?_ (fun _ _ => ?_)
    | with_reducible refine Keeps.foldl ?_ (fun _ _ _ => ?_)
    | with_reducible refine Keeps.foldlFst ?_ (fun _ _ _ => ?_)
    | with_reducible refine Keeps.foldlSnd ?_ (fun _ _ _ => ?_)
    | with_reducible refine KeepsR.host ?_ (fun _ _ => ?_)
    | (lift_lets; intro x; clear_value x)
    | with_reducible refine Keeps.ofSnd (by assumption) ?_
    | with_reducible refine Keeps.ofFst (by assumption) ?_
    | split
    | dsimp only

theorem State.activate_keeps {ρ : State} {s : State} {ch : Nat} {bank : Nat} {row : Nat} {r : Nat} (hk : Keeps ρ s) : Keeps ρ (State.activate s ch bank row r) := by
  unfold State.activate
  repeat' first
    | with_reducible assumption
    | with_reducible refine KeepsR.next ?_
    | fail_if_no_progress with_reducible refine Keeps.mkK ?_
    | with_reducible refine State.modChan_keeps ?_
    | with_reducible refine State.raise2_keeps ?_
    | with_reducible refine State.halve_keeps ?_
    | with_reducible refine Keeps.doAll ?_ (fun _ _ _ => ?_)
    | with_reducible refine Keeps.doIf ?_ (fun _ _ => ?_)
    | with_reducible refine Keeps.foldl ?_ (fun _ _ _ => ?_)
    | with_reducible refine Keeps.foldlFst ?_ (fun _ _ _ => ?_)
    | with_reducible refine Keeps.foldlSnd ?_ (fun _ _ _ => ?_)
    | with_reducible refine KeepsR.host ?_ (fun _ _ => ?_)
    | (lift_lets; intro x; refine Keeps.cut (r := ρ) (x := x) ?_ (fun hx => ?_); (on_goal 1 => dsimp only [x]); (on_goal 2 => clear_value x))
    | with_reducible refine Keeps.ofSnd (by assumption) ?_
    | with_reducible refine Keeps.ofFst (by assumption) ?_
    | split
    | dsimp only

theorem execRhWindowEnd_keeps {ρ : State} {ch : Fin 8} {bank : Fin 64} {s : State} (hk : Keeps ρ s) : KeepsR ρ (execRhWindowEnd ch bank s) := by
  unfold execRhWindowEnd
  repeat' first
    | with_reducible assumption
    | with_reducible refine KeepsR.next ?_
    | fail_if_no_progress with_reducible refine Keeps.mkK ?_
    | with_reducible refine State.modChan_keeps ?_
    | with_reducible refine Keeps.doAll ?_ (fun _ _ _ => ?_)

theorem State.serve_keeps {ρ : State} {s : State} {ch : Nat} {sub : Nat} {q : Req} (hk : Keeps ρ s) : Keeps ρ (State.serve s ch sub q) := by
  unfold State.serve
  repeat' first
    | with_reducible assumption
    | with_reducible refine KeepsR.next ?_
    | fail_if_no_progress with_reducible refine Keeps.mkK ?_
    | with_reducible refine State.modChan_keeps ?_
    | with_reducible refine State.setFld_keeps ?_
    | with_reducible refine State.count_keeps ?_
    | with_reducible refine State.burst_keeps ?_
    | with_reducible refine State.activate_keeps ?_
    | with_reducible refine Keeps.doAll ?_ (fun _ _ _ => ?_)
    | with_reducible refine Keeps.doIf ?_ (fun _ _ => ?_)

theorem State.drainAfter_keeps {ρ : State} {s : State} {k : Nat} (hk : Keeps ρ s) : Keeps ρ (State.drainAfter s k) := by
  unfold State.drainAfter
  repeat' first
    | with_reducible assumption
    | with_reducible refine KeepsR.next ?_
    | fail_if_no_progress with_reducible refine Keeps.mkK ?_
    | with_reducible refine State.setSub_keeps ?_

theorem State.issue_keeps {ρ : State} {s : State} {ch : Nat} {sub : Nat} {q : Req} (hk : Keeps ρ s) : Keeps ρ (State.issue s ch sub q) := by
  unfold State.issue
  repeat' first
    | with_reducible assumption
    | with_reducible refine KeepsR.next ?_
    | fail_if_no_progress with_reducible refine Keeps.mkK ?_
    | with_reducible refine State.modSub_keeps ?_
    | with_reducible refine State.takeIn_keeps ?_
    | with_reducible refine State.serve_keeps ?_
    | with_reducible refine State.drainAfter_keeps ?_
    | with_reducible refine Keeps.doAll ?_ (fun _ _ _ => ?_)
    | with_reducible refine Keeps.doIf ?_ (fun _ _ => ?_)
    | with_reducible refine Keeps.foldl ?_ (fun _ _ _ => ?_)
    | with_reducible refine Keeps.foldlFst ?_ (fun _ _ _ => ?_)
    | with_reducible refine Keeps.foldlSnd ?_ (fun _ _ _ => ?_)
    | with_reducible refine KeepsR.host ?_ (fun _ _ => ?_)
    | with_reducible refine Keeps.ofSnd (by assumption) ?_
    | with_reducible refine Keeps.ofFst (by assumption) ?_
    | split

theorem State.refresh_keeps {ρ : State} {s : State} {ch : Nat} (hk : Keeps ρ s) : Keeps ρ (State.refresh s ch) := by
  unfold State.refresh
  repeat' first
    | with_reducible assumption
    | with_reducible refine KeepsR.next ?_
    | fail_if_no_progress with_reducible refine Keeps.mkK ?_
    | with_reducible refine State.modChan_keeps ?_
    | with_reducible refine State.emit_keeps ?_
    | with_reducible refine Keeps.doAll ?_ (fun _ _ _ => ?_)
    | with_reducible refine Keeps.doIf ?_ (fun _ _ => ?_)

theorem State.complete_keeps {ρ : State} {s : State} {ch : Nat} {sub : Nat} {q : Req} (hk : Keeps ρ s) : Keeps ρ (State.complete s ch sub q) := by
  unfold State.complete
  repeat' first
    | with_reducible assumption
    | with_reducible refine KeepsR.next ?_
    | fail_if_no_progress with_reducible refine Keeps.mkK ?_
    | with_reducible refine State.store_keeps ?_
    | with_reducible refine State.serve_keeps ?_
    | with_reducible refine Keeps.doAll ?_ (fun _ _ _ => ?_)
    | with_reducible refine Keeps.doIf ?_ (fun _ _ => ?_)
    | with_reducible refine Keeps.foldl ?_ (fun _ _ _ => ?_)
    | with_reducible refine Keeps.foldlFst ?_ (fun _ _ _ => ?_)
    | with_reducible refine Keeps.foldlSnd ?_ (fun _ _ _ => ?_)
    | with_reducible refine KeepsR.host ?_ (fun _ _ => ?_)
    | (lift_lets; intro x; refine Keeps.cut (r := ρ) (x := x) ?_ (fun hx => ?_); (on_goal 1 => dsimp only [x]); (on_goal 2 => clear_value x))
    | with_reducible refine Keeps.ofSnd (by assumption) ?_
    | with_reducible refine Keeps.ofFst (by assumption) ?_
    | split

theorem State.completeAll_keeps {ρ : State} {s : State} {ch : Nat} {sub : Nat} (hk : Keeps ρ s) : Keeps ρ (State.completeAll s ch sub) := by
  unfold State.completeAll
  repeat' first
    | with_reducible assumption
    | with_reducible refine KeepsR.next ?_
    | fail_if_no_progress with_reducible refine Keeps.mkK ?_
    | with_reducible refine State.setSub_keeps ?_
    | with_reducible refine State.complete_keeps ?_
    | with_reducible refine Keeps.doAll ?_ (fun _ _ _ => ?_)

theorem State.sleep_keeps {ρ : State} {s : State} (hk : Keeps ρ s) : Keeps ρ (State.sleep s) := by
  unfold State.sleep
  repeat' first
    | with_reducible assumption
    | with_reducible refine KeepsR.next ?_
    | fail_if_no_progress with_reducible refine Keeps.mkK ?_
    | with_reducible refine State.modChan_keeps ?_
    | with_reducible refine State.setFld_keeps ?_
    | with_reducible refine State.emit_keeps ?_
    | with_reducible refine State.glStates_keeps ?_
    | with_reducible refine State.completeAll_keeps ?_
    | with_reducible refine Keeps.doAll ?_ (fun _ _ _ => ?_)

theorem execSubchannelCommandIssue_keeps {ρ : State} {ch : Fin 8} {sub : Fin 2} {s : State} (hk : Keeps ρ s) : KeepsR ρ (execSubchannelCommandIssue ch sub s) := by
  unfold execSubchannelCommandIssue
  repeat' first
    | with_reducible assumption
    | with_reducible refine KeepsR.next ?_
    | fail_if_no_progress with_reducible refine Keeps.mkK ?_
    | with_reducible refine State.modChan_keeps ?_
    | with_reducible refine State.setFld_keeps ?_
    | with_reducible refine State.issue_keeps ?_
    | with_reducible refine State.refresh_keeps ?_
    | with_reducible refine Keeps.doAll ?_ (fun _ _ _ => ?_)
    | with_reducible refine Keeps.doIf ?_ (fun _ _ => ?_)
    | with_reducible refine Keeps.foldl ?_ (fun _ _ _ => ?_)
    | with_reducible refine Keeps.foldlFst ?_ (fun _ _ _ => ?_)
    | with_reducible refine Keeps.foldlSnd ?_ (fun _ _ _ => ?_)
    | with_reducible refine KeepsR.host ?_ (fun _ _ => ?_)
    | (lift_lets; intro x; clear_value x)
    | with_reducible refine Keeps.ofSnd (by assumption) ?_
    | with_reducible refine Keeps.ofFst (by assumption) ?_
    | split
    | dsimp only

theorem execIdleDrain_keeps {ρ : State} {ch : Fin 8} {sub : Fin 2} {s : State} (hk : Keeps ρ s) : KeepsR ρ (execIdleDrain ch sub s) := by
  unfold execIdleDrain
  repeat' first
    | with_reducible assumption
    | with_reducible refine KeepsR.next ?_
    | fail_if_no_progress with_reducible refine Keeps.mkK ?_
    | with_reducible refine State.setSub_keeps ?_
    | with_reducible refine Keeps.doAll ?_ (fun _ _ _ => ?_)
    | with_reducible refine Keeps.doIf ?_ (fun _ _ => ?_)
    | with_reducible refine Keeps.foldl ?_ (fun _ _ _ => ?_)
    | with_reducible refine Keeps.foldlFst ?_ (fun _ _ _ => ?_)
    | with_reducible refine Keeps.foldlSnd ?_ (fun _ _ _ => ?_)
    | with_reducible refine KeepsR.host ?_ (fun _ _ => ?_)
    | (lift_lets; intro x; clear_value x)
    | with_reducible refine Keeps.ofSnd (by assumption) ?_
    | with_reducible refine Keeps.ofFst (by assumption) ?_
    | split
    | dsimp only

theorem execRefreshTick_keeps {ρ : State} {ch : Fin 8} {burst : Bool} {s : State} (hk : Keeps ρ s) : KeepsR ρ (execRefreshTick ch burst s) := by
  unfold execRefreshTick
  repeat' first
    | with_reducible assumption
    | with_reducible refine KeepsR.next ?_
    | fail_if_no_progress with_reducible refine Keeps.mkK ?_
    | with_reducible refine State.modChan_keeps ?_
    | with_reducible refine State.setFld_keeps ?_
    | with_reducible refine State.burst_keeps ?_
    | with_reducible refine Keeps.doAll ?_ (fun _ _ _ => ?_)
    | with_reducible refine Keeps.doIf ?_ (fun _ _ => ?_)
    | with_reducible refine Keeps.foldl ?_ (fun _ _ _ => ?_)
    | with_reducible refine Keeps.foldlFst ?_ (fun _ _ _ => ?_)
    | with_reducible refine Keeps.foldlSnd ?_ (fun _ _ _ => ?_)
    | with_reducible refine KeepsR.host ?_ (fun _ _ => ?_)
    | (lift_lets; intro x; clear_value x)
    | with_reducible refine Keeps.ofSnd (by assumption) ?_
    | with_reducible refine Keeps.ofFst (by assumption) ?_
    | split

theorem State.logError_keeps {ρ : State} {s : State} {ch : Nat} {addr : Nat} {kind : Nat} {symbols : Nat} {cs : Nat} (hk : Keeps ρ s) : Keeps ρ (State.logError s ch addr kind symbols cs) := by
  unfold State.logError
  repeat' first
    | with_reducible assumption
    | with_reducible refine KeepsR.next ?_
    | fail_if_no_progress with_reducible refine Keeps.mkK ?_
    | with_reducible refine State.modChan_keeps ?_
    | with_reducible refine State.setFld_keeps ?_

theorem State.startMigration_keeps {ρ : State} {s : State} {ch : Nat} {k : Nat} (hk : Keeps ρ s) : Keeps ρ (State.startMigration s ch k) := by
  unfold State.startMigration
  repeat' first
    | with_reducible assumption
    | with_reducible refine KeepsR.next ?_
    | fail_if_no_progress with_reducible refine Keeps.mkK ?_
    | with_reducible refine State.setFld_keeps ?_
    | with_reducible refine State.raise2_keeps ?_
    | with_reducible refine State.ownWrite_keeps ?_

theorem State.failRank_keeps {ρ : State} {s : State} {ch : Nat} {cs : Nat} {kind : Nat} {symbols : Nat} {addr : Nat} (hk : Keeps ρ s) : Keeps ρ (State.failRank s ch cs kind symbols addr) := by
  unfold State.failRank
  repeat' first
    | with_reducible assumption
    | with_reducible refine KeepsR.next ?_
    | fail_if_no_progress with_reducible refine Keeps.mkK ?_
    | with_reducible refine State.raise2_keeps ?_
    | with_reducible refine State.logError_keeps ?_
    | with_reducible refine State.startMigration_keeps ?_
    | with_reducible refine Keeps.doAll ?_ (fun _ _ _ => ?_)
    | with_reducible refine Keeps.doIf ?_ (fun _ _ => ?_)
    | with_reducible refine Keeps.foldl ?_ (fun _ _ _ => ?_)
    | with_reducible refine Keeps.foldlFst ?_ (fun _ _ _ => ?_)
    | with_reducible refine Keeps.foldlSnd ?_ (fun _ _ _ => ?_)
    | with_reducible refine KeepsR.host ?_ (fun _ _ => ?_)
    | (lift_lets; intro x; refine Keeps.cut (r := ρ) (x := x) ?_ (fun hx => ?_); (on_goal 1 => dsimp only [x]); (on_goal 2 => clear_value x))
    | with_reducible refine Keeps.ofSnd (by assumption) ?_
    | with_reducible refine Keeps.ofFst (by assumption) ?_
    | split

theorem State.corrected_keeps {ρ : State} {s : State} {ch : Nat} {cs : Nat} {symbols : Nat} {addr : Nat} (hk : Keeps ρ s) : Keeps ρ (State.corrected s ch cs symbols addr) := by
  unfold State.corrected
  repeat' first
    | with_reducible assumption
    | with_reducible refine KeepsR.next ?_
    | fail_if_no_progress with_reducible refine Keeps.mkK ?_
    | with_reducible refine State.modChan_keeps ?_
    | with_reducible refine State.count_keeps ?_
    | with_reducible refine State.failRank_keeps ?_
    | with_reducible refine Keeps.doAll ?_ (fun _ _ _ => ?_)
    | with_reducible refine Keeps.doIf ?_ (fun _ _ => ?_)

theorem State.poisonRead_keeps {ρ : State} {s : State} {r : Nat} {a : Nat} (hk : Keeps ρ s) : Keeps ρ (State.poisonRead s r a) := by
  unfold State.poisonRead
  repeat' first
    | with_reducible assumption
    | with_reducible refine KeepsR.next ?_
    | fail_if_no_progress with_reducible refine Keeps.mkK ?_
    | with_reducible refine State.emit_keeps ?_
    | with_reducible refine State.replacedLine_keeps ?_
    | with_reducible refine State.logError_keeps ?_
    | with_reducible refine Keeps.doAll ?_ (fun _ _ _ => ?_)
    | with_reducible refine Keeps.doIf ?_ (fun _ _ => ?_)
    | with_reducible refine Keeps.foldl ?_ (fun _ _ _ => ?_)
    | with_reducible refine Keeps.foldlFst ?_ (fun _ _ _ => ?_)
    | with_reducible refine Keeps.foldlSnd ?_ (fun _ _ _ => ?_)
    | with_reducible refine KeepsR.host ?_ (fun _ _ => ?_)
    | (lift_lets; intro x; clear_value x)
    | with_reducible refine Keeps.ofSnd (by assumption) ?_
    | with_reducible refine Keeps.ofFst (by assumption) ?_
    | split

theorem execReadDecode_keeps {ρ : State} {r : Fin 37} {addr : BitVec 40} {symbols : List (BitVec 16)} {s : State} (hk : Keeps ρ s) : KeepsR ρ (execReadDecode r addr symbols s) := by
  unfold execReadDecode
  repeat' first
    | with_reducible assumption
    | with_reducible refine KeepsR.next ?_
    | fail_if_no_progress with_reducible refine Keeps.mkK ?_
    | with_reducible refine State.count_keeps ?_
    | with_reducible refine State.emit_keeps ?_
    | with_reducible refine State.raise2_keeps ?_
    | with_reducible refine State.poison_keeps ?_
    | with_reducible refine State.failRank_keeps ?_
    | with_reducible refine State.corrected_keeps ?_
    | with_reducible refine State.poisonRead_keeps ?_
    | with_reducible refine Keeps.doAll ?_ (fun _ _ _ => ?_)
    | with_reducible refine Keeps.doIf ?_ (fun _ _ => ?_)
    | with_reducible refine Keeps.foldl ?_ (fun _ _ _ => ?_)
    | with_reducible refine Keeps.foldlFst ?_ (fun _ _ _ => ?_)
    | with_reducible refine Keeps.foldlSnd ?_ (fun _ _ _ => ?_)
    | with_reducible refine KeepsR.host ?_ (fun _ _ => ?_)
    | (lift_lets; intro x; clear_value x)
    | with_reducible refine Keeps.ofSnd (by assumption) ?_
    | with_reducible refine Keeps.ofFst (by assumption) ?_
    | split

theorem execAlertN_keeps {ρ : State} {ch : Fin 8} {rank : Fin 4} {addr : BitVec 40} {persists : Bool} {s : State} (hk : Keeps ρ s) : KeepsR ρ (execAlertN ch rank addr persists s) := by
  unfold execAlertN
  repeat' first
    | with_reducible assumption
    | with_reducible refine KeepsR.next ?_
    | fail_if_no_progress with_reducible refine Keeps.mkK ?_
    | with_reducible refine State.burst_keeps ?_
    | with_reducible refine State.failRank_keeps ?_
    | with_reducible refine Keeps.doAll ?_ (fun _ _ _ => ?_)
    | with_reducible refine Keeps.doIf ?_ (fun _ _ => ?_)
    | with_reducible refine Keeps.foldl ?_ (fun _ _ _ => ?_)
    | with_reducible refine Keeps.foldlFst ?_ (fun _ _ _ => ?_)
    | with_reducible refine Keeps.foldlSnd ?_ (fun _ _ _ => ?_)
    | with_reducible refine KeepsR.host ?_ (fun _ _ => ?_)
    | (lift_lets; intro x; clear_value x)
    | with_reducible refine Keeps.ofSnd (by assumption) ?_
    | with_reducible refine Keeps.ofFst (by assumption) ?_
    | split

theorem execMr4Poll_keeps {ρ : State} {ch : Fin 8} {op : List (BitVec 3)} {readbackBad : BitVec 4} {s : State} (hk : Keeps ρ s) : KeepsR ρ (execMr4Poll ch op readbackBad s) := by
  unfold execMr4Poll
  repeat' first
    | with_reducible assumption
    | with_reducible refine KeepsR.next ?_
    | fail_if_no_progress with_reducible refine Keeps.mkK ?_
    | with_reducible refine State.setFld_keeps ?_
    | with_reducible refine State.setFlag_keeps ?_
    | with_reducible refine State.count_keeps ?_
    | with_reducible refine State.emit_keeps ?_
    | with_reducible refine State.raise2_keeps ?_
    | with_reducible refine State.failRank_keeps ?_
    | with_reducible refine Keeps.doAll ?_ (fun _ _ _ => ?_)
    | with_reducible refine Keeps.doIf ?_ (fun _ _ => ?_)
    | with_reducible refine Keeps.foldl ?_ (fun _ _ _ => ?_)
    | with_reducible refine Keeps.foldlFst ?_ (fun _ _ _ => ?_)
    | with_reducible refine Keeps.foldlSnd ?_ (fun _ _ _ => ?_)
    | with_reducible refine KeepsR.host ?_ (fun _ _ => ?_)
    | (lift_lets; intro x; clear_value x)
    | with_reducible refine Keeps.ofSnd (by assumption) ?_
    | with_reducible refine Keeps.ofFst (by assumption) ?_
    | split

theorem execZqCalibration_keeps {ρ : State} {s : State} (hk : Keeps ρ s) : KeepsR ρ (execZqCalibration s) := by
  unfold execZqCalibration
  repeat' first
    | with_reducible assumption
    | with_reducible refine KeepsR.next ?_
    | fail_if_no_progress with_reducible refine Keeps.mkK ?_
    | with_reducible refine State.modChan_keeps ?_
    | with_reducible refine Keeps.doAll ?_ (fun _ _ _ => ?_)

theorem State.endMigration_keeps {ρ : State} {s : State} {ch : Nat} (hk : Keeps ρ s) : Keeps ρ (State.endMigration s ch) := by
  unfold State.endMigration
  repeat' first
    | with_reducible assumption
    | with_reducible refine KeepsR.next ?_
    | fail_if_no_progress with_reducible refine Keeps.mkK ?_
    | with_reducible refine State.setFld_keeps ?_
    | with_reducible refine State.raise2_keeps ?_

theorem State.copyLine_keeps {ρ : State} {s : State} {ch : Nat} {a : Nat} {l : List Byte} {bad : Bool} (hk : Keeps ρ s) : Keeps ρ (State.copyLine s ch a l bad) := by
  unfold State.copyLine
  repeat' first
    | with_reducible assumption
    | with_reducible refine KeepsR.next ?_
    | fail_if_no_progress with_reducible refine Keeps.mkK ?_
    | with_reducible refine State.count_keeps ?_
    | with_reducible refine State.poison_keeps ?_
    | with_reducible refine State.store_keeps ?_
    | with_reducible refine State.burst_keeps ?_
    | with_reducible refine Keeps.doAll ?_ (fun _ _ _ => ?_)
    | with_reducible refine Keeps.doIf ?_ (fun _ _ => ?_)

theorem State.copied_keeps {ρ : State} {s : State} {ch : Nat} (hk : Keeps ρ s) : Keeps ρ (State.copied s ch) := by
  unfold State.copied
  repeat' first
    | with_reducible assumption
    | with_reducible refine KeepsR.next ?_
    | fail_if_no_progress with_reducible refine Keeps.mkK ?_
    | with_reducible refine State.setFld_keeps ?_
    | with_reducible refine State.endMigration_keeps ?_
    | with_reducible refine Keeps.doAll ?_ (fun _ _ _ => ?_)
    | with_reducible refine Keeps.doIf ?_ (fun _ _ => ?_)

theorem execMigrationLineCopy_keeps {ρ : State} {ch : Fin 8} {symbols : List (BitVec 16)} {s : State} (hk : Keeps ρ s) : KeepsR ρ (execMigrationLineCopy ch symbols s) := by
  unfold execMigrationLineCopy
  repeat' first
    | with_reducible assumption
    | with_reducible refine KeepsR.next ?_
    | fail_if_no_progress with_reducible refine Keeps.mkK ?_
    | with_reducible refine State.modSub_keeps ?_
    | with_reducible refine State.count_keeps ?_
    | with_reducible refine State.raise2_keeps ?_
    | with_reducible refine State.burst_keeps ?_
    | with_reducible refine State.failRank_keeps ?_
    | with_reducible refine State.corrected_keeps ?_
    | with_reducible refine State.copyLine_keeps ?_
    | with_reducible refine State.copied_keeps ?_
    | with_reducible refine Keeps.doAll ?_ (fun _ _ _ => ?_)
    | with_reducible refine Keeps.doIf ?_ (fun _ _ => ?_)
    | with_reducible refine Keeps.foldl ?_ (fun _ _ _ => ?_)
    | with_reducible refine Keeps.foldlFst ?_ (fun _ _ _ => ?_)
    | with_reducible refine Keeps.foldlSnd ?_ (fun _ _ _ => ?_)
    | with_reducible refine KeepsR.host ?_ (fun _ _ => ?_)
    | (lift_lets; intro x; clear_value x)
    | with_reducible refine Keeps.ofSnd (by assumption) ?_
    | with_reducible refine Keeps.ofFst (by assumption) ?_
    | split
    | dsimp only

theorem State.exclude_keeps {ρ : State} {s : State} {n : Nat} {cause : Nat} (hk : Keeps ρ s) : Keeps ρ (State.exclude s n cause) := by
  unfold State.exclude
  repeat' first
    | with_reducible assumption
    | with_reducible refine KeepsR.next ?_
    | fail_if_no_progress with_reducible refine Keeps.mkK ?_
    | with_reducible refine State.modSensor_keeps ?_
    | with_reducible refine State.setFld_keeps ?_
    | with_reducible refine State.setFlag_keeps ?_
    | with_reducible refine State.count_keeps ?_
    | with_reducible refine State.raise_keeps ?_

theorem State.sensorValues_keeps {ρ : State} {s : State} (hk : Keeps ρ s) : Keeps ρ (State.sensorValues s) := by
  unfold State.sensorValues
  repeat' first
    | with_reducible assumption
    | with_reducible refine KeepsR.next ?_
    | fail_if_no_progress with_reducible refine Keeps.mkK ?_
    | with_reducible refine State.setInt_keeps ?_
    | with_reducible refine Keeps.doAll ?_ (fun _ _ _ => ?_)

theorem State.dieWords_keeps {ρ : State} {s : State} (hk : Keeps ρ s) : Keeps ρ (State.dieWords s) := by
  unfold State.dieWords
  repeat' first
    | with_reducible assumption
    | with_reducible refine KeepsR.next ?_
    | fail_if_no_progress with_reducible refine Keeps.mkK ?_
    | with_reducible refine State.setFld_keeps ?_
    | with_reducible refine State.setFlag_keeps ?_
    | with_reducible refine State.setInt_keeps ?_
    | with_reducible refine Keeps.doAll ?_ (fun _ _ _ => ?_)
    | with_reducible refine Keeps.doIf ?_ (fun _ _ => ?_)
    | with_reducible refine Keeps.foldl ?_ (fun _ _ _ => ?_)
    | with_reducible refine Keeps.foldlFst ?_ (fun _ _ _ => ?_)
    | with_reducible refine Keeps.foldlSnd ?_ (fun _ _ _ => ?_)
    | with_reducible refine KeepsR.host ?_ (fun _ _ => ?_)
    | (lift_lets; intro x; clear_value x)
    | with_reducible refine Keeps.ofSnd (by assumption) ?_
    | with_reducible refine Keeps.ofFst (by assumption) ?_
    | split
    | dsimp only

theorem State.memberFall_keeps {ρ : State} {s : State} {b : Nat} (hk : Keeps ρ s) : Keeps ρ (State.memberFall s b) := by
  unfold State.memberFall
  repeat' first
    | with_reducible assumption
    | with_reducible refine KeepsR.next ?_
    | fail_if_no_progress with_reducible refine Keeps.mkK ?_
    | with_reducible refine State.modBank_keeps ?_

theorem State.bankTrack_keeps {ρ : State} {s : State} {b : Nat} (hk : Keeps ρ s) : Keeps ρ (State.bankTrack s b) := by
  unfold State.bankTrack
  repeat' first
    | with_reducible assumption
    | with_reducible refine KeepsR.next ?_
    | fail_if_no_progress with_reducible refine Keeps.mkK ?_
    | with_reducible refine State.modBank_keeps ?_
    | with_reducible refine State.memberFall_keeps ?_
    | with_reducible refine Keeps.doAll ?_ (fun _ _ _ => ?_)
    | with_reducible refine Keeps.doIf ?_ (fun _ _ => ?_)
    | with_reducible refine Keeps.foldl ?_ (fun _ _ _ => ?_)
    | with_reducible refine Keeps.foldlFst ?_ (fun _ _ _ => ?_)
    | with_reducible refine Keeps.foldlSnd ?_ (fun _ _ _ => ?_)
    | with_reducible refine KeepsR.host ?_ (fun _ _ => ?_)
    | with_reducible refine Keeps.ofSnd (by assumption) ?_
    | with_reducible refine Keeps.ofFst (by assumption) ?_
    | split

theorem State.alarmStep_keeps {ρ : State} {s : State} {n : Nat} (hk : Keeps ρ s) : Keeps ρ (State.alarmStep s n) := by
  unfold State.alarmStep
  repeat' first
    | with_reducible assumption
    | with_reducible refine KeepsR.next ?_
    | fail_if_no_progress with_reducible refine Keeps.mkK ?_
    | with_reducible refine State.setSensor_keeps ?_
    | with_reducible refine State.modSensor_keeps ?_
    | with_reducible refine State.raise2_keeps ?_
    | with_reducible refine Keeps.doAll ?_ (fun _ _ _ => ?_)
    | with_reducible refine Keeps.doIf ?_ (fun _ _ => ?_)
    | with_reducible refine Keeps.foldl ?_ (fun _ _ _ => ?_)
    | with_reducible refine Keeps.foldlFst ?_ (fun _ _ _ => ?_)
    | with_reducible refine Keeps.foldlSnd ?_ (fun _ _ _ => ?_)
    | with_reducible refine KeepsR.host ?_ (fun _ _ => ?_)
    | (lift_lets; intro x; clear_value x)
    | with_reducible refine Keeps.ofSnd (by assumption) ?_
    | with_reducible refine Keeps.ofFst (by assumption) ?_
    | split
    | dsimp only

theorem execSensorSample_keeps {ρ : State} {n : Fin 36} {raw : Int} {convFault : Bool} {s : State} (hk : Keeps ρ s) : KeepsR ρ (execSensorSample n raw convFault s) := by
  unfold execSensorSample
  repeat' first
    | with_reducible assumption
    | with_reducible refine KeepsR.next ?_
    | fail_if_no_progress with_reducible refine Keeps.mkK ?_
    | with_reducible refine State.setSensor_keeps ?_
    | with_reducible refine State.modSensor_keeps ?_
    | with_reducible refine State.setFlag_keeps ?_
    | with_reducible refine State.setInt_keeps ?_
    | with_reducible refine State.exclude_keeps ?_
    | with_reducible refine State.sensorValues_keeps ?_
    | with_reducible refine State.dieWords_keeps ?_
    | with_reducible refine State.bankTrack_keeps ?_
    | with_reducible refine State.alarmStep_keeps ?_
    | with_reducible refine Keeps.doAll ?_ (fun _ _ _ => ?_)
    | with_reducible refine Keeps.doIf ?_ (fun _ _ => ?_)
    | with_reducible refine Keeps.foldl ?_ (fun _ _ _ => ?_)
    | with_reducible refine Keeps.foldlFst ?_ (fun _ _ _ => ?_)
    | with_reducible refine Keeps.foldlSnd ?_ (fun _ _ _ => ?_)
    | with_reducible refine KeepsR.host ?_ (fun _ _ => ?_)
    | (lift_lets; intro x; clear_value x)
    | with_reducible refine Keeps.ofSnd (by assumption) ?_
    | with_reducible refine Keeps.ofFst (by assumption) ?_
    | split

theorem State.restoreSensor_keeps {ρ : State} {s : State} {n : Nat} (hk : Keeps ρ s) : Keeps ρ (State.restoreSensor s n) := by
  unfold State.restoreSensor
  repeat' first
    | with_reducible assumption
    | with_reducible refine KeepsR.next ?_
    | fail_if_no_progress with_reducible refine Keeps.mkK ?_
    | with_reducible refine State.modSensor_keeps ?_
    | with_reducible refine State.setFlag_keeps ?_
    | with_reducible refine State.sensorValues_keeps ?_
    | with_reducible refine State.dieWords_keeps ?_
    | with_reducible refine Keeps.doAll ?_ (fun _ _ _ => ?_)
    | with_reducible refine Keeps.doIf ?_ (fun _ _ => ?_)
    | with_reducible refine Keeps.foldl ?_ (fun _ _ _ => ?_)
    | with_reducible refine Keeps.foldlFst ?_ (fun _ _ _ => ?_)
    | with_reducible refine Keeps.foldlSnd ?_ (fun _ _ _ => ?_)
    | with_reducible refine KeepsR.host ?_ (fun _ _ => ?_)
    | with_reducible refine Keeps.ofSnd (by assumption) ?_
    | with_reducible refine Keeps.ofFst (by assumption) ?_
    | split

theorem execSensorAutoRestore_keeps {ρ : State} {n : Fin 36} {s : State} (hk : Keeps ρ s) : KeepsR ρ (execSensorAutoRestore n s) := by
  unfold execSensorAutoRestore
  repeat' first
    | with_reducible assumption
    | with_reducible refine KeepsR.next ?_
    | fail_if_no_progress with_reducible refine Keeps.mkK ?_
    | with_reducible refine State.restoreSensor_keeps ?_
    | with_reducible refine Keeps.doAll ?_ (fun _ _ _ => ?_)
    | with_reducible refine Keeps.doIf ?_ (fun _ _ => ?_)

theorem execOffsetRecord_keeps {ρ : State} {n : Fin 36} {s : State} (hk : Keeps ρ s) : KeepsR ρ (execOffsetRecord n s) := by
  unfold execOffsetRecord
  repeat' first
    | with_reducible assumption
    | with_reducible refine KeepsR.next ?_
    | fail_if_no_progress with_reducible refine Keeps.mkK ?_
    | with_reducible refine State.modSensor_keeps ?_
    | with_reducible refine State.setInt_keeps ?_
    | with_reducible refine Keeps.doAll ?_ (fun _ _ _ => ?_)
    | with_reducible refine Keeps.doIf ?_ (fun _ _ => ?_)
    | with_reducible refine Keeps.foldl ?_ (fun _ _ _ => ?_)
    | with_reducible refine Keeps.foldlFst ?_ (fun _ _ _ => ?_)
    | with_reducible refine Keeps.foldlSnd ?_ (fun _ _ _ => ?_)
    | with_reducible refine KeepsR.host ?_ (fun _ _ => ?_)
    | (lift_lets; intro x; clear_value x)
    | with_reducible refine Keeps.ofSnd (by assumption) ?_
    | with_reducible refine Keeps.ofFst (by assumption) ?_
    | split

theorem execTrackedDwellExpiry_keeps {ρ : State} {bank : Option (Fin 8)} {s : State} (hk : Keeps ρ s) : KeepsR ρ (execTrackedDwellExpiry bank s) := by
  unfold execTrackedDwellExpiry
  repeat' first
    | with_reducible assumption
    | with_reducible refine KeepsR.next ?_
    | fail_if_no_progress with_reducible refine Keeps.mkK ?_
    | with_reducible refine State.modBank_keeps ?_
    | with_reducible refine State.setInt_keeps ?_
    | with_reducible refine Keeps.doAll ?_ (fun _ _ _ => ?_)
    | with_reducible refine Keeps.doIf ?_ (fun _ _ => ?_)
    | with_reducible refine Keeps.foldl ?_ (fun _ _ _ => ?_)
    | with_reducible refine Keeps.foldlFst ?_ (fun _ _ _ => ?_)
    | with_reducible refine Keeps.foldlSnd ?_ (fun _ _ _ => ?_)
    | with_reducible refine KeepsR.host ?_ (fun _ _ => ?_)
    | (lift_lets; intro x; clear_value x)
    | with_reducible refine Keeps.ofSnd (by assumption) ?_
    | with_reducible refine Keeps.ofFst (by assumption) ?_
    | split

theorem State.setBudget_keeps {ρ : State} {s : State} {milli : Nat} (hk : Keeps ρ s) : Keeps ρ (State.setBudget s milli) := by
  unfold State.setBudget
  repeat' first
    | with_reducible assumption
    | with_reducible refine KeepsR.next ?_
    | fail_if_no_progress with_reducible refine Keeps.mkK ?_
    | with_reducible refine State.setFld_keeps ?_
    | with_reducible refine State.raise_keeps ?_
    | with_reducible refine Keeps.doAll ?_ (fun _ _ _ => ?_)
    | with_reducible refine Keeps.doIf ?_ (fun _ _ => ?_)

theorem State.memberRise_keeps {ρ : State} {s : State} {b : Nat} (hk : Keeps ρ s) : Keeps ρ (State.memberRise s b) := by
  unfold State.memberRise
  repeat' first
    | with_reducible assumption
    | with_reducible refine KeepsR.next ?_
    | fail_if_no_progress with_reducible refine Keeps.mkK ?_
    | with_reducible refine State.setBank_keeps ?_
    | with_reducible refine Keeps.doAll ?_ (fun _ _ _ => ?_)
    | with_reducible refine Keeps.doIf ?_ (fun _ _ => ?_)
    | with_reducible refine Keeps.foldl ?_ (fun _ _ _ => ?_)
    | with_reducible refine Keeps.foldlFst ?_ (fun _ _ _ => ?_)
    | with_reducible refine Keeps.foldlSnd ?_ (fun _ _ _ => ?_)
    | with_reducible refine KeepsR.host ?_ (fun _ _ => ?_)
    | (lift_lets; intro x; clear_value x)
    | with_reducible refine Keeps.ofSnd (by assumption) ?_
    | with_reducible refine Keeps.ofFst (by assumption) ?_
    | split
    | dsimp only

theorem execBudgetUpdate_keeps {ρ : State} {s : State} (hk : Keeps ρ s) : KeepsR ρ (execBudgetUpdate s) := by
  unfold execBudgetUpdate
  repeat' first
    | with_reducible assumption
    | with_reducible refine KeepsR.next ?_
    | fail_if_no_progress with_reducible refine Keeps.mkK ?_
    | with_reducible refine State.setBudget_keeps ?_
    | with_reducible refine State.memberRise_keeps ?_
    | with_reducible refine Keeps.doAll ?_ (fun _ _ _ => ?_)
    | with_reducible refine Keeps.doIf ?_ (fun _ _ => ?_)
    | with_reducible refine Keeps.foldl ?_ (fun _ _ _ => ?_)
    | with_reducible refine Keeps.foldlFst ?_ (fun _ _ _ => ?_)
    | with_reducible refine Keeps.foldlSnd ?_ (fun _ _ _ => ?_)
    | with_reducible refine KeepsR.host ?_ (fun _ _ => ?_)
    | with_reducible refine Keeps.ofSnd (by assumption) ?_
    | with_reducible refine Keeps.ofFst (by assumption) ?_
    | split

theorem execThrottleHoldEnd_keeps {ρ : State} {s : State} (hk : Keeps ρ s) : KeepsR ρ (execThrottleHoldEnd s) := by
  unfold execThrottleHoldEnd
  repeat' first
    | with_reducible assumption
    | with_reducible refine KeepsR.next ?_
    | fail_if_no_progress with_reducible refine Keeps.mkK ?_
    | with_reducible refine State.setFlag_keeps ?_

theorem execNvWindowOpen_keeps {ρ : State} {s : State} (hk : Keeps ρ s) : KeepsR ρ (execNvWindowOpen s) := by
  unfold execNvWindowOpen
  repeat' first
    | with_reducible assumption
    | with_reducible refine KeepsR.next ?_
    | fail_if_no_progress with_reducible refine Keeps.mkK ?_
    | with_reducible refine State.undefer_keeps ?_
    | with_reducible refine Keeps.doAll ?_ (fun _ _ _ => ?_)
    | with_reducible refine Keeps.doIf ?_ (fun _ _ => ?_)

theorem State.sensorSwitch_keeps {ρ : State} {s : State} {n : Nat} (hk : Keeps ρ s) : Keeps ρ (State.sensorSwitch s n) := by
  unfold State.sensorSwitch
  repeat' first
    | with_reducible assumption
    | with_reducible refine KeepsR.next ?_
    | fail_if_no_progress with_reducible refine Keeps.mkK ?_
    | with_reducible refine State.setSensor_keeps ?_
    | with_reducible refine State.setWord_keeps ?_
    | with_reducible refine State.setFld_keeps ?_
    | with_reducible refine State.setFlag_keeps ?_

end Sys2Proof.Machine
end

