-- ==== Sys2Proof/Laws/KeepsWrite.lean ====
section
/-!
SUPPORT. The relation `Keeps` for the operations of Machine/Fields.lean, Machine/Checks.lean, Machine/Apply.lean, Machine/StateWrite.lean, Machine/Sheaf.lean.
-/

namespace Sys2Proof.Machine

theorem State.writeBits_keeps {ρ : State} {s : State} {r : WordRow} {k : Nat} {mask : Word} {value : Word} (hk : Keeps ρ s) : Keeps ρ (State.writeBits s r k mask value) := by
  unfold State.writeBits
  repeat' first
    | with_reducible assumption
    | with_reducible refine KeepsR.next ?_
    | fail_if_no_progress with_reducible refine Keeps.mkK ?_
    | with_reducible refine State.setWord_keeps ?_

theorem State.lookWords_keeps {ρ : State} {s : State} (hk : Keeps ρ s) : Keeps ρ (State.lookWords s) := by
  unfold State.lookWords
  repeat' first
    | with_reducible assumption
    | with_reducible refine KeepsR.next ?_
    | fail_if_no_progress with_reducible refine Keeps.mkK ?_
    | with_reducible refine State.setFld_keeps ?_
    | with_reducible refine Keeps.doAll ?_ (fun _ _ _ => ?_)

theorem State.clearCounts_keeps {ρ : State} {s : State} {b : Blk} {ns : List Nat} (hk : Keeps ρ s) : Keeps ρ (State.clearCounts s b ns) := by
  unfold State.clearCounts
  repeat' first
    | with_reducible assumption
    | with_reducible refine KeepsR.next ?_
    | fail_if_no_progress with_reducible refine Keeps.mkK ?_
    | with_reducible refine State.setFld_keeps ?_
    | with_reducible refine State.count_keeps ?_
    | with_reducible refine Keeps.doAll ?_ (fun _ _ _ => ?_)

theorem State.evenTags_keeps {ρ : State} {s : State} {h : Nat} (hk : Keeps ρ s) : Keeps ρ (State.evenTags s h) := by
  unfold State.evenTags
  repeat' first
    | with_reducible assumption
    | with_reducible refine KeepsR.next ?_
    | fail_if_no_progress with_reducible refine Keeps.mkK ?_
    | with_reducible refine State.modBandOf_keeps ?_
    | with_reducible refine Keeps.doAll ?_ (fun _ _ _ => ?_)
    | with_reducible refine Keeps.doIf ?_ (fun _ _ => ?_)

theorem State.bandsReset_keeps {ρ : State} {s : State} {h : Nat} (hk : Keeps ρ s) : Keeps ρ (State.bandsReset s h) := by
  unfold State.bandsReset
  repeat' first
    | with_reducible assumption
    | with_reducible refine KeepsR.next ?_
    | fail_if_no_progress with_reducible refine Keeps.mkK ?_
    | with_reducible refine State.modBandOf_keeps ?_
    | with_reducible refine State.evenTags_keeps ?_
    | with_reducible refine Keeps.doAll ?_ (fun _ _ _ => ?_)

theorem State.remode_keeps {ρ : State} {s : State} {h : Nat} (hk : Keeps ρ s) : Keeps ρ (State.remode s h) := by
  unfold State.remode
  repeat' first
    | with_reducible assumption
    | with_reducible refine KeepsR.next ?_
    | fail_if_no_progress with_reducible refine Keeps.mkK ?_
    | with_reducible refine State.modPort_keeps ?_
    | with_reducible refine State.sendMode_keeps ?_
    | with_reducible refine State.sendTiming_keeps ?_
    | with_reducible refine Keeps.doAll ?_ (fun _ _ _ => ?_)
    | with_reducible refine Keeps.doIf ?_ (fun _ _ => ?_)
    | with_reducible refine Keeps.foldl ?_ (fun _ _ _ => ?_)
    | with_reducible refine Keeps.foldlFst ?_ (fun _ _ _ => ?_)
    | with_reducible refine Keeps.foldlSnd ?_ (fun _ _ _ => ?_)
    | with_reducible refine KeepsR.host ?_ (fun _ _ => ?_)
    | with_reducible refine Keeps.ofSnd (by assumption) ?_
    | with_reducible refine Keeps.ofFst (by assumption) ?_
    | split

theorem State.lineReset_keeps {ρ : State} {s : State} {h : Nat} (hk : Keeps ρ s) : Keeps ρ (State.lineReset s h) := by
  unfold State.lineReset
  repeat' first
    | with_reducible assumption
    | with_reducible refine KeepsR.next ?_
    | fail_if_no_progress with_reducible refine Keeps.mkK ?_
    | with_reducible refine State.setLine_keeps ?_
    | with_reducible refine State.setFld_keeps ?_

theorem State.topologyEffect_keeps {ρ : State} {s0 : State} {s : State} {h : Nat} (hk : Keeps ρ s) : Keeps ρ (State.topologyEffect s0 s h) := by
  unfold State.topologyEffect
  repeat' first
    | with_reducible assumption
    | with_reducible refine KeepsR.next ?_
    | fail_if_no_progress with_reducible refine Keeps.mkK ?_
    | with_reducible refine State.modHeadOf_keeps ?_
    | with_reducible refine State.lowOuts_keeps ?_
    | with_reducible refine State.disarm_keeps ?_
    | with_reducible refine State.gate_keeps ?_
    | with_reducible refine State.bandsReset_keeps ?_
    | with_reducible refine State.remode_keeps ?_
    | with_reducible refine State.lineReset_keeps ?_
    | with_reducible refine Keeps.doAll ?_ (fun _ _ _ => ?_)
    | with_reducible refine Keeps.doIf ?_ (fun _ _ => ?_)
    | with_reducible refine Keeps.foldl ?_ (fun _ _ _ => ?_)
    | with_reducible refine Keeps.foldlFst ?_ (fun _ _ _ => ?_)
    | with_reducible refine Keeps.foldlSnd ?_ (fun _ _ _ => ?_)
    | with_reducible refine KeepsR.host ?_ (fun _ _ => ?_)
    | (lift_lets; intro x; clear_value x)
    | with_reducible refine Keeps.ofSnd (by assumption) ?_
    | with_reducible refine Keeps.ofFst (by assumption) ?_
    | split
    | dsimp only

theorem State.ingestEffect_keeps {ρ : State} {s0 : State} {s : State} {p : Nat} (hk : Keeps ρ s) : Keeps ρ (State.ingestEffect s0 s p) := by
  unfold State.ingestEffect
  repeat' first
    | with_reducible assumption
    | with_reducible refine KeepsR.next ?_
    | fail_if_no_progress with_reducible refine Keeps.mkK ?_
    | with_reducible refine State.portEnable_keeps ?_
    | with_reducible refine State.portDisable_keeps ?_
    | with_reducible refine State.portRetrain_keeps ?_
    | with_reducible refine State.streamsReset_keeps ?_
    | with_reducible refine Keeps.doAll ?_ (fun _ _ _ => ?_)
    | with_reducible refine Keeps.doIf ?_ (fun _ _ => ?_)
    | with_reducible refine Keeps.foldl ?_ (fun _ _ _ => ?_)
    | with_reducible refine Keeps.foldlFst ?_ (fun _ _ _ => ?_)
    | with_reducible refine Keeps.foldlSnd ?_ (fun _ _ _ => ?_)
    | with_reducible refine KeepsR.host ?_ (fun _ _ => ?_)
    | (lift_lets; intro x; clear_value x)
    | with_reducible refine Keeps.ofSnd (by assumption) ?_
    | with_reducible refine Keeps.ofFst (by assumption) ?_
    | split
    | dsimp only

theorem State.headEnable_keeps {ρ : State} {s : State} {h : Nat} (hk : Keeps ρ s) : Keeps ρ (State.headEnable s h) := by
  unfold State.headEnable
  repeat' first
    | with_reducible assumption
    | with_reducible refine KeepsR.next ?_
    | fail_if_no_progress with_reducible refine Keeps.mkK ?_
    | with_reducible refine State.modHeadOf_keeps ?_
    | with_reducible refine State.setFld_keeps ?_
    | with_reducible refine State.portEnable_keeps ?_
    | with_reducible refine State.bandsReset_keeps ?_
    | with_reducible refine State.lineReset_keeps ?_

theorem State.headDisable_keeps {ρ : State} {s0 : State} {s : State} {h : Nat} (hk : Keeps ρ s) : Keeps ρ (State.headDisable s0 s h) := by
  unfold State.headDisable
  repeat' first
    | with_reducible assumption
    | with_reducible refine KeepsR.next ?_
    | fail_if_no_progress with_reducible refine Keeps.mkK ?_
    | with_reducible refine State.lowOuts_keeps ?_
    | with_reducible refine State.portDisable_keeps ?_
    | with_reducible refine State.gate_keeps ?_
    | with_reducible refine State.bandsReset_keeps ?_
    | with_reducible refine State.lineReset_keeps ?_

theorem State.rvhEffect_keeps {ρ : State} {s0 : State} {s : State} {h : Nat} (hk : Keeps ρ s) : Keeps ρ (State.rvhEffect s0 s h) := by
  unfold State.rvhEffect
  repeat' first
    | with_reducible assumption
    | with_reducible refine KeepsR.next ?_
    | fail_if_no_progress with_reducible refine Keeps.mkK ?_
    | with_reducible refine State.portRetrain_keeps ?_
    | with_reducible refine State.headEnable_keeps ?_
    | with_reducible refine State.headDisable_keeps ?_
    | with_reducible refine Keeps.doAll ?_ (fun _ _ _ => ?_)
    | with_reducible refine Keeps.doIf ?_ (fun _ _ => ?_)
    | with_reducible refine Keeps.foldl ?_ (fun _ _ _ => ?_)
    | with_reducible refine Keeps.foldlFst ?_ (fun _ _ _ => ?_)
    | with_reducible refine Keeps.foldlSnd ?_ (fun _ _ _ => ?_)
    | with_reducible refine KeepsR.host ?_ (fun _ _ => ?_)
    | (lift_lets; intro x; clear_value x)
    | with_reducible refine Keeps.ofSnd (by assumption) ?_
    | with_reducible refine Keeps.ofFst (by assumption) ?_
    | split
    | dsimp only

theorem State.layerEffect_keeps {ρ : State} {s0 : State} {s : State} {g : Nat} {l : Nat} (hk : Keeps ρ s) : Keeps ρ (State.layerEffect s0 s g l) := by
  unfold State.layerEffect
  repeat' first
    | with_reducible assumption
    | with_reducible refine KeepsR.next ?_
    | fail_if_no_progress with_reducible refine Keeps.mkK ?_
    | with_reducible refine State.modGroup_keeps ?_
    | with_reducible refine State.setRing_keeps ?_
    | with_reducible refine Keeps.doAll ?_ (fun _ _ _ => ?_)
    | with_reducible refine Keeps.doIf ?_ (fun _ _ => ?_)
    | with_reducible refine Keeps.foldl ?_ (fun _ _ _ => ?_)
    | with_reducible refine Keeps.foldlFst ?_ (fun _ _ _ => ?_)
    | with_reducible refine Keeps.foldlSnd ?_ (fun _ _ _ => ?_)
    | with_reducible refine KeepsR.host ?_ (fun _ _ => ?_)
    | with_reducible refine Keeps.ofSnd (by assumption) ?_
    | with_reducible refine Keeps.ofFst (by assumption) ?_
    | split

theorem State.rasterEffect_keeps {ρ : State} {s0 : State} {s : State} {g : Nat} (hk : Keeps ρ s) : Keeps ρ (State.rasterEffect s0 s g) := by
  unfold State.rasterEffect
  repeat' first
    | with_reducible assumption
    | with_reducible refine KeepsR.next ?_
    | fail_if_no_progress with_reducible refine Keeps.mkK ?_
    | with_reducible refine State.modHeadOf_keeps ?_
    | with_reducible refine State.modGroup_keeps ?_
    | with_reducible refine State.setFld_keeps ?_
    | with_reducible refine State.lowOuts_keeps ?_
    | with_reducible refine State.darkHead_keeps ?_
    | with_reducible refine State.dropLoads_keeps ?_
    | with_reducible refine State.bandsReset_keeps ?_
    | with_reducible refine State.remode_keeps ?_
    | with_reducible refine Keeps.doAll ?_ (fun _ _ _ => ?_)
    | with_reducible refine Keeps.doIf ?_ (fun _ _ => ?_)
    | with_reducible refine Keeps.foldl ?_ (fun _ _ _ => ?_)
    | with_reducible refine Keeps.foldlFst ?_ (fun _ _ _ => ?_)
    | with_reducible refine Keeps.foldlSnd ?_ (fun _ _ _ => ?_)
    | with_reducible refine KeepsR.host ?_ (fun _ _ => ?_)
    | (lift_lets; intro x; clear_value x)
    | with_reducible refine Keeps.ofSnd (by assumption) ?_
    | with_reducible refine Keeps.ofFst (by assumption) ?_
    | split
    | dsimp only

theorem State.layoutEffect_keeps {ρ : State} {s0 : State} {s : State} {h : Nat} (hk : Keeps ρ s) : Keeps ρ (State.layoutEffect s0 s h) := by
  unfold State.layoutEffect
  repeat' first
    | with_reducible assumption
    | with_reducible refine KeepsR.next ?_
    | fail_if_no_progress with_reducible refine Keeps.mkK ?_
    | with_reducible refine State.modBandOf_keeps ?_
    | with_reducible refine State.modHeadOf_keeps ?_
    | with_reducible refine State.count_keeps ?_
    | with_reducible refine State.moved_keeps ?_
    | with_reducible refine State.darkHead_keeps ?_
    | with_reducible refine State.bandsReset_keeps ?_
    | with_reducible refine Keeps.doAll ?_ (fun _ _ _ => ?_)
    | with_reducible refine Keeps.doIf ?_ (fun _ _ => ?_)
    | with_reducible refine Keeps.foldl ?_ (fun _ _ _ => ?_)
    | with_reducible refine Keeps.foldlFst ?_ (fun _ _ _ => ?_)
    | with_reducible refine Keeps.foldlSnd ?_ (fun _ _ _ => ?_)
    | with_reducible refine KeepsR.host ?_ (fun _ _ => ?_)
    | (lift_lets; intro x; clear_value x)
    | with_reducible refine Keeps.ofSnd (by assumption) ?_
    | with_reducible refine Keeps.ofFst (by assumption) ?_
    | split
    | dsimp only

theorem State.planeEffect_keeps {ρ : State} {s0 : State} {s : State} {h : Nat} (hk : Keeps ρ s) : Keeps ρ (State.planeEffect s0 s h) := by
  unfold State.planeEffect
  repeat' first
    | with_reducible assumption
    | with_reducible refine KeepsR.next ?_
    | fail_if_no_progress with_reducible refine Keeps.mkK ?_
    | with_reducible refine State.modHeadOf_keeps ?_
    | with_reducible refine State.evenTags_keeps ?_
    | with_reducible refine State.layoutEffect_keeps ?_
    | with_reducible refine Keeps.doAll ?_ (fun _ _ _ => ?_)
    | with_reducible refine Keeps.doIf ?_ (fun _ _ => ?_)

theorem State.lenMapEffect_keeps {ρ : State} {s0 : State} {s : State} {h : Nat} (hk : Keeps ρ s) : Keeps ρ (State.lenMapEffect s0 s h) := by
  unfold State.lenMapEffect
  repeat' first
    | with_reducible assumption
    | with_reducible refine KeepsR.next ?_
    | fail_if_no_progress with_reducible refine Keeps.mkK ?_
    | with_reducible refine State.setWord_keeps ?_
    | with_reducible refine State.setFld_keeps ?_
    | with_reducible refine State.moved_keeps ?_
    | with_reducible refine State.setLen_keeps ?_
    | with_reducible refine State.disarm_keeps ?_
    | with_reducible refine Keeps.doAll ?_ (fun _ _ _ => ?_)
    | with_reducible refine Keeps.doIf ?_ (fun _ _ => ?_)
    | with_reducible refine Keeps.foldl ?_ (fun _ _ _ => ?_)
    | with_reducible refine Keeps.foldlFst ?_ (fun _ _ _ => ?_)
    | with_reducible refine Keeps.foldlSnd ?_ (fun _ _ _ => ?_)
    | with_reducible refine KeepsR.host ?_ (fun _ _ => ?_)
    | (lift_lets; intro x; clear_value x)
    | with_reducible refine Keeps.ofSnd (by assumption) ?_
    | with_reducible refine Keeps.ofFst (by assumption) ?_
    | split
    | dsimp only

theorem State.lmEffect_keeps {ρ : State} {s0 : State} {s : State} {h : Nat} (hk : Keeps ρ s) : Keeps ρ (State.lmEffect s0 s h) := by
  unfold State.lmEffect
  repeat' first
    | with_reducible assumption
    | with_reducible refine KeepsR.next ?_
    | fail_if_no_progress with_reducible refine Keeps.mkK ?_
    | with_reducible refine State.modPort_keeps ?_
    | with_reducible refine State.modLine_keeps ?_
    | with_reducible refine State.sendTiming_keeps ?_
    | with_reducible refine State.lenMapEffect_keeps ?_
    | with_reducible refine Keeps.doAll ?_ (fun _ _ _ => ?_)
    | with_reducible refine Keeps.doIf ?_ (fun _ _ => ?_)
    | with_reducible refine Keeps.foldl ?_ (fun _ _ _ => ?_)
    | with_reducible refine Keeps.foldlFst ?_ (fun _ _ _ => ?_)
    | with_reducible refine Keeps.foldlSnd ?_ (fun _ _ _ => ?_)
    | with_reducible refine KeepsR.host ?_ (fun _ _ => ?_)
    | (lift_lets; intro x; refine Keeps.cut (r := ρ) (x := x) ?_ (fun hx => ?_); (on_goal 1 => dsimp only [x]); (on_goal 2 => clear_value x))
    | with_reducible refine Keeps.ofSnd (by assumption) ?_
    | with_reducible refine Keeps.ofFst (by assumption) ?_
    | split

theorem State.stringEffect_keeps {ρ : State} {s0 : State} {s : State} {n : Nat} (hk : Keeps ρ s) : Keeps ρ (State.stringEffect s0 s n) := by
  unfold State.stringEffect
  repeat' first
    | with_reducible assumption
    | with_reducible refine KeepsR.next ?_
    | fail_if_no_progress with_reducible refine Keeps.mkK ?_
    | with_reducible refine State.lowOuts_keeps ?_
    | with_reducible refine State.busSend_keeps ?_
    | with_reducible refine State.strSync_keeps ?_
    | with_reducible refine State.place_keeps ?_
    | with_reducible refine Keeps.doAll ?_ (fun _ _ _ => ?_)
    | with_reducible refine Keeps.doIf ?_ (fun _ _ => ?_)
    | with_reducible refine Keeps.foldl ?_ (fun _ _ _ => ?_)
    | with_reducible refine Keeps.foldlFst ?_ (fun _ _ _ => ?_)
    | with_reducible refine Keeps.foldlSnd ?_ (fun _ _ _ => ?_)
    | with_reducible refine KeepsR.host ?_ (fun _ _ => ?_)
    | (lift_lets; intro x; clear_value x)
    | with_reducible refine Keeps.ofSnd (by assumption) ?_
    | with_reducible refine Keeps.ofFst (by assumption) ?_
    | split

theorem State.bankEffect_keeps {ρ : State} {s0 : State} {s : State} {b : Nat} (hk : Keeps ρ s) : Keeps ρ (State.bankEffect s0 s b) := by
  unfold State.bankEffect
  repeat' first
    | with_reducible assumption
    | with_reducible refine KeepsR.next ?_
    | fail_if_no_progress with_reducible refine Keeps.mkK ?_
    | with_reducible refine State.rebuildEff_keeps ?_
    | with_reducible refine State.lowOuts_keeps ?_
    | with_reducible refine State.bankEnable_keeps ?_
    | with_reducible refine State.bankDisable_keeps ?_
    | with_reducible refine State.memberFall_keeps ?_
    | with_reducible refine Keeps.doAll ?_ (fun _ _ _ => ?_)
    | with_reducible refine Keeps.doIf ?_ (fun _ _ => ?_)
    | with_reducible refine Keeps.foldl ?_ (fun _ _ _ => ?_)
    | with_reducible refine Keeps.foldlFst ?_ (fun _ _ _ => ?_)
    | with_reducible refine Keeps.foldlSnd ?_ (fun _ _ _ => ?_)
    | with_reducible refine KeepsR.host ?_ (fun _ _ => ?_)
    | (lift_lets; intro x; clear_value x)
    | with_reducible refine Keeps.ofSnd (by assumption) ?_
    | with_reducible refine Keeps.ofFst (by assumption) ?_
    | split
    | dsimp only

theorem State.dbEffect_keeps {ρ : State} {s0 : State} {s : State} {p : Nat} (hk : Keeps ρ s) : Keeps ρ (State.dbEffect s0 s p) := by
  unfold State.dbEffect
  repeat' first
    | with_reducible assumption
    | with_reducible refine KeepsR.next ?_
    | fail_if_no_progress with_reducible refine Keeps.mkK ?_
    | with_reducible refine State.modDbPort_keeps ?_
    | with_reducible refine State.busSend_keeps ?_
    | with_reducible refine State.zoneCfg_keeps ?_
    | with_reducible refine Keeps.doAll ?_ (fun _ _ _ => ?_)
    | with_reducible refine Keeps.doIf ?_ (fun _ _ => ?_)
    | with_reducible refine Keeps.foldl ?_ (fun _ _ _ => ?_)
    | with_reducible refine Keeps.foldlFst ?_ (fun _ _ _ => ?_)
    | with_reducible refine Keeps.foldlSnd ?_ (fun _ _ _ => ?_)
    | with_reducible refine KeepsR.host ?_ (fun _ _ => ?_)
    | (lift_lets; intro x; clear_value x)
    | with_reducible refine Keeps.ofSnd (by assumption) ?_
    | with_reducible refine Keeps.ofFst (by assumption) ?_
    | split
    | dsimp only

theorem State.matrixEffect_keeps {ρ : State} {s0 : State} {s : State} {z : Nat} (hk : Keeps ρ s) : Keeps ρ (State.matrixEffect s0 s z) := by
  unfold State.matrixEffect
  repeat' first
    | with_reducible assumption
    | with_reducible refine KeepsR.next ?_
    | fail_if_no_progress with_reducible refine Keeps.mkK ?_
    | with_reducible refine State.modHeadOf_keeps ?_
    | with_reducible refine State.setFld_keeps ?_
    | with_reducible refine State.lowOuts_keeps ?_
    | with_reducible refine State.zoneCfg_keeps ?_
    | with_reducible refine State.matrixEnable_keeps ?_
    | with_reducible refine State.matrixDisable_keeps ?_
    | with_reducible refine State.countFaulted_keeps ?_
    | with_reducible refine State.scanMode_keeps ?_
    | with_reducible refine Keeps.doAll ?_ (fun _ _ _ => ?_)
    | with_reducible refine Keeps.doIf ?_ (fun _ _ => ?_)
    | with_reducible refine Keeps.foldl ?_ (fun _ _ _ => ?_)
    | with_reducible refine Keeps.foldlFst ?_ (fun _ _ _ => ?_)
    | with_reducible refine Keeps.foldlSnd ?_ (fun _ _ _ => ?_)
    | with_reducible refine KeepsR.host ?_ (fun _ _ => ?_)
    | (lift_lets; intro x; clear_value x)
    | with_reducible refine Keeps.ofSnd (by assumption) ?_
    | with_reducible refine Keeps.ofFst (by assumption) ?_
    | split
    | dsimp only

theorem State.ccEffect_keeps {ρ : State} {s0 : State} {s : State} {g : Nat} (hk : Keeps ρ s) : Keeps ρ (State.ccEffect s0 s g) := by
  unfold State.ccEffect
  repeat' first
    | with_reducible assumption
    | with_reducible refine KeepsR.next ?_
    | fail_if_no_progress with_reducible refine Keeps.mkK ?_
    | with_reducible refine State.ccShow_keeps ?_
    | with_reducible refine State.ccEnable_keeps ?_
    | with_reducible refine State.ccDisable_keeps ?_
    | with_reducible refine Keeps.doAll ?_ (fun _ _ _ => ?_)
    | with_reducible refine Keeps.doIf ?_ (fun _ _ => ?_)
    | with_reducible refine Keeps.foldl ?_ (fun _ _ _ => ?_)
    | with_reducible refine Keeps.foldlFst ?_ (fun _ _ _ => ?_)
    | with_reducible refine Keeps.foldlSnd ?_ (fun _ _ _ => ?_)
    | with_reducible refine KeepsR.host ?_ (fun _ _ => ?_)
    | (lift_lets; intro x; clear_value x)
    | with_reducible refine Keeps.ofSnd (by assumption) ?_
    | with_reducible refine Keeps.ofFst (by assumption) ?_
    | split
    | dsimp only

theorem State.loopEffect_keeps {ρ : State} {s0 : State} {s : State} {l : Nat} (hk : Keeps ρ s) : Keeps ρ (State.loopEffect s0 s l) := by
  unfold State.loopEffect
  repeat' first
    | with_reducible assumption
    | with_reducible refine KeepsR.next ?_
    | fail_if_no_progress with_reducible refine Keeps.mkK ?_
    | with_reducible refine State.modLoop_keeps ?_
    | with_reducible refine State.loopEnable_keeps ?_
    | with_reducible refine State.loopDisable_keeps ?_
    | with_reducible refine Keeps.doAll ?_ (fun _ _ _ => ?_)
    | with_reducible refine Keeps.doIf ?_ (fun _ _ => ?_)
    | with_reducible refine Keeps.foldl ?_ (fun _ _ _ => ?_)
    | with_reducible refine Keeps.foldlFst ?_ (fun _ _ _ => ?_)
    | with_reducible refine Keeps.foldlSnd ?_ (fun _ _ _ => ?_)
    | with_reducible refine KeepsR.host ?_ (fun _ _ => ?_)
    | (lift_lets; intro x; clear_value x)
    | with_reducible refine Keeps.ofSnd (by assumption) ?_
    | with_reducible refine Keeps.ofFst (by assumption) ?_
    | split
    | dsimp only

theorem State.sensorEffect_keeps {ρ : State} {s0 : State} {s : State} {n : Nat} (hk : Keeps ρ s) : Keeps ρ (State.sensorEffect s0 s n) := by
  unfold State.sensorEffect
  repeat' first
    | with_reducible assumption
    | with_reducible refine KeepsR.next ?_
    | fail_if_no_progress with_reducible refine Keeps.mkK ?_
    | with_reducible refine State.modSensor_keeps ?_
    | with_reducible refine State.sensorSwitch_keeps ?_
    | with_reducible refine Keeps.doAll ?_ (fun _ _ _ => ?_)
    | with_reducible refine Keeps.doIf ?_ (fun _ _ => ?_)
    | with_reducible refine Keeps.foldl ?_ (fun _ _ _ => ?_)
    | with_reducible refine Keeps.foldlFst ?_ (fun _ _ _ => ?_)
    | with_reducible refine Keeps.foldlSnd ?_ (fun _ _ _ => ?_)
    | with_reducible refine KeepsR.host ?_ (fun _ _ => ?_)
    | with_reducible refine Keeps.ofSnd (by assumption) ?_
    | with_reducible refine Keeps.ofFst (by assumption) ?_
    | split

theorem State.blockEffect_keeps {ρ : State} {s0 : State} {s : State} {b : Blk} {n : Nat} {m : Nat} (hk : Keeps ρ s) : Keeps ρ (State.blockEffect s0 s b n m) := by
  unfold State.blockEffect
  repeat' first
    | with_reducible assumption
    | with_reducible refine KeepsR.next ?_
    | fail_if_no_progress with_reducible refine Keeps.mkK ?_
    | with_reducible refine State.setFld_keeps ?_
    | with_reducible refine State.topologyEffect_keeps ?_
    | with_reducible refine State.ingestEffect_keeps ?_
    | with_reducible refine State.rvhEffect_keeps ?_
    | with_reducible refine State.layerEffect_keeps ?_
    | with_reducible refine State.rasterEffect_keeps ?_
    | with_reducible refine State.planeEffect_keeps ?_
    | with_reducible refine State.lmEffect_keeps ?_
    | with_reducible refine State.stringEffect_keeps ?_
    | with_reducible refine State.bankEffect_keeps ?_
    | with_reducible refine State.dbEffect_keeps ?_
    | with_reducible refine State.matrixEffect_keeps ?_
    | with_reducible refine State.ccEffect_keeps ?_
    | with_reducible refine State.loopEffect_keeps ?_
    | with_reducible refine State.sensorEffect_keeps ?_
    | with_reducible refine Keeps.doAll ?_ (fun _ _ _ => ?_)
    | with_reducible refine Keeps.doIf ?_ (fun _ _ => ?_)
    | with_reducible refine Keeps.foldl ?_ (fun _ _ _ => ?_)
    | with_reducible refine Keeps.foldlFst ?_ (fun _ _ _ => ?_)
    | with_reducible refine Keeps.foldlSnd ?_ (fun _ _ _ => ?_)
    | with_reducible refine KeepsR.host ?_ (fun _ _ => ?_)
    | with_reducible refine Keeps.ofSnd (by assumption) ?_
    | with_reducible refine Keeps.ofFst (by assumption) ?_
    | split

theorem State.injStart_keeps {ρ : State} {s : State} {k : Nat} (hk : Keeps ρ s) : Keeps ρ (State.injStart s k) := by
  unfold State.injStart
  repeat' first
    | with_reducible assumption
    | with_reducible refine KeepsR.next ?_
    | fail_if_no_progress with_reducible refine Keeps.mkK ?_
    | with_reducible refine State.setInj_keeps ?_
    | with_reducible refine State.setFld_keeps ?_
    | with_reducible refine State.capTrigger_keeps ?_

theorem State.clearAll_keeps {ρ : State} {s : State} {b : Blk} {ns : List Nat} (hk : Keeps ρ s) : Keeps ρ (State.clearAll s b ns) := by
  unfold State.clearAll
  repeat' first
    | with_reducible assumption
    | with_reducible refine KeepsR.next ?_
    | fail_if_no_progress with_reducible refine Keeps.mkK ?_
    | with_reducible refine State.clearCounts_keeps ?_
    | with_reducible refine Keeps.doAll ?_ (fun _ _ _ => ?_)
    | with_reducible refine Keeps.doIf ?_ (fun _ _ => ?_)
    | with_reducible refine Keeps.foldl ?_ (fun _ _ _ => ?_)
    | with_reducible refine Keeps.foldlFst ?_ (fun _ _ _ => ?_)
    | with_reducible refine Keeps.foldlSnd ?_ (fun _ _ _ => ?_)
    | with_reducible refine KeepsR.host ?_ (fun _ _ => ?_)
    | with_reducible refine Keeps.ofSnd (by assumption) ?_
    | with_reducible refine Keeps.ofFst (by assumption) ?_
    | split

theorem State.act_keeps {ρ : State} {s : State} {b : Blk} {name : String} {ns : List Nat} {v : Nat} (hk : Keeps ρ s) : Keeps ρ (State.act s b name ns v) := by
  unfold State.act
  repeat' first
    | with_reducible assumption
    | with_reducible refine KeepsR.next ?_
    | fail_if_no_progress with_reducible refine Keeps.mkK ?_
    | with_reducible refine State.modGroup_keeps ?_
    | with_reducible refine State.setFld_keeps ?_
    | with_reducible refine State.injEnd_keeps ?_
    | with_reducible refine State.capArm_keeps ?_
    | with_reducible refine State.loopClear_keeps ?_
    | with_reducible refine State.retrain_keeps ?_
    | with_reducible refine State.portRetrain_keeps ?_
    | with_reducible refine State.strClear_keeps ?_
    | with_reducible refine State.rearm_keeps ?_
    | with_reducible refine State.fadeWrite_keeps ?_
    | with_reducible refine State.zonesClear_keeps ?_
    | with_reducible refine State.ccShow_keeps ?_
    | with_reducible refine State.ccLearn_keeps ?_
    | with_reducible refine State.triadClear_keeps ?_
    | with_reducible refine State.arm_keeps ?_
    | with_reducible refine State.restoreSensor_keeps ?_
    | with_reducible refine State.injStart_keeps ?_
    | with_reducible refine State.clearAll_keeps ?_
    | with_reducible refine Keeps.doAll ?_ (fun _ _ _ => ?_)
    | with_reducible refine Keeps.doIf ?_ (fun _ _ => ?_)
    | with_reducible refine Keeps.foldl ?_ (fun _ _ _ => ?_)
    | with_reducible refine Keeps.foldlFst ?_ (fun _ _ _ => ?_)
    | with_reducible refine Keeps.foldlSnd ?_ (fun _ _ _ => ?_)
    | with_reducible refine KeepsR.host ?_ (fun _ _ => ?_)
    | (lift_lets; intro x; clear_value x)
    | with_reducible refine Keeps.ofSnd (by assumption) ?_
    | with_reducible refine Keeps.ofFst (by assumption) ?_
    | split

theorem State.derived_keeps {ρ : State} {s0 : State} {s : State} {commit : Bool} {l : List Blk} (hk : Keeps ρ s) : Keeps ρ (State.derived s0 s commit l) := by
  unfold State.derived
  repeat' first
    | with_reducible assumption
    | with_reducible refine KeepsR.next ?_
    | fail_if_no_progress with_reducible refine Keeps.mkK ?_
    | with_reducible refine State.setFlag_keeps ?_
    | with_reducible refine State.glStates_keeps ?_
    | with_reducible refine State.wake_keeps ?_
    | with_reducible refine State.loopWords_keeps ?_
    | with_reducible refine State.ownWords_keeps ?_
    | with_reducible refine State.supplySync_keeps ?_
    | with_reducible refine State.updateWeights_keeps ?_
    | with_reducible refine State.planeWords_keeps ?_
    | with_reducible refine State.abortStopped_keeps ?_
    | with_reducible refine State.classify_keeps ?_
    | with_reducible refine State.ccCommit_keeps ?_
    | with_reducible refine State.gates_keeps ?_
    | with_reducible refine State.seqWords_keeps ?_
    | with_reducible refine State.lookWords_keeps ?_
    | with_reducible refine State.commit_keeps ?_
    | with_reducible refine Keeps.doAll ?_ (fun _ _ _ => ?_)
    | with_reducible refine Keeps.doIf ?_ (fun _ _ => ?_)

theorem State.putEntry_keeps {ρ : State} {s : State} {e : Entry} (hk : Keeps ρ s) : Keeps ρ (State.putEntry s e) := by
  unfold State.putEntry
  repeat' first
    | with_reducible assumption
    | with_reducible refine KeepsR.next ?_
    | fail_if_no_progress with_reducible refine Keeps.mkK ?_
    | with_reducible refine State.setWord_keeps ?_
    | with_reducible refine State.writeBits_keeps ?_
    | with_reducible refine Keeps.doAll ?_ (fun _ _ _ => ?_)
    | with_reducible refine Keeps.doIf ?_ (fun _ _ => ?_)
    | with_reducible refine Keeps.foldl ?_ (fun _ _ _ => ?_)
    | with_reducible refine Keeps.foldlFst ?_ (fun _ _ _ => ?_)
    | with_reducible refine Keeps.foldlSnd ?_ (fun _ _ _ => ?_)
    | with_reducible refine KeepsR.host ?_ (fun _ _ => ?_)
    | (lift_lets; intro x; refine Keeps.cut (r := ρ) (x := x) ?_ (fun hx => ?_); (on_goal 1 => dsimp only [x]); (on_goal 2 => clear_value x))
    | with_reducible refine Keeps.ofSnd (by assumption) ?_
    | with_reducible refine Keeps.ofFst (by assumption) ?_
    | split

theorem State.actEntry_keeps {ρ : State} {s : State} {e : Entry} (hk : Keeps ρ s) : Keeps ρ (State.actEntry s e) := by
  unfold State.actEntry
  repeat' first
    | with_reducible assumption
    | with_reducible refine KeepsR.next ?_
    | fail_if_no_progress with_reducible refine Keeps.mkK ?_
    | with_reducible refine State.genCommand_keeps ?_
    | with_reducible refine State.act_keeps ?_
    | with_reducible refine Keeps.doAll ?_ (fun _ _ _ => ?_)
    | with_reducible refine Keeps.doIf ?_ (fun _ _ => ?_)
    | with_reducible refine Keeps.foldl ?_ (fun _ _ _ => ?_)
    | with_reducible refine Keeps.foldlFst ?_ (fun _ _ _ => ?_)
    | with_reducible refine Keeps.foldlSnd ?_ (fun _ _ _ => ?_)
    | with_reducible refine KeepsR.host ?_ (fun _ _ => ?_)
    | with_reducible refine Keeps.ofSnd (by assumption) ?_
    | with_reducible refine Keeps.ofFst (by assumption) ?_
    | split

theorem State.scanEntry_keeps {ρ : State} {s : State} {e : Entry} (hk : Keeps ρ s) : Keeps ρ (State.scanEntry s e) := by
  unfold State.scanEntry
  repeat' first
    | with_reducible assumption
    | with_reducible refine KeepsR.next ?_
    | fail_if_no_progress with_reducible refine Keeps.mkK ?_
    | with_reducible refine State.scanMode_keeps ?_
    | with_reducible refine Keeps.doAll ?_ (fun _ _ _ => ?_)
    | with_reducible refine Keeps.doIf ?_ (fun _ _ => ?_)
    | with_reducible refine Keeps.foldl ?_ (fun _ _ _ => ?_)
    | with_reducible refine Keeps.foldlFst ?_ (fun _ _ _ => ?_)
    | with_reducible refine Keeps.foldlSnd ?_ (fun _ _ _ => ?_)
    | with_reducible refine KeepsR.host ?_ (fun _ _ => ?_)
    | with_reducible refine Keeps.ofSnd (by assumption) ?_
    | with_reducible refine Keeps.ofFst (by assumption) ?_
    | split

theorem State.applyWrites_keeps {ρ : State} {s0 : State} {commit : Bool} {entries : List Entry} (hk : Keeps ρ s0) : Keeps ρ (State.applyWrites s0 commit entries) := by
  unfold State.applyWrites
  repeat' first
    | with_reducible assumption
    | with_reducible refine KeepsR.next ?_
    | fail_if_no_progress with_reducible refine Keeps.mkK ?_
    | with_reducible refine State.raise_keeps ?_
    | with_reducible refine State.blockEffect_keeps ?_
    | with_reducible refine State.derived_keeps ?_
    | with_reducible refine State.putEntry_keeps ?_
    | with_reducible refine State.actEntry_keeps ?_
    | with_reducible refine State.scanEntry_keeps ?_
    | with_reducible refine State.commit_keeps ?_
    | with_reducible refine Keeps.doAll ?_ (fun _ _ _ => ?_)
    | with_reducible refine Keeps.doIf ?_ (fun _ _ => ?_)
    | with_reducible refine Keeps.foldl ?_ (fun _ _ _ => ?_)
    | with_reducible refine Keeps.foldlFst ?_ (fun _ _ _ => ?_)
    | with_reducible refine Keeps.foldlSnd ?_ (fun _ _ _ => ?_)
    | with_reducible refine KeepsR.host ?_ (fun _ _ => ?_)
    | with_reducible refine Keeps.ofSnd (by assumption) ?_
    | with_reducible refine Keeps.ofFst (by assumption) ?_
    | split

theorem State.refuseWrite_keeps {ρ : State} {s : State} {i : Iface} {idx : Nat} {code : Nat} (hk : Keeps ρ s) : Keeps ρ (State.refuseWrite s i idx code) := by
  unfold State.refuseWrite
  repeat' first
    | with_reducible assumption
    | with_reducible refine KeepsR.next ?_
    | fail_if_no_progress with_reducible refine Keeps.mkK ?_
    | with_reducible refine State.raise2_keeps ?_

theorem State.enableRefused_keeps {ρ : State} {s : State} {idx : Nat} {v : Word} {code : Nat} (hk : Keeps ρ s) : Keeps ρ (State.enableRefused s idx v code) := by
  unfold State.enableRefused
  repeat' first
    | with_reducible assumption
    | with_reducible refine KeepsR.next ?_
    | fail_if_no_progress with_reducible refine Keeps.mkK ?_
    | with_reducible refine State.setFld_keeps ?_
    | with_reducible refine Keeps.doAll ?_ (fun _ _ _ => ?_)
    | with_reducible refine Keeps.doIf ?_ (fun _ _ => ?_)
    | with_reducible refine Keeps.foldl ?_ (fun _ _ _ => ?_)
    | with_reducible refine Keeps.foldlFst ?_ (fun _ _ _ => ?_)
    | with_reducible refine Keeps.foldlSnd ?_ (fun _ _ _ => ?_)
    | with_reducible refine KeepsR.host ?_ (fun _ _ => ?_)
    | with_reducible refine Keeps.ofSnd (by assumption) ?_
    | with_reducible refine Keeps.ofFst (by assumption) ?_
    | split

theorem State.plainWrite_keeps {ρ : State} {s : State} {i : Iface} {idx : Nat} {v : Word} (hk : Keeps ρ s) : Keeps ρ (State.plainWrite s i idx v) := by
  unfold State.plainWrite
  repeat' first
    | with_reducible assumption
    | with_reducible refine KeepsR.next ?_
    | fail_if_no_progress with_reducible refine Keeps.mkK ?_
    | with_reducible refine State.modMatrix_keeps ?_
    | with_reducible refine State.raise_keeps ?_
    | with_reducible refine State.applyWrites_keeps ?_
    | with_reducible refine State.refuseWrite_keeps ?_
    | with_reducible refine State.enableRefused_keeps ?_
    | with_reducible refine Keeps.doAll ?_ (fun _ _ _ => ?_)
    | with_reducible refine Keeps.doIf ?_ (fun _ _ => ?_)
    | with_reducible refine Keeps.foldl ?_ (fun _ _ _ => ?_)
    | with_reducible refine Keeps.foldlFst ?_ (fun _ _ _ => ?_)
    | with_reducible refine Keeps.foldlSnd ?_ (fun _ _ _ => ?_)
    | with_reducible refine KeepsR.host ?_ (fun _ _ => ?_)
    | (lift_lets; intro x; refine Keeps.cut (r := ρ) (x := x) ?_ (fun hx => ?_); (on_goal 1 => dsimp only [x]); (on_goal 2 => clear_value x))
    | (lift_lets; intro x; clear_value x)
    | with_reducible refine Keeps.ofSnd (by assumption) ?_
    | with_reducible refine Keeps.ofFst (by assumption) ?_
    | split
    | dsimp only

theorem State.writeSetting_keeps {ρ : State} {s : State} {i : Iface} {idx : Nat} {f : Field} {v : Word} (hk : Keeps ρ s) : KeepsR ρ (State.writeSetting s i idx f v) := by
  unfold State.writeSetting
  repeat' first
    | with_reducible assumption
    | with_reducible refine KeepsR.next ?_
    | fail_if_no_progress with_reducible refine Keeps.mkK ?_
    | with_reducible refine State.plainWrite_keeps ?_
    | with_reducible refine Keeps.doAll ?_ (fun _ _ _ => ?_)
    | with_reducible refine Keeps.doIf ?_ (fun _ _ => ?_)
    | with_reducible refine Keeps.foldl ?_ (fun _ _ _ => ?_)
    | with_reducible refine Keeps.foldlFst ?_ (fun _ _ _ => ?_)
    | with_reducible refine Keeps.foldlSnd ?_ (fun _ _ _ => ?_)
    | with_reducible refine KeepsR.host ?_ (fun _ _ => ?_)

theorem execClearCounts_keeps {ρ : State} {i : Iface} {idx : BitVec 24} {v : Word} {s : State} (hk : Keeps ρ s) : KeepsR ρ (execClearCounts i idx v s) := by
  unfold execClearCounts
  repeat' first
    | with_reducible assumption
    | with_reducible refine KeepsR.next ?_
    | fail_if_no_progress with_reducible refine Keeps.mkK ?_
    | with_reducible refine State.plainWrite_keeps ?_
    | with_reducible refine Keeps.doAll ?_ (fun _ _ _ => ?_)
    | with_reducible refine Keeps.doIf ?_ (fun _ _ => ?_)
    | with_reducible refine Keeps.foldl ?_ (fun _ _ _ => ?_)
    | with_reducible refine Keeps.foldlFst ?_ (fun _ _ _ => ?_)
    | with_reducible refine Keeps.foldlSnd ?_ (fun _ _ _ => ?_)
    | with_reducible refine KeepsR.host ?_ (fun _ _ => ?_)

theorem execBlockEnable_keeps {ρ : State} {i : Iface} {idx : BitVec 24} {v : Word} {s : State} (hk : Keeps ρ s) : KeepsR ρ (execBlockEnable i idx v s) := by
  unfold execBlockEnable
  repeat' first
    | with_reducible assumption
    | with_reducible refine KeepsR.next ?_
    | fail_if_no_progress with_reducible refine Keeps.mkK ?_
    | with_reducible refine State.plainWrite_keeps ?_
    | with_reducible refine Keeps.doAll ?_ (fun _ _ _ => ?_)
    | with_reducible refine Keeps.doIf ?_ (fun _ _ => ?_)
    | with_reducible refine Keeps.foldl ?_ (fun _ _ _ => ?_)
    | with_reducible refine Keeps.foldlFst ?_ (fun _ _ _ => ?_)
    | with_reducible refine Keeps.foldlSnd ?_ (fun _ _ _ => ?_)
    | with_reducible refine KeepsR.host ?_ (fun _ _ => ?_)

theorem execHeadDisable_keeps {ρ : State} {i : Iface} {h : Fin 4} {v : Word} {s : State} (hk : Keeps ρ s) : KeepsR ρ (execHeadDisable i h v s) := by
  unfold execHeadDisable
  repeat' first
    | with_reducible assumption
    | with_reducible refine KeepsR.next ?_
    | fail_if_no_progress with_reducible refine Keeps.mkK ?_
    | with_reducible refine State.plainWrite_keeps ?_
    | with_reducible refine Keeps.doAll ?_ (fun _ _ _ => ?_)
    | with_reducible refine Keeps.doIf ?_ (fun _ _ => ?_)
    | with_reducible refine Keeps.foldl ?_ (fun _ _ _ => ?_)
    | with_reducible refine Keeps.foldlFst ?_ (fun _ _ _ => ?_)
    | with_reducible refine Keeps.foldlSnd ?_ (fun _ _ _ => ?_)
    | with_reducible refine KeepsR.host ?_ (fun _ _ => ?_)

theorem execRetrain_keeps {ρ : State} {i : Iface} {port : Fin 6} {v : Word} {s : State} (hk : Keeps ρ s) : KeepsR ρ (execRetrain i port v s) := by
  unfold execRetrain
  repeat' first
    | with_reducible assumption
    | with_reducible refine KeepsR.next ?_
    | fail_if_no_progress with_reducible refine Keeps.mkK ?_
    | with_reducible refine State.writeSetting_keeps ?_
    | with_reducible refine Keeps.doAll ?_ (fun _ _ _ => ?_)
    | with_reducible refine Keeps.doIf ?_ (fun _ _ => ?_)
    | with_reducible refine Keeps.foldl ?_ (fun _ _ _ => ?_)
    | with_reducible refine Keeps.foldlFst ?_ (fun _ _ _ => ?_)
    | with_reducible refine Keeps.foldlSnd ?_ (fun _ _ _ => ?_)
    | with_reducible refine KeepsR.host ?_ (fun _ _ => ?_)
    | with_reducible refine Keeps.ofSnd (by assumption) ?_
    | with_reducible refine Keeps.ofFst (by assumption) ?_
    | split

theorem execCrcLearn_keeps {ρ : State} {i : Iface} {g : Fin 4} {v : Word} {s : State} (hk : Keeps ρ s) : KeepsR ρ (execCrcLearn i g v s) := by
  unfold execCrcLearn
  repeat' first
    | with_reducible assumption
    | with_reducible refine KeepsR.next ?_
    | fail_if_no_progress with_reducible refine Keeps.mkK ?_
    | with_reducible refine State.plainWrite_keeps ?_
    | with_reducible refine Keeps.doAll ?_ (fun _ _ _ => ?_)
    | with_reducible refine Keeps.doIf ?_ (fun _ _ => ?_)
    | with_reducible refine Keeps.foldl ?_ (fun _ _ _ => ?_)
    | with_reducible refine Keeps.foldlFst ?_ (fun _ _ _ => ?_)
    | with_reducible refine Keeps.foldlSnd ?_ (fun _ _ _ => ?_)
    | with_reducible refine KeepsR.host ?_ (fun _ _ => ?_)

theorem execPgTargetWrite_keeps {ρ : State} {i : Iface} {g : Fin 8} {v : Word} {s : State} (hk : Keeps ρ s) : KeepsR ρ (execPgTargetWrite i g v s) := by
  unfold execPgTargetWrite
  repeat' first
    | with_reducible assumption
    | with_reducible refine KeepsR.next ?_
    | fail_if_no_progress with_reducible refine Keeps.mkK ?_
    | with_reducible refine State.plainWrite_keeps ?_
    | with_reducible refine Keeps.doAll ?_ (fun _ _ _ => ?_)
    | with_reducible refine Keeps.doIf ?_ (fun _ _ => ?_)
    | with_reducible refine Keeps.foldl ?_ (fun _ _ _ => ?_)
    | with_reducible refine Keeps.foldlFst ?_ (fun _ _ _ => ?_)
    | with_reducible refine Keeps.foldlSnd ?_ (fun _ _ _ => ?_)
    | with_reducible refine KeepsR.host ?_ (fun _ _ => ?_)

theorem execHeadEnable_keeps {ρ : State} {i : Iface} {h : Fin 4} {v : Word} {s : State} (hk : Keeps ρ s) : KeepsR ρ (execHeadEnable i h v s) := by
  unfold execHeadEnable
  repeat' first
    | with_reducible assumption
    | with_reducible refine KeepsR.next ?_
    | fail_if_no_progress with_reducible refine Keeps.mkK ?_
    | with_reducible refine State.writeSetting_keeps ?_

theorem execIngestEnable_keeps {ρ : State} {i : Iface} {p : Fin 2} {v : Word} {s : State} (hk : Keeps ρ s) : KeepsR ρ (execIngestEnable i p v s) := by
  unfold execIngestEnable
  repeat' first
    | with_reducible assumption
    | with_reducible refine KeepsR.next ?_
    | fail_if_no_progress with_reducible refine Keeps.mkK ?_
    | with_reducible refine State.writeSetting_keeps ?_

theorem execRasterEnable_keeps {ρ : State} {i : Iface} {g : Fin 4} {v : Word} {s : State} (hk : Keeps ρ s) : KeepsR ρ (execRasterEnable i g v s) := by
  unfold execRasterEnable
  repeat' first
    | with_reducible assumption
    | with_reducible refine KeepsR.next ?_
    | fail_if_no_progress with_reducible refine Keeps.mkK ?_
    | with_reducible refine State.writeSetting_keeps ?_

theorem execMonitorEnable_keeps {ρ : State} {i : Iface} {v : Word} {s : State} (hk : Keeps ρ s) : KeepsR ρ (execMonitorEnable i v s) := by
  unfold execMonitorEnable
  repeat' first
    | with_reducible assumption
    | with_reducible refine KeepsR.next ?_
    | fail_if_no_progress with_reducible refine Keeps.mkK ?_
    | with_reducible refine State.writeSetting_keeps ?_

theorem execCcLearn_keeps {ρ : State} {i : Iface} {g : Fin 4} {v : Word} {s : State} (hk : Keeps ρ s) : KeepsR ρ (execCcLearn i g v s) := by
  unfold execCcLearn
  repeat' first
    | with_reducible assumption
    | with_reducible refine KeepsR.next ?_
    | fail_if_no_progress with_reducible refine Keeps.mkK ?_
    | with_reducible refine State.writeSetting_keeps ?_

theorem execTriadClearSuspect_keeps {ρ : State} {i : Iface} {t : Fin 4} {v : Word} {s : State} (hk : Keeps ρ s) : KeepsR ρ (execTriadClearSuspect i t v s) := by
  unfold execTriadClearSuspect
  repeat' first
    | with_reducible assumption
    | with_reducible refine KeepsR.next ?_
    | fail_if_no_progress with_reducible refine Keeps.mkK ?_
    | with_reducible refine State.writeSetting_keeps ?_

theorem execLenArm_keeps {ρ : State} {i : Iface} {h : Fin 4} {v : Word} {s : State} (hk : Keeps ρ s) : KeepsR ρ (execLenArm i h v s) := by
  unfold execLenArm
  repeat' first
    | with_reducible assumption
    | with_reducible refine KeepsR.next ?_
    | fail_if_no_progress with_reducible refine Keeps.mkK ?_
    | with_reducible refine State.writeSetting_keeps ?_

theorem execLenForceOff_keeps {ρ : State} {i : Iface} {h : Fin 4} {v : Word} {s : State} (hk : Keeps ρ s) : KeepsR ρ (execLenForceOff i h v s) := by
  unfold execLenForceOff
  repeat' first
    | with_reducible assumption
    | with_reducible refine KeepsR.next ?_
    | fail_if_no_progress with_reducible refine Keeps.mkK ?_
    | with_reducible refine State.writeSetting_keeps ?_

theorem execLoopClearFault_keeps {ρ : State} {i : Iface} {l : Fin 64} {v : Word} {s : State} (hk : Keeps ρ s) : KeepsR ρ (execLoopClearFault i l v s) := by
  unfold execLoopClearFault
  repeat' first
    | with_reducible assumption
    | with_reducible refine KeepsR.next ?_
    | fail_if_no_progress with_reducible refine Keeps.mkK ?_
    | with_reducible refine State.writeSetting_keeps ?_

theorem execInjectorStart_keeps {ρ : State} {i : Iface} {k : Fin 4} {v : Word} {s : State} (hk : Keeps ρ s) : KeepsR ρ (execInjectorStart i k v s) := by
  unfold execInjectorStart
  repeat' first
    | with_reducible assumption
    | with_reducible refine KeepsR.next ?_
    | fail_if_no_progress with_reducible refine Keeps.mkK ?_
    | with_reducible refine State.writeSetting_keeps ?_

theorem execInjectorStop_keeps {ρ : State} {i : Iface} {k : Fin 4} {v : Word} {s : State} (hk : Keeps ρ s) : KeepsR ρ (execInjectorStop i k v s) := by
  unfold execInjectorStop
  repeat' first
    | with_reducible assumption
    | with_reducible refine KeepsR.next ?_
    | fail_if_no_progress with_reducible refine Keeps.mkK ?_
    | with_reducible refine State.writeSetting_keeps ?_

theorem execCaptureArm_keeps {ρ : State} {i : Iface} {v : Word} {s : State} (hk : Keeps ρ s) : KeepsR ρ (execCaptureArm i v s) := by
  unfold execCaptureArm
  repeat' first
    | with_reducible assumption
    | with_reducible refine KeepsR.next ?_
    | fail_if_no_progress with_reducible refine Keeps.mkK ?_
    | with_reducible refine State.writeSetting_keeps ?_

theorem execCaptureAbort_keeps {ρ : State} {i : Iface} {v : Word} {s : State} (hk : Keeps ρ s) : KeepsR ρ (execCaptureAbort i v s) := by
  unfold execCaptureAbort
  repeat' first
    | with_reducible assumption
    | with_reducible refine KeepsR.next ?_
    | fail_if_no_progress with_reducible refine Keeps.mkK ?_
    | with_reducible refine State.writeSetting_keeps ?_

theorem execStringClearFault_keeps {ρ : State} {i : Iface} {n : Fin 64} {v : Word} {s : State} (hk : Keeps ρ s) : KeepsR ρ (execStringClearFault i n v s) := by
  unfold execStringClearFault
  repeat' first
    | with_reducible assumption
    | with_reducible refine KeepsR.next ?_
    | fail_if_no_progress with_reducible refine Keeps.mkK ?_
    | with_reducible refine State.writeSetting_keeps ?_

theorem execBankRearm_keeps {ρ : State} {i : Iface} {b : Fin 8} {v : Word} {s : State} (hk : Keeps ρ s) : KeepsR ρ (execBankRearm i b v s) := by
  unfold execBankRearm
  repeat' first
    | with_reducible assumption
    | with_reducible refine KeepsR.next ?_
    | fail_if_no_progress with_reducible refine Keeps.mkK ?_
    | with_reducible refine State.writeSetting_keeps ?_

theorem execZoneClearFault_keeps {ρ : State} {i : Iface} {c : Fin 40960} {v : Word} {s : State} (hk : Keeps ρ s) : KeepsR ρ (execZoneClearFault i c v s) := by
  unfold execZoneClearFault
  repeat' first
    | with_reducible assumption
    | with_reducible refine KeepsR.next ?_
    | fail_if_no_progress with_reducible refine Keeps.mkK ?_
    | with_reducible refine State.writeSetting_keeps ?_

theorem execSensorClearSuspect_keeps {ρ : State} {i : Iface} {n : Fin 36} {v : Word} {s : State} (hk : Keeps ρ s) : KeepsR ρ (execSensorClearSuspect i n v s) := by
  unfold execSensorClearSuspect
  repeat' first
    | with_reducible assumption
    | with_reducible refine KeepsR.next ?_
    | fail_if_no_progress with_reducible refine Keeps.mkK ?_
    | with_reducible refine State.writeSetting_keeps ?_

theorem execFadeIn_keeps {ρ : State} {i : Iface} {b : Fin 8} {s : State} (hk : Keeps ρ s) : KeepsR ρ (execFadeIn i b s) := by
  unfold execFadeIn
  repeat' first
    | with_reducible assumption
    | with_reducible refine KeepsR.next ?_
    | fail_if_no_progress with_reducible refine Keeps.mkK ?_
    | with_reducible refine State.plainWrite_keeps ?_
    | with_reducible refine Keeps.doAll ?_ (fun _ _ _ => ?_)
    | with_reducible refine Keeps.doIf ?_ (fun _ _ => ?_)
    | with_reducible refine Keeps.foldl ?_ (fun _ _ _ => ?_)
    | with_reducible refine Keeps.foldlFst ?_ (fun _ _ _ => ?_)
    | with_reducible refine Keeps.foldlSnd ?_ (fun _ _ _ => ?_)
    | with_reducible refine KeepsR.host ?_ (fun _ _ => ?_)

theorem execFadeOut_keeps {ρ : State} {i : Iface} {b : Fin 8} {s : State} (hk : Keeps ρ s) : KeepsR ρ (execFadeOut i b s) := by
  unfold execFadeOut
  repeat' first
    | with_reducible assumption
    | with_reducible refine KeepsR.next ?_
    | fail_if_no_progress with_reducible refine Keeps.mkK ?_
    | with_reducible refine State.plainWrite_keeps ?_
    | with_reducible refine Keeps.doAll ?_ (fun _ _ _ => ?_)
    | with_reducible refine Keeps.doIf ?_ (fun _ _ => ?_)
    | with_reducible refine Keeps.foldl ?_ (fun _ _ _ => ?_)
    | with_reducible refine Keeps.foldlFst ?_ (fun _ _ _ => ?_)
    | with_reducible refine Keeps.foldlSnd ?_ (fun _ _ _ => ?_)
    | with_reducible refine KeepsR.host ?_ (fun _ _ => ?_)

theorem execStandby_keeps {ρ : State} {i : Iface} {b : Fin 8} {s : State} (hk : Keeps ρ s) : KeepsR ρ (execStandby i b s) := by
  unfold execStandby
  repeat' first
    | with_reducible assumption
    | with_reducible refine KeepsR.next ?_
    | fail_if_no_progress with_reducible refine Keeps.mkK ?_
    | with_reducible refine State.plainWrite_keeps ?_
    | with_reducible refine Keeps.doAll ?_ (fun _ _ _ => ?_)
    | with_reducible refine Keeps.doIf ?_ (fun _ _ => ?_)
    | with_reducible refine Keeps.foldl ?_ (fun _ _ _ => ?_)
    | with_reducible refine Keeps.foldlFst ?_ (fun _ _ _ => ?_)
    | with_reducible refine Keeps.foldlSnd ?_ (fun _ _ _ => ?_)
    | with_reducible refine KeepsR.host ?_ (fun _ _ => ?_)

theorem execBreathe_keeps {ρ : State} {i : Iface} {b : Fin 8} {s : State} (hk : Keeps ρ s) : KeepsR ρ (execBreathe i b s) := by
  unfold execBreathe
  repeat' first
    | with_reducible assumption
    | with_reducible refine KeepsR.next ?_
    | fail_if_no_progress with_reducible refine Keeps.mkK ?_
    | with_reducible refine State.plainWrite_keeps ?_
    | with_reducible refine Keeps.doAll ?_ (fun _ _ _ => ?_)
    | with_reducible refine Keeps.doIf ?_ (fun _ _ => ?_)
    | with_reducible refine Keeps.foldl ?_ (fun _ _ _ => ?_)
    | with_reducible refine Keeps.foldlFst ?_ (fun _ _ _ => ?_)
    | with_reducible refine Keeps.foldlSnd ?_ (fun _ _ _ => ?_)
    | with_reducible refine KeepsR.host ?_ (fun _ _ => ?_)

theorem State.allocHandle_keeps {ρ : State} {s : State} {i : Iface} (hk : Keeps ρ s) : Keeps ρ (State.allocHandle s i).2 := by
  unfold State.allocHandle
  repeat' first
    | with_reducible assumption
    | with_reducible refine KeepsR.next ?_
    | fail_if_no_progress with_reducible refine Keeps.mkK ?_
    | with_reducible refine State.setSheaf_keeps ?_
    | with_reducible refine Keeps.doAll ?_ (fun _ _ _ => ?_)
    | with_reducible refine Keeps.doIf ?_ (fun _ _ => ?_)
    | with_reducible refine Keeps.foldl ?_ (fun _ _ _ => ?_)
    | with_reducible refine Keeps.foldlFst ?_ (fun _ _ _ => ?_)
    | with_reducible refine Keeps.foldlSnd ?_ (fun _ _ _ => ?_)
    | with_reducible refine KeepsR.host ?_ (fun _ _ => ?_)
    | (lift_lets; intro x; clear_value x)
    | with_reducible refine Keeps.ofSnd (by assumption) ?_
    | with_reducible refine Keeps.ofFst (by assumption) ?_
    | split

theorem execShAllocRead_keeps {ρ : State} {i : Iface} {s : State} (hk : Keeps ρ s) : KeepsR ρ (execShAllocRead i s) := by
  unfold execShAllocRead
  repeat' first
    | with_reducible assumption
    | with_reducible refine KeepsR.next ?_
    | fail_if_no_progress with_reducible refine Keeps.mkK ?_
    | with_reducible refine State.respond_keeps ?_
    | with_reducible refine State.allocHandle_keeps ?_
    | with_reducible refine Keeps.doAll ?_ (fun _ _ _ => ?_)
    | with_reducible refine Keeps.doIf ?_ (fun _ _ => ?_)
    | with_reducible refine Keeps.foldl ?_ (fun _ _ _ => ?_)
    | with_reducible refine Keeps.foldlFst ?_ (fun _ _ _ => ?_)
    | with_reducible refine Keeps.foldlSnd ?_ (fun _ _ _ => ?_)
    | with_reducible refine KeepsR.host ?_ (fun _ _ => ?_)

theorem State.stage_keeps {ρ : State} {s : State} {n : Nat} {v : Word} (hk : Keeps ρ s) : Keeps ρ (State.stage s n v) := by
  unfold State.stage
  repeat' first
    | with_reducible assumption
    | with_reducible refine KeepsR.next ?_
    | fail_if_no_progress with_reducible refine Keeps.mkK ?_
    | with_reducible refine State.setSheaf_keeps ?_
    | with_reducible refine Keeps.doAll ?_ (fun _ _ _ => ?_)
    | with_reducible refine Keeps.doIf ?_ (fun _ _ => ?_)
    | with_reducible refine Keeps.foldl ?_ (fun _ _ _ => ?_)
    | with_reducible refine Keeps.foldlFst ?_ (fun _ _ _ => ?_)
    | with_reducible refine Keeps.foldlSnd ?_ (fun _ _ _ => ?_)
    | with_reducible refine KeepsR.host ?_ (fun _ _ => ?_)
    | (lift_lets; intro x; clear_value x)
    | with_reducible refine Keeps.ofSnd (by assumption) ?_
    | with_reducible refine Keeps.ofFst (by assumption) ?_
    | split

theorem execShValueWrite_keeps {ρ : State} {i : Iface} {n : Fin 14} {v : Word} {s : State} (hk : Keeps ρ s) : KeepsR ρ (execShValueWrite i n v s) := by
  unfold execShValueWrite
  repeat' first
    | with_reducible assumption
    | with_reducible refine KeepsR.next ?_
    | fail_if_no_progress with_reducible refine Keeps.mkK ?_
    | with_reducible refine State.stage_keeps ?_
    | with_reducible refine Keeps.doAll ?_ (fun _ _ _ => ?_)
    | with_reducible refine Keeps.doIf ?_ (fun _ _ => ?_)
    | with_reducible refine Keeps.foldl ?_ (fun _ _ _ => ?_)
    | with_reducible refine Keeps.foldlFst ?_ (fun _ _ _ => ?_)
    | with_reducible refine Keeps.foldlSnd ?_ (fun _ _ _ => ?_)
    | with_reducible refine KeepsR.host ?_ (fun _ _ => ?_)

theorem State.commit_keeps {ρ : State} {s : State} {n : Nat} (hk : Keeps ρ s) : Keeps ρ (State.commit s n) := by
  unfold State.commit
  repeat' first
    | with_reducible assumption
    | with_reducible refine KeepsR.next ?_
    | fail_if_no_progress with_reducible refine Keeps.mkK ?_
    | with_reducible refine State.setSheaf_keeps ?_
    | with_reducible refine Keeps.doAll ?_ (fun _ _ _ => ?_)
    | with_reducible refine Keeps.doIf ?_ (fun _ _ => ?_)
    | with_reducible refine Keeps.foldl ?_ (fun _ _ _ => ?_)
    | with_reducible refine Keeps.foldlFst ?_ (fun _ _ _ => ?_)
    | with_reducible refine Keeps.foldlSnd ?_ (fun _ _ _ => ?_)
    | with_reducible refine KeepsR.host ?_ (fun _ _ => ?_)
    | (lift_lets; intro x; clear_value x)
    | with_reducible refine Keeps.ofSnd (by assumption) ?_
    | with_reducible refine Keeps.ofFst (by assumption) ?_
    | split

theorem execSheafCommit_keeps {ρ : State} {i : Iface} {n : Fin 14} {s : State} (hk : Keeps ρ s) : KeepsR ρ (execSheafCommit i n s) := by
  unfold execSheafCommit
  repeat' first
    | with_reducible assumption
    | with_reducible refine KeepsR.next ?_
    | fail_if_no_progress with_reducible refine Keeps.mkK ?_
    | with_reducible refine State.commit_keeps ?_
    | with_reducible refine Keeps.doAll ?_ (fun _ _ _ => ?_)
    | with_reducible refine Keeps.doIf ?_ (fun _ _ => ?_)
    | with_reducible refine Keeps.foldl ?_ (fun _ _ _ => ?_)
    | with_reducible refine Keeps.foldlFst ?_ (fun _ _ _ => ?_)
    | with_reducible refine Keeps.foldlSnd ?_ (fun _ _ _ => ?_)
    | with_reducible refine KeepsR.host ?_ (fun _ _ => ?_)

theorem State.admitted_keeps {ρ : State} {s : State} (hk : Keeps ρ s) : Keeps ρ (State.admitted s) := by
  unfold State.admitted
  repeat' first
    | with_reducible assumption
    | with_reducible refine KeepsR.next ?_
    | fail_if_no_progress with_reducible refine Keeps.mkK ?_
    | with_reducible refine State.putEntry_keeps ?_
    | with_reducible refine Keeps.doAll ?_ (fun _ _ _ => ?_)

theorem execSheafValidate_keeps {ρ : State} {n : Fin 16} {s : State} (hk : Keeps ρ s) : KeepsR ρ (execSheafValidate n s) := by
  unfold execSheafValidate
  repeat' first
    | with_reducible assumption
    | with_reducible refine KeepsR.next ?_
    | fail_if_no_progress with_reducible refine Keeps.mkK ?_
    | with_reducible refine State.setSheaf_keeps ?_
    | with_reducible refine State.setFld_keeps ?_
    | with_reducible refine State.swapWords_keeps ?_
    | with_reducible refine State.refuseSheaf_keeps ?_
    | with_reducible refine Keeps.doAll ?_ (fun _ _ _ => ?_)
    | with_reducible refine Keeps.doIf ?_ (fun _ _ => ?_)
    | with_reducible refine Keeps.foldl ?_ (fun _ _ _ => ?_)
    | with_reducible refine Keeps.foldlFst ?_ (fun _ _ _ => ?_)
    | with_reducible refine Keeps.foldlSnd ?_ (fun _ _ _ => ?_)
    | with_reducible refine KeepsR.host ?_ (fun _ _ => ?_)
    | (lift_lets; intro x; clear_value x)
    | with_reducible refine Keeps.ofSnd (by assumption) ?_
    | with_reducible refine Keeps.ofFst (by assumption) ?_
    | split
    | dsimp only

theorem State.abortOutcome_keeps {ρ : State} {s : State} {n : Nat} {code : Nat} (hk : Keeps ρ s) : Keeps ρ (State.abortOutcome s n code) := by
  unfold State.abortOutcome
  repeat' first
    | with_reducible assumption
    | with_reducible refine KeepsR.next ?_
    | fail_if_no_progress with_reducible refine Keeps.mkK ?_
    | with_reducible refine State.modSheaf_keeps ?_

theorem State.abortWrite_keeps {ρ : State} {s : State} {n : Nat} (hk : Keeps ρ s) : Keeps ρ (State.abortWrite s n) := by
  unfold State.abortWrite
  repeat' first
    | with_reducible assumption
    | with_reducible refine KeepsR.next ?_
    | fail_if_no_progress with_reducible refine Keeps.mkK ?_
    | with_reducible refine State.abortSheaf_keeps ?_
    | with_reducible refine State.abortOutcome_keeps ?_
    | with_reducible refine Keeps.doAll ?_ (fun _ _ _ => ?_)
    | with_reducible refine Keeps.doIf ?_ (fun _ _ => ?_)
    | with_reducible refine Keeps.foldl ?_ (fun _ _ _ => ?_)
    | with_reducible refine Keeps.foldlFst ?_ (fun _ _ _ => ?_)
    | with_reducible refine Keeps.foldlSnd ?_ (fun _ _ _ => ?_)
    | with_reducible refine KeepsR.host ?_ (fun _ _ => ?_)
    | (lift_lets; intro x; clear_value x)
    | with_reducible refine Keeps.ofSnd (by assumption) ?_
    | with_reducible refine Keeps.ofFst (by assumption) ?_
    | split
    | dsimp only

theorem execSheafAbort_keeps {ρ : State} {i : Iface} {n : Fin 14} {s : State} (hk : Keeps ρ s) : KeepsR ρ (execSheafAbort i n s) := by
  unfold execSheafAbort
  repeat' first
    | with_reducible assumption
    | with_reducible refine KeepsR.next ?_
    | fail_if_no_progress with_reducible refine Keeps.mkK ?_
    | with_reducible refine State.abortWrite_keeps ?_
    | with_reducible refine Keeps.doAll ?_ (fun _ _ _ => ?_)
    | with_reducible refine Keeps.doIf ?_ (fun _ _ => ?_)
    | with_reducible refine Keeps.foldl ?_ (fun _ _ _ => ?_)
    | with_reducible refine Keeps.foldlFst ?_ (fun _ _ _ => ?_)
    | with_reducible refine Keeps.foldlSnd ?_ (fun _ _ _ => ?_)
    | with_reducible refine KeepsR.host ?_ (fun _ _ => ?_)

theorem State.releaseHandle_keeps {ρ : State} {s : State} {n : Nat} (hk : Keeps ρ s) : Keeps ρ (State.releaseHandle s n) := by
  unfold State.releaseHandle
  repeat' first
    | with_reducible assumption
    | with_reducible refine KeepsR.next ?_
    | fail_if_no_progress with_reducible refine Keeps.mkK ?_
    | with_reducible refine State.setSheaf_keeps ?_
    | with_reducible refine Keeps.doAll ?_ (fun _ _ _ => ?_)
    | with_reducible refine Keeps.doIf ?_ (fun _ _ => ?_)
    | with_reducible refine Keeps.foldl ?_ (fun _ _ _ => ?_)
    | with_reducible refine Keeps.foldlFst ?_ (fun _ _ _ => ?_)
    | with_reducible refine Keeps.foldlSnd ?_ (fun _ _ _ => ?_)
    | with_reducible refine KeepsR.host ?_ (fun _ _ => ?_)
    | (lift_lets; intro x; clear_value x)
    | with_reducible refine Keeps.ofSnd (by assumption) ?_
    | with_reducible refine Keeps.ofFst (by assumption) ?_
    | split

theorem execSheafRelease_keeps {ρ : State} {i : Iface} {n : Fin 14} {s : State} (hk : Keeps ρ s) : KeepsR ρ (execSheafRelease i n s) := by
  unfold execSheafRelease
  repeat' first
    | with_reducible assumption
    | with_reducible refine KeepsR.next ?_
    | fail_if_no_progress with_reducible refine Keeps.mkK ?_
    | with_reducible refine State.releaseHandle_keeps ?_
    | with_reducible refine Keeps.doAll ?_ (fun _ _ _ => ?_)
    | with_reducible refine Keeps.doIf ?_ (fun _ _ => ?_)
    | with_reducible refine Keeps.foldl ?_ (fun _ _ _ => ?_)
    | with_reducible refine Keeps.foldlFst ?_ (fun _ _ _ => ?_)
    | with_reducible refine Keeps.foldlSnd ?_ (fun _ _ _ => ?_)
    | with_reducible refine KeepsR.host ?_ (fun _ _ => ?_)

theorem State.ccHold_keeps {ρ : State} {s0 : State} {s : State} {x : Sheaf} (hk : Keeps ρ s) : Keeps ρ (State.ccHold s0 s x) := by
  unfold State.ccHold
  repeat' first
    | with_reducible assumption
    | with_reducible refine KeepsR.next ?_
    | fail_if_no_progress with_reducible refine Keeps.mkK ?_
    | with_reducible refine State.modCcGroup_keeps ?_
    | with_reducible refine State.ccShow_keeps ?_
    | with_reducible refine Keeps.doAll ?_ (fun _ _ _ => ?_)
    | with_reducible refine Keeps.doIf ?_ (fun _ _ => ?_)
    | with_reducible refine Keeps.foldl ?_ (fun _ _ _ => ?_)
    | with_reducible refine Keeps.foldlFst ?_ (fun _ _ _ => ?_)
    | with_reducible refine Keeps.foldlSnd ?_ (fun _ _ _ => ?_)
    | with_reducible refine KeepsR.host ?_ (fun _ _ => ?_)
    | with_reducible refine Keeps.ofSnd (by assumption) ?_
    | with_reducible refine Keeps.ofFst (by assumption) ?_
    | split

theorem State.applySheaf_keeps {ρ : State} {s : State} {n : Nat} (hk : Keeps ρ s) : Keeps ρ (State.applySheaf s n) := by
  unfold State.applySheaf
  repeat' first
    | with_reducible assumption
    | with_reducible refine KeepsR.next ?_
    | fail_if_no_progress with_reducible refine Keeps.mkK ?_
    | with_reducible refine State.modGroup_keeps ?_
    | with_reducible refine State.modSheaf_keeps ?_
    | with_reducible refine State.swapWords_keeps ?_
    | with_reducible refine State.completeSheaf_keeps ?_
    | with_reducible refine State.applyWrites_keeps ?_
    | with_reducible refine State.ccHold_keeps ?_
    | with_reducible refine Keeps.doAll ?_ (fun _ _ _ => ?_)
    | with_reducible refine Keeps.doIf ?_ (fun _ _ => ?_)

theorem execSheafApply_keeps {ρ : State} {n : Fin 16} {s : State} (hk : Keeps ρ s) : KeepsR ρ (execSheafApply n s) := by
  unfold execSheafApply
  repeat' first
    | with_reducible assumption
    | with_reducible refine KeepsR.next ?_
    | fail_if_no_progress with_reducible refine Keeps.mkK ?_
    | with_reducible refine State.applySheaf_keeps ?_
    | with_reducible refine Keeps.doAll ?_ (fun _ _ _ => ?_)
    | with_reducible refine Keeps.doIf ?_ (fun _ _ => ?_)

theorem execSheafCompletion_keeps {ρ : State} {n : Fin 16} {s : State} (hk : Keeps ρ s) : KeepsR ρ (execSheafCompletion n s) := by
  unfold execSheafCompletion
  repeat' first
    | with_reducible assumption
    | with_reducible refine KeepsR.next ?_
    | fail_if_no_progress with_reducible refine Keeps.mkK ?_
    | with_reducible refine State.completeSheaf_keeps ?_
    | with_reducible refine Keeps.doAll ?_ (fun _ _ _ => ?_)
    | with_reducible refine Keeps.doIf ?_ (fun _ _ => ?_)

theorem State.frameSheaves_keeps {ρ : State} {s : State} {g : Nat} (hk : Keeps ρ s) : Keeps ρ (State.frameSheaves s g) := by
  unfold State.frameSheaves
  repeat' first
    | with_reducible assumption
    | with_reducible refine KeepsR.next ?_
    | fail_if_no_progress with_reducible refine Keeps.mkK ?_
    | with_reducible refine State.applySheaf_keeps ?_
    | with_reducible refine Keeps.doAll ?_ (fun _ _ _ => ?_)
    | with_reducible refine Keeps.doIf ?_ (fun _ _ => ?_)

theorem State.buildSheaf_keeps {ρ : State} {s : State} {m : Nat} {kind : Nat} {target : Nat} {band : Nat} {l : List Entry} (hk : Keeps ρ s) : Keeps ρ (State.buildSheaf s m kind target band l) := by
  unfold State.buildSheaf
  repeat' first
    | with_reducible assumption
    | with_reducible refine KeepsR.next ?_
    | fail_if_no_progress with_reducible refine Keeps.mkK ?_
    | with_reducible refine State.setSheaf_keeps ?_
    | with_reducible refine State.outcome0_keeps ?_
    | with_reducible refine State.modHead_keeps ?_
    | with_reducible refine Keeps.doAll ?_ (fun _ _ _ => ?_)
    | with_reducible refine Keeps.doIf ?_ (fun _ _ => ?_)
    | with_reducible refine Keeps.foldl ?_ (fun _ _ _ => ?_)
    | with_reducible refine Keeps.foldlFst ?_ (fun _ _ _ => ?_)
    | with_reducible refine Keeps.foldlSnd ?_ (fun _ _ _ => ?_)
    | with_reducible refine KeepsR.host ?_ (fun _ _ => ?_)
    | (lift_lets; intro x; clear_value x)
    | with_reducible refine Keeps.ofSnd (by assumption) ?_
    | with_reducible refine Keeps.ofFst (by assumption) ?_
    | split

theorem State.writeHandle_keeps {ρ : State} {s : State} {n : Nat} {off : Nat} {v : Word} (hk : Keeps ρ s) : Keeps ρ (State.writeHandle s n off v) := by
  unfold State.writeHandle
  repeat' first
    | with_reducible assumption
    | with_reducible refine KeepsR.next ?_
    | fail_if_no_progress with_reducible refine Keeps.mkK ?_
    | with_reducible refine State.setSheaf_keeps ?_
    | with_reducible refine State.stage_keeps ?_
    | with_reducible refine State.commit_keeps ?_
    | with_reducible refine State.abortWrite_keeps ?_
    | with_reducible refine State.releaseHandle_keeps ?_
    | with_reducible refine Keeps.doAll ?_ (fun _ _ _ => ?_)
    | with_reducible refine Keeps.doIf ?_ (fun _ _ => ?_)
    | with_reducible refine Keeps.foldl ?_ (fun _ _ _ => ?_)
    | with_reducible refine Keeps.foldlFst ?_ (fun _ _ _ => ?_)
    | with_reducible refine Keeps.foldlSnd ?_ (fun _ _ _ => ?_)
    | with_reducible refine KeepsR.host ?_ (fun _ _ => ?_)
    | (lift_lets; intro x; clear_value x)
    | with_reducible refine Keeps.ofSnd (by assumption) ?_
    | with_reducible refine Keeps.ofFst (by assumption) ?_
    | split

theorem State.writeSheafBlock_keeps {ρ : State} {s : State} {off : Nat} {v : Word} (hk : Keeps ρ s) : Keeps ρ (State.writeSheafBlock s off v) := by
  unfold State.writeSheafBlock
  repeat' first
    | with_reducible assumption
    | with_reducible refine KeepsR.next ?_
    | fail_if_no_progress with_reducible refine Keeps.mkK ?_
    | with_reducible refine State.writeHandle_keeps ?_
    | with_reducible refine Keeps.doAll ?_ (fun _ _ _ => ?_)
    | with_reducible refine Keeps.doIf ?_ (fun _ _ => ?_)
    | with_reducible refine Keeps.foldl ?_ (fun _ _ _ => ?_)
    | with_reducible refine Keeps.foldlFst ?_ (fun _ _ _ => ?_)
    | with_reducible refine Keeps.foldlSnd ?_ (fun _ _ _ => ?_)
    | with_reducible refine KeepsR.host ?_ (fun _ _ => ?_)
    | with_reducible refine Keeps.ofSnd (by assumption) ?_
    | with_reducible refine Keeps.ofFst (by assumption) ?_
    | split

end Sys2Proof.Machine
end

