-- ==== Sys2Proof/Laws/KeepsStart.lean ====
section
/-!
SUPPORT. The relation `Keeps` for the operations of Machine/Settings.lean, Machine/Start.lean, Machine/CalBase.lean, Machine/HostIf.lean.
-/

namespace Sys2Proof.Machine

theorem State.writeBy_keeps {ρ : State} {s : State} {r : Nat} {a : Nat} {l : List Byte} (hk : Keeps ρ s) : Keeps ρ (State.writeBy s r a l) := by
  unfold State.writeBy
  repeat' first
    | with_reducible assumption
    | with_reducible refine KeepsR.next ?_
    | fail_if_no_progress with_reducible refine Keeps.mkK ?_
    | with_reducible refine State.count_keeps ?_
    | with_reducible refine State.reqRaise_keeps ?_
    | with_reducible refine State.store_keeps ?_
    | with_reducible refine Keeps.doAll ?_ (fun _ _ _ => ?_)

theorem State.quietWrite_keeps {ρ : State} {s : State} {idx : Nat} {v : Word} (hk : Keeps ρ s) : Keeps ρ (State.quietWrite s idx v).1 := by
  unfold State.quietWrite
  repeat' first
    | with_reducible assumption
    | with_reducible refine KeepsR.next ?_
    | fail_if_no_progress with_reducible refine Keeps.mkK ?_
    | with_reducible refine State.applyWrites_keeps ?_
    | with_reducible refine Keeps.doAll ?_ (fun _ _ _ => ?_)
    | with_reducible refine Keeps.doIf ?_ (fun _ _ => ?_)
    | with_reducible refine Keeps.foldl ?_ (fun _ _ _ => ?_)
    | with_reducible refine Keeps.foldlFst ?_ (fun _ _ _ => ?_)
    | with_reducible refine Keeps.foldlSnd ?_ (fun _ _ _ => ?_)
    | with_reducible refine KeepsR.host ?_ (fun _ _ => ?_)
    | with_reducible refine Keeps.ofSnd (by assumption) ?_
    | with_reducible refine Keeps.ofFst (by assumption) ?_
    | split

theorem State.quietWrites_keeps {ρ : State} {s : State} {l : List (Nat × Word)} (hk : Keeps ρ s) : Keeps ρ (State.quietWrites s l).1 := by
  unfold State.quietWrites
  repeat' first
    | with_reducible assumption
    | with_reducible refine KeepsR.next ?_
    | fail_if_no_progress with_reducible refine Keeps.mkK ?_
    | with_reducible refine State.quietWrite_keeps ?_
    | with_reducible refine Keeps.doAll ?_ (fun _ _ _ => ?_)
    | with_reducible refine Keeps.doIf ?_ (fun _ _ => ?_)
    | with_reducible refine Keeps.foldl ?_ (fun _ _ _ => ?_)
    | with_reducible refine Keeps.foldlFst ?_ (fun _ _ _ => ?_)

theorem State.putSettings_keeps {ρ : State} {s : State} {l : List (Nat × Word)} (hk : Keeps ρ s) : Keeps ρ (State.putSettings s l).1 := by
  unfold State.putSettings
  repeat' first
    | with_reducible assumption
    | with_reducible refine KeepsR.next ?_
    | fail_if_no_progress with_reducible refine Keeps.mkK ?_
    | with_reducible refine State.quietWrites_keeps ?_

theorem State.saveSettings_keeps {ρ : State} {s : State} (hk : Keeps ρ s) : Keeps ρ (State.saveSettings s) := by
  unfold State.saveSettings
  repeat' first
    | with_reducible assumption
    | with_reducible refine KeepsR.next ?_
    | fail_if_no_progress with_reducible refine Keeps.mkK ?_
    | with_reducible refine State.ownWrite_keeps ?_
    | with_reducible refine State.writeSet_keeps ?_
    | with_reducible refine Keeps.doAll ?_ (fun _ _ _ => ?_)
    | with_reducible refine Keeps.doIf ?_ (fun _ _ => ?_)
    | with_reducible refine Keeps.foldl ?_ (fun _ _ _ => ?_)
    | with_reducible refine Keeps.foldlFst ?_ (fun _ _ _ => ?_)
    | with_reducible refine Keeps.foldlSnd ?_ (fun _ _ _ => ?_)
    | with_reducible refine KeepsR.host ?_ (fun _ _ => ?_)
    | (lift_lets; intro x; clear_value x)
    | with_reducible refine Keeps.ofSnd (by assumption) ?_
    | with_reducible refine Keeps.ofFst (by assumption) ?_
    | split

theorem State.openSettings_keeps {ρ : State} {s : State} {level : Nat} (hk : Keeps ρ s) : Keeps ρ (State.openSettings s level) := by
  unfold State.openSettings
  repeat' first
    | with_reducible assumption
    | with_reducible refine KeepsR.next ?_
    | fail_if_no_progress with_reducible refine Keeps.mkK ?_
    | with_reducible refine Keeps.doAll ?_ (fun _ _ _ => ?_)
    | with_reducible refine Keeps.doIf ?_ (fun _ _ => ?_)
    | with_reducible refine Keeps.foldl ?_ (fun _ _ _ => ?_)
    | with_reducible refine Keeps.foldlFst ?_ (fun _ _ _ => ?_)
    | with_reducible refine Keeps.foldlSnd ?_ (fun _ _ _ => ?_)
    | with_reducible refine KeepsR.host ?_ (fun _ _ => ?_)
    | (lift_lets; intro x; clear_value x)
    | with_reducible refine Keeps.ofSnd (by assumption) ?_
    | with_reducible refine Keeps.ofFst (by assumption) ?_
    | split
    | dsimp only

theorem State.restoreSettings_keeps {ρ : State} {s : State} (hk : Keeps ρ s) : Keeps ρ (State.restoreSettings s) := by
  unfold State.restoreSettings
  repeat' first
    | with_reducible assumption
    | with_reducible refine KeepsR.next ?_
    | fail_if_no_progress with_reducible refine Keeps.mkK ?_
    | with_reducible refine State.putSettings_keeps ?_

theorem execSetSave_keeps {ρ : State} {m : Fin 8} {s : State} (hk : Keeps ρ s) : KeepsR ρ (execSetSave m s) := by
  unfold execSetSave
  repeat' first
    | with_reducible assumption
    | with_reducible refine KeepsR.next ?_
    | fail_if_no_progress with_reducible refine Keeps.mkK ?_
    | with_reducible refine State.setOutcome_keeps ?_
    | with_reducible refine State.outcome0_keeps ?_
    | with_reducible refine State.withCmd_keeps ?_ (fun _ _ _ => ?_)
    | with_reducible refine State.saveSettings_keeps ?_
    | with_reducible refine Keeps.doAll ?_ (fun _ _ _ => ?_)
    | with_reducible refine Keeps.doIf ?_ (fun _ _ => ?_)
    | with_reducible refine Keeps.foldl ?_ (fun _ _ _ => ?_)
    | with_reducible refine Keeps.foldlFst ?_ (fun _ _ _ => ?_)
    | with_reducible refine Keeps.foldlSnd ?_ (fun _ _ _ => ?_)
    | with_reducible refine KeepsR.host ?_ (fun _ _ => ?_)
    | (lift_lets; intro x; refine Keeps.cut (r := ρ) (x := x) ?_ (fun hx => ?_); (on_goal 1 => dsimp only [x]); (on_goal 2 => clear_value x))
    | with_reducible refine Keeps.ofSnd (by assumption) ?_
    | with_reducible refine Keeps.ofFst (by assumption) ?_
    | split

theorem execSetExport_keeps {ρ : State} {m : Fin 8} {s : State} (hk : Keeps ρ s) : KeepsR ρ (execSetExport m s) := by
  unfold execSetExport
  repeat' first
    | with_reducible assumption
    | with_reducible refine KeepsR.next ?_
    | fail_if_no_progress with_reducible refine Keeps.mkK ?_
    | with_reducible refine State.setOutcome_keeps ?_
    | with_reducible refine State.outcome0_keeps ?_
    | with_reducible refine State.withCmd_keeps ?_ (fun _ _ _ => ?_)
    | with_reducible refine State.outOfRange_keeps ?_
    | with_reducible refine State.wake_keeps ?_
    | with_reducible refine State.writeBy_keeps ?_
    | with_reducible refine Keeps.doAll ?_ (fun _ _ _ => ?_)
    | with_reducible refine Keeps.doIf ?_ (fun _ _ => ?_)
    | with_reducible refine Keeps.foldl ?_ (fun _ _ _ => ?_)
    | with_reducible refine Keeps.foldlFst ?_ (fun _ _ _ => ?_)
    | with_reducible refine Keeps.foldlSnd ?_ (fun _ _ _ => ?_)
    | with_reducible refine KeepsR.host ?_ (fun _ _ => ?_)
    | (lift_lets; intro x; clear_value x)
    | with_reducible refine Keeps.ofSnd (by assumption) ?_
    | with_reducible refine Keeps.ofFst (by assumption) ?_
    | split

theorem State.disableAll_keeps {ρ : State} {s : State} (hk : Keeps ρ s) : Keeps ρ (State.disableAll s) := by
  unfold State.disableAll
  repeat' first
    | with_reducible assumption
    | with_reducible refine KeepsR.next ?_
    | fail_if_no_progress with_reducible refine Keeps.mkK ?_
    | with_reducible refine State.quietWrite_keeps ?_
    | with_reducible refine Keeps.doAll ?_ (fun _ _ _ => ?_)

theorem State.importSettings_keeps {ρ : State} {s : State} {l : List (Nat × Word)} (hk : Keeps ρ s) : Keeps ρ (State.importSettings s l).1 := by
  unfold State.importSettings
  repeat' first
    | with_reducible assumption
    | with_reducible refine KeepsR.next ?_
    | fail_if_no_progress with_reducible refine Keeps.mkK ?_
    | with_reducible refine State.quietWrites_keeps ?_
    | with_reducible refine State.putSettings_keeps ?_
    | with_reducible refine State.saveSettings_keeps ?_
    | with_reducible refine State.disableAll_keeps ?_

theorem execSetImport_keeps {ρ : State} {m : Fin 8} {s : State} (hk : Keeps ρ s) : KeepsR ρ (execSetImport m s) := by
  unfold execSetImport
  repeat' first
    | with_reducible assumption
    | with_reducible refine KeepsR.next ?_
    | fail_if_no_progress with_reducible refine Keeps.mkK ?_
    | with_reducible refine State.setOutcome_keeps ?_
    | with_reducible refine State.outcome0_keeps ?_
    | with_reducible refine State.withCmd_keeps ?_ (fun _ _ _ => ?_)
    | with_reducible refine State.wake_keeps ?_
    | with_reducible refine State.withImage_keeps ?_ (fun _ _ _ => ?_)
    | with_reducible refine State.importSettings_keeps ?_
    | with_reducible refine Keeps.doAll ?_ (fun _ _ _ => ?_)
    | with_reducible refine Keeps.doIf ?_ (fun _ _ => ?_)
    | with_reducible refine Keeps.foldl ?_ (fun _ _ _ => ?_)
    | with_reducible refine Keeps.foldlFst ?_ (fun _ _ _ => ?_)
    | with_reducible refine Keeps.foldlSnd ?_ (fun _ _ _ => ?_)
    | with_reducible refine KeepsR.host ?_ (fun _ _ => ?_)
    | (lift_lets; intro x; clear_value x)
    | with_reducible refine Keeps.ofSnd (by assumption) ?_
    | with_reducible refine Keeps.ofFst (by assumption) ?_
    | split

theorem State.setMeasuring_keeps {ρ : State} {s : State} {item : Nat} {units : List Nat} {b : Bool} (hk : Keeps ρ s) : Keeps ρ (State.setMeasuring s item units b) := by
  unfold State.setMeasuring
  repeat' first
    | with_reducible assumption
    | with_reducible refine KeepsR.next ?_
    | fail_if_no_progress with_reducible refine Keeps.mkK ?_
    | with_reducible refine State.setFld_keeps ?_
    | with_reducible refine State.setStale_keeps ?_
    | with_reducible refine Keeps.doAll ?_ (fun _ _ _ => ?_)

theorem State.writeBoot_keeps {ρ : State} {s : State} {fails : Bool} (hk : Keeps ρ s) : Keeps ρ (State.writeBoot s fails) := by
  unfold State.writeBoot
  repeat' first
    | with_reducible assumption
    | with_reducible refine KeepsR.next ?_
    | fail_if_no_progress with_reducible refine Keeps.mkK ?_
    | with_reducible refine State.ownWrite_keeps ?_
    | with_reducible refine Keeps.doAll ?_ (fun _ _ _ => ?_)
    | with_reducible refine Keeps.doIf ?_ (fun _ _ => ?_)
    | with_reducible refine Keeps.foldl ?_ (fun _ _ _ => ?_)
    | with_reducible refine Keeps.foldlFst ?_ (fun _ _ _ => ?_)
    | with_reducible refine Keeps.foldlSnd ?_ (fun _ _ _ => ?_)
    | with_reducible refine KeepsR.host ?_ (fun _ _ => ?_)
    | (lift_lets; intro x; clear_value x)
    | with_reducible refine Keeps.ofSnd (by assumption) ?_
    | with_reducible refine Keeps.ofFst (by assumption) ?_
    | split

theorem State.recordFailure_keeps {ρ : State} {s : State} {reason : Nat} {detail : Nat} {fails : Bool} (hk : Keeps ρ s) : Keeps ρ (State.recordFailure s reason detail fails) := by
  unfold State.recordFailure
  repeat' first
    | with_reducible assumption
    | with_reducible refine KeepsR.next ?_
    | fail_if_no_progress with_reducible refine Keeps.mkK ?_
    | with_reducible refine State.writeBoot_keeps ?_

theorem State.clearAttempts_keeps {ρ : State} {s : State} (hk : Keeps ρ s) : Keeps ρ (State.clearAttempts s) := by
  unfold State.clearAttempts
  repeat' first
    | with_reducible assumption
    | with_reducible refine KeepsR.next ?_
    | fail_if_no_progress with_reducible refine Keeps.mkK ?_
    | with_reducible refine State.writeBoot_keeps ?_

theorem State.loadBoot_keeps {ρ : State} {s : State} (hk : Keeps ρ s) : Keeps ρ (State.loadBoot s) := by
  unfold State.loadBoot
  repeat' first
    | with_reducible assumption
    | with_reducible refine KeepsR.next ?_
    | fail_if_no_progress with_reducible refine Keeps.mkK ?_

theorem State.resetAll_keeps {ρ s : State} {cause : Nat} (hk : Keeps ρ s) : Keeps ρ (s.resetAll cause) := by
  unfold State.resetAll
  dsimp only
  refine State.loadBoot_keeps ⟨hk.pending, hk.fuses, fun c => ?_⟩
  exact ⟨(hk.canonical c).mem, (hk.canonical c).loft, (hk.canonical c).flash, rfl⟩

theorem State.step1_keeps {ρ : State} {s : State} (hk : Keeps ρ s) : Keeps ρ (State.step1 s) := by
  unfold State.step1
  repeat' first
    | with_reducible assumption
    | with_reducible refine KeepsR.next ?_
    | fail_if_no_progress with_reducible refine Keeps.mkK ?_
    | with_reducible refine State.setFld_keeps ?_
    | with_reducible refine State.avsRequest_keeps ?_

theorem State.recordExpiry_keeps {ρ : State} {s : State} {env : StartEnv} (hk : Keeps ρ s) : Keeps ρ (State.recordExpiry s env) := by
  unfold State.recordExpiry
  repeat' first
    | with_reducible assumption
    | with_reducible refine KeepsR.next ?_
    | fail_if_no_progress with_reducible refine Keeps.mkK ?_
    | with_reducible refine State.recordFailure_keeps ?_
    | with_reducible refine Keeps.doAll ?_ (fun _ _ _ => ?_)
    | with_reducible refine Keeps.doIf ?_ (fun _ _ => ?_)
    | with_reducible refine Keeps.foldl ?_ (fun _ _ _ => ?_)
    | with_reducible refine Keeps.foldlFst ?_ (fun _ _ _ => ?_)
    | with_reducible refine Keeps.foldlSnd ?_ (fun _ _ _ => ?_)
    | with_reducible refine KeepsR.host ?_ (fun _ _ => ?_)
    | (lift_lets; intro x; clear_value x)
    | with_reducible refine Keeps.ofSnd (by assumption) ?_
    | with_reducible refine Keeps.ofFst (by assumption) ?_
    | split

theorem State.applyCal_keeps {ρ : State} {s : State} {item : Nat} {base : Nat} {inst : Nat} (hk : Keeps ρ s) : Keeps ρ (State.applyCal s item base inst) := by
  unfold State.applyCal
  repeat' first
    | with_reducible assumption
    | with_reducible refine KeepsR.next ?_
    | fail_if_no_progress with_reducible refine Keeps.mkK ?_
    | with_reducible refine State.setFld_keeps ?_
    | with_reducible refine State.count_keeps ?_
    | with_reducible refine State.raise_keeps ?_
    | with_reducible refine Keeps.doAll ?_ (fun _ _ _ => ?_)
    | with_reducible refine Keeps.doIf ?_ (fun _ _ => ?_)
    | with_reducible refine Keeps.foldl ?_ (fun _ _ _ => ?_)
    | with_reducible refine Keeps.foldlFst ?_ (fun _ _ _ => ?_)
    | with_reducible refine Keeps.foldlSnd ?_ (fun _ _ _ => ?_)
    | with_reducible refine KeepsR.host ?_ (fun _ _ => ?_)
    | (lift_lets; intro x; clear_value x)
    | with_reducible refine Keeps.ofSnd (by assumption) ?_
    | with_reducible refine Keeps.ofFst (by assumption) ?_
    | split

theorem State.measureEdge_keeps {ρ : State} {s : State} {i : Nat} (hk : Keeps ρ s) : Keeps ρ (State.measureEdge s i) := by
  unfold State.measureEdge
  repeat' first
    | with_reducible assumption
    | with_reducible refine KeepsR.next ?_
    | fail_if_no_progress with_reducible refine Keeps.mkK ?_
    | with_reducible refine State.setFld_keeps ?_
    | with_reducible refine State.draw_keeps ?_
    | with_reducible refine Keeps.doAll ?_ (fun _ _ _ => ?_)
    | with_reducible refine Keeps.doIf ?_ (fun _ _ => ?_)
    | with_reducible refine Keeps.foldl ?_ (fun _ _ _ => ?_)
    | with_reducible refine Keeps.foldlFst ?_ (fun _ _ _ => ?_)
    | with_reducible refine Keeps.foldlSnd ?_ (fun _ _ _ => ?_)

theorem State.applySerdes_keeps {ρ : State} {s : State} {port : Nat} {item : Nat} (hk : Keeps ρ s) : Keeps ρ (State.applySerdes s port item) := by
  unfold State.applySerdes
  repeat' first
    | with_reducible assumption
    | with_reducible refine KeepsR.next ?_
    | fail_if_no_progress with_reducible refine Keeps.mkK ?_
    | with_reducible refine State.modPort_keeps ?_
    | with_reducible refine State.setFld_keeps ?_
    | with_reducible refine Keeps.doAll ?_ (fun _ _ _ => ?_)
    | with_reducible refine Keeps.doIf ?_ (fun _ _ => ?_)
    | with_reducible refine Keeps.foldl ?_ (fun _ _ _ => ?_)
    | with_reducible refine Keeps.foldlFst ?_ (fun _ _ _ => ?_)
    | with_reducible refine Keeps.foldlSnd ?_ (fun _ _ _ => ?_)
    | with_reducible refine KeepsR.host ?_ (fun _ _ => ?_)
    | (lift_lets; intro x; clear_value x)
    | with_reducible refine Keeps.ofSnd (by assumption) ?_
    | with_reducible refine Keeps.ofFst (by assumption) ?_
    | split

theorem State.step4_keeps {ρ : State} {s : State} {env : StartEnv} (hk : Keeps ρ s) : Keeps ρ (State.step4 s env) := by
  unfold State.step4
  repeat' first
    | with_reducible assumption
    | with_reducible refine KeepsR.next ?_
    | fail_if_no_progress with_reducible refine Keeps.mkK ?_
    | with_reducible refine State.applyCal_keeps ?_
    | with_reducible refine State.measureEdge_keeps ?_
    | with_reducible refine State.applySerdes_keeps ?_
    | with_reducible refine Keeps.doAll ?_ (fun _ _ _ => ?_)

theorem State.takeImage_keeps {ρ s : State} {l : List Byte} (hk : Keeps ρ s) : Keeps ρ (s.takeImage l).2 := by
  unfold State.takeImage
  generalize imgVerify l = v
  cases v with
  | some f => exact hk
  | none => exact Keeps.mkK hk

theorem State.step5_keeps {ρ s : State} (hk : Keeps ρ s) : Keeps ρ s.step5.2 :=
  State.takeImage_keeps (Keeps.mkK hk)

theorem State.bootPair_keeps {ρ : State} {s : State} {idx : Nat} {v : Word} (hk : Keeps ρ s) : Keeps ρ (State.bootPair s idx v) := by
  unfold State.bootPair
  repeat' first
    | with_reducible assumption
    | with_reducible refine KeepsR.next ?_
    | fail_if_no_progress with_reducible refine Keeps.mkK ?_
    | with_reducible refine State.writeBits_keeps ?_
    | with_reducible refine Keeps.doAll ?_ (fun _ _ _ => ?_)
    | with_reducible refine Keeps.doIf ?_ (fun _ _ => ?_)
    | with_reducible refine Keeps.foldl ?_ (fun _ _ _ => ?_)
    | with_reducible refine Keeps.foldlFst ?_ (fun _ _ _ => ?_)
    | with_reducible refine Keeps.foldlSnd ?_ (fun _ _ _ => ?_)
    | with_reducible refine KeepsR.host ?_ (fun _ _ => ?_)
    | with_reducible refine Keeps.ofSnd (by assumption) ?_
    | with_reducible refine Keeps.ofFst (by assumption) ?_
    | split

theorem State.applyBootSettings_keeps {ρ : State} {s : State} (hk : Keeps ρ s) : Keeps ρ (State.applyBootSettings s) := by
  unfold State.applyBootSettings
  repeat' first
    | with_reducible assumption
    | with_reducible refine KeepsR.next ?_
    | fail_if_no_progress with_reducible refine Keeps.mkK ?_
    | with_reducible refine State.bootPair_keeps ?_
    | with_reducible refine Keeps.doAll ?_ (fun _ _ _ => ?_)
    | with_reducible refine Keeps.doIf ?_ (fun _ _ => ?_)
    | with_reducible refine Keeps.foldl ?_ (fun _ _ _ => ?_)
    | with_reducible refine Keeps.foldlFst ?_ (fun _ _ _ => ?_)
    | with_reducible refine Keeps.foldlSnd ?_ (fun _ _ _ => ?_)
    | with_reducible refine KeepsR.host ?_ (fun _ _ => ?_)
    | (lift_lets; intro x; clear_value x)
    | with_reducible refine Keeps.ofSnd (by assumption) ?_
    | with_reducible refine Keeps.ofFst (by assumption) ?_
    | split

theorem State.mapOut_keeps {ρ : State} {s : State} {ch : Nat} (hk : Keeps ρ s) : Keeps ρ (State.mapOut s ch) := by
  unfold State.mapOut
  repeat' first
    | with_reducible assumption
    | with_reducible refine KeepsR.next ?_
    | fail_if_no_progress with_reducible refine Keeps.mkK ?_
    | with_reducible refine State.setFld_keeps ?_
    | with_reducible refine Keeps.doAll ?_ (fun _ _ _ => ?_)
    | with_reducible refine Keeps.doIf ?_ (fun _ _ => ?_)
    | with_reducible refine Keeps.foldl ?_ (fun _ _ _ => ?_)
    | with_reducible refine Keeps.foldlFst ?_ (fun _ _ _ => ?_)
    | with_reducible refine Keeps.foldlSnd ?_ (fun _ _ _ => ?_)
    | with_reducible refine KeepsR.host ?_ (fun _ _ => ?_)
    | (lift_lets; intro x; clear_value x)
    | with_reducible refine Keeps.ofSnd (by assumption) ?_
    | with_reducible refine Keeps.ofFst (by assumption) ?_
    | split

theorem State.trained_keeps {ρ : State} {s : State} (hk : Keeps ρ s) : Keeps ρ (State.trained s) := by
  unfold State.trained
  repeat' first
    | with_reducible assumption
    | with_reducible refine KeepsR.next ?_
    | fail_if_no_progress with_reducible refine Keeps.mkK ?_
    | with_reducible refine State.setFld_keeps ?_
    | with_reducible refine State.mapOut_keeps ?_
    | with_reducible refine Keeps.doAll ?_ (fun _ _ _ => ?_)

theorem State.trainFailed_keeps {ρ : State} {s : State} {env : StartEnv} (hk : Keeps ρ s) : Keeps ρ (State.trainFailed s env) := by
  unfold State.trainFailed
  repeat' first
    | with_reducible assumption
    | with_reducible refine KeepsR.next ?_
    | fail_if_no_progress with_reducible refine Keeps.mkK ?_
    | with_reducible refine State.setFld_keeps ?_
    | with_reducible refine Keeps.doAll ?_ (fun _ _ _ => ?_)

theorem State.enterFallow_keeps {ρ : State} {s : State} {reason : Nat} {env : StartEnv} (hk : Keeps ρ s) : Keeps ρ (State.enterFallow s reason env) := by
  unfold State.enterFallow
  repeat' first
    | with_reducible assumption
    | with_reducible refine KeepsR.next ?_
    | fail_if_no_progress with_reducible refine Keeps.mkK ?_
    | with_reducible refine State.startHeads_keeps ?_
    | with_reducible refine State.applyBootSettings_keeps ?_
    | with_reducible refine State.trained_keeps ?_
    | with_reducible refine State.trainFailed_keeps ?_
    | with_reducible refine Keeps.doAll ?_ (fun _ _ _ => ?_)
    | with_reducible refine Keeps.doIf ?_ (fun _ _ => ?_)
    | with_reducible refine Keeps.foldl ?_ (fun _ _ _ => ?_)
    | with_reducible refine Keeps.foldlFst ?_ (fun _ _ _ => ?_)
    | with_reducible refine Keeps.foldlSnd ?_ (fun _ _ _ => ?_)
    | with_reducible refine KeepsR.host ?_ (fun _ _ => ?_)
    | (lift_lets; intro x; clear_value x)
    | with_reducible refine Keeps.ofSnd (by assumption) ?_
    | with_reducible refine Keeps.ofFst (by assumption) ?_
    | split

theorem State.enterRunning_keeps {ρ : State} {s : State} {env : StartEnv} (hk : Keeps ρ s) : Keeps ρ (State.enterRunning s env) := by
  unfold State.enterRunning
  repeat' first
    | with_reducible assumption
    | with_reducible refine KeepsR.next ?_
    | fail_if_no_progress with_reducible refine Keeps.mkK ?_
    | with_reducible refine State.raise_keeps ?_
    | with_reducible refine State.startHeads_keeps ?_
    | with_reducible refine State.glStates_keeps ?_
    | with_reducible refine State.openSettings_keeps ?_
    | with_reducible refine State.restoreSettings_keeps ?_
    | with_reducible refine Keeps.doAll ?_ (fun _ _ _ => ?_)
    | with_reducible refine Keeps.doIf ?_ (fun _ _ => ?_)

theorem State.countStart_keeps {ρ : State} {s : State} (hk : Keeps ρ s) : Keeps ρ (State.countStart s) := by
  unfold State.countStart
  repeat' first
    | with_reducible assumption
    | with_reducible refine KeepsR.next ?_
    | fail_if_no_progress with_reducible refine Keeps.mkK ?_

theorem State.cellarFailed_keeps {ρ : State} {s : State} {env : StartEnv} {rec : Nat} (hk : Keeps ρ s) : Keeps ρ (State.cellarFailed s env rec) := by
  unfold State.cellarFailed
  repeat' first
    | with_reducible assumption
    | with_reducible refine KeepsR.next ?_
    | fail_if_no_progress with_reducible refine Keeps.mkK ?_
    | with_reducible refine State.raise_keeps ?_
    | with_reducible refine State.recordFailure_keeps ?_
    | with_reducible refine State.recordExpiry_keeps ?_
    | with_reducible refine State.enterFallow_keeps ?_
    | with_reducible refine Keeps.doAll ?_ (fun _ _ _ => ?_)
    | with_reducible refine Keeps.doIf ?_ (fun _ _ => ?_)

theorem State.cellarRead_keeps {ρ : State} {s : State} {env : StartEnv} (hk : Keeps ρ s) : Keeps ρ (State.cellarRead s env) := by
  unfold State.cellarRead
  repeat' first
    | with_reducible assumption
    | with_reducible refine KeepsR.next ?_
    | fail_if_no_progress with_reducible refine Keeps.mkK ?_
    | with_reducible refine State.setFld_keeps ?_
    | with_reducible refine State.dropUncommitted_keeps ?_
    | with_reducible refine State.recordExpiry_keeps ?_

theorem State.retry_keeps {ρ : State} {s : State} {env : StartEnv} {reason : Nat} {detail : Nat} (hk : Keeps ρ s) : Keeps ρ (State.retry s env reason detail).1 := by
  unfold State.retry
  repeat' first
    | with_reducible assumption
    | with_reducible refine KeepsR.next ?_
    | fail_if_no_progress with_reducible refine Keeps.mkK ?_
    | with_reducible refine State.recordFailure_keeps ?_
    | with_reducible refine State.resetAll_keeps ?_

theorem State.startFirmware_keeps {ρ : State} {s : State} {env : StartEnv} (hk : Keeps ρ s) : Keeps ρ (State.startFirmware s env).1 := by
  unfold State.startFirmware
  repeat' first
    | with_reducible assumption
    | with_reducible refine KeepsR.next ?_
    | fail_if_no_progress with_reducible refine Keeps.mkK ?_
    | with_reducible refine State.resetAll_keeps ?_
    | with_reducible refine State.enterRunning_keeps ?_
    | with_reducible refine Keeps.doAll ?_ (fun _ _ _ => ?_)
    | with_reducible refine Keeps.doIf ?_ (fun _ _ => ?_)
    | with_reducible refine Keeps.foldl ?_ (fun _ _ _ => ?_)
    | with_reducible refine Keeps.foldlFst ?_ (fun _ _ _ => ?_)
    | with_reducible refine Keeps.foldlSnd ?_ (fun _ _ _ => ?_)
    | with_reducible refine KeepsR.host ?_ (fun _ _ => ?_)
    | (lift_lets; intro x; clear_value x)
    | with_reducible refine Keeps.ofSnd (by assumption) ?_
    | with_reducible refine Keeps.ofFst (by assumption) ?_
    | split

theorem State.train_keeps {ρ s : State} {env : StartEnv} (hk : Keeps ρ s) : Keeps ρ (s.train env).1 := by
  unfold State.train
  have h1 : Keeps ρ (State.applyBootSettings { s with boot := { s.boot with loaderStep := 6 } }) :=
    State.applyBootSettings_keeps (Keeps.mkK hk)
  generalize State.applyBootSettings { s with boot := { s.boot with loaderStep := 6 } } = u at h1
  extract_lets bad
  split
  · exact State.retry_keeps h1
  · exact State.startFirmware_keeps (State.trained_keeps h1)

theorem State.startOn_keeps {ρ s : State} {env : StartEnv} (hk : Keeps ρ s) : Keeps ρ (s.startOn env).1 := by
  unfold State.startOn
  split
  · exact (State.enterFallow_keeps hk : Keeps ρ (s.enterFallow FR_HOST env))
  · split
    · exact (State.enterFallow_keeps hk : Keeps ρ (s.enterFallow s.boot.reason env))
    · have h1 : Keeps ρ (s.step4 env).step5.2 := State.step5_keeps (State.step4_keeps hk)
      generalize (s.step4 env).step5 = r at h1
      obtain ⟨o, u⟩ := r
      cases o with
      | some e => exact State.retry_keeps h1
      | none => exact State.train_keeps h1

theorem State.startOnce_keeps {ρ s : State} {env : StartEnv} (hk : Keeps ρ s) : Keeps ρ (s.startOnce env).1 := by
  unfold State.startOnce
  have h1 : Keeps ρ ((s.setFlag TH_GLOBAL3_nv_window env.nvOpen).step1).countStart :=
    State.countStart_keeps (State.step1_keeps (State.setFlag_keeps hk))
  generalize ((s.setFlag TH_GLOBAL3_nv_window env.nvOpen).step1).countStart = t at h1
  dsimp only
  generalize t.step2Fail env = o
  cases o with
  | some e => exact State.cellarFailed_keeps h1
  | none => exact State.startOn_keeps (State.cellarRead_keeps h1)

theorem State.loader_keeps {ρ s : State} {env : StartEnv} {n : Nat} (hk : Keeps ρ s) : Keeps ρ (State.loader env n s) := by
  induction n generalizing s with
  | zero => exact hk
  | succ n ih =>
    have h1 : Keeps ρ (s.startOnce env).1 := State.startOnce_keeps hk
    rw [State.loader]
    generalize s.startOnce env = r at h1
    split
    · exact ih h1
    · exact h1

theorem execPor_keeps {ρ : State} {s : State} (hk : Keeps ρ s) : KeepsR ρ (execPor s) := by
  unfold execPor
  repeat' first
    | with_reducible assumption
    | with_reducible refine KeepsR.next ?_
    | fail_if_no_progress with_reducible refine Keeps.mkK ?_
    | with_reducible refine State.resetAll_keeps ?_

theorem execRstN_keeps {ρ : State} {s : State} (hk : Keeps ρ s) : KeepsR ρ (execRstN s) := by
  unfold execRstN
  repeat' first
    | with_reducible assumption
    | with_reducible refine KeepsR.next ?_
    | fail_if_no_progress with_reducible refine Keeps.mkK ?_
    | with_reducible refine State.resetAll_keeps ?_
    | with_reducible refine Keeps.doAll ?_ (fun _ _ _ => ?_)
    | with_reducible refine Keeps.doIf ?_ (fun _ _ => ?_)
    | with_reducible refine Keeps.foldl ?_ (fun _ _ _ => ?_)
    | with_reducible refine Keeps.foldlFst ?_ (fun _ _ _ => ?_)
    | with_reducible refine Keeps.foldlSnd ?_ (fun _ _ _ => ?_)
    | with_reducible refine KeepsR.host ?_ (fun _ _ => ?_)
    | (lift_lets; intro x; clear_value x)
    | with_reducible refine Keeps.ofSnd (by assumption) ?_
    | with_reducible refine Keeps.ofFst (by assumption) ?_
    | split

theorem execResetRelease_keeps {ρ : State} {env : StartEnv} {s : State} (hk : Keeps ρ s) : KeepsR ρ (execResetRelease env s) := by
  unfold execResetRelease
  repeat' first
    | with_reducible assumption
    | with_reducible refine KeepsR.next ?_
    | fail_if_no_progress with_reducible refine Keeps.mkK ?_
    | with_reducible refine State.loader_keeps ?_
    | with_reducible refine Keeps.doAll ?_ (fun _ _ _ => ?_)
    | with_reducible refine Keeps.doIf ?_ (fun _ _ => ?_)
    | with_reducible refine Keeps.foldl ?_ (fun _ _ _ => ?_)
    | with_reducible refine Keeps.foldlFst ?_ (fun _ _ _ => ?_)
    | with_reducible refine Keeps.foldlSnd ?_ (fun _ _ _ => ?_)
    | with_reducible refine KeepsR.host ?_ (fun _ _ => ?_)
    | (lift_lets; intro x; clear_value x)
    | with_reducible refine Keeps.ofSnd (by assumption) ?_
    | with_reducible refine Keeps.ofFst (by assumption) ?_
    | split

theorem execWatchdogExpiry_keeps {ρ : State} {s : State} (hk : Keeps ρ s) : KeepsR ρ (execWatchdogExpiry s) := by
  unfold execWatchdogExpiry
  repeat' first
    | with_reducible assumption
    | with_reducible refine KeepsR.next ?_
    | fail_if_no_progress with_reducible refine Keeps.mkK ?_
    | with_reducible refine State.resetAll_keeps ?_
    | with_reducible refine Keeps.doAll ?_ (fun _ _ _ => ?_)
    | with_reducible refine Keeps.doIf ?_ (fun _ _ => ?_)
    | with_reducible refine Keeps.foldl ?_ (fun _ _ _ => ?_)
    | with_reducible refine Keeps.foldlFst ?_ (fun _ _ _ => ?_)
    | with_reducible refine Keeps.foldlSnd ?_ (fun _ _ _ => ?_)
    | with_reducible refine KeepsR.host ?_ (fun _ _ => ?_)
    | with_reducible refine Keeps.ofSnd (by assumption) ?_
    | with_reducible refine Keeps.ofFst (by assumption) ?_
    | split

theorem execStartStable_keeps {ρ : State} {s : State} (hk : Keeps ρ s) : KeepsR ρ (execStartStable s) := by
  unfold execStartStable
  repeat' first
    | with_reducible assumption
    | with_reducible refine KeepsR.next ?_
    | fail_if_no_progress with_reducible refine Keeps.mkK ?_
    | with_reducible refine State.clearAttempts_keeps ?_
    | with_reducible refine Keeps.doAll ?_ (fun _ _ _ => ?_)
    | with_reducible refine Keeps.doIf ?_ (fun _ _ => ?_)
    | with_reducible refine Keeps.foldl ?_ (fun _ _ _ => ?_)
    | with_reducible refine Keeps.foldlFst ?_ (fun _ _ _ => ?_)
    | with_reducible refine Keeps.foldlSnd ?_ (fun _ _ _ => ?_)
    | with_reducible refine KeepsR.host ?_ (fun _ _ => ?_)
    | (lift_lets; intro x; clear_value x)
    | with_reducible refine Keeps.ofSnd (by assumption) ?_
    | with_reducible refine Keeps.ofFst (by assumption) ?_
    | split

theorem execDevResetDelayExpiry_keeps {ρ : State} {s : State} (hk : Keeps ρ s) : KeepsR ρ (execDevResetDelayExpiry s) := by
  unfold execDevResetDelayExpiry
  repeat' first
    | with_reducible assumption
    | with_reducible refine KeepsR.next ?_
    | fail_if_no_progress with_reducible refine Keeps.mkK ?_
    | with_reducible refine State.resetAll_keeps ?_
    | with_reducible refine Keeps.doAll ?_ (fun _ _ _ => ?_)
    | with_reducible refine Keeps.doIf ?_ (fun _ _ => ?_)
    | with_reducible refine Keeps.foldl ?_ (fun _ _ _ => ?_)
    | with_reducible refine Keeps.foldlFst ?_ (fun _ _ _ => ?_)
    | with_reducible refine Keeps.foldlSnd ?_ (fun _ _ _ => ?_)
    | with_reducible refine KeepsR.host ?_ (fun _ _ => ?_)
    | with_reducible refine Keeps.ofSnd (by assumption) ?_
    | with_reducible refine Keeps.ofFst (by assumption) ?_
    | split

theorem execPciePerstRelease_keeps {ρ : State} {s : State} (hk : Keeps ρ s) : KeepsR ρ (execPciePerstRelease s) := by
  unfold execPciePerstRelease
  repeat' first
    | with_reducible assumption
    | with_reducible refine KeepsR.next ?_
    | fail_if_no_progress with_reducible refine Keeps.mkK ?_

theorem State.writeBootWord_keeps {ρ : State} {s : State} {off : Nat} {v : Word} (hk : Keeps ρ s) : Keeps ρ (State.writeBootWord s off v) := by
  unfold State.writeBootWord
  repeat' first
    | with_reducible assumption
    | with_reducible refine KeepsR.next ?_
    | fail_if_no_progress with_reducible refine Keeps.mkK ?_
    | with_reducible refine Keeps.doAll ?_ (fun _ _ _ => ?_)
    | with_reducible refine Keeps.doIf ?_ (fun _ _ => ?_)
    | with_reducible refine Keeps.foldl ?_ (fun _ _ _ => ?_)
    | with_reducible refine Keeps.foldlFst ?_ (fun _ _ _ => ?_)
    | with_reducible refine Keeps.foldlSnd ?_ (fun _ _ _ => ?_)
    | with_reducible refine KeepsR.host ?_ (fun _ _ => ?_)
    | (lift_lets; intro x; clear_value x)
    | with_reducible refine Keeps.ofSnd (by assumption) ?_
    | with_reducible refine Keeps.ofFst (by assumption) ?_
    | split

theorem State.setCalRun_keeps {ρ : State} {s : State} {item : Nat} {l : List CalEnd} (hk : Keeps ρ s) : Keeps ρ (State.setCalRun s item l) := by
  unfold State.setCalRun
  repeat' first
    | with_reducible assumption
    | with_reducible refine KeepsR.next ?_
    | fail_if_no_progress with_reducible refine Keeps.mkK ?_

theorem State.calInstance_keeps {ρ : State} {s : State} {m : Nat} {item : Nat} {e : CalEnd} (hk : Keeps ρ s) : Keeps ρ (State.calInstance s m item e) := by
  unfold State.calInstance
  repeat' first
    | with_reducible assumption
    | with_reducible refine KeepsR.next ?_
    | fail_if_no_progress with_reducible refine Keeps.mkK ?_
    | with_reducible refine State.setFld_keeps ?_
    | with_reducible refine State.addPartial_keeps ?_
    | with_reducible refine State.setMeasuring_keeps ?_

theorem State.calMark_keeps {ρ : State} {s : State} {item : Nat} {before : List CalEnd} (hk : Keeps ρ s) : Keeps ρ (State.calMark s item before) := by
  unfold State.calMark
  repeat' first
    | with_reducible assumption
    | with_reducible refine KeepsR.next ?_
    | fail_if_no_progress with_reducible refine Keeps.mkK ?_
    | with_reducible refine State.setMeasuring_keeps ?_

theorem State.calStart_keeps {ρ : State} {s : State} {item : Nat} {units : List Nat} (hk : Keeps ρ s) : Keeps ρ (State.calStart s item units) := by
  unfold State.calStart
  repeat' first
    | with_reducible assumption
    | with_reducible refine KeepsR.next ?_
    | fail_if_no_progress with_reducible refine Keeps.mkK ?_
    | with_reducible refine State.setCalRun_keeps ?_
    | with_reducible refine State.calMark_keeps ?_

theorem State.calStep_keeps {ρ : State} {s : State} {m : Nat} {item : Nat} {ms : List CalMeasure} (hk : Keeps ρ s) : Keeps ρ (State.calStep s m item ms) := by
  unfold State.calStep
  repeat' first
    | with_reducible assumption
    | with_reducible refine KeepsR.next ?_
    | fail_if_no_progress with_reducible refine Keeps.mkK ?_
    | with_reducible refine State.setCalRun_keeps ?_
    | with_reducible refine State.calInstance_keeps ?_
    | with_reducible refine State.calMark_keeps ?_
    | with_reducible refine Keeps.doAll ?_ (fun _ _ _ => ?_)

theorem State.takeCal_keeps {ρ : State} {s : State} {item : Nat} {i : Nat} {v : List Int} (hk : Keeps ρ s) : Keeps ρ (State.takeCal s item i v) := by
  unfold State.takeCal
  repeat' first
    | with_reducible assumption
    | with_reducible refine KeepsR.next ?_
    | fail_if_no_progress with_reducible refine Keeps.mkK ?_
    | with_reducible refine State.setFld_keeps ?_

theorem State.calTake_keeps {ρ : State} {s : State} {item : Nat} (hk : Keeps ρ s) : Keeps ρ (State.calTake s item) := by
  unfold State.calTake
  repeat' first
    | with_reducible assumption
    | with_reducible refine KeepsR.next ?_
    | fail_if_no_progress with_reducible refine Keeps.mkK ?_
    | with_reducible refine State.raise_keeps ?_
    | with_reducible refine State.writeSet_keeps ?_
    | with_reducible refine State.takeCal_keeps ?_
    | with_reducible refine Keeps.doAll ?_ (fun _ _ _ => ?_)
    | with_reducible refine Keeps.doIf ?_ (fun _ _ => ?_)
    | with_reducible refine Keeps.foldl ?_ (fun _ _ _ => ?_)
    | with_reducible refine Keeps.foldlFst ?_ (fun _ _ _ => ?_)
    | with_reducible refine Keeps.foldlSnd ?_ (fun _ _ _ => ?_)
    | with_reducible refine KeepsR.host ?_ (fun _ _ => ?_)
    | (lift_lets; intro x; clear_value x)
    | with_reducible refine Keeps.ofSnd (by assumption) ?_
    | with_reducible refine Keeps.ofFst (by assumption) ?_
    | split
    | dsimp only

theorem State.calFinish_keeps {ρ : State} {s : State} {m : Nat} {item : Nat} (hk : Keeps ρ s) : Keeps ρ (State.calFinish s m item) := by
  unfold State.calFinish
  repeat' first
    | with_reducible assumption
    | with_reducible refine KeepsR.next ?_
    | fail_if_no_progress with_reducible refine Keeps.mkK ?_
    | with_reducible refine State.raise2_keeps ?_
    | with_reducible refine State.setOutcome_keeps ?_
    | with_reducible refine State.setCalRun_keeps ?_
    | with_reducible refine State.calTake_keeps ?_
    | with_reducible refine Keeps.doAll ?_ (fun _ _ _ => ?_)
    | with_reducible refine Keeps.doIf ?_ (fun _ _ => ?_)
    | with_reducible refine Keeps.foldl ?_ (fun _ _ _ => ?_)
    | with_reducible refine Keeps.foldlFst ?_ (fun _ _ _ => ?_)
    | with_reducible refine Keeps.foldlSnd ?_ (fun _ _ _ => ?_)
    | with_reducible refine KeepsR.host ?_ (fun _ _ => ?_)
    | (lift_lets; intro x; clear_value x)
    | with_reducible refine Keeps.ofSnd (by assumption) ?_
    | with_reducible refine Keeps.ofFst (by assumption) ?_
    | split
    | dsimp only

theorem State.calGo_keeps {ρ : State} {s : State} {m : Nat} {item : Nat} {ms : List CalMeasure} (hk : Keeps ρ s) : Keeps ρ (State.calGo s m item ms) := by
  unfold State.calGo
  repeat' first
    | with_reducible assumption
    | with_reducible refine KeepsR.next ?_
    | fail_if_no_progress with_reducible refine Keeps.mkK ?_
    | with_reducible refine State.modHead_keeps ?_
    | with_reducible refine State.calStep_keeps ?_
    | with_reducible refine State.calFinish_keeps ?_
    | with_reducible refine Keeps.doAll ?_ (fun _ _ _ => ?_)
    | with_reducible refine Keeps.doIf ?_ (fun _ _ => ?_)
    | with_reducible refine Keeps.foldl ?_ (fun _ _ _ => ?_)
    | with_reducible refine Keeps.foldlFst ?_ (fun _ _ _ => ?_)
    | with_reducible refine Keeps.foldlSnd ?_ (fun _ _ _ => ?_)
    | with_reducible refine KeepsR.host ?_ (fun _ _ => ?_)
    | (lift_lets; intro x; refine Keeps.cut (r := ρ) (x := x) ?_ (fun hx => ?_); (on_goal 1 => dsimp only [x]); (on_goal 2 => clear_value x))
    | with_reducible refine Keeps.ofSnd (by assumption) ?_
    | with_reducible refine Keeps.ofFst (by assumption) ?_
    | split
    | dsimp only

theorem State.calAbort_keeps {ρ : State} {s : State} {item : Nat} (hk : Keeps ρ s) : Keeps ρ (State.calAbort s item).1 := by
  unfold State.calAbort
  repeat' first
    | with_reducible assumption
    | with_reducible refine KeepsR.next ?_
    | fail_if_no_progress with_reducible refine Keeps.mkK ?_
    | with_reducible refine State.setMeasuring_keeps ?_
    | with_reducible refine State.setCalRun_keeps ?_
    | with_reducible refine State.calTake_keeps ?_

theorem Keeps.iteSnd {ρ : State} {c : Prop} [Decidable c] {x y : Word × State} (hx : Keeps ρ x.2) (hy : Keeps ρ y.2) :
    Keeps ρ (if c then x else y).2 := by
  split
  · exact hx
  · exact hy

theorem State.bar0Read_keeps {ρ s : State} {i : Iface} {off : Nat} (hk : Keeps ρ s) : Keeps ρ (s.bar0Read i off).2 := by
  have hr : ∀ m k, Keeps ρ (if k = 4 then s.readStatus m else s) := fun m k => by
    split
    · exact State.readStatus_keeps hk
    · exact hk
  unfold State.bar0Read
  refine Keeps.iteSnd hk (Keeps.iteSnd hk (Keeps.iteSnd hk (Keeps.iteSnd hk (Keeps.iteSnd (hr _ _) (Keeps.iteSnd hk
    (Keeps.iteSnd (State.allocHandle_keeps hk) (Keeps.iteSnd hk (Keeps.iteSnd ?_ (Keeps.iteSnd hk (Keeps.iteSnd hk
    (Keeps.iteSnd hk hk)))))))))))
  exact Keeps.iteSnd (State.fqPop_keeps hk) hk

theorem State.stopWork_keeps {ρ : State} {s : State} {m : Nat} {c : MbCmd} (hk : Keeps ρ s) : Keeps ρ (State.stopWork s m c).1 := by
  unfold State.stopWork
  repeat' first
    | with_reducible assumption
    | with_reducible refine KeepsR.next ?_
    | fail_if_no_progress with_reducible refine Keeps.mkK ?_
    | with_reducible refine State.modPort_keeps ?_
    | with_reducible refine State.unstage_keeps ?_
    | with_reducible refine State.calAbort_keeps ?_
    | with_reducible refine Keeps.doAll ?_ (fun _ _ _ => ?_)
    | with_reducible refine Keeps.doIf ?_ (fun _ _ => ?_)
    | with_reducible refine Keeps.foldl ?_ (fun _ _ _ => ?_)
    | with_reducible refine Keeps.foldlFst ?_ (fun _ _ _ => ?_)
    | with_reducible refine Keeps.foldlSnd ?_ (fun _ _ _ => ?_)
    | with_reducible refine KeepsR.host ?_ (fun _ _ => ?_)
    | with_reducible refine Keeps.ofSnd (by assumption) ?_
    | with_reducible refine Keeps.ofFst (by assumption) ?_
    | split

theorem State.endDemand_keeps {ρ : State} {s : State} {t : Nat} (hk : Keeps ρ s) : Keeps ρ (State.endDemand s t) := by
  unfold State.endDemand
  repeat' first
    | with_reducible assumption
    | with_reducible refine KeepsR.next ?_
    | fail_if_no_progress with_reducible refine Keeps.mkK ?_
    | with_reducible refine State.modTask_keeps ?_
    | with_reducible refine State.glStates_keeps ?_

theorem State.abortHead_keeps {ρ s : State} {m : Nat} (hk : Keeps ρ s) : Keeps ρ (s.abortHead m) := by
  unfold State.abortHead
  split
  next c _ =>
    have hw : Keeps ρ (s.stopWork m c).1 := State.stopWork_keeps hk
    split
    · exact hk
    · split
      · exact State.finishHead_keeps hk
      · split
        · extract_lets r t
          have ht : Keeps ρ t := State.finishHead_keeps hw
          split
          · exact State.endDemand_keeps ht
          · exact ht
        · exact hk
  next => exact hk

theorem State.mbCtrl_keeps {ρ : State} {s : State} {m : Nat} {v : Word} (hk : Keeps ρ s) : Keeps ρ (State.mbCtrl s m v) := by
  unfold State.mbCtrl
  repeat' first
    | with_reducible assumption
    | with_reducible refine KeepsR.next ?_
    | fail_if_no_progress with_reducible refine Keeps.mkK ?_
    | with_reducible refine State.ackHead_keeps ?_
    | with_reducible refine State.abortHead_keeps ?_
    | with_reducible refine Keeps.doAll ?_ (fun _ _ _ => ?_)
    | with_reducible refine Keeps.doIf ?_ (fun _ _ => ?_)
    | with_reducible refine Keeps.foldl ?_ (fun _ _ _ => ?_)
    | with_reducible refine Keeps.foldlFst ?_ (fun _ _ _ => ?_)
    | with_reducible refine Keeps.foldlSnd ?_ (fun _ _ _ => ?_)
    | with_reducible refine KeepsR.host ?_ (fun _ _ => ?_)
    | with_reducible refine Keeps.ofSnd (by assumption) ?_
    | with_reducible refine Keeps.ofFst (by assumption) ?_
    | split

theorem execMailboxAck_keeps {ρ : State} {i : Iface} {m : Fin 8} {v : Word} {s : State} (hk : Keeps ρ s) : KeepsR ρ (execMailboxAck i m v s) := by
  unfold execMailboxAck
  repeat' first
    | with_reducible assumption
    | with_reducible refine KeepsR.next ?_
    | fail_if_no_progress with_reducible refine Keeps.mkK ?_
    | with_reducible refine State.mbCtrl_keeps ?_
    | with_reducible refine Keeps.doAll ?_ (fun _ _ _ => ?_)
    | with_reducible refine Keeps.doIf ?_ (fun _ _ => ?_)
    | with_reducible refine Keeps.foldl ?_ (fun _ _ _ => ?_)
    | with_reducible refine Keeps.foldlFst ?_ (fun _ _ _ => ?_)
    | with_reducible refine Keeps.foldlSnd ?_ (fun _ _ _ => ?_)
    | with_reducible refine KeepsR.host ?_ (fun _ _ => ?_)

theorem execMailboxAbort_keeps {ρ : State} {i : Iface} {m : Fin 8} {v : Word} {s : State} (hk : Keeps ρ s) : KeepsR ρ (execMailboxAbort i m v s) := by
  unfold execMailboxAbort
  repeat' first
    | with_reducible assumption
    | with_reducible refine KeepsR.next ?_
    | fail_if_no_progress with_reducible refine Keeps.mkK ?_
    | with_reducible refine State.mbCtrl_keeps ?_
    | with_reducible refine Keeps.doAll ?_ (fun _ _ _ => ?_)
    | with_reducible refine Keeps.doIf ?_ (fun _ _ => ?_)
    | with_reducible refine Keeps.foldl ?_ (fun _ _ _ => ?_)
    | with_reducible refine Keeps.foldlFst ?_ (fun _ _ _ => ?_)
    | with_reducible refine Keeps.foldlSnd ?_ (fun _ _ _ => ?_)
    | with_reducible refine KeepsR.host ?_ (fun _ _ => ?_)

theorem execMbStatusRead_keeps {ρ : State} {i : Iface} {m : Fin 8} {s : State} (hk : Keeps ρ s) : KeepsR ρ (execMbStatusRead i m s) := by
  unfold execMbStatusRead
  repeat' first
    | with_reducible assumption
    | with_reducible refine KeepsR.next ?_
    | fail_if_no_progress with_reducible refine Keeps.mkK ?_
    | with_reducible refine State.readStatus_keeps ?_
    | with_reducible refine State.respond_keeps ?_
    | with_reducible refine Keeps.doAll ?_ (fun _ _ _ => ?_)
    | with_reducible refine Keeps.doIf ?_ (fun _ _ => ?_)
    | with_reducible refine Keeps.foldl ?_ (fun _ _ _ => ?_)
    | with_reducible refine Keeps.foldlFst ?_ (fun _ _ _ => ?_)
    | with_reducible refine Keeps.foldlSnd ?_ (fun _ _ _ => ?_)
    | with_reducible refine KeepsR.host ?_ (fun _ _ => ?_)

theorem State.sendPending_keeps {ρ : State} {s : State} {vec : Nat} (hk : Keeps ρ s) : Keeps ρ (State.sendPending s vec) := by
  unfold State.sendPending
  repeat' first
    | with_reducible assumption
    | with_reducible refine KeepsR.next ?_
    | fail_if_no_progress with_reducible refine Keeps.mkK ?_
    | with_reducible refine State.emit_keeps ?_
    | with_reducible refine Keeps.doAll ?_ (fun _ _ _ => ?_)
    | with_reducible refine Keeps.doIf ?_ (fun _ _ => ?_)
    | with_reducible refine Keeps.foldl ?_ (fun _ _ _ => ?_)
    | with_reducible refine Keeps.foldlFst ?_ (fun _ _ _ => ?_)
    | with_reducible refine Keeps.foldlSnd ?_ (fun _ _ _ => ?_)
    | with_reducible refine KeepsR.host ?_ (fun _ _ => ?_)
    | (lift_lets; intro x; clear_value x)
    | with_reducible refine Keeps.ofSnd (by assumption) ?_
    | with_reducible refine Keeps.ofFst (by assumption) ?_
    | split

theorem State.writeMsix_keeps {ρ : State} {s : State} {k : Nat} {v : Word} (hk : Keeps ρ s) : Keeps ρ (State.writeMsix s k v) := by
  unfold State.writeMsix
  repeat' first
    | with_reducible assumption
    | with_reducible refine KeepsR.next ?_
    | fail_if_no_progress with_reducible refine Keeps.mkK ?_
    | with_reducible refine State.sendPending_keeps ?_
    | with_reducible refine Keeps.doAll ?_ (fun _ _ _ => ?_)
    | with_reducible refine Keeps.doIf ?_ (fun _ _ => ?_)
    | with_reducible refine Keeps.foldl ?_ (fun _ _ _ => ?_)
    | with_reducible refine Keeps.foldlFst ?_ (fun _ _ _ => ?_)
    | with_reducible refine Keeps.foldlSnd ?_ (fun _ _ _ => ?_)
    | with_reducible refine KeepsR.host ?_ (fun _ _ => ?_)
    | (lift_lets; intro x; clear_value x)
    | with_reducible refine Keeps.ofSnd (by assumption) ?_
    | with_reducible refine Keeps.ofFst (by assumption) ?_
    | split

theorem execMsixVectorUnmask_keeps {ρ : State} {vec : Fin 32} {s : State} (hk : Keeps ρ s) : KeepsR ρ (execMsixVectorUnmask vec s) := by
  unfold execMsixVectorUnmask
  repeat' first
    | with_reducible assumption
    | with_reducible refine KeepsR.next ?_
    | fail_if_no_progress with_reducible refine Keeps.mkK ?_
    | with_reducible refine State.writeMsix_keeps ?_
    | with_reducible refine Keeps.doAll ?_ (fun _ _ _ => ?_)
    | with_reducible refine Keeps.doIf ?_ (fun _ _ => ?_)
    | with_reducible refine Keeps.foldl ?_ (fun _ _ _ => ?_)
    | with_reducible refine Keeps.foldlFst ?_ (fun _ _ _ => ?_)
    | with_reducible refine Keeps.foldlSnd ?_ (fun _ _ _ => ?_)
    | with_reducible refine KeepsR.host ?_ (fun _ _ => ?_)

theorem State.writeEvents_keeps {ρ : State} {s : State} {off : Nat} {v : Word} (hk : Keeps ρ s) : Keeps ρ (State.writeEvents s off v) := by
  unfold State.writeEvents
  repeat' first
    | with_reducible assumption
    | with_reducible refine KeepsR.next ?_
    | fail_if_no_progress with_reducible refine Keeps.mkK ?_
    | with_reducible refine State.clearLatches_keeps ?_
    | with_reducible refine State.writeEnables_keeps ?_
    | with_reducible refine State.writeRoute_keeps ?_
    | with_reducible refine Keeps.doAll ?_ (fun _ _ _ => ?_)
    | with_reducible refine Keeps.doIf ?_ (fun _ _ => ?_)
    | with_reducible refine Keeps.foldl ?_ (fun _ _ _ => ?_)
    | with_reducible refine Keeps.foldlFst ?_ (fun _ _ _ => ?_)
    | with_reducible refine Keeps.foldlSnd ?_ (fun _ _ _ => ?_)
    | with_reducible refine KeepsR.host ?_ (fun _ _ => ?_)
    | with_reducible refine Keeps.ofSnd (by assumption) ?_
    | with_reducible refine Keeps.ofFst (by assumption) ?_
    | split

theorem State.writeFq_keeps {ρ : State} {s : State} {q : Nat} {off : Nat} {v : Word} (hk : Keeps ρ s) : Keeps ρ (State.writeFq s q off v) := by
  unfold State.writeFq
  repeat' first
    | with_reducible assumption
    | with_reducible refine KeepsR.next ?_
    | fail_if_no_progress with_reducible refine Keeps.mkK ?_
    | with_reducible refine State.fqSubmit_keeps ?_
    | with_reducible refine State.fqWrite_keeps ?_
    | with_reducible refine Keeps.doAll ?_ (fun _ _ _ => ?_)
    | with_reducible refine Keeps.doIf ?_ (fun _ _ => ?_)
    | with_reducible refine Keeps.foldl ?_ (fun _ _ _ => ?_)
    | with_reducible refine Keeps.foldlFst ?_ (fun _ _ _ => ?_)
    | with_reducible refine Keeps.foldlSnd ?_ (fun _ _ _ => ?_)
    | with_reducible refine KeepsR.host ?_ (fun _ _ => ?_)
    | with_reducible refine Keeps.ofSnd (by assumption) ?_
    | with_reducible refine Keeps.ofFst (by assumption) ?_
    | split

theorem State.writeHi_keeps {ρ : State} {s : State} {off : Nat} {v : Word} (hk : Keeps ρ s) : Keeps ρ (State.writeHi s off v) := by
  unfold State.writeHi
  repeat' first
    | with_reducible assumption
    | with_reducible refine KeepsR.next ?_
    | fail_if_no_progress with_reducible refine Keeps.mkK ?_
    | with_reducible refine Keeps.doAll ?_ (fun _ _ _ => ?_)
    | with_reducible refine Keeps.doIf ?_ (fun _ _ => ?_)
    | with_reducible refine Keeps.foldl ?_ (fun _ _ _ => ?_)
    | with_reducible refine Keeps.foldlFst ?_ (fun _ _ _ => ?_)
    | with_reducible refine Keeps.foldlSnd ?_ (fun _ _ _ => ?_)
    | with_reducible refine KeepsR.host ?_ (fun _ _ => ?_)
    | (lift_lets; intro x; clear_value x)
    | with_reducible refine Keeps.ofSnd (by assumption) ?_
    | with_reducible refine Keeps.ofFst (by assumption) ?_
    | split

theorem State.bar0Write_keeps {ρ : State} {s : State} {i : Iface} {off : Nat} {v : Word} (hk : Keeps ρ s) : Keeps ρ (State.bar0Write s i off v) := by
  unfold State.bar0Write
  repeat' first
    | with_reducible assumption
    | with_reducible refine KeepsR.next ?_
    | fail_if_no_progress with_reducible refine Keeps.mkK ?_
    | with_reducible refine State.modMbox_keeps ?_
    | with_reducible refine State.submit_keeps ?_
    | with_reducible refine State.plainWrite_keeps ?_
    | with_reducible refine State.writeSheafBlock_keeps ?_
    | with_reducible refine State.writeBootWord_keeps ?_
    | with_reducible refine State.mbCtrl_keeps ?_
    | with_reducible refine State.writeMsix_keeps ?_
    | with_reducible refine State.writeEvents_keeps ?_
    | with_reducible refine State.writeFq_keeps ?_
    | with_reducible refine State.writeHi_keeps ?_
    | with_reducible refine Keeps.doAll ?_ (fun _ _ _ => ?_)
    | with_reducible refine Keeps.doIf ?_ (fun _ _ => ?_)
    | with_reducible refine Keeps.foldl ?_ (fun _ _ _ => ?_)
    | with_reducible refine Keeps.foldlFst ?_ (fun _ _ _ => ?_)
    | with_reducible refine Keeps.foldlSnd ?_ (fun _ _ _ => ?_)
    | with_reducible refine KeepsR.host ?_ (fun _ _ => ?_)
    | (lift_lets; intro x; clear_value x)
    | with_reducible refine Keeps.ofSnd (by assumption) ?_
    | with_reducible refine Keeps.ofFst (by assumption) ?_
    | split

theorem State.sizeError_keeps {ρ : State} {s : State} (hk : Keeps ρ s) : Keeps ρ (State.sizeError s) := by
  unfold State.sizeError
  repeat' first
    | with_reducible assumption
    | with_reducible refine KeepsR.next ?_
    | fail_if_no_progress with_reducible refine Keeps.mkK ?_

theorem execStateWordWrite_keeps {ρ : State} {i : Iface} {size : Nat} {off : Nat} {v : Word} {s : State} (hk : Keeps ρ s) : KeepsR ρ (execStateWordWrite i size off v s) := by
  unfold execStateWordWrite
  repeat' first
    | with_reducible assumption
    | with_reducible refine KeepsR.next ?_
    | fail_if_no_progress with_reducible refine Keeps.mkK ?_
    | with_reducible refine State.bar0Write_keeps ?_
    | with_reducible refine State.sizeError_keeps ?_
    | with_reducible refine Keeps.doAll ?_ (fun _ _ _ => ?_)
    | with_reducible refine Keeps.doIf ?_ (fun _ _ => ?_)
    | with_reducible refine Keeps.foldl ?_ (fun _ _ _ => ?_)
    | with_reducible refine Keeps.foldlFst ?_ (fun _ _ _ => ?_)
    | with_reducible refine Keeps.foldlSnd ?_ (fun _ _ _ => ?_)
    | with_reducible refine KeepsR.host ?_ (fun _ _ => ?_)
    | with_reducible refine Keeps.ofSnd (by assumption) ?_
    | with_reducible refine Keeps.ofFst (by assumption) ?_
    | split

theorem execEvLatchWrite_keeps {ρ : State} {i : Iface} {g : Fin 8} {v : Word} {s : State} (hk : Keeps ρ s) : KeepsR ρ (execEvLatchWrite i g v s) := by
  unfold execEvLatchWrite
  repeat' first
    | with_reducible assumption
    | with_reducible refine KeepsR.next ?_
    | fail_if_no_progress with_reducible refine Keeps.mkK ?_
    | with_reducible refine State.clearLatches_keeps ?_
    | with_reducible refine Keeps.doAll ?_ (fun _ _ _ => ?_)
    | with_reducible refine Keeps.doIf ?_ (fun _ _ => ?_)
    | with_reducible refine Keeps.foldl ?_ (fun _ _ _ => ?_)
    | with_reducible refine Keeps.foldlFst ?_ (fun _ _ _ => ?_)
    | with_reducible refine Keeps.foldlSnd ?_ (fun _ _ _ => ?_)
    | with_reducible refine KeepsR.host ?_ (fun _ _ => ?_)

theorem execEvEnableWrite_keeps {ρ : State} {i : Iface} {g : Fin 8} {v : Word} {s : State} (hk : Keeps ρ s) : KeepsR ρ (execEvEnableWrite i g v s) := by
  unfold execEvEnableWrite
  repeat' first
    | with_reducible assumption
    | with_reducible refine KeepsR.next ?_
    | fail_if_no_progress with_reducible refine Keeps.mkK ?_
    | with_reducible refine State.writeEnables_keeps ?_
    | with_reducible refine Keeps.doAll ?_ (fun _ _ _ => ?_)
    | with_reducible refine Keeps.doIf ?_ (fun _ _ => ?_)
    | with_reducible refine Keeps.foldl ?_ (fun _ _ _ => ?_)
    | with_reducible refine Keeps.foldlFst ?_ (fun _ _ _ => ?_)
    | with_reducible refine Keeps.foldlSnd ?_ (fun _ _ _ => ?_)
    | with_reducible refine KeepsR.host ?_ (fun _ _ => ?_)

theorem State.rangeLost_keeps {ρ : State} {s : State} {r : Nat} {a : Nat} {n : Nat} (hk : Keeps ρ s) : Keeps ρ (State.rangeLost s r a n) := by
  unfold State.rangeLost
  repeat' first
    | with_reducible assumption
    | with_reducible refine KeepsR.next ?_
    | fail_if_no_progress with_reducible refine Keeps.mkK ?_
    | with_reducible refine State.outOfRange_keeps ?_
    | with_reducible refine Keeps.doAll ?_ (fun _ _ _ => ?_)

theorem State.hostPoison_keeps {ρ : State} {s : State} {r : Nat} {l : Nat} (hk : Keeps ρ s) : Keeps ρ (State.hostPoison s r l) := by
  unfold State.hostPoison
  repeat' first
    | with_reducible assumption
    | with_reducible refine KeepsR.next ?_
    | fail_if_no_progress with_reducible refine Keeps.mkK ?_
    | with_reducible refine State.replacedLine_keeps ?_
    | with_reducible refine State.logError_keeps ?_

theorem State.bar2Get_keeps {ρ : State} {s : State} {off : Nat} {n : Nat} (hk : Keeps ρ s) : Keeps ρ (State.bar2Get s off n).2.2 := by
  unfold State.bar2Get
  repeat' first
    | with_reducible assumption
    | with_reducible refine KeepsR.next ?_
    | fail_if_no_progress with_reducible refine Keeps.mkK ?_
    | with_reducible refine State.wake_keeps ?_
    | with_reducible refine State.rangeLost_keeps ?_
    | with_reducible refine State.hostPoison_keeps ?_
    | with_reducible refine Keeps.doAll ?_ (fun _ _ _ => ?_)
    | with_reducible refine Keeps.doIf ?_ (fun _ _ => ?_)
    | with_reducible refine Keeps.foldl ?_ (fun _ _ _ => ?_)
    | with_reducible refine Keeps.foldlFst ?_ (fun _ _ _ => ?_)
    | with_reducible refine Keeps.foldlSnd ?_ (fun _ _ _ => ?_)
    | with_reducible refine KeepsR.host ?_ (fun _ _ => ?_)
    | (lift_lets; intro x; clear_value x)
    | with_reducible refine Keeps.ofSnd (by assumption) ?_
    | with_reducible refine Keeps.ofFst (by assumption) ?_
    | split

theorem State.bar2Put_keeps {ρ : State} {s : State} {off : Nat} {l : List Byte} (hk : Keeps ρ s) : Keeps ρ (State.bar2Put s off l).2 := by
  unfold State.bar2Put
  repeat' first
    | with_reducible assumption
    | with_reducible refine KeepsR.next ?_
    | fail_if_no_progress with_reducible refine Keeps.mkK ?_
    | with_reducible refine State.wake_keeps ?_
    | with_reducible refine State.writeBy_keeps ?_
    | with_reducible refine State.rangeLost_keeps ?_
    | with_reducible refine Keeps.doAll ?_ (fun _ _ _ => ?_)
    | with_reducible refine Keeps.doIf ?_ (fun _ _ => ?_)
    | with_reducible refine Keeps.foldl ?_ (fun _ _ _ => ?_)
    | with_reducible refine Keeps.foldlFst ?_ (fun _ _ _ => ?_)
    | with_reducible refine Keeps.foldlSnd ?_ (fun _ _ _ => ?_)
    | with_reducible refine KeepsR.host ?_ (fun _ _ => ?_)
    | (lift_lets; intro x; clear_value x)
    | with_reducible refine Keeps.ofSnd (by assumption) ?_
    | with_reducible refine Keeps.ofFst (by assumption) ?_
    | split

theorem execBar2Read_keeps {ρ : State} {i : Iface} {off : BitVec 30} {size : Nat} {s : State} (hk : Keeps ρ s) : KeepsR ρ (execBar2Read i off size s) := by
  unfold execBar2Read
  repeat' first
    | with_reducible assumption
    | with_reducible refine KeepsR.next ?_
    | fail_if_no_progress with_reducible refine Keeps.mkK ?_
    | with_reducible refine State.respond_keeps ?_
    | with_reducible refine State.bar2Get_keeps ?_
    | with_reducible refine Keeps.doAll ?_ (fun _ _ _ => ?_)
    | with_reducible refine Keeps.doIf ?_ (fun _ _ => ?_)
    | with_reducible refine Keeps.foldl ?_ (fun _ _ _ => ?_)
    | with_reducible refine Keeps.foldlFst ?_ (fun _ _ _ => ?_)
    | with_reducible refine Keeps.foldlSnd ?_ (fun _ _ _ => ?_)
    | with_reducible refine KeepsR.host ?_ (fun _ _ => ?_)

theorem execBar2Write_keeps {ρ : State} {i : Iface} {off : BitVec 30} {data : List Byte} {s : State} (hk : Keeps ρ s) : KeepsR ρ (execBar2Write i off data s) := by
  unfold execBar2Write
  repeat' first
    | with_reducible assumption
    | with_reducible refine KeepsR.next ?_
    | fail_if_no_progress with_reducible refine Keeps.mkK ?_
    | with_reducible refine State.bar2Put_keeps ?_
    | with_reducible refine Keeps.doAll ?_ (fun _ _ _ => ?_)
    | with_reducible refine Keeps.doIf ?_ (fun _ _ => ?_)
    | with_reducible refine Keeps.foldl ?_ (fun _ _ _ => ?_)
    | with_reducible refine Keeps.foldlFst ?_ (fun _ _ _ => ?_)
    | with_reducible refine Keeps.foldlSnd ?_ (fun _ _ _ => ?_)
    | with_reducible refine KeepsR.host ?_ (fun _ _ => ?_)

theorem State.spiSend_keeps {ρ : State} {s : State} {quad : Bool} {l : List Byte} (hk : Keeps ρ s) : Keeps ρ (State.spiSend s quad l) := by
  unfold State.spiSend
  repeat' first
    | with_reducible assumption
    | with_reducible refine KeepsR.next ?_
    | fail_if_no_progress with_reducible refine Keeps.mkK ?_

theorem State.spiEnd_keeps {ρ : State} {s : State} {w : SpiWay} {code : Nat} {data : List Byte} {read : Bool} (hk : Keeps ρ s) : Keeps ρ (State.spiEnd s w code data read) := by
  unfold State.spiEnd
  repeat' first
    | with_reducible assumption
    | with_reducible refine KeepsR.next ?_
    | fail_if_no_progress with_reducible refine Keeps.mkK ?_
    | with_reducible refine State.spiSend_keeps ?_

theorem State.bar0Reads_keeps {ρ s : State} {off n : Nat} (hk : Keeps ρ s) : Keeps ρ (s.bar0Reads off n).2 := by
  induction n generalizing s off with
  | zero => exact hk
  | succ n ih => exact ih (State.bar0Read_keeps hk)

theorem State.bar0Writes_keeps {ρ s : State} {off : Nat} {l : List Word} (hk : Keeps ρ s) :
    Keeps ρ (s.bar0Writes off l) := by
  induction l generalizing s off with
  | nil => exact hk
  | cons v l ih => exact ih (State.bar0Write_keeps hk)

theorem State.spiGet_keeps {ρ : State} {s : State} {w : SpiWay} {addr : Nat} {count : Nat} (hk : Keeps ρ s) : Keeps ρ (State.spiGet s w addr count) := by
  unfold State.spiGet
  repeat' first
    | with_reducible assumption
    | with_reducible refine KeepsR.next ?_
    | fail_if_no_progress with_reducible refine Keeps.mkK ?_
    | with_reducible refine State.count_keeps ?_
    | with_reducible refine State.bar2Get_keeps ?_
    | with_reducible refine State.spiEnd_keeps ?_
    | with_reducible refine State.bar0Reads_keeps ?_
    | with_reducible refine Keeps.doAll ?_ (fun _ _ _ => ?_)
    | with_reducible refine Keeps.doIf ?_ (fun _ _ => ?_)
    | with_reducible refine Keeps.foldl ?_ (fun _ _ _ => ?_)
    | with_reducible refine Keeps.foldlFst ?_ (fun _ _ _ => ?_)
    | with_reducible refine Keeps.foldlSnd ?_ (fun _ _ _ => ?_)
    | with_reducible refine KeepsR.host ?_ (fun _ _ => ?_)
    | (lift_lets; intro x; clear_value x)
    | with_reducible refine Keeps.ofSnd (by assumption) ?_
    | with_reducible refine Keeps.ofFst (by assumption) ?_
    | split

theorem State.spiPut_keeps {ρ : State} {s : State} {w : SpiWay} {addr : Nat} {count : Nat} {data : List Byte} {crc : Nat} (hk : Keeps ρ s) : Keeps ρ (State.spiPut s w addr count data crc) := by
  unfold State.spiPut
  repeat' first
    | with_reducible assumption
    | with_reducible refine KeepsR.next ?_
    | fail_if_no_progress with_reducible refine Keeps.mkK ?_
    | with_reducible refine State.count_keeps ?_
    | with_reducible refine State.bar2Put_keeps ?_
    | with_reducible refine State.spiEnd_keeps ?_
    | with_reducible refine State.bar0Writes_keeps ?_
    | with_reducible refine Keeps.doAll ?_ (fun _ _ _ => ?_)
    | with_reducible refine Keeps.doIf ?_ (fun _ _ => ?_)
    | with_reducible refine Keeps.foldl ?_ (fun _ _ _ => ?_)
    | with_reducible refine Keeps.foldlFst ?_ (fun _ _ _ => ?_)
    | with_reducible refine Keeps.foldlSnd ?_ (fun _ _ _ => ?_)
    | with_reducible refine KeepsR.host ?_ (fun _ _ => ?_)
    | (lift_lets; intro x; clear_value x)
    | with_reducible refine Keeps.ofSnd (by assumption) ?_
    | with_reducible refine Keeps.ofFst (by assumption) ?_
    | split
    | dsimp only

theorem execSpiRead_keeps {ρ : State} {addr : Word} {count : Byte} {early : Bool} {s : State} (hk : Keeps ρ s) : KeepsR ρ (execSpiRead addr count early s) := by
  unfold execSpiRead
  repeat' first
    | with_reducible assumption
    | with_reducible refine KeepsR.next ?_
    | fail_if_no_progress with_reducible refine Keeps.mkK ?_
    | with_reducible refine State.spiGet_keeps ?_
    | with_reducible refine Keeps.doAll ?_ (fun _ _ _ => ?_)
    | with_reducible refine Keeps.doIf ?_ (fun _ _ => ?_)
    | with_reducible refine Keeps.foldl ?_ (fun _ _ _ => ?_)
    | with_reducible refine Keeps.foldlFst ?_ (fun _ _ _ => ?_)
    | with_reducible refine Keeps.foldlSnd ?_ (fun _ _ _ => ?_)
    | with_reducible refine KeepsR.host ?_ (fun _ _ => ?_)

theorem execSpiQuadRead_keeps {ρ : State} {addr : Word} {count : Byte} {early : Bool} {s : State} (hk : Keeps ρ s) : KeepsR ρ (execSpiQuadRead addr count early s) := by
  unfold execSpiQuadRead
  repeat' first
    | with_reducible assumption
    | with_reducible refine KeepsR.next ?_
    | fail_if_no_progress with_reducible refine Keeps.mkK ?_
    | with_reducible refine State.spiGet_keeps ?_
    | with_reducible refine Keeps.doAll ?_ (fun _ _ _ => ?_)
    | with_reducible refine Keeps.doIf ?_ (fun _ _ => ?_)
    | with_reducible refine Keeps.foldl ?_ (fun _ _ _ => ?_)
    | with_reducible refine Keeps.foldlFst ?_ (fun _ _ _ => ?_)
    | with_reducible refine Keeps.foldlSnd ?_ (fun _ _ _ => ?_)
    | with_reducible refine KeepsR.host ?_ (fun _ _ => ?_)

theorem execSpiWrite_keeps {ρ : State} {addr : Word} {count : Byte} {data : List Byte} {crc : BitVec 16} {early : Bool} {s : State} (hk : Keeps ρ s) : KeepsR ρ (execSpiWrite addr count data crc early s) := by
  unfold execSpiWrite
  repeat' first
    | with_reducible assumption
    | with_reducible refine KeepsR.next ?_
    | fail_if_no_progress with_reducible refine Keeps.mkK ?_
    | with_reducible refine State.spiPut_keeps ?_
    | with_reducible refine Keeps.doAll ?_ (fun _ _ _ => ?_)
    | with_reducible refine Keeps.doIf ?_ (fun _ _ => ?_)
    | with_reducible refine Keeps.foldl ?_ (fun _ _ _ => ?_)
    | with_reducible refine Keeps.foldlFst ?_ (fun _ _ _ => ?_)
    | with_reducible refine Keeps.foldlSnd ?_ (fun _ _ _ => ?_)
    | with_reducible refine KeepsR.host ?_ (fun _ _ => ?_)

theorem execSpiQuadWrite_keeps {ρ : State} {addr : Word} {count : Byte} {data : List Byte} {crc : BitVec 16} {early : Bool} {s : State} (hk : Keeps ρ s) : KeepsR ρ (execSpiQuadWrite addr count data crc early s) := by
  unfold execSpiQuadWrite
  repeat' first
    | with_reducible assumption
    | with_reducible refine KeepsR.next ?_
    | fail_if_no_progress with_reducible refine Keeps.mkK ?_
    | with_reducible refine State.spiPut_keeps ?_
    | with_reducible refine Keeps.doAll ?_ (fun _ _ _ => ?_)
    | with_reducible refine Keeps.doIf ?_ (fun _ _ => ?_)
    | with_reducible refine Keeps.foldl ?_ (fun _ _ _ => ?_)
    | with_reducible refine Keeps.foldlFst ?_ (fun _ _ _ => ?_)
    | with_reducible refine Keeps.foldlSnd ?_ (fun _ _ _ => ?_)
    | with_reducible refine KeepsR.host ?_ (fun _ _ => ?_)

theorem State.spiGood_keeps {ρ : State} {s : State} (hk : Keeps ρ s) : Keeps ρ (State.spiGood s) := by
  unfold State.spiGood
  repeat' first
    | with_reducible assumption
    | with_reducible refine KeepsR.next ?_
    | fail_if_no_progress with_reducible refine Keeps.mkK ?_

theorem execReadStatus_keeps {ρ : State} {s : State} (hk : Keeps ρ s) : KeepsR ρ (execReadStatus s) := by
  unfold execReadStatus
  repeat' first
    | with_reducible assumption
    | with_reducible refine KeepsR.next ?_
    | fail_if_no_progress with_reducible refine Keeps.mkK ?_
    | with_reducible refine State.spiSend_keeps ?_
    | with_reducible refine State.spiGood_keeps ?_
    | with_reducible refine Keeps.doAll ?_ (fun _ _ _ => ?_)
    | with_reducible refine Keeps.doIf ?_ (fun _ _ => ?_)
    | with_reducible refine Keeps.foldl ?_ (fun _ _ _ => ?_)
    | with_reducible refine Keeps.foldlFst ?_ (fun _ _ _ => ?_)
    | with_reducible refine Keeps.foldlSnd ?_ (fun _ _ _ => ?_)
    | with_reducible refine KeepsR.host ?_ (fun _ _ => ?_)

theorem execReadId_keeps {ρ : State} {s : State} (hk : Keeps ρ s) : KeepsR ρ (execReadId s) := by
  unfold execReadId
  repeat' first
    | with_reducible assumption
    | with_reducible refine KeepsR.next ?_
    | fail_if_no_progress with_reducible refine Keeps.mkK ?_
    | with_reducible refine State.spiSend_keeps ?_
    | with_reducible refine State.spiGood_keeps ?_
    | with_reducible refine Keeps.doAll ?_ (fun _ _ _ => ?_)
    | with_reducible refine Keeps.doIf ?_ (fun _ _ => ?_)
    | with_reducible refine Keeps.foldl ?_ (fun _ _ _ => ?_)
    | with_reducible refine Keeps.foldlFst ?_ (fun _ _ _ => ?_)
    | with_reducible refine Keeps.foldlSnd ?_ (fun _ _ _ => ?_)
    | with_reducible refine KeepsR.host ?_ (fun _ _ => ?_)

theorem execSpiUnknownOpcode_keeps {ρ : State} {op : Byte} {s : State} (hk : Keeps ρ s) : KeepsR ρ (execSpiUnknownOpcode op s) := by
  unfold execSpiUnknownOpcode
  repeat' first
    | with_reducible assumption
    | with_reducible refine KeepsR.next ?_
    | fail_if_no_progress with_reducible refine Keeps.mkK ?_
    | with_reducible refine State.response_keeps ?_ (fun _ _ _ _ _ => ?_)
    | with_reducible refine Keeps.doAll ?_ (fun _ _ _ => ?_)
    | with_reducible refine Keeps.doIf ?_ (fun _ _ => ?_)
    | with_reducible refine Keeps.foldl ?_ (fun _ _ _ => ?_)
    | with_reducible refine Keeps.foldlFst ?_ (fun _ _ _ => ?_)
    | with_reducible refine Keeps.foldlSnd ?_ (fun _ _ _ => ?_)
    | with_reducible refine KeepsR.host ?_ (fun _ _ => ?_)
    | (lift_lets; intro x; clear_value x)
    | with_reducible refine Keeps.ofSnd (by assumption) ?_
    | with_reducible refine Keeps.ofFst (by assumption) ?_
    | split

theorem State.dropPcie_keeps {ρ : State} {s : State} {m : Nat} (hk : Keeps ρ s) : Keeps ρ (State.dropPcie s m) := by
  unfold State.dropPcie
  repeat' first
    | with_reducible assumption
    | with_reducible refine KeepsR.next ?_
    | fail_if_no_progress with_reducible refine Keeps.mkK ?_
    | with_reducible refine State.modMbox_keeps ?_

theorem State.linkReset_keeps {ρ : State} {s : State} (hk : Keeps ρ s) : Keeps ρ (State.linkReset s) := by
  unfold State.linkReset
  repeat' first
    | with_reducible assumption
    | with_reducible refine KeepsR.next ?_
    | fail_if_no_progress with_reducible refine Keeps.mkK ?_
    | with_reducible refine State.setSheaf_keeps ?_
    | with_reducible refine State.raise_keeps ?_
    | with_reducible refine State.newHead_keeps ?_
    | with_reducible refine State.dropPcie_keeps ?_
    | with_reducible refine Keeps.doAll ?_ (fun _ _ _ => ?_)
    | with_reducible refine Keeps.doIf ?_ (fun _ _ => ?_)

theorem execD3hotEntry_keeps {ρ : State} {s : State} (hk : Keeps ρ s) : KeepsR ρ (execD3hotEntry s) := by
  unfold execD3hotEntry
  repeat' first
    | with_reducible assumption
    | with_reducible refine KeepsR.next ?_
    | fail_if_no_progress with_reducible refine Keeps.mkK ?_
    | with_reducible refine State.linkReset_keeps ?_
    | with_reducible refine Keeps.doAll ?_ (fun _ _ _ => ?_)
    | with_reducible refine Keeps.doIf ?_ (fun _ _ => ?_)

theorem execFunctionLevelReset_keeps {ρ : State} {s : State} (hk : Keeps ρ s) : KeepsR ρ (execFunctionLevelReset s) := by
  unfold execFunctionLevelReset
  repeat' first
    | with_reducible assumption
    | with_reducible refine KeepsR.next ?_
    | fail_if_no_progress with_reducible refine Keeps.mkK ?_
    | with_reducible refine State.linkReset_keeps ?_
    | with_reducible refine Keeps.doAll ?_ (fun _ _ _ => ?_)
    | with_reducible refine Keeps.doIf ?_ (fun _ _ => ?_)

theorem execHotReset_keeps {ρ : State} {s : State} (hk : Keeps ρ s) : KeepsR ρ (execHotReset s) := by
  unfold execHotReset
  repeat' first
    | with_reducible assumption
    | with_reducible refine KeepsR.next ?_
    | fail_if_no_progress with_reducible refine Keeps.mkK ?_
    | with_reducible refine State.linkReset_keeps ?_
    | with_reducible refine Keeps.doAll ?_ (fun _ _ _ => ?_)
    | with_reducible refine Keeps.doIf ?_ (fun _ _ => ?_)

theorem execLinkDown_keeps {ρ : State} {s : State} (hk : Keeps ρ s) : KeepsR ρ (execLinkDown s) := by
  unfold execLinkDown
  repeat' first
    | with_reducible assumption
    | with_reducible refine KeepsR.next ?_
    | fail_if_no_progress with_reducible refine Keeps.mkK ?_
    | with_reducible refine State.linkReset_keeps ?_
    | with_reducible refine Keeps.doAll ?_ (fun _ _ _ => ?_)
    | with_reducible refine Keeps.doIf ?_ (fun _ _ => ?_)

theorem execPcieLinkUp_keeps {ρ : State} {gen : Fin 4} {width : Fin 3} {s : State} (hk : Keeps ρ s) : KeepsR ρ (execPcieLinkUp gen width s) := by
  unfold execPcieLinkUp
  repeat' first
    | with_reducible assumption
    | with_reducible refine KeepsR.next ?_
    | fail_if_no_progress with_reducible refine Keeps.mkK ?_
    | with_reducible refine Keeps.doAll ?_ (fun _ _ _ => ?_)
    | with_reducible refine Keeps.doIf ?_ (fun _ _ => ?_)
    | with_reducible refine Keeps.foldl ?_ (fun _ _ _ => ?_)
    | with_reducible refine Keeps.foldlFst ?_ (fun _ _ _ => ?_)
    | with_reducible refine Keeps.foldlSnd ?_ (fun _ _ _ => ?_)
    | with_reducible refine KeepsR.host ?_ (fun _ _ => ?_)
    | (lift_lets; intro x; clear_value x)
    | with_reducible refine Keeps.ofSnd (by assumption) ?_
    | with_reducible refine Keeps.ofFst (by assumption) ?_
    | split

theorem execConfigurationSpaceWrite_keeps {ρ : State} {memory : Bool} {master : Bool} {msix : Bool} {leaveD3 : Bool} {s : State} (hk : Keeps ρ s) : KeepsR ρ (execConfigurationSpaceWrite memory master msix leaveD3 s) := by
  unfold execConfigurationSpaceWrite
  repeat' first
    | with_reducible assumption
    | with_reducible refine KeepsR.next ?_
    | fail_if_no_progress with_reducible refine Keeps.mkK ?_
    | with_reducible refine State.sendPending_keeps ?_
    | with_reducible refine Keeps.doAll ?_ (fun _ _ _ => ?_)
    | with_reducible refine Keeps.doIf ?_ (fun _ _ => ?_)

end Sys2Proof.Machine
end

