-- ==== Sys2Proof/Laws/KeepsCmds.lean ====
section
/-!
SUPPORT. The relation `Keeps` for the operations of Machine/Cmds.lean, Machine/Cal.lean, Machine/Fw.lean.
-/

namespace Sys2Proof.Machine

theorem execDevPing_keeps {ρ : State} {m : Fin 8} {s : State} (hk : Keeps ρ s) : KeepsR ρ (execDevPing m s) := by
  unfold execDevPing
  repeat' first
    | with_reducible assumption
    | with_reducible refine KeepsR.next ?_
    | fail_if_no_progress with_reducible refine Keeps.mkK ?_
    | with_reducible refine State.setOutcome_keeps ?_
    | with_reducible refine State.withCmd_keeps ?_ (fun _ _ _ => ?_)

theorem execDevInfo_keeps {ρ : State} {m : Fin 8} {s : State} (hk : Keeps ρ s) : KeepsR ρ (execDevInfo m s) := by
  unfold execDevInfo
  repeat' first
    | with_reducible assumption
    | with_reducible refine KeepsR.next ?_
    | fail_if_no_progress with_reducible refine Keeps.mkK ?_
    | with_reducible refine State.setOutcome_keeps ?_
    | with_reducible refine State.withCmd_keeps ?_ (fun _ _ _ => ?_)

theorem execDevReset_keeps {ρ : State} {m : Fin 8} {s : State} (hk : Keeps ρ s) : KeepsR ρ (execDevReset m s) := by
  unfold execDevReset
  repeat' first
    | with_reducible assumption
    | with_reducible refine KeepsR.next ?_
    | fail_if_no_progress with_reducible refine Keeps.mkK ?_
    | with_reducible refine State.outcome0_keeps ?_
    | with_reducible refine State.withCmd_keeps ?_ (fun _ _ _ => ?_)
    | with_reducible refine State.clearAttempts_keeps ?_
    | with_reducible refine Keeps.doAll ?_ (fun _ _ _ => ?_)
    | with_reducible refine Keeps.doIf ?_ (fun _ _ => ?_)
    | with_reducible refine Keeps.foldl ?_ (fun _ _ _ => ?_)
    | with_reducible refine Keeps.foldlFst ?_ (fun _ _ _ => ?_)
    | with_reducible refine Keeps.foldlSnd ?_ (fun _ _ _ => ?_)
    | with_reducible refine KeepsR.host ?_ (fun _ _ => ?_)
    | (lift_lets; intro x; refine Keeps.cut (r := ρ) (x := x) ?_ (fun hx => ?_); (on_goal 1 => dsimp only [x]); (on_goal 2 => clear_value x))
    | with_reducible refine Keeps.ofSnd (by assumption) ?_
    | with_reducible refine Keeps.ofFst (by assumption) ?_
    | split

theorem execDevFence_keeps {ρ : State} {m : Fin 8} {s : State} (hk : Keeps ρ s) : KeepsR ρ (execDevFence m s) := by
  unfold execDevFence
  repeat' first
    | with_reducible assumption
    | with_reducible refine KeepsR.next ?_
    | fail_if_no_progress with_reducible refine Keeps.mkK ?_
    | with_reducible refine State.withCmd_keeps ?_ (fun _ _ _ => ?_)
    | with_reducible refine State.buildSheaf_keeps ?_

theorem execDevStateWrite_keeps {ρ : State} {m : Fin 8} {s : State} (hk : Keeps ρ s) : KeepsR ρ (execDevStateWrite m s) := by
  unfold execDevStateWrite
  repeat' first
    | with_reducible assumption
    | with_reducible refine KeepsR.next ?_
    | fail_if_no_progress with_reducible refine Keeps.mkK ?_
    | with_reducible refine State.withCmd_keeps ?_ (fun _ _ _ => ?_)
    | with_reducible refine State.buildSheaf_keeps ?_

theorem execHeadCmd_keeps {ρ : State} {m : Fin 8} {s : State} (hk : Keeps ρ s) : KeepsR ρ (execHeadCmd m s) := by
  unfold execHeadCmd
  repeat' first
    | with_reducible assumption
    | with_reducible refine KeepsR.next ?_
    | fail_if_no_progress with_reducible refine Keeps.mkK ?_
    | with_reducible refine State.outcome0_keeps ?_
    | with_reducible refine State.withCmd_keeps ?_ (fun _ _ _ => ?_)
    | with_reducible refine State.beginHead_keeps ?_
    | with_reducible refine State.sendHeadCmd_keeps ?_
    | with_reducible refine Keeps.doAll ?_ (fun _ _ _ => ?_)
    | with_reducible refine Keeps.doIf ?_ (fun _ _ => ?_)
    | with_reducible refine Keeps.foldl ?_ (fun _ _ _ => ?_)
    | with_reducible refine Keeps.foldlFst ?_ (fun _ _ _ => ?_)
    | with_reducible refine Keeps.foldlSnd ?_ (fun _ _ _ => ?_)
    | with_reducible refine KeepsR.host ?_ (fun _ _ => ?_)
    | (lift_lets; intro x; clear_value x)
    | with_reducible refine Keeps.ofSnd (by assumption) ?_
    | with_reducible refine Keeps.ofFst (by assumption) ?_
    | split
    | dsimp only

theorem execMonDcs_keeps {ρ : State} {m : Fin 8} {s : State} (hk : Keeps ρ s) : KeepsR ρ (execMonDcs m s) := by
  unfold execMonDcs
  repeat' first
    | with_reducible assumption
    | with_reducible refine KeepsR.next ?_
    | fail_if_no_progress with_reducible refine Keeps.mkK ?_
    | with_reducible refine State.emit_keeps ?_
    | with_reducible refine State.setOutcome_keeps ?_
    | with_reducible refine State.outcome0_keeps ?_
    | with_reducible refine State.withCmd_keeps ?_ (fun _ _ _ => ?_)
    | with_reducible refine State.beginHead_keeps ?_
    | with_reducible refine Keeps.doAll ?_ (fun _ _ _ => ?_)
    | with_reducible refine Keeps.doIf ?_ (fun _ _ => ?_)
    | with_reducible refine Keeps.foldl ?_ (fun _ _ _ => ?_)
    | with_reducible refine Keeps.foldlFst ?_ (fun _ _ _ => ?_)
    | with_reducible refine Keeps.foldlSnd ?_ (fun _ _ _ => ?_)
    | with_reducible refine KeepsR.host ?_ (fun _ _ => ?_)
    | (lift_lets; intro x; clear_value x)
    | with_reducible refine Keeps.ofSnd (by assumption) ?_
    | with_reducible refine Keeps.ofFst (by assumption) ?_
    | split

theorem execDcsReadResponse_keeps {ρ : State} {dataType : Byte} {payload : List Byte} {s : State} (hk : Keeps ρ s) : KeepsR ρ (execDcsReadResponse dataType payload s) := by
  unfold execDcsReadResponse
  repeat' first
    | with_reducible assumption
    | with_reducible refine KeepsR.next ?_
    | fail_if_no_progress with_reducible refine Keeps.mkK ?_
    | with_reducible refine State.setOutcome_keeps ?_
    | with_reducible refine Keeps.doAll ?_ (fun _ _ _ => ?_)
    | with_reducible refine Keeps.doIf ?_ (fun _ _ => ?_)
    | with_reducible refine Keeps.foldl ?_ (fun _ _ _ => ?_)
    | with_reducible refine Keeps.foldlFst ?_ (fun _ _ _ => ?_)
    | with_reducible refine Keeps.foldlSnd ?_ (fun _ _ _ => ?_)
    | with_reducible refine KeepsR.host ?_ (fun _ _ => ?_)
    | (lift_lets; intro x; clear_value x)
    | with_reducible refine Keeps.ofSnd (by assumption) ?_
    | with_reducible refine Keeps.ofFst (by assumption) ?_
    | split

theorem execDcsResponseTimeout_keeps {ρ : State} {s : State} (hk : Keeps ρ s) : KeepsR ρ (execDcsResponseTimeout s) := by
  unfold execDcsResponseTimeout
  repeat' first
    | with_reducible assumption
    | with_reducible refine KeepsR.next ?_
    | fail_if_no_progress with_reducible refine Keeps.mkK ?_
    | with_reducible refine State.outcome0_keeps ?_
    | with_reducible refine Keeps.doAll ?_ (fun _ _ _ => ?_)
    | with_reducible refine Keeps.doIf ?_ (fun _ _ => ?_)
    | with_reducible refine Keeps.foldl ?_ (fun _ _ _ => ?_)
    | with_reducible refine Keeps.foldlFst ?_ (fun _ _ _ => ?_)
    | with_reducible refine Keeps.foldlSnd ?_ (fun _ _ _ => ?_)
    | with_reducible refine KeepsR.host ?_ (fun _ _ => ?_)
    | (lift_lets; intro x; clear_value x)
    | with_reducible refine Keeps.ofSnd (by assumption) ?_
    | with_reducible refine Keeps.ofFst (by assumption) ?_
    | split

theorem execLightFade_keeps {ρ : State} {m : Fin 8} {s : State} (hk : Keeps ρ s) : KeepsR ρ (execLightFade m s) := by
  unfold execLightFade
  repeat' first
    | with_reducible assumption
    | with_reducible refine KeepsR.next ?_
    | fail_if_no_progress with_reducible refine Keeps.mkK ?_
    | with_reducible refine State.outcome0_keeps ?_
    | with_reducible refine State.withCmd_keeps ?_ (fun _ _ _ => ?_)
    | with_reducible refine State.buildSheaf_keeps ?_
    | with_reducible refine Keeps.doAll ?_ (fun _ _ _ => ?_)
    | with_reducible refine Keeps.doIf ?_ (fun _ _ => ?_)
    | with_reducible refine Keeps.foldl ?_ (fun _ _ _ => ?_)
    | with_reducible refine Keeps.foldlFst ?_ (fun _ _ _ => ?_)
    | with_reducible refine Keeps.foldlSnd ?_ (fun _ _ _ => ?_)
    | with_reducible refine KeepsR.host ?_ (fun _ _ => ?_)
    | (lift_lets; intro x; clear_value x)
    | with_reducible refine Keeps.ofSnd (by assumption) ?_
    | with_reducible refine Keeps.ofFst (by assumption) ?_
    | split

theorem State.beginWith_keeps {ρ : State} {s : State} {m : Nat} {args : List Word} (hk : Keeps ρ s) : Keeps ρ (State.beginWith s m args) := by
  unfold State.beginWith
  repeat' first
    | with_reducible assumption
    | with_reducible refine KeepsR.next ?_
    | fail_if_no_progress with_reducible refine Keeps.mkK ?_
    | with_reducible refine State.modHead_keeps ?_

theorem execLightClearFault_keeps {ρ : State} {m : Fin 8} {s : State} (hk : Keeps ρ s) : KeepsR ρ (execLightClearFault m s) := by
  unfold execLightClearFault
  repeat' first
    | with_reducible assumption
    | with_reducible refine KeepsR.next ?_
    | fail_if_no_progress with_reducible refine Keeps.mkK ?_
    | with_reducible refine State.setOutcome_keeps ?_
    | with_reducible refine State.withCmd_keeps ?_ (fun _ _ _ => ?_)
    | with_reducible refine State.strClear_keeps ?_
    | with_reducible refine State.beginWith_keeps ?_
    | with_reducible refine Keeps.doAll ?_ (fun _ _ _ => ?_)
    | with_reducible refine Keeps.doIf ?_ (fun _ _ => ?_)
    | with_reducible refine Keeps.foldl ?_ (fun _ _ _ => ?_)
    | with_reducible refine Keeps.foldlFst ?_ (fun _ _ _ => ?_)
    | with_reducible refine Keeps.foldlSnd ?_ (fun _ _ _ => ?_)
    | with_reducible refine KeepsR.host ?_ (fun _ _ => ?_)
    | (lift_lets; intro x; clear_value x)
    | with_reducible refine Keeps.ofSnd (by assumption) ?_
    | with_reducible refine Keeps.ofFst (by assumption) ?_
    | split

theorem execLightRearm_keeps {ρ : State} {m : Fin 8} {s : State} (hk : Keeps ρ s) : KeepsR ρ (execLightRearm m s) := by
  unfold execLightRearm
  repeat' first
    | with_reducible assumption
    | with_reducible refine KeepsR.next ?_
    | fail_if_no_progress with_reducible refine Keeps.mkK ?_
    | with_reducible refine State.setOutcome_keeps ?_
    | with_reducible refine State.outcome0_keeps ?_
    | with_reducible refine State.withCmd_keeps ?_ (fun _ _ _ => ?_)
    | with_reducible refine State.rearm_keeps ?_
    | with_reducible refine Keeps.doAll ?_ (fun _ _ _ => ?_)
    | with_reducible refine Keeps.doIf ?_ (fun _ _ => ?_)
    | with_reducible refine Keeps.foldl ?_ (fun _ _ _ => ?_)
    | with_reducible refine Keeps.foldlFst ?_ (fun _ _ _ => ?_)
    | with_reducible refine Keeps.foldlSnd ?_ (fun _ _ _ => ?_)
    | with_reducible refine KeepsR.host ?_ (fun _ _ => ?_)
    | (lift_lets; intro x; clear_value x)
    | with_reducible refine Keeps.ofSnd (by assumption) ?_
    | with_reducible refine Keeps.ofFst (by assumption) ?_
    | split

theorem execZnClearFault_keeps {ρ : State} {m : Fin 8} {s : State} (hk : Keeps ρ s) : KeepsR ρ (execZnClearFault m s) := by
  unfold execZnClearFault
  repeat' first
    | with_reducible assumption
    | with_reducible refine KeepsR.next ?_
    | fail_if_no_progress with_reducible refine Keeps.mkK ?_
    | with_reducible refine State.setOutcome_keeps ?_
    | with_reducible refine State.outcome0_keeps ?_
    | with_reducible refine State.withCmd_keeps ?_ (fun _ _ _ => ?_)
    | with_reducible refine State.zonesClear_keeps ?_
    | with_reducible refine State.beginWith_keeps ?_
    | with_reducible refine Keeps.doAll ?_ (fun _ _ _ => ?_)
    | with_reducible refine Keeps.doIf ?_ (fun _ _ => ?_)
    | with_reducible refine Keeps.foldl ?_ (fun _ _ _ => ?_)
    | with_reducible refine Keeps.foldlFst ?_ (fun _ _ _ => ?_)
    | with_reducible refine Keeps.foldlSnd ?_ (fun _ _ _ => ?_)
    | with_reducible refine KeepsR.host ?_ (fun _ _ => ?_)
    | (lift_lets; intro x; clear_value x)
    | with_reducible refine Keeps.ofSnd (by assumption) ?_
    | with_reducible refine Keeps.ofFst (by assumption) ?_
    | split

theorem State.clearsDone_keeps {ρ : State} {s : State} (hk : Keeps ρ s) : Keeps ρ (State.clearsDone s) := by
  unfold State.clearsDone
  repeat' first
    | with_reducible assumption
    | with_reducible refine KeepsR.next ?_
    | fail_if_no_progress with_reducible refine Keeps.mkK ?_
    | with_reducible refine State.setOutcome_keeps ?_
    | with_reducible refine Keeps.doAll ?_ (fun _ _ _ => ?_)
    | with_reducible refine Keeps.doIf ?_ (fun _ _ => ?_)
    | with_reducible refine Keeps.foldl ?_ (fun _ _ _ => ?_)
    | with_reducible refine Keeps.foldlFst ?_ (fun _ _ _ => ?_)
    | with_reducible refine Keeps.foldlSnd ?_ (fun _ _ _ => ?_)
    | with_reducible refine KeepsR.host ?_ (fun _ _ => ?_)
    | with_reducible refine Keeps.ofSnd (by assumption) ?_
    | with_reducible refine Keeps.ofFst (by assumption) ?_
    | split

theorem State.rangeArg_keeps {ρ : State} {s : State} {m : Nat} {r : Nat} {addr : Option Nat} {n : Nat} {f : State → Nat → State} (hk : Keeps ρ s) (hkf : ∀ x0 x1, Keeps ρ x0 → Keeps ρ (f x0 x1)) : Keeps ρ (State.rangeArg s m r addr n f) := by
  unfold State.rangeArg
  repeat' first
    | with_reducible assumption
    | with_reducible refine KeepsR.next ?_
    | fail_if_no_progress with_reducible refine Keeps.mkK ?_
    | with_reducible refine State.outcome0_keeps ?_
    | with_reducible refine State.outOfRange_keeps ?_
    | with_reducible refine State.wake_keeps ?_
    | with_reducible refine hkf _ _ ?_
    | with_reducible refine Keeps.doAll ?_ (fun _ _ _ => ?_)
    | with_reducible refine Keeps.doIf ?_ (fun _ _ => ?_)
    | with_reducible refine Keeps.foldl ?_ (fun _ _ _ => ?_)
    | with_reducible refine Keeps.foldlFst ?_ (fun _ _ _ => ?_)
    | with_reducible refine Keeps.foldlSnd ?_ (fun _ _ _ => ?_)
    | with_reducible refine KeepsR.host ?_ (fun _ _ => ?_)
    | with_reducible refine Keeps.ofSnd (by assumption) ?_
    | with_reducible refine Keeps.ofFst (by assumption) ?_
    | split

theorem execCeCaptureRead_keeps {ρ : State} {m : Fin 8} {s : State} (hk : Keeps ρ s) : KeepsR ρ (execCeCaptureRead m s) := by
  unfold execCeCaptureRead
  repeat' first
    | with_reducible assumption
    | with_reducible refine KeepsR.next ?_
    | fail_if_no_progress with_reducible refine Keeps.mkK ?_
    | with_reducible refine State.setOutcome_keeps ?_
    | with_reducible refine State.outcome0_keeps ?_
    | with_reducible refine State.withCmd_keeps ?_ (fun _ _ _ => ?_)
    | with_reducible refine State.writeBy_keeps ?_
    | with_reducible refine State.rangeArg_keeps ?_ (fun _ _ _ => ?_)
    | with_reducible refine Keeps.doAll ?_ (fun _ _ _ => ?_)
    | with_reducible refine Keeps.doIf ?_ (fun _ _ => ?_)
    | with_reducible refine Keeps.foldl ?_ (fun _ _ _ => ?_)
    | with_reducible refine Keeps.foldlFst ?_ (fun _ _ _ => ?_)
    | with_reducible refine Keeps.foldlSnd ?_ (fun _ _ _ => ?_)
    | with_reducible refine KeepsR.host ?_ (fun _ _ => ?_)
    | with_reducible refine Keeps.ofSnd (by assumption) ?_
    | with_reducible refine Keeps.ofFst (by assumption) ?_
    | split

theorem State.dmaIn_keeps {ρ : State} {s : State} {m : Nat} {c : MbCmd} {a : Nat} {k : Nat} {host : List Byte} {ok : Bool} (hk : Keeps ρ s) : Keeps ρ (State.dmaIn s m c a k host ok) := by
  unfold State.dmaIn
  repeat' first
    | with_reducible assumption
    | with_reducible refine KeepsR.next ?_
    | fail_if_no_progress with_reducible refine Keeps.mkK ?_
    | with_reducible refine State.setOutcome_keeps ?_
    | with_reducible refine State.moved_keeps ?_
    | with_reducible refine State.writeBy_keeps ?_
    | with_reducible refine Keeps.doAll ?_ (fun _ _ _ => ?_)
    | with_reducible refine Keeps.doIf ?_ (fun _ _ => ?_)
    | with_reducible refine Keeps.foldl ?_ (fun _ _ _ => ?_)
    | with_reducible refine Keeps.foldlFst ?_ (fun _ _ _ => ?_)
    | with_reducible refine Keeps.foldlSnd ?_ (fun _ _ _ => ?_)
    | with_reducible refine KeepsR.host ?_ (fun _ _ => ?_)
    | (lift_lets; intro x; clear_value x)
    | with_reducible refine Keeps.ofSnd (by assumption) ?_
    | with_reducible refine Keeps.ofFst (by assumption) ?_
    | split
    | dsimp only

theorem State.dmaOut_keeps {ρ : State} {s : State} {m : Nat} {c : MbCmd} {a : Nat} {k : Nat} {host : Nat} (hk : Keeps ρ s) : Keeps ρ (State.dmaOut s m c a k host) := by
  unfold State.dmaOut
  repeat' first
    | with_reducible assumption
    | with_reducible refine KeepsR.next ?_
    | fail_if_no_progress with_reducible refine Keeps.mkK ?_
    | with_reducible refine State.emit_keeps ?_
    | with_reducible refine State.setOutcome_keeps ?_
    | with_reducible refine State.moved_keeps ?_
    | with_reducible refine State.hostPoison_keeps ?_
    | with_reducible refine Keeps.doAll ?_ (fun _ _ _ => ?_)
    | with_reducible refine Keeps.doIf ?_ (fun _ _ => ?_)
    | with_reducible refine Keeps.foldl ?_ (fun _ _ _ => ?_)
    | with_reducible refine Keeps.foldlFst ?_ (fun _ _ _ => ?_)
    | with_reducible refine Keeps.foldlSnd ?_ (fun _ _ _ => ?_)
    | with_reducible refine KeepsR.host ?_ (fun _ _ => ?_)
    | (lift_lets; intro x; refine Keeps.cut (r := ρ) (x := x) ?_ (fun hx => ?_); (on_goal 1 => dsimp only [x]); (on_goal 2 => clear_value x))
    | with_reducible refine Keeps.ofSnd (by assumption) ?_
    | with_reducible refine Keeps.ofFst (by assumption) ?_
    | split

theorem execMemDma_keeps {ρ : State} {m : Fin 8} {n : Nat} {host : List Byte} {hostOk : Bool} {s : State} (hk : Keeps ρ s) : KeepsR ρ (execMemDma m n host hostOk s) := by
  unfold execMemDma
  repeat' first
    | with_reducible assumption
    | with_reducible refine KeepsR.next ?_
    | fail_if_no_progress with_reducible refine Keeps.mkK ?_
    | with_reducible refine State.setOutcome_keeps ?_
    | with_reducible refine State.outcome0_keeps ?_
    | with_reducible refine State.workOn_keeps ?_ (fun _ _ _ => ?_)
    | with_reducible refine State.rangeArg_keeps ?_ (fun _ _ _ => ?_)
    | with_reducible refine State.dmaIn_keeps ?_
    | with_reducible refine State.dmaOut_keeps ?_
    | with_reducible refine Keeps.doAll ?_ (fun _ _ _ => ?_)
    | with_reducible refine Keeps.doIf ?_ (fun _ _ => ?_)
    | with_reducible refine Keeps.foldl ?_ (fun _ _ _ => ?_)
    | with_reducible refine Keeps.foldlFst ?_ (fun _ _ _ => ?_)
    | with_reducible refine Keeps.foldlSnd ?_ (fun _ _ _ => ?_)
    | with_reducible refine KeepsR.host ?_ (fun _ _ => ?_)
    | (lift_lets; intro x; clear_value x)
    | with_reducible refine Keeps.ofSnd (by assumption) ?_
    | with_reducible refine Keeps.ofFst (by assumption) ?_
    | split

theorem execMemFill_keeps {ρ : State} {m : Fin 8} {n : Nat} {s : State} (hk : Keeps ρ s) : KeepsR ρ (execMemFill m n s) := by
  unfold execMemFill
  repeat' first
    | with_reducible assumption
    | with_reducible refine KeepsR.next ?_
    | fail_if_no_progress with_reducible refine Keeps.mkK ?_
    | with_reducible refine State.setOutcome_keeps ?_
    | with_reducible refine State.workOn_keeps ?_ (fun _ _ _ => ?_)
    | with_reducible refine State.moved_keeps ?_
    | with_reducible refine State.writeBy_keeps ?_
    | with_reducible refine State.rangeArg_keeps ?_ (fun _ _ _ => ?_)
    | with_reducible refine Keeps.doAll ?_ (fun _ _ _ => ?_)
    | with_reducible refine Keeps.doIf ?_ (fun _ _ => ?_)
    | with_reducible refine Keeps.foldl ?_ (fun _ _ _ => ?_)
    | with_reducible refine Keeps.foldlFst ?_ (fun _ _ _ => ?_)
    | with_reducible refine Keeps.foldlSnd ?_ (fun _ _ _ => ?_)
    | with_reducible refine KeepsR.host ?_ (fun _ _ => ?_)
    | (lift_lets; intro x; clear_value x)
    | with_reducible refine Keeps.ofSnd (by assumption) ?_
    | with_reducible refine Keeps.ofFst (by assumption) ?_
    | split

theorem execMemSpare_keeps {ρ : State} {m : Fin 8} {s : State} (hk : Keeps ρ s) : KeepsR ρ (execMemSpare m s) := by
  unfold execMemSpare
  repeat' first
    | with_reducible assumption
    | with_reducible refine KeepsR.next ?_
    | fail_if_no_progress with_reducible refine Keeps.mkK ?_
    | with_reducible refine State.outcome0_keeps ?_
    | with_reducible refine State.withCmd_keeps ?_ (fun _ _ _ => ?_)
    | with_reducible refine State.wake_keeps ?_
    | with_reducible refine State.ownWrite_keeps ?_
    | with_reducible refine State.startMigration_keeps ?_
    | with_reducible refine Keeps.doAll ?_ (fun _ _ _ => ?_)
    | with_reducible refine Keeps.doIf ?_ (fun _ _ => ?_)
    | with_reducible refine Keeps.foldl ?_ (fun _ _ _ => ?_)
    | with_reducible refine Keeps.foldlFst ?_ (fun _ _ _ => ?_)
    | with_reducible refine Keeps.foldlSnd ?_ (fun _ _ _ => ?_)
    | with_reducible refine KeepsR.host ?_ (fun _ _ => ?_)
    | (lift_lets; intro x; clear_value x)
    | with_reducible refine Keeps.ofSnd (by assumption) ?_
    | with_reducible refine Keeps.ofFst (by assumption) ?_
    | split
    | dsimp only

theorem execMemSelfRefresh_keeps {ρ : State} {m : Fin 8} {s : State} (hk : Keeps ρ s) : KeepsR ρ (execMemSelfRefresh m s) := by
  unfold execMemSelfRefresh
  repeat' first
    | with_reducible assumption
    | with_reducible refine KeepsR.next ?_
    | fail_if_no_progress with_reducible refine Keeps.mkK ?_
    | with_reducible refine State.outcome0_keeps ?_
    | with_reducible refine State.withCmd_keeps ?_ (fun _ _ _ => ?_)
    | with_reducible refine State.sleep_keeps ?_
    | with_reducible refine Keeps.doAll ?_ (fun _ _ _ => ?_)
    | with_reducible refine Keeps.doIf ?_ (fun _ _ => ?_)
    | with_reducible refine Keeps.foldl ?_ (fun _ _ _ => ?_)
    | with_reducible refine Keeps.foldlFst ?_ (fun _ _ _ => ?_)
    | with_reducible refine Keeps.foldlSnd ?_ (fun _ _ _ => ?_)
    | with_reducible refine KeepsR.host ?_ (fun _ _ => ?_)
    | with_reducible refine Keeps.ofSnd (by assumption) ?_
    | with_reducible refine Keeps.ofFst (by assumption) ?_
    | split

theorem execMemErrlog_keeps {ρ : State} {m : Fin 8} {s : State} (hk : Keeps ρ s) : KeepsR ρ (execMemErrlog m s) := by
  unfold execMemErrlog
  repeat' first
    | with_reducible assumption
    | with_reducible refine KeepsR.next ?_
    | fail_if_no_progress with_reducible refine Keeps.mkK ?_
    | with_reducible refine State.setOutcome_keeps ?_
    | with_reducible refine State.outcome0_keeps ?_
    | with_reducible refine State.withCmd_keeps ?_ (fun _ _ _ => ?_)
    | with_reducible refine Keeps.doAll ?_ (fun _ _ _ => ?_)
    | with_reducible refine Keeps.doIf ?_ (fun _ _ => ?_)
    | with_reducible refine Keeps.foldl ?_ (fun _ _ _ => ?_)
    | with_reducible refine Keeps.foldlFst ?_ (fun _ _ _ => ?_)
    | with_reducible refine Keeps.foldlSnd ?_ (fun _ _ _ => ?_)
    | with_reducible refine KeepsR.host ?_ (fun _ _ => ?_)
    | (lift_lets; intro x; clear_value x)
    | with_reducible refine Keeps.ofSnd (by assumption) ?_
    | with_reducible refine Keeps.ofFst (by assumption) ?_
    | split

theorem execTestEvent_keeps {ρ : State} {m : Fin 8} {s : State} (hk : Keeps ρ s) : KeepsR ρ (execTestEvent m s) := by
  unfold execTestEvent
  repeat' first
    | with_reducible assumption
    | with_reducible refine KeepsR.next ?_
    | fail_if_no_progress with_reducible refine Keeps.mkK ?_
    | with_reducible refine State.raiseData_keeps ?_
    | with_reducible refine State.outcome0_keeps ?_
    | with_reducible refine State.withCmd_keeps ?_ (fun _ _ _ => ?_)
    | with_reducible refine Keeps.doAll ?_ (fun _ _ _ => ?_)
    | with_reducible refine Keeps.doIf ?_ (fun _ _ => ?_)
    | with_reducible refine Keeps.foldl ?_ (fun _ _ _ => ?_)
    | with_reducible refine Keeps.foldlFst ?_ (fun _ _ _ => ?_)
    | with_reducible refine Keeps.foldlSnd ?_ (fun _ _ _ => ?_)
    | with_reducible refine KeepsR.host ?_ (fun _ _ => ?_)
    | with_reducible refine Keeps.ofSnd (by assumption) ?_
    | with_reducible refine Keeps.ofFst (by assumption) ?_
    | split

theorem execIdRead_keeps {ρ : State} {m : Fin 8} {s : State} (hk : Keeps ρ s) : KeepsR ρ (execIdRead m s) := by
  unfold execIdRead
  repeat' first
    | with_reducible assumption
    | with_reducible refine KeepsR.next ?_
    | fail_if_no_progress with_reducible refine Keeps.mkK ?_
    | with_reducible refine State.setOutcome_keeps ?_
    | with_reducible refine State.outcome0_keeps ?_
    | with_reducible refine State.withCmd_keeps ?_ (fun _ _ _ => ?_)
    | with_reducible refine Keeps.doAll ?_ (fun _ _ _ => ?_)
    | with_reducible refine Keeps.doIf ?_ (fun _ _ => ?_)
    | with_reducible refine Keeps.foldl ?_ (fun _ _ _ => ?_)
    | with_reducible refine Keeps.foldlFst ?_ (fun _ _ _ => ?_)
    | with_reducible refine Keeps.foldlSnd ?_ (fun _ _ _ => ?_)
    | with_reducible refine KeepsR.host ?_ (fun _ _ => ?_)
    | with_reducible refine Keeps.ofSnd (by assumption) ?_
    | with_reducible refine Keeps.ofFst (by assumption) ?_
    | split

theorem execIdCert_keeps {ρ : State} {m : Fin 8} {s : State} (hk : Keeps ρ s) : KeepsR ρ (execIdCert m s) := by
  unfold execIdCert
  repeat' first
    | with_reducible assumption
    | with_reducible refine KeepsR.next ?_
    | fail_if_no_progress with_reducible refine Keeps.mkK ?_
    | with_reducible refine State.raise_keeps ?_
    | with_reducible refine State.setOutcome_keeps ?_
    | with_reducible refine State.outcome0_keeps ?_
    | with_reducible refine State.withCmd_keeps ?_ (fun _ _ _ => ?_)
    | with_reducible refine State.writeBy_keeps ?_
    | with_reducible refine State.rangeArg_keeps ?_ (fun _ _ _ => ?_)
    | with_reducible refine Keeps.doAll ?_ (fun _ _ _ => ?_)
    | with_reducible refine Keeps.doIf ?_ (fun _ _ => ?_)
    | with_reducible refine Keeps.foldl ?_ (fun _ _ _ => ?_)
    | with_reducible refine Keeps.foldlFst ?_ (fun _ _ _ => ?_)
    | with_reducible refine Keeps.foldlSnd ?_ (fun _ _ _ => ?_)
    | with_reducible refine KeepsR.host ?_ (fun _ _ => ?_)
    | with_reducible refine Keeps.ofSnd (by assumption) ?_
    | with_reducible refine Keeps.ofFst (by assumption) ?_
    | split

theorem execIdAttest_keeps {ρ : State} {m : Fin 8} {s : State} (hk : Keeps ρ s) : KeepsR ρ (execIdAttest m s) := by
  unfold execIdAttest
  repeat' first
    | with_reducible assumption
    | with_reducible refine KeepsR.next ?_
    | fail_if_no_progress with_reducible refine Keeps.mkK ?_
    | with_reducible refine State.raise_keeps ?_
    | with_reducible refine State.setOutcome_keeps ?_
    | with_reducible refine State.outcome0_keeps ?_
    | with_reducible refine State.withCmd_keeps ?_ (fun _ _ _ => ?_)
    | with_reducible refine State.writeBy_keeps ?_
    | with_reducible refine State.rangeArg_keeps ?_ (fun _ _ _ => ?_)
    | with_reducible refine Keeps.doAll ?_ (fun _ _ _ => ?_)
    | with_reducible refine Keeps.doIf ?_ (fun _ _ => ?_)
    | with_reducible refine Keeps.foldl ?_ (fun _ _ _ => ?_)
    | with_reducible refine Keeps.foldlFst ?_ (fun _ _ _ => ?_)
    | with_reducible refine Keeps.foldlSnd ?_ (fun _ _ _ => ?_)
    | with_reducible refine KeepsR.host ?_ (fun _ _ => ?_)
    | (lift_lets; intro x; clear_value x)
    | with_reducible refine Keeps.ofSnd (by assumption) ?_
    | with_reducible refine Keeps.ofFst (by assumption) ?_
    | split

theorem execCalRun_keeps {ρ : State} {m : Fin 8} {measures : List CalMeasure} {s : State} (hk : Keeps ρ s) : KeepsR ρ (execCalRun m measures s) := by
  unfold execCalRun
  repeat' first
    | with_reducible assumption
    | with_reducible refine KeepsR.next ?_
    | fail_if_no_progress with_reducible refine Keeps.mkK ?_
    | with_reducible refine State.setOutcome_keeps ?_
    | with_reducible refine State.outcome0_keeps ?_
    | with_reducible refine State.workOn_keeps ?_ (fun _ _ _ => ?_)
    | with_reducible refine State.beginHead_keeps ?_
    | with_reducible refine State.calStart_keeps ?_
    | with_reducible refine State.calGo_keeps ?_
    | with_reducible refine Keeps.doAll ?_ (fun _ _ _ => ?_)
    | with_reducible refine Keeps.doIf ?_ (fun _ _ => ?_)
    | with_reducible refine Keeps.foldl ?_ (fun _ _ _ => ?_)
    | with_reducible refine Keeps.foldlFst ?_ (fun _ _ _ => ?_)
    | with_reducible refine Keeps.foldlSnd ?_ (fun _ _ _ => ?_)
    | with_reducible refine KeepsR.host ?_ (fun _ _ => ?_)
    | (lift_lets; intro x; clear_value x)
    | with_reducible refine Keeps.ofSnd (by assumption) ?_
    | with_reducible refine Keeps.ofFst (by assumption) ?_
    | split
    | dsimp only

theorem execCalRead_keeps {ρ : State} {m : Fin 8} {s : State} (hk : Keeps ρ s) : KeepsR ρ (execCalRead m s) := by
  unfold execCalRead
  repeat' first
    | with_reducible assumption
    | with_reducible refine KeepsR.next ?_
    | fail_if_no_progress with_reducible refine Keeps.mkK ?_
    | with_reducible refine State.setOutcome_keeps ?_
    | with_reducible refine State.outcome0_keeps ?_
    | with_reducible refine State.withCmd_keeps ?_ (fun _ _ _ => ?_)
    | with_reducible refine Keeps.doAll ?_ (fun _ _ _ => ?_)
    | with_reducible refine Keeps.doIf ?_ (fun _ _ => ?_)
    | with_reducible refine Keeps.foldl ?_ (fun _ _ _ => ?_)
    | with_reducible refine Keeps.foldlFst ?_ (fun _ _ _ => ?_)
    | with_reducible refine Keeps.foldlSnd ?_ (fun _ _ _ => ?_)
    | with_reducible refine KeepsR.host ?_ (fun _ _ => ?_)
    | (lift_lets; intro x; clear_value x)
    | with_reducible refine Keeps.ofSnd (by assumption) ?_
    | with_reducible refine Keeps.ofFst (by assumption) ?_
    | split
    | dsimp only

theorem execEdgeTrack_keeps {ρ : State} {unit : Fin 37} {measure : CalMeasure} {s : State} (hk : Keeps ρ s) : KeepsR ρ (execEdgeTrack unit measure s) := by
  unfold execEdgeTrack
  repeat' first
    | with_reducible assumption
    | with_reducible refine KeepsR.next ?_
    | fail_if_no_progress with_reducible refine Keeps.mkK ?_
    | with_reducible refine Keeps.doAll ?_ (fun _ _ _ => ?_)
    | with_reducible refine Keeps.doIf ?_ (fun _ _ => ?_)
    | with_reducible refine Keeps.foldl ?_ (fun _ _ _ => ?_)
    | with_reducible refine Keeps.foldlFst ?_ (fun _ _ _ => ?_)
    | with_reducible refine Keeps.foldlSnd ?_ (fun _ _ _ => ?_)
    | with_reducible refine KeepsR.host ?_ (fun _ _ => ?_)
    | with_reducible refine Keeps.ofSnd (by assumption) ?_
    | with_reducible refine Keeps.ofFst (by assumption) ?_
    | split

theorem execEdgeTrackSwitch_keeps {ρ : State} {unit : Fin 37} {s : State} (hk : Keeps ρ s) : KeepsR ρ (execEdgeTrackSwitch unit s) := by
  unfold execEdgeTrackSwitch
  repeat' first
    | with_reducible assumption
    | with_reducible refine KeepsR.next ?_
    | fail_if_no_progress with_reducible refine Keeps.mkK ?_
    | with_reducible refine State.setFld_keeps ?_
    | with_reducible refine Keeps.doAll ?_ (fun _ _ _ => ?_)
    | with_reducible refine Keeps.doIf ?_ (fun _ _ => ?_)
    | with_reducible refine Keeps.foldl ?_ (fun _ _ _ => ?_)
    | with_reducible refine Keeps.foldlFst ?_ (fun _ _ _ => ?_)
    | with_reducible refine Keeps.foldlSnd ?_ (fun _ _ _ => ?_)
    | with_reducible refine KeepsR.host ?_ (fun _ _ => ?_)
    | (lift_lets; intro x; clear_value x)
    | with_reducible refine Keeps.ofSnd (by assumption) ?_
    | with_reducible refine Keeps.ofFst (by assumption) ?_
    | split
    | dsimp only

theorem State.stageImage_keeps {ρ : State} {s : State} {m : Nat} {n : Nat} (hk : Keeps ρ s) : Keeps ρ (State.stageImage s m n) := by
  unfold State.stageImage
  repeat' first
    | with_reducible assumption
    | with_reducible refine KeepsR.next ?_
    | fail_if_no_progress with_reducible refine Keeps.mkK ?_
    | with_reducible refine State.setFld_keeps ?_
    | with_reducible refine State.setOutcome_keeps ?_
    | with_reducible refine State.outcome0_keeps ?_
    | with_reducible refine State.unstage_keeps ?_
    | with_reducible refine Keeps.doAll ?_ (fun _ _ _ => ?_)
    | with_reducible refine Keeps.doIf ?_ (fun _ _ => ?_)
    | with_reducible refine Keeps.foldl ?_ (fun _ _ _ => ?_)
    | with_reducible refine Keeps.foldlFst ?_ (fun _ _ _ => ?_)
    | with_reducible refine Keeps.foldlSnd ?_ (fun _ _ _ => ?_)
    | with_reducible refine KeepsR.host ?_ (fun _ _ => ?_)
    | (lift_lets; intro x; clear_value x)
    | with_reducible refine Keeps.ofSnd (by assumption) ?_
    | with_reducible refine Keeps.ofFst (by assumption) ?_
    | split
    | dsimp only

theorem execFwStage_keeps {ρ : State} {m : Fin 8} {s : State} (hk : Keeps ρ s) : KeepsR ρ (execFwStage m s) := by
  unfold execFwStage
  repeat' first
    | with_reducible assumption
    | with_reducible refine KeepsR.next ?_
    | fail_if_no_progress with_reducible refine Keeps.mkK ?_
    | with_reducible refine State.outcome0_keeps ?_
    | with_reducible refine State.withCmd_keeps ?_ (fun _ _ _ => ?_)
    | with_reducible refine State.outOfRange_keeps ?_
    | with_reducible refine State.wake_keeps ?_
    | with_reducible refine State.writeBy_keeps ?_
    | with_reducible refine State.stageImage_keeps ?_
    | with_reducible refine Keeps.doAll ?_ (fun _ _ _ => ?_)
    | with_reducible refine Keeps.doIf ?_ (fun _ _ => ?_)
    | with_reducible refine Keeps.foldl ?_ (fun _ _ _ => ?_)
    | with_reducible refine Keeps.foldlFst ?_ (fun _ _ _ => ?_)
    | with_reducible refine Keeps.foldlSnd ?_ (fun _ _ _ => ?_)
    | with_reducible refine KeepsR.host ?_ (fun _ _ => ?_)
    | (lift_lets; intro x; clear_value x)
    | with_reducible refine Keeps.ofSnd (by assumption) ?_
    | with_reducible refine Keeps.ofFst (by assumption) ?_
    | split
    | dsimp only

theorem State.switchIn_keeps {ρ : State} {s : State} {c : Nat} (hk : Keeps ρ s) : Keeps ρ (State.switchIn s c) := by
  unfold State.switchIn
  repeat' first
    | with_reducible assumption
    | with_reducible refine KeepsR.next ?_
    | fail_if_no_progress with_reducible refine Keeps.mkK ?_
    | with_reducible refine Keeps.doAll ?_ (fun _ _ _ => ?_)
    | with_reducible refine Keeps.doIf ?_ (fun _ _ => ?_)
    | with_reducible refine Keeps.foldl ?_ (fun _ _ _ => ?_)
    | with_reducible refine Keeps.foldlFst ?_ (fun _ _ _ => ?_)
    | with_reducible refine Keeps.foldlSnd ?_ (fun _ _ _ => ?_)
    | with_reducible refine KeepsR.host ?_ (fun _ _ => ?_)
    | (lift_lets; intro x; clear_value x)
    | with_reducible refine Keeps.ofSnd (by assumption) ?_
    | with_reducible refine Keeps.ofFst (by assumption) ?_
    | split

theorem State.switchBack_keeps {ρ : State} {s : State} {c : Nat} (hk : Keeps ρ s) : Keeps ρ (State.switchBack s c) := by
  unfold State.switchBack
  repeat' first
    | with_reducible assumption
    | with_reducible refine KeepsR.next ?_
    | fail_if_no_progress with_reducible refine Keeps.mkK ?_
    | with_reducible refine Keeps.doAll ?_ (fun _ _ _ => ?_)
    | with_reducible refine Keeps.doIf ?_ (fun _ _ => ?_)
    | with_reducible refine Keeps.foldl ?_ (fun _ _ _ => ?_)
    | with_reducible refine Keeps.foldlFst ?_ (fun _ _ _ => ?_)
    | with_reducible refine Keeps.foldlSnd ?_ (fun _ _ _ => ?_)
    | with_reducible refine KeepsR.host ?_ (fun _ _ => ?_)
    | (lift_lets; intro x; clear_value x)
    | with_reducible refine Keeps.ofSnd (by assumption) ?_
    | with_reducible refine Keeps.ofFst (by assumption) ?_
    | split

theorem State.applied_keeps {ρ : State} {s : State} {m : Nat} {c : Nat} (hk : Keeps ρ s) : Keeps ρ (State.applied s m c) := by
  unfold State.applied
  repeat' first
    | with_reducible assumption
    | with_reducible refine KeepsR.next ?_
    | fail_if_no_progress with_reducible refine Keeps.mkK ?_
    | with_reducible refine State.setFld_keeps ?_
    | with_reducible refine State.raise_keeps ?_
    | with_reducible refine State.setOutcome_keeps ?_
    | with_reducible refine State.restPhase_keeps ?_

theorem State.atticBack_keeps {ρ : State} {s : State} (hk : Keeps ρ s) : Keeps ρ (State.atticBack s) := by
  unfold State.atticBack
  repeat' first
    | with_reducible assumption
    | with_reducible refine KeepsR.next ?_
    | fail_if_no_progress with_reducible refine Keeps.mkK ?_
    | with_reducible refine State.ownWrite_keeps ?_
    | with_reducible refine Keeps.doAll ?_ (fun _ _ _ => ?_)
    | with_reducible refine Keeps.doIf ?_ (fun _ _ => ?_)
    | with_reducible refine Keeps.foldl ?_ (fun _ _ _ => ?_)
    | with_reducible refine Keeps.foldlFst ?_ (fun _ _ _ => ?_)
    | with_reducible refine Keeps.foldlSnd ?_ (fun _ _ _ => ?_)
    | with_reducible refine KeepsR.host ?_ (fun _ _ => ?_)
    | (lift_lets; intro x; clear_value x)
    | with_reducible refine Keeps.ofSnd (by assumption) ?_
    | with_reducible refine Keeps.ofFst (by assumption) ?_
    | split

theorem State.rolledBack_keeps {ρ : State} {s : State} {m : Nat} (hk : Keeps ρ s) : Keeps ρ (State.rolledBack s m) := by
  unfold State.rolledBack
  repeat' first
    | with_reducible assumption
    | with_reducible refine KeepsR.next ?_
    | fail_if_no_progress with_reducible refine Keeps.mkK ?_
    | with_reducible refine State.setFld_keeps ?_
    | with_reducible refine State.raise_keeps ?_
    | with_reducible refine State.setOutcome_keeps ?_
    | with_reducible refine State.atticBack_keeps ?_

theorem State.revertDrivers_keeps {ρ : State} {s : State} (hk : Keeps ρ s) : Keeps ρ (State.revertDrivers s) := by
  unfold State.revertDrivers
  repeat' first
    | with_reducible assumption
    | with_reducible refine KeepsR.next ?_
    | fail_if_no_progress with_reducible refine Keeps.mkK ?_

theorem State.backDone_keeps {ρ : State} {s : State} {c : Nat} (hk : Keeps ρ s) : Keeps ρ (State.backDone s c) := by
  unfold State.backDone
  repeat' first
    | with_reducible assumption
    | with_reducible refine KeepsR.next ?_
    | fail_if_no_progress with_reducible refine Keeps.mkK ?_
    | with_reducible refine State.setFld_keeps ?_

theorem State.rollOn_keeps {ρ s : State} {m n : Nat} (hk : Keeps ρ s) : Keeps ρ (State.rollOn m n s) := by
  induction n generalizing s with
  | zero => exact hk
  | succ n ih =>
    rw [State.rollOn]
    split
    · exact State.rolledBack_keeps hk
    next c _ _ =>
      extract_lets src wait t
      have hw : Keeps ρ wait := Keeps.mkK hk
      have ht : Keeps ρ t := State.revertDrivers_keeps hw
      split
      · exact Keeps.mkK hk
      · split
        · split
          · exact ih (State.backDone_keeps (State.switchBack_keeps ht))
          · exact ht
        · split
          · exact hw
          · exact ih (State.backDone_keeps (State.switchBack_keeps hk))

theorem execFwRollback_keeps {ρ : State} {m : Fin 8} {s : State} (hk : Keeps ρ s) : KeepsR ρ (execFwRollback m s) := by
  unfold execFwRollback
  repeat' first
    | with_reducible assumption
    | with_reducible refine KeepsR.next ?_
    | fail_if_no_progress with_reducible refine Keeps.mkK ?_
    | with_reducible refine State.setFld_keeps ?_
    | with_reducible refine State.outcome0_keeps ?_
    | with_reducible refine State.withCmd_keeps ?_ (fun _ _ _ => ?_)
    | with_reducible refine State.beginHead_keeps ?_
    | with_reducible refine State.rollOn_keeps ?_
    | with_reducible refine Keeps.doAll ?_ (fun _ _ _ => ?_)
    | with_reducible refine Keeps.doIf ?_ (fun _ _ => ?_)
    | with_reducible refine Keeps.foldl ?_ (fun _ _ _ => ?_)
    | with_reducible refine Keeps.foldlFst ?_ (fun _ _ _ => ?_)
    | with_reducible refine Keeps.foldlSnd ?_ (fun _ _ _ => ?_)
    | with_reducible refine KeepsR.host ?_ (fun _ _ => ?_)
    | (lift_lets; intro x; clear_value x)
    | with_reducible refine Keeps.ofSnd (by assumption) ?_
    | with_reducible refine Keeps.ofFst (by assumption) ?_
    | split

theorem State.dbSettle_keeps {ρ : State} {s : State} (hk : Keeps ρ s) : Keeps ρ (State.dbSettle s) := by
  unfold State.dbSettle
  repeat' first
    | with_reducible assumption
    | with_reducible refine KeepsR.next ?_
    | fail_if_no_progress with_reducible refine Keeps.mkK ?_
    | with_reducible refine State.switchIn_keeps ?_
    | with_reducible refine State.switchBack_keeps ?_
    | with_reducible refine State.applied_keeps ?_
    | with_reducible refine State.backDone_keeps ?_
    | with_reducible refine State.rollOn_keeps ?_
    | with_reducible refine Keeps.doAll ?_ (fun _ _ _ => ?_)
    | with_reducible refine Keeps.doIf ?_ (fun _ _ => ?_)
    | with_reducible refine Keeps.foldl ?_ (fun _ _ _ => ?_)
    | with_reducible refine Keeps.foldlFst ?_ (fun _ _ _ => ?_)
    | with_reducible refine Keeps.foldlSnd ?_ (fun _ _ _ => ?_)
    | with_reducible refine KeepsR.host ?_ (fun _ _ => ?_)
    | with_reducible refine Keeps.ofSnd (by assumption) ?_
    | with_reducible refine Keeps.ofFst (by assumption) ?_
    | split

theorem State.dropDriver_keeps {ρ : State} {s : State} {key : Nat} (hk : Keeps ρ s) : Keeps ρ (State.dropDriver s key) := by
  unfold State.dropDriver
  repeat' first
    | with_reducible assumption
    | with_reducible refine KeepsR.next ?_
    | fail_if_no_progress with_reducible refine Keeps.mkK ?_
    | with_reducible refine State.modDriver_keeps ?_
    | with_reducible refine State.busNext_keeps ?_

theorem State.dropFwFrames_keeps {ρ : State} {s : State} {p : Nat} (hk : Keeps ρ s) : Keeps ρ (State.dropFwFrames s p) := by
  unfold State.dropFwFrames
  repeat' first
    | with_reducible assumption
    | with_reducible refine KeepsR.next ?_
    | fail_if_no_progress with_reducible refine Keeps.mkK ?_
    | with_reducible refine State.modDbPort_keeps ?_

theorem State.dbFail_keeps {ρ : State} {s : State} {m : Nat} (hk : Keeps ρ s) : Keeps ρ (State.dbFail s m) := by
  unfold State.dbFail
  repeat' first
    | with_reducible assumption
    | with_reducible refine KeepsR.next ?_
    | fail_if_no_progress with_reducible refine Keeps.mkK ?_
    | with_reducible refine State.modDriver_keeps ?_
    | with_reducible refine State.outcome0_keeps ?_
    | with_reducible refine State.busNext_keeps ?_
    | with_reducible refine State.restPhase_keeps ?_
    | with_reducible refine State.dropFwFrames_keeps ?_
    | with_reducible refine Keeps.doAll ?_ (fun _ _ _ => ?_)

theorem State.fwFail_keeps {ρ : State} {s : State} {key : Nat} (hk : Keeps ρ s) : Keeps ρ (State.fwFail s key) := by
  unfold State.fwFail
  repeat' first
    | with_reducible assumption
    | with_reducible refine KeepsR.next ?_
    | fail_if_no_progress with_reducible refine Keeps.mkK ?_
    | with_reducible refine State.dbSettle_keeps ?_
    | with_reducible refine State.dropDriver_keeps ?_
    | with_reducible refine State.dbFail_keeps ?_
    | with_reducible refine Keeps.doAll ?_ (fun _ _ _ => ?_)
    | with_reducible refine Keeps.doIf ?_ (fun _ _ => ?_)
    | with_reducible refine Keeps.foldl ?_ (fun _ _ _ => ?_)
    | with_reducible refine Keeps.foldlFst ?_ (fun _ _ _ => ?_)
    | with_reducible refine Keeps.foldlSnd ?_ (fun _ _ _ => ?_)
    | with_reducible refine KeepsR.host ?_ (fun _ _ => ?_)
    | (lift_lets; intro x; clear_value x)
    | with_reducible refine Keeps.ofSnd (by assumption) ?_
    | with_reducible refine Keeps.ofFst (by assumption) ?_
    | split

theorem State.fwPrune_keeps {ρ : State} {s : State} (hk : Keeps ρ s) : Keeps ρ (State.fwPrune s) := by
  unfold State.fwPrune
  repeat' first
    | with_reducible assumption
    | with_reducible refine KeepsR.next ?_
    | fail_if_no_progress with_reducible refine Keeps.mkK ?_
    | with_reducible refine State.dbSettle_keeps ?_
    | with_reducible refine State.dropDriver_keeps ?_
    | with_reducible refine Keeps.doAll ?_ (fun _ _ _ => ?_)
    | with_reducible refine Keeps.doIf ?_ (fun _ _ => ?_)
    | with_reducible refine Keeps.foldl ?_ (fun _ _ _ => ?_)
    | with_reducible refine Keeps.foldlFst ?_ (fun _ _ _ => ?_)
    | with_reducible refine Keeps.foldlSnd ?_ (fun _ _ _ => ?_)
    | with_reducible refine KeepsR.host ?_ (fun _ _ => ?_)
    | (lift_lets; intro x; clear_value x)
    | with_reducible refine Keeps.ofSnd (by assumption) ?_
    | with_reducible refine Keeps.ofFst (by assumption) ?_
    | split
    | dsimp only

theorem State.sqDone_keeps {ρ : State} {s : State} {m : Nat} {c : Nat} (hk : Keeps ρ s) : Keeps ρ (State.sqDone s m c) := by
  unfold State.sqDone
  repeat' first
    | with_reducible assumption
    | with_reducible refine KeepsR.next ?_
    | fail_if_no_progress with_reducible refine Keeps.mkK ?_
    | with_reducible refine State.applied_keeps ?_
    | with_reducible refine State.backDone_keeps ?_
    | with_reducible refine State.rollOn_keeps ?_
    | with_reducible refine Keeps.doAll ?_ (fun _ _ _ => ?_)
    | with_reducible refine Keeps.doIf ?_ (fun _ _ => ?_)
    | with_reducible refine Keeps.foldl ?_ (fun _ _ _ => ?_)
    | with_reducible refine Keeps.foldlFst ?_ (fun _ _ _ => ?_)
    | with_reducible refine Keeps.foldlSnd ?_ (fun _ _ _ => ?_)
    | with_reducible refine KeepsR.host ?_ (fun _ _ => ?_)
    | with_reducible refine Keeps.ofSnd (by assumption) ?_
    | with_reducible refine Keeps.ofFst (by assumption) ?_
    | split

theorem State.sqSwitch_keeps {ρ : State} {s : State} {c : Nat} (hk : Keeps ρ s) : Keeps ρ (State.sqSwitch s c) := by
  unfold State.sqSwitch
  repeat' first
    | with_reducible assumption
    | with_reducible refine KeepsR.next ?_
    | fail_if_no_progress with_reducible refine Keeps.mkK ?_
    | with_reducible refine State.switchIn_keeps ?_
    | with_reducible refine State.switchBack_keeps ?_
    | with_reducible refine Keeps.doAll ?_ (fun _ _ _ => ?_)
    | with_reducible refine Keeps.doIf ?_ (fun _ _ => ?_)
    | with_reducible refine Keeps.foldl ?_ (fun _ _ _ => ?_)
    | with_reducible refine Keeps.foldlFst ?_ (fun _ _ _ => ?_)
    | with_reducible refine Keeps.foldlSnd ?_ (fun _ _ _ => ?_)
    | with_reducible refine KeepsR.host ?_ (fun _ _ => ?_)
    | with_reducible refine Keeps.ofSnd (by assumption) ?_
    | with_reducible refine Keeps.ofFst (by assumption) ?_
    | split

theorem State.fwFrame_keeps {ρ : State} {s : State} {g : Nat} (hk : Keeps ρ s) : Keeps ρ (State.fwFrame s g) := by
  unfold State.fwFrame
  repeat' first
    | with_reducible assumption
    | with_reducible refine KeepsR.next ?_
    | fail_if_no_progress with_reducible refine Keeps.mkK ?_
    | with_reducible refine State.fwPrune_keeps ?_
    | with_reducible refine State.sqDone_keeps ?_
    | with_reducible refine State.sqSwitch_keeps ?_
    | with_reducible refine Keeps.doAll ?_ (fun _ _ _ => ?_)
    | with_reducible refine Keeps.doIf ?_ (fun _ _ => ?_)
    | with_reducible refine Keeps.foldl ?_ (fun _ _ _ => ?_)
    | with_reducible refine Keeps.foldlFst ?_ (fun _ _ _ => ?_)
    | with_reducible refine Keeps.foldlSnd ?_ (fun _ _ _ => ?_)
    | with_reducible refine KeepsR.host ?_ (fun _ _ => ?_)
    | (lift_lets; intro x; refine Keeps.cut (r := ρ) (x := x) ?_ (fun hx => ?_); (on_goal 1 => dsimp only [x]); (on_goal 2 => clear_value x))
    | with_reducible refine Keeps.ofSnd (by assumption) ?_
    | with_reducible refine Keeps.ofFst (by assumption) ?_
    | split

theorem State.fwSettle_keeps {ρ : State} {s : State} (hk : Keeps ρ s) : Keeps ρ (State.fwSettle s) := by
  unfold State.fwSettle
  repeat' first
    | with_reducible assumption
    | with_reducible refine KeepsR.next ?_
    | fail_if_no_progress with_reducible refine Keeps.mkK ?_
    | with_reducible refine State.fwPrune_keeps ?_
    | with_reducible refine State.sqDone_keeps ?_
    | with_reducible refine State.sqSwitch_keeps ?_
    | with_reducible refine Keeps.doAll ?_ (fun _ _ _ => ?_)
    | with_reducible refine Keeps.doIf ?_ (fun _ _ => ?_)
    | with_reducible refine Keeps.foldl ?_ (fun _ _ _ => ?_)
    | with_reducible refine Keeps.foldlFst ?_ (fun _ _ _ => ?_)
    | with_reducible refine Keeps.foldlSnd ?_ (fun _ _ _ => ?_)
    | with_reducible refine KeepsR.host ?_ (fun _ _ => ?_)
    | (lift_lets; intro x; refine Keeps.cut (r := ρ) (x := x) ?_ (fun hx => ?_); (on_goal 1 => dsimp only [x]); (on_goal 2 => clear_value x))
    | with_reducible refine Keeps.ofSnd (by assumption) ?_
    | with_reducible refine Keeps.ofFst (by assumption) ?_
    | split

theorem State.loadAll_keeps {ρ : State} {s : State} (hk : Keeps ρ s) : Keeps ρ (State.loadAll s) := by
  unfold State.loadAll
  repeat' first
    | with_reducible assumption
    | with_reducible refine KeepsR.next ?_
    | fail_if_no_progress with_reducible refine Keeps.mkK ?_
    | with_reducible refine State.loadDriver_keeps ?_
    | with_reducible refine Keeps.doAll ?_ (fun _ _ _ => ?_)
    | with_reducible refine Keeps.doIf ?_ (fun _ _ => ?_)
    | with_reducible refine Keeps.foldl ?_ (fun _ _ _ => ?_)
    | with_reducible refine Keeps.foldlFst ?_ (fun _ _ _ => ?_)
    | with_reducible refine Keeps.foldlSnd ?_ (fun _ _ _ => ?_)
    | with_reducible refine KeepsR.host ?_ (fun _ _ => ?_)
    | with_reducible refine Keeps.ofSnd (by assumption) ?_
    | with_reducible refine Keeps.ofFst (by assumption) ?_
    | split

theorem State.applyBegin_keeps {ρ : State} {s : State} {m : Nat} {c : Nat} (hk : Keeps ρ s) : Keeps ρ (State.applyBegin s m c) := by
  unfold State.applyBegin
  repeat' first
    | with_reducible assumption
    | with_reducible refine KeepsR.next ?_
    | fail_if_no_progress with_reducible refine Keeps.mkK ?_
    | with_reducible refine State.setFld_keeps ?_
    | with_reducible refine State.outcome0_keeps ?_
    | with_reducible refine State.beginHead_keeps ?_
    | with_reducible refine State.restPhase_keeps ?_
    | with_reducible refine State.switchIn_keeps ?_
    | with_reducible refine State.applied_keeps ?_
    | with_reducible refine State.dbSettle_keeps ?_
    | with_reducible refine State.loadAll_keeps ?_
    | with_reducible refine Keeps.doAll ?_ (fun _ _ _ => ?_)
    | with_reducible refine Keeps.doIf ?_ (fun _ _ => ?_)
    | with_reducible refine Keeps.foldl ?_ (fun _ _ _ => ?_)
    | with_reducible refine Keeps.foldlFst ?_ (fun _ _ _ => ?_)
    | with_reducible refine Keeps.foldlSnd ?_ (fun _ _ _ => ?_)
    | with_reducible refine KeepsR.host ?_ (fun _ _ => ?_)
    | (lift_lets; intro x; refine Keeps.cut (r := ρ) (x := x) ?_ (fun hx => ?_); (on_goal 1 => dsimp only [x]); (on_goal 2 => clear_value x))
    | with_reducible refine Keeps.ofSnd (by assumption) ?_
    | with_reducible refine Keeps.ofFst (by assumption) ?_
    | split

theorem execFwApply_keeps {ρ : State} {m : Fin 8} {s : State} (hk : Keeps ρ s) : KeepsR ρ (execFwApply m s) := by
  unfold execFwApply
  repeat' first
    | with_reducible assumption
    | with_reducible refine KeepsR.next ?_
    | fail_if_no_progress with_reducible refine Keeps.mkK ?_
    | with_reducible refine State.outcome0_keeps ?_
    | with_reducible refine State.withCmd_keeps ?_ (fun _ _ _ => ?_)
    | with_reducible refine State.wake_keeps ?_
    | with_reducible refine State.applyBegin_keeps ?_
    | with_reducible refine Keeps.doAll ?_ (fun _ _ _ => ?_)
    | with_reducible refine Keeps.doIf ?_ (fun _ _ => ?_)
    | with_reducible refine Keeps.foldl ?_ (fun _ _ _ => ?_)
    | with_reducible refine Keeps.foldlFst ?_ (fun _ _ _ => ?_)
    | with_reducible refine Keeps.foldlSnd ?_ (fun _ _ _ => ?_)
    | with_reducible refine KeepsR.host ?_ (fun _ _ => ?_)
    | with_reducible refine Keeps.ofSnd (by assumption) ?_
    | with_reducible refine Keeps.ofFst (by assumption) ?_
    | split

theorem State.acceptSettings_keeps {ρ : State} {s : State} (hk : Keeps ρ s) : Keeps ρ (State.acceptSettings s) := by
  unfold State.acceptSettings
  repeat' first
    | with_reducible assumption
    | with_reducible refine KeepsR.next ?_
    | fail_if_no_progress with_reducible refine Keeps.mkK ?_
    | with_reducible refine State.saveSettings_keeps ?_
    | with_reducible refine Keeps.doAll ?_ (fun _ _ _ => ?_)
    | with_reducible refine Keeps.doIf ?_ (fun _ _ => ?_)
    | with_reducible refine Keeps.foldl ?_ (fun _ _ _ => ?_)
    | with_reducible refine Keeps.foldlFst ?_ (fun _ _ _ => ?_)
    | with_reducible refine Keeps.foldlSnd ?_ (fun _ _ _ => ?_)
    | with_reducible refine KeepsR.host ?_ (fun _ _ => ?_)
    | (lift_lets; intro x; clear_value x)
    | with_reducible refine Keeps.ofSnd (by assumption) ?_
    | with_reducible refine Keeps.ofFst (by assumption) ?_
    | split

theorem execSfAcceptance_keeps {ρ : State} {acceptUs : Nat} {s : State} (hk : Keeps ρ s) : KeepsR ρ (execSfAcceptance acceptUs s) := by
  unfold execSfAcceptance
  repeat' first
    | with_reducible assumption
    | with_reducible refine KeepsR.next ?_
    | fail_if_no_progress with_reducible refine Keeps.mkK ?_
    | with_reducible refine State.setFld_keeps ?_
    | with_reducible refine State.raise_keeps ?_
    | with_reducible refine State.startHeads_keeps ?_
    | with_reducible refine State.switchIn_keeps ?_
    | with_reducible refine State.switchBack_keeps ?_
    | with_reducible refine State.applied_keeps ?_
    | with_reducible refine State.backDone_keeps ?_
    | with_reducible refine State.rollOn_keeps ?_
    | with_reducible refine State.acceptSettings_keeps ?_
    | with_reducible refine Keeps.doAll ?_ (fun _ _ _ => ?_)
    | with_reducible refine Keeps.doIf ?_ (fun _ _ => ?_)
    | with_reducible refine Keeps.foldl ?_ (fun _ _ _ => ?_)
    | with_reducible refine Keeps.foldlFst ?_ (fun _ _ _ => ?_)
    | with_reducible refine Keeps.foldlSnd ?_ (fun _ _ _ => ?_)
    | with_reducible refine KeepsR.host ?_ (fun _ _ => ?_)
    | (lift_lets; intro x; clear_value x)
    | with_reducible refine Keeps.ofSnd (by assumption) ?_
    | with_reducible refine Keeps.ofFst (by assumption) ?_
    | split
    | dsimp only

theorem execHandoverTimeout_keeps {ρ : State} {s : State} (hk : Keeps ρ s) : KeepsR ρ (execHandoverTimeout s) := by
  unfold execHandoverTimeout
  repeat' first
    | with_reducible assumption
    | with_reducible refine KeepsR.next ?_
    | fail_if_no_progress with_reducible refine Keeps.mkK ?_
    | with_reducible refine State.count_keeps ?_
    | with_reducible refine State.raise_keeps ?_
    | with_reducible refine State.outcome0_keeps ?_
    | with_reducible refine State.startHeads_keeps ?_
    | with_reducible refine State.restPhase_keeps ?_
    | with_reducible refine Keeps.doAll ?_ (fun _ _ _ => ?_)
    | with_reducible refine Keeps.doIf ?_ (fun _ _ => ?_)
    | with_reducible refine Keeps.foldl ?_ (fun _ _ _ => ?_)
    | with_reducible refine Keeps.foldlFst ?_ (fun _ _ _ => ?_)
    | with_reducible refine Keeps.foldlSnd ?_ (fun _ _ _ => ?_)
    | with_reducible refine KeepsR.host ?_ (fun _ _ => ?_)
    | (lift_lets; intro x; clear_value x)
    | with_reducible refine Keeps.ofSnd (by assumption) ?_
    | with_reducible refine Keeps.ofFst (by assumption) ?_
    | split

theorem State.badSector_keeps {ρ : State} {s : State} {a : Nat} (hk : Keeps ρ s) : Keeps ρ (State.badSector s a) := by
  unfold State.badSector
  repeat' first
    | with_reducible assumption
    | with_reducible refine KeepsR.next ?_
    | fail_if_no_progress with_reducible refine Keeps.mkK ?_
    | with_reducible refine State.setFlash_keeps ?_

theorem State.confirmSectors_keeps {ρ : State} {s : State} {first : Nat} {k : Nat} (hk : Keeps ρ s) : Keeps ρ (State.confirmSectors s first k) := by
  unfold State.confirmSectors
  repeat' first
    | with_reducible assumption
    | with_reducible refine KeepsR.next ?_
    | fail_if_no_progress with_reducible refine Keeps.mkK ?_
    | with_reducible refine State.setFlash_keeps ?_

theorem State.confirmed_keeps {ρ : State} {s : State} {m : Nat} (hk : Keeps ρ s) : Keeps ρ (State.confirmed s m) := by
  unfold State.confirmed
  repeat' first
    | with_reducible assumption
    | with_reducible refine KeepsR.next ?_
    | fail_if_no_progress with_reducible refine Keeps.mkK ?_
    | with_reducible refine State.setFld_keeps ?_
    | with_reducible refine State.outcome0_keeps ?_
    | with_reducible refine State.ownWrite_keeps ?_
    | with_reducible refine Keeps.doAll ?_ (fun _ _ _ => ?_)
    | with_reducible refine Keeps.doIf ?_ (fun _ _ => ?_)

theorem execFwConfirm_keeps {ρ : State} {m : Fin 8} {sectors : Nat} {flashOk : Bool} {s : State} (hk : Keeps ρ s) : KeepsR ρ (execFwConfirm m sectors flashOk s) := by
  unfold execFwConfirm
  repeat' first
    | with_reducible assumption
    | with_reducible refine KeepsR.next ?_
    | fail_if_no_progress with_reducible refine Keeps.mkK ?_
    | with_reducible refine State.setFld_keeps ?_
    | with_reducible refine State.outcome0_keeps ?_
    | with_reducible refine State.workOn_keeps ?_ (fun _ _ _ => ?_)
    | with_reducible refine State.moved_keeps ?_
    | with_reducible refine State.wake_keeps ?_
    | with_reducible refine State.restPhase_keeps ?_
    | with_reducible refine State.badSector_keeps ?_
    | with_reducible refine State.confirmSectors_keeps ?_
    | with_reducible refine State.confirmed_keeps ?_
    | with_reducible refine Keeps.doAll ?_ (fun _ _ _ => ?_)
    | with_reducible refine Keeps.doIf ?_ (fun _ _ => ?_)
    | with_reducible refine Keeps.foldl ?_ (fun _ _ _ => ?_)
    | with_reducible refine Keeps.foldlFst ?_ (fun _ _ _ => ?_)
    | with_reducible refine Keeps.foldlSnd ?_ (fun _ _ _ => ?_)
    | with_reducible refine KeepsR.host ?_ (fun _ _ => ?_)
    | (lift_lets; intro x; refine Keeps.cut (r := ρ) (x := x) ?_ (fun hx => ?_); (on_goal 1 => dsimp only [x]); (on_goal 2 => clear_value x))
    | with_reducible refine Keeps.ofSnd (by assumption) ?_
    | with_reducible refine Keeps.ofFst (by assumption) ?_
    | split
    | dsimp only

theorem execFwFlashErase_keeps {ρ : State} {m : Fin 8} {s : State} (hk : Keeps ρ s) : KeepsR ρ (execFwFlashErase m s) := by
  unfold execFwFlashErase
  repeat' first
    | with_reducible assumption
    | with_reducible refine KeepsR.next ?_
    | fail_if_no_progress with_reducible refine Keeps.mkK ?_
    | with_reducible refine State.outcome0_keeps ?_
    | with_reducible refine State.setFlash_keeps ?_
    | with_reducible refine State.withCmd_keeps ?_ (fun _ _ _ => ?_)
    | with_reducible refine Keeps.doAll ?_ (fun _ _ _ => ?_)
    | with_reducible refine Keeps.doIf ?_ (fun _ _ => ?_)
    | with_reducible refine Keeps.foldl ?_ (fun _ _ _ => ?_)
    | with_reducible refine Keeps.foldlFst ?_ (fun _ _ _ => ?_)
    | with_reducible refine Keeps.foldlSnd ?_ (fun _ _ _ => ?_)
    | with_reducible refine KeepsR.host ?_ (fun _ _ => ?_)
    | with_reducible refine Keeps.ofSnd (by assumption) ?_
    | with_reducible refine Keeps.ofFst (by assumption) ?_
    | split

theorem execFwFlashWrite_keeps {ρ : State} {m : Fin 8} {s : State} (hk : Keeps ρ s) : KeepsR ρ (execFwFlashWrite m s) := by
  unfold execFwFlashWrite
  repeat' first
    | with_reducible assumption
    | with_reducible refine KeepsR.next ?_
    | fail_if_no_progress with_reducible refine Keeps.mkK ?_
    | with_reducible refine State.outcome0_keeps ?_
    | with_reducible refine State.setFlash_keeps ?_
    | with_reducible refine State.withCmd_keeps ?_ (fun _ _ _ => ?_)
    | with_reducible refine Keeps.doAll ?_ (fun _ _ _ => ?_)
    | with_reducible refine Keeps.doIf ?_ (fun _ _ => ?_)
    | with_reducible refine Keeps.foldl ?_ (fun _ _ _ => ?_)
    | with_reducible refine Keeps.foldlFst ?_ (fun _ _ _ => ?_)
    | with_reducible refine Keeps.foldlSnd ?_ (fun _ _ _ => ?_)
    | with_reducible refine KeepsR.host ?_ (fun _ _ => ?_)
    | with_reducible refine Keeps.ofSnd (by assumption) ?_
    | with_reducible refine Keeps.ofFst (by assumption) ?_
    | split

theorem execMailboxCommandComplete_keeps {ρ : State} {m : Fin 8} {s : State} (hk : Keeps ρ s) : KeepsR ρ (execMailboxCommandComplete m s) := by
  unfold execMailboxCommandComplete
  repeat' first
    | with_reducible assumption
    | with_reducible refine KeepsR.next ?_
    | fail_if_no_progress with_reducible refine Keeps.mkK ?_
    | with_reducible refine State.finishHead_keeps ?_
    | with_reducible refine State.fwSettle_keeps ?_
    | with_reducible refine Keeps.doAll ?_ (fun _ _ _ => ?_)
    | with_reducible refine Keeps.doIf ?_ (fun _ _ => ?_)
    | with_reducible refine Keeps.foldl ?_ (fun _ _ _ => ?_)
    | with_reducible refine Keeps.foldlFst ?_ (fun _ _ _ => ?_)
    | with_reducible refine Keeps.foldlSnd ?_ (fun _ _ _ => ?_)
    | with_reducible refine KeepsR.host ?_ (fun _ _ => ?_)
    | (lift_lets; intro x; refine Keeps.cut (r := ρ) (x := x) ?_ (fun hx => ?_); (on_goal 1 => dsimp only [x]); (on_goal 2 => clear_value x))
    | (lift_lets; intro x; clear_value x)
    | with_reducible refine Keeps.ofSnd (by assumption) ?_
    | with_reducible refine Keeps.ofFst (by assumption) ?_
    | split

end Sys2Proof.Machine
end

