-- ==== Sys2Proof/Laws/KeepsRest.lean ====
section
/-!
SUPPORT. The relation `Keeps` for the operations of Machine/BusRows.lean, Machine/Gleaner.lean, Machine/Frame.lean.
-/

namespace Sys2Proof.Machine

theorem State.driverLost_keeps {ρ : State} {s : State} {p : Nat} {addr : Nat} (hk : Keeps ρ s) : Keeps ρ (State.driverLost s p addr) := by
  unfold State.driverLost
  repeat' first
    | with_reducible assumption
    | with_reducible refine KeepsR.next ?_
    | fail_if_no_progress with_reducible refine Keeps.mkK ?_
    | with_reducible refine State.modDbPort_keeps ?_
    | with_reducible refine State.count_keeps ?_
    | with_reducible refine State.raise2_keeps ?_
    | with_reducible refine State.busNext_keeps ?_
    | with_reducible refine State.stringsComms_keeps ?_
    | with_reducible refine State.zonesComms_keeps ?_
    | with_reducible refine State.fwFail_keeps ?_

theorem State.busRetry_keeps {ρ : State} {s : State} {p : Nat} (hk : Keeps ρ s) : Keeps ρ (State.busRetry s p) := by
  unfold State.busRetry
  repeat' first
    | with_reducible assumption
    | with_reducible refine KeepsR.next ?_
    | fail_if_no_progress with_reducible refine Keeps.mkK ?_
    | with_reducible refine State.setDbPort_keeps ?_
    | with_reducible refine State.count_keeps ?_
    | with_reducible refine State.busEmit_keeps ?_
    | with_reducible refine State.driverLost_keeps ?_
    | with_reducible refine Keeps.doAll ?_ (fun _ _ _ => ?_)
    | with_reducible refine Keeps.doIf ?_ (fun _ _ => ?_)
    | with_reducible refine Keeps.foldl ?_ (fun _ _ _ => ?_)
    | with_reducible refine Keeps.foldlFst ?_ (fun _ _ _ => ?_)
    | with_reducible refine Keeps.foldlSnd ?_ (fun _ _ _ => ?_)
    | with_reducible refine KeepsR.host ?_ (fun _ _ => ?_)
    | (lift_lets; intro x; clear_value x)
    | with_reducible refine Keeps.ofSnd (by assumption) ?_
    | with_reducible refine Keeps.ofFst (by assumption) ?_
    | split

theorem execDbResponseTimeout_keeps {ρ : State} {p : Fin 8} {s : State} (hk : Keeps ρ s) : KeepsR ρ (execDbResponseTimeout p s) := by
  unfold execDbResponseTimeout
  repeat' first
    | with_reducible assumption
    | with_reducible refine KeepsR.next ?_
    | fail_if_no_progress with_reducible refine Keeps.mkK ?_
    | with_reducible refine State.busRetry_keeps ?_

theorem State.response_keeps {ρ : State} {s : State} {p : Nat} {ops : List Nat} {frame : List Byte} {f : State → Nat → List Byte → List Byte → State} (hk : Keeps ρ s) (hkf : ∀ x0 x1 x2 x3, Keeps ρ x0 → Keeps ρ (f x0 x1 x2 x3)) : KeepsR ρ (State.response s p ops frame f) := by
  unfold State.response
  repeat' first
    | with_reducible assumption
    | with_reducible refine KeepsR.next ?_
    | fail_if_no_progress with_reducible refine Keeps.mkK ?_
    | with_reducible refine State.count_keeps ?_
    | with_reducible refine State.busRetry_keeps ?_
    | with_reducible refine hkf _ _ _ _ ?_
    | with_reducible refine Keeps.doAll ?_ (fun _ _ _ => ?_)
    | with_reducible refine Keeps.doIf ?_ (fun _ _ => ?_)
    | with_reducible refine Keeps.foldl ?_ (fun _ _ _ => ?_)
    | with_reducible refine Keeps.foldlFst ?_ (fun _ _ _ => ?_)
    | with_reducible refine Keeps.foldlSnd ?_ (fun _ _ _ => ?_)
    | with_reducible refine KeepsR.host ?_ (fun _ _ => ?_)
    | with_reducible refine Keeps.ofSnd (by assumption) ?_
    | with_reducible refine Keeps.ofFst (by assumption) ?_
    | split

theorem State.ackDone_keeps {ρ : State} {s : State} {p : Nat} {addr : Nat} {sent : List Byte} (hk : Keeps ρ s) : Keeps ρ (State.ackDone s p addr sent) := by
  unfold State.ackDone
  repeat' first
    | with_reducible assumption
    | with_reducible refine KeepsR.next ?_
    | fail_if_no_progress with_reducible refine Keeps.mkK ?_
    | with_reducible refine State.modDriver_keeps ?_
    | with_reducible refine State.setFld_keeps ?_
    | with_reducible refine State.levelsAcked_keeps ?_
    | with_reducible refine Keeps.doAll ?_ (fun _ _ _ => ?_)
    | with_reducible refine Keeps.doIf ?_ (fun _ _ => ?_)
    | with_reducible refine Keeps.foldl ?_ (fun _ _ _ => ?_)
    | with_reducible refine Keeps.foldlFst ?_ (fun _ _ _ => ?_)
    | with_reducible refine Keeps.foldlSnd ?_ (fun _ _ _ => ?_)
    | with_reducible refine KeepsR.host ?_ (fun _ _ => ?_)
    | (lift_lets; intro x; clear_value x)
    | with_reducible refine Keeps.ofSnd (by assumption) ?_
    | with_reducible refine Keeps.ofFst (by assumption) ?_
    | split

theorem execAck_keeps {ρ : State} {p : Fin 8} {frame : List Byte} {s : State} (hk : Keeps ρ s) : KeepsR ρ (execAck p frame s) := by
  unfold execAck
  repeat' first
    | with_reducible assumption
    | with_reducible refine KeepsR.next ?_
    | fail_if_no_progress with_reducible refine Keeps.mkK ?_
    | with_reducible refine State.busDone_keeps ?_
    | with_reducible refine State.fwFail_keeps ?_
    | with_reducible refine State.busRetry_keeps ?_
    | with_reducible refine State.response_keeps ?_ (fun _ _ _ _ _ => ?_)
    | with_reducible refine State.ackDone_keeps ?_
    | with_reducible refine Keeps.doAll ?_ (fun _ _ _ => ?_)
    | with_reducible refine Keeps.doIf ?_ (fun _ _ => ?_)
    | with_reducible refine Keeps.foldl ?_ (fun _ _ _ => ?_)
    | with_reducible refine Keeps.foldlFst ?_ (fun _ _ _ => ?_)
    | with_reducible refine Keeps.foldlSnd ?_ (fun _ _ _ => ?_)
    | with_reducible refine KeepsR.host ?_ (fun _ _ => ?_)
    | (lift_lets; intro x; clear_value x)
    | with_reducible refine Keeps.ofSnd (by assumption) ?_
    | with_reducible refine Keeps.ofFst (by assumption) ?_
    | split

theorem State.zoneIdent_keeps {ρ : State} {s : State} {p : Nat} {addr : Nat} (hk : Keeps ρ s) : Keeps ρ (State.zoneIdent s p addr) := by
  unfold State.zoneIdent
  repeat' first
    | with_reducible assumption
    | with_reducible refine KeepsR.next ?_
    | fail_if_no_progress with_reducible refine Keeps.mkK ?_
    | with_reducible refine State.setFld_keeps ?_
    | with_reducible refine State.matrixDisable_keeps ?_
    | with_reducible refine State.refuseWrite_keeps ?_
    | with_reducible refine Keeps.doAll ?_ (fun _ _ _ => ?_)
    | with_reducible refine Keeps.doIf ?_ (fun _ _ => ?_)
    | with_reducible refine Keeps.foldl ?_ (fun _ _ _ => ?_)
    | with_reducible refine Keeps.foldlFst ?_ (fun _ _ _ => ?_)
    | with_reducible refine Keeps.foldlSnd ?_ (fun _ _ _ => ?_)
    | with_reducible refine KeepsR.host ?_ (fun _ _ => ?_)
    | (lift_lets; intro x; clear_value x)
    | with_reducible refine Keeps.ofSnd (by assumption) ?_
    | with_reducible refine Keeps.ofFst (by assumption) ?_
    | split
    | dsimp only

theorem execIdent_keeps {ρ : State} {p : Fin 8} {frame : List Byte} {phase : Fin 8} {s : State} (hk : Keeps ρ s) : KeepsR ρ (execIdent p frame phase s) := by
  unfold execIdent
  repeat' first
    | with_reducible assumption
    | with_reducible refine KeepsR.next ?_
    | fail_if_no_progress with_reducible refine Keeps.mkK ?_
    | with_reducible refine State.modDriver_keeps ?_
    | with_reducible refine State.busSend_keeps ?_
    | with_reducible refine State.busDone_keeps ?_
    | with_reducible refine State.response_keeps ?_ (fun _ _ _ _ _ => ?_)
    | with_reducible refine State.zoneIdent_keeps ?_

theorem execTelemPoll_keeps {ρ : State} {p : Fin 8} {s : State} (hk : Keeps ρ s) : KeepsR ρ (execTelemPoll p s) := by
  unfold execTelemPoll
  repeat' first
    | with_reducible assumption
    | with_reducible refine KeepsR.next ?_
    | fail_if_no_progress with_reducible refine Keeps.mkK ?_
    | with_reducible refine State.busSend_keeps ?_
    | with_reducible refine Keeps.doAll ?_ (fun _ _ _ => ?_)
    | with_reducible refine Keeps.doIf ?_ (fun _ _ => ?_)
    | with_reducible refine Keeps.foldl ?_ (fun _ _ _ => ?_)
    | with_reducible refine Keeps.foldlFst ?_ (fun _ _ _ => ?_)
    | with_reducible refine Keeps.foldlSnd ?_ (fun _ _ _ => ?_)
    | with_reducible refine KeepsR.host ?_ (fun _ _ => ?_)
    | (lift_lets; intro x; clear_value x)
    | with_reducible refine Keeps.ofSnd (by assumption) ?_
    | with_reducible refine Keeps.ofFst (by assumption) ?_
    | split

theorem execTelem_keeps {ρ : State} {p : Fin 8} {frame : List Byte} {phase : Fin 8} {s : State} (hk : Keeps ρ s) : KeepsR ρ (execTelem p frame phase s) := by
  unfold execTelem
  repeat' first
    | with_reducible assumption
    | with_reducible refine KeepsR.next ?_
    | fail_if_no_progress with_reducible refine Keeps.mkK ?_
    | with_reducible refine State.modDriver_keeps ?_
    | with_reducible refine State.busDone_keeps ?_
    | with_reducible refine State.telemReport_keeps ?_
    | with_reducible refine State.response_keeps ?_ (fun _ _ _ _ _ => ?_)

theorem execZoneFaults_keeps {ρ : State} {p : Fin 8} {frame : List Byte} {phase : Fin 8} {s : State} (hk : Keeps ρ s) : KeepsR ρ (execZoneFaults p frame phase s) := by
  unfold execZoneFaults
  repeat' first
    | with_reducible assumption
    | with_reducible refine KeepsR.next ?_
    | fail_if_no_progress with_reducible refine Keeps.mkK ?_
    | with_reducible refine State.modDriver_keeps ?_
    | with_reducible refine State.busDone_keeps ?_
    | with_reducible refine State.zoneReport_keeps ?_
    | with_reducible refine State.response_keeps ?_ (fun _ _ _ _ _ => ?_)
    | with_reducible refine Keeps.doAll ?_ (fun _ _ _ => ?_)
    | with_reducible refine Keeps.doIf ?_ (fun _ _ => ?_)
    | with_reducible refine Keeps.foldl ?_ (fun _ _ _ => ?_)
    | with_reducible refine Keeps.foldlFst ?_ (fun _ _ _ => ?_)
    | with_reducible refine Keeps.foldlSnd ?_ (fun _ _ _ => ?_)
    | with_reducible refine KeepsR.host ?_ (fun _ _ => ?_)
    | with_reducible refine Keeps.ofSnd (by assumption) ?_
    | with_reducible refine Keeps.ofFst (by assumption) ?_
    | split

theorem State.startVersion_keeps {ρ : State} {s : State} {key : Nat} (hk : Keeps ρ s) : Keeps ρ (State.startVersion s key) := by
  unfold State.startVersion
  repeat' first
    | with_reducible assumption
    | with_reducible refine KeepsR.next ?_
    | fail_if_no_progress with_reducible refine Keeps.mkK ?_
    | with_reducible refine State.loadDriver_keeps ?_
    | with_reducible refine Keeps.doAll ?_ (fun _ _ _ => ?_)
    | with_reducible refine Keeps.doIf ?_ (fun _ _ => ?_)
    | with_reducible refine Keeps.foldl ?_ (fun _ _ _ => ?_)
    | with_reducible refine Keeps.foldlFst ?_ (fun _ _ _ => ?_)
    | with_reducible refine Keeps.foldlSnd ?_ (fun _ _ _ => ?_)
    | with_reducible refine KeepsR.host ?_ (fun _ _ => ?_)
    | (lift_lets; intro x; clear_value x)
    | with_reducible refine Keeps.ofSnd (by assumption) ?_
    | with_reducible refine Keeps.ofFst (by assumption) ?_
    | split
    | dsimp only

theorem execFwQuery_keeps {ρ : State} {p : Fin 8} {frame : List Byte} {s : State} (hk : Keeps ρ s) : KeepsR ρ (execFwQuery p frame s) := by
  unfold execFwQuery
  repeat' first
    | with_reducible assumption
    | with_reducible refine KeepsR.next ?_
    | fail_if_no_progress with_reducible refine Keeps.mkK ?_
    | with_reducible refine State.modDriver_keeps ?_
    | with_reducible refine State.busNext_keeps ?_
    | with_reducible refine State.busSend_keeps ?_
    | with_reducible refine State.busDone_keeps ?_
    | with_reducible refine State.dbSettle_keeps ?_
    | with_reducible refine State.response_keeps ?_ (fun _ _ _ _ _ => ?_)
    | with_reducible refine State.startVersion_keeps ?_
    | with_reducible refine Keeps.doAll ?_ (fun _ _ _ => ?_)
    | with_reducible refine Keeps.doIf ?_ (fun _ _ => ?_)
    | with_reducible refine Keeps.foldl ?_ (fun _ _ _ => ?_)
    | with_reducible refine Keeps.foldlFst ?_ (fun _ _ _ => ?_)
    | with_reducible refine Keeps.foldlSnd ?_ (fun _ _ _ => ?_)
    | with_reducible refine KeepsR.host ?_ (fun _ _ => ?_)
    | (lift_lets; intro x; clear_value x)
    | with_reducible refine Keeps.ofSnd (by assumption) ?_
    | with_reducible refine Keeps.ofFst (by assumption) ?_
    | split
    | dsimp only

theorem execFwCheck_keeps {ρ : State} {p : Fin 8} {frame : List Byte} {s : State} (hk : Keeps ρ s) : KeepsR ρ (execFwCheck p frame s) := by
  unfold execFwCheck
  repeat' first
    | with_reducible assumption
    | with_reducible refine KeepsR.next ?_
    | fail_if_no_progress with_reducible refine Keeps.mkK ?_
    | with_reducible refine State.busDone_keeps ?_
    | with_reducible refine State.fwFail_keeps ?_
    | with_reducible refine State.busRetry_keeps ?_
    | with_reducible refine State.response_keeps ?_ (fun _ _ _ _ _ => ?_)
    | with_reducible refine Keeps.doAll ?_ (fun _ _ _ => ?_)
    | with_reducible refine Keeps.doIf ?_ (fun _ _ => ?_)
    | with_reducible refine Keeps.foldl ?_ (fun _ _ _ => ?_)
    | with_reducible refine Keeps.foldlFst ?_ (fun _ _ _ => ?_)
    | with_reducible refine Keeps.foldlSnd ?_ (fun _ _ _ => ?_)
    | with_reducible refine KeepsR.host ?_ (fun _ _ => ?_)
    | (lift_lets; intro x; clear_value x)
    | with_reducible refine Keeps.ofSnd (by assumption) ?_
    | with_reducible refine Keeps.ofFst (by assumption) ?_
    | split
    | dsimp only

theorem execDriverVersionTimeout_keeps {ρ : State} {p : Fin 8} {addr : BitVec 7} {s : State} (hk : Keeps ρ s) : KeepsR ρ (execDriverVersionTimeout p addr s) := by
  unfold execDriverVersionTimeout
  repeat' first
    | with_reducible assumption
    | with_reducible refine KeepsR.next ?_
    | fail_if_no_progress with_reducible refine Keeps.mkK ?_
    | with_reducible refine State.driverLost_keeps ?_
    | with_reducible refine Keeps.doAll ?_ (fun _ _ _ => ?_)
    | with_reducible refine Keeps.doIf ?_ (fun _ _ => ?_)
    | with_reducible refine Keeps.foldl ?_ (fun _ _ _ => ?_)
    | with_reducible refine Keeps.foldlFst ?_ (fun _ _ _ => ?_)
    | with_reducible refine Keeps.foldlSnd ?_ (fun _ _ _ => ?_)
    | with_reducible refine KeepsR.host ?_ (fun _ _ => ?_)
    | with_reducible refine Keeps.ofSnd (by assumption) ?_
    | with_reducible refine Keeps.ofFst (by assumption) ?_
    | split

theorem State.beginPass_keeps {ρ : State} {s : State} {t : Nat} (hk : Keeps ρ s) : Keeps ρ (State.beginPass s t) := by
  unfold State.beginPass
  repeat' first
    | with_reducible assumption
    | with_reducible refine KeepsR.next ?_
    | fail_if_no_progress with_reducible refine Keeps.mkK ?_
    | with_reducible refine State.modTask_keeps ?_

theorem execGlRun_keeps {ρ : State} {m : Fin 8} {s : State} (hk : Keeps ρ s) : KeepsR ρ (execGlRun m s) := by
  unfold execGlRun
  repeat' first
    | with_reducible assumption
    | with_reducible refine KeepsR.next ?_
    | fail_if_no_progress with_reducible refine Keeps.mkK ?_
    | with_reducible refine State.setOutcome_keeps ?_
    | with_reducible refine State.outcome0_keeps ?_
    | with_reducible refine State.withCmd_keeps ?_ (fun _ _ _ => ?_)
    | with_reducible refine State.beginHead_keeps ?_
    | with_reducible refine State.glStates_keeps ?_
    | with_reducible refine State.wake_keeps ?_
    | with_reducible refine State.beginPass_keeps ?_
    | with_reducible refine Keeps.doAll ?_ (fun _ _ _ => ?_)
    | with_reducible refine Keeps.doIf ?_ (fun _ _ => ?_)
    | with_reducible refine Keeps.foldl ?_ (fun _ _ _ => ?_)
    | with_reducible refine Keeps.foldlFst ?_ (fun _ _ _ => ?_)
    | with_reducible refine Keeps.foldlSnd ?_ (fun _ _ _ => ?_)
    | with_reducible refine KeepsR.host ?_ (fun _ _ => ?_)
    | (lift_lets; intro x; clear_value x)
    | with_reducible refine Keeps.ofSnd (by assumption) ?_
    | with_reducible refine Keeps.ofFst (by assumption) ?_
    | split
    | dsimp only

theorem execGlResults_keeps {ρ : State} {m : Fin 8} {s : State} (hk : Keeps ρ s) : KeepsR ρ (execGlResults m s) := by
  unfold execGlResults
  repeat' first
    | with_reducible assumption
    | with_reducible refine KeepsR.next ?_
    | fail_if_no_progress with_reducible refine Keeps.mkK ?_
    | with_reducible refine State.setOutcome_keeps ?_
    | with_reducible refine State.outcome0_keeps ?_
    | with_reducible refine State.withCmd_keeps ?_ (fun _ _ _ => ?_)
    | with_reducible refine Keeps.doAll ?_ (fun _ _ _ => ?_)
    | with_reducible refine Keeps.doIf ?_ (fun _ _ => ?_)
    | with_reducible refine Keeps.foldl ?_ (fun _ _ _ => ?_)
    | with_reducible refine Keeps.foldlFst ?_ (fun _ _ _ => ?_)
    | with_reducible refine Keeps.foldlSnd ?_ (fun _ _ _ => ?_)
    | with_reducible refine KeepsR.host ?_ (fun _ _ => ?_)
    | (lift_lets; intro x; clear_value x)
    | with_reducible refine Keeps.ofSnd (by assumption) ?_
    | with_reducible refine Keeps.ofFst (by assumption) ?_
    | split

theorem State.glCount_keeps {ρ : State} {s : State} {task : Nat} {g : GleanerStep} (hk : Keeps ρ s) : Keeps ρ (State.glCount s task g) := by
  unfold State.glCount
  repeat' first
    | with_reducible assumption
    | with_reducible refine KeepsR.next ?_
    | fail_if_no_progress with_reducible refine Keeps.mkK ?_
    | with_reducible refine State.modTask_keeps ?_
    | with_reducible refine State.count_keeps ?_
    | with_reducible refine State.addPartial_keeps ?_
    | with_reducible refine Keeps.doAll ?_ (fun _ _ _ => ?_)
    | with_reducible refine Keeps.doIf ?_ (fun _ _ => ?_)
    | with_reducible refine Keeps.foldl ?_ (fun _ _ _ => ?_)
    | with_reducible refine Keeps.foldlFst ?_ (fun _ _ _ => ?_)
    | with_reducible refine Keeps.foldlSnd ?_ (fun _ _ _ => ?_)
    | with_reducible refine KeepsR.host ?_ (fun _ _ => ?_)
    | (lift_lets; intro x; clear_value x)
    | with_reducible refine Keeps.ofSnd (by assumption) ?_
    | with_reducible refine Keeps.ofFst (by assumption) ?_
    | split
    | dsimp only

theorem State.glProgress_keeps {ρ : State} {s : State} {task : Nat} (hk : Keeps ρ s) : Keeps ρ (State.glProgress s task) := by
  unfold State.glProgress
  repeat' first
    | with_reducible assumption
    | with_reducible refine KeepsR.next ?_
    | fail_if_no_progress with_reducible refine Keeps.mkK ?_
    | with_reducible refine State.setFld_keeps ?_
    | with_reducible refine State.modHead_keeps ?_
    | with_reducible refine Keeps.doAll ?_ (fun _ _ _ => ?_)
    | with_reducible refine Keeps.doIf ?_ (fun _ _ => ?_)
    | with_reducible refine Keeps.foldl ?_ (fun _ _ _ => ?_)
    | with_reducible refine Keeps.foldlFst ?_ (fun _ _ _ => ?_)
    | with_reducible refine Keeps.foldlSnd ?_ (fun _ _ _ => ?_)
    | with_reducible refine KeepsR.host ?_ (fun _ _ => ?_)
    | (lift_lets; intro x; clear_value x)
    | with_reducible refine Keeps.ofSnd (by assumption) ?_
    | with_reducible refine Keeps.ofFst (by assumption) ?_
    | split
    | dsimp only

theorem State.endPass_keeps {ρ : State} {s : State} {task : Nat} (hk : Keeps ρ s) : Keeps ρ (State.endPass s task) := by
  unfold State.endPass
  repeat' first
    | with_reducible assumption
    | with_reducible refine KeepsR.next ?_
    | fail_if_no_progress with_reducible refine Keeps.mkK ?_
    | with_reducible refine State.modTask_keeps ?_
    | with_reducible refine State.count_keeps ?_
    | with_reducible refine State.raise2_keeps ?_
    | with_reducible refine State.raise_keeps ?_
    | with_reducible refine State.setOutcome_keeps ?_
    | with_reducible refine State.modHead_keeps ?_
    | with_reducible refine State.endDemand_keeps ?_
    | with_reducible refine Keeps.doAll ?_ (fun _ _ _ => ?_)
    | with_reducible refine Keeps.doIf ?_ (fun _ _ => ?_)
    | with_reducible refine Keeps.foldl ?_ (fun _ _ _ => ?_)
    | with_reducible refine Keeps.foldlFst ?_ (fun _ _ _ => ?_)
    | with_reducible refine Keeps.foldlSnd ?_ (fun _ _ _ => ?_)
    | with_reducible refine KeepsR.host ?_ (fun _ _ => ?_)
    | (lift_lets; intro x; clear_value x)
    | with_reducible refine Keeps.ofSnd (by assumption) ?_
    | with_reducible refine Keeps.ofFst (by assumption) ?_
    | split
    | dsimp only

theorem execGleanerStep_keeps {ρ : State} {task : Fin 8} {g : GleanerStep} {s : State} (hk : Keeps ρ s) : KeepsR ρ (execGleanerStep task g s) := by
  unfold execGleanerStep
  repeat' first
    | with_reducible assumption
    | with_reducible refine KeepsR.next ?_
    | fail_if_no_progress with_reducible refine Keeps.mkK ?_
    | with_reducible refine State.glCount_keeps ?_
    | with_reducible refine State.glProgress_keeps ?_
    | with_reducible refine State.endPass_keeps ?_
    | with_reducible refine Keeps.doAll ?_ (fun _ _ _ => ?_)
    | with_reducible refine Keeps.doIf ?_ (fun _ _ => ?_)
    | with_reducible refine Keeps.foldl ?_ (fun _ _ _ => ?_)
    | with_reducible refine Keeps.foldlFst ?_ (fun _ _ _ => ?_)
    | with_reducible refine Keeps.foldlSnd ?_ (fun _ _ _ => ?_)
    | with_reducible refine KeepsR.host ?_ (fun _ _ => ?_)
    | (lift_lets; intro x; refine Keeps.cut (r := ρ) (x := x) ?_ (fun hx => ?_); (on_goal 1 => dsimp only [x]); (on_goal 2 => clear_value x))
    | with_reducible refine Keeps.ofSnd (by assumption) ?_
    | with_reducible refine Keeps.ofFst (by assumption) ?_
    | split

theorem execGleanerResume_keeps {ρ : State} {ch : Fin 8} {s : State} (hk : Keeps ρ s) : KeepsR ρ (execGleanerResume ch s) := by
  unfold execGleanerResume
  repeat' first
    | with_reducible assumption
    | with_reducible refine KeepsR.next ?_
    | fail_if_no_progress with_reducible refine Keeps.mkK ?_
    | with_reducible refine State.modChan_keeps ?_
    | with_reducible refine State.glStates_keeps ?_

theorem State.tapLoad_keeps {ρ : State} {s : State} {ir : Byte} {driving : Bool} {highz : Bool} (hk : Keeps ρ s) : Keeps ρ (State.tapLoad s ir driving highz) := by
  unfold State.tapLoad
  repeat' first
    | with_reducible assumption
    | with_reducible refine KeepsR.next ?_
    | fail_if_no_progress with_reducible refine Keeps.mkK ?_

theorem State.tapTest_keeps {ρ : State} {s : State} {ir : Byte} {driving : Bool} {highz : Bool} {cells : Option (List Bool)} (hk : Keeps ρ s) : Keeps ρ (State.tapTest s ir driving highz cells) := by
  unfold State.tapTest
  repeat' first
    | with_reducible assumption
    | with_reducible refine KeepsR.next ?_
    | fail_if_no_progress with_reducible refine Keeps.mkK ?_
    | with_reducible refine State.tapLoad_keeps ?_
    | with_reducible refine Keeps.doAll ?_ (fun _ _ _ => ?_)
    | with_reducible refine Keeps.doIf ?_ (fun _ _ => ?_)
    | with_reducible refine Keeps.foldl ?_ (fun _ _ _ => ?_)
    | with_reducible refine Keeps.foldlFst ?_ (fun _ _ _ => ?_)
    | with_reducible refine Keeps.foldlSnd ?_ (fun _ _ _ => ?_)
    | with_reducible refine KeepsR.host ?_ (fun _ _ => ?_)
    | (lift_lets; intro x; refine Keeps.cut (r := ρ) (x := x) ?_ (fun hx => ?_); (on_goal 1 => dsimp only [x]); (on_goal 2 => clear_value x))
    | with_reducible refine Keeps.ofSnd (by assumption) ?_
    | with_reducible refine Keeps.ofFst (by assumption) ?_
    | split

theorem execTapReset_keeps {ρ : State} {s : State} (hk : Keeps ρ s) : KeepsR ρ (execTapReset s) := by
  unfold execTapReset
  repeat' first
    | with_reducible assumption
    | with_reducible refine KeepsR.next ?_
    | fail_if_no_progress with_reducible refine Keeps.mkK ?_

theorem execExtest_keeps {ρ : State} {cells : List Bool} {s : State} (hk : Keeps ρ s) : KeepsR ρ (execExtest cells s) := by
  unfold execExtest
  repeat' first
    | with_reducible assumption
    | with_reducible refine KeepsR.next ?_
    | fail_if_no_progress with_reducible refine Keeps.mkK ?_
    | with_reducible refine State.tapTest_keeps ?_

theorem execIdcode_keeps {ρ : State} {s : State} (hk : Keeps ρ s) : KeepsR ρ (execIdcode s) := by
  unfold execIdcode
  repeat' first
    | with_reducible assumption
    | with_reducible refine KeepsR.next ?_
    | fail_if_no_progress with_reducible refine Keeps.mkK ?_
    | with_reducible refine State.tapLoad_keeps ?_

theorem execSamplePreload_keeps {ρ : State} {cells : List Bool} {s : State} (hk : Keeps ρ s) : KeepsR ρ (execSamplePreload cells s) := by
  unfold execSamplePreload
  repeat' first
    | with_reducible assumption
    | with_reducible refine KeepsR.next ?_
    | fail_if_no_progress with_reducible refine Keeps.mkK ?_
    | with_reducible refine State.tapLoad_keeps ?_

theorem execExtestPulse_keeps {ρ : State} {s : State} (hk : Keeps ρ s) : KeepsR ρ (execExtestPulse s) := by
  unfold execExtestPulse
  repeat' first
    | with_reducible assumption
    | with_reducible refine KeepsR.next ?_
    | fail_if_no_progress with_reducible refine Keeps.mkK ?_
    | with_reducible refine State.tapTest_keeps ?_

theorem execExtestTrain_keeps {ρ : State} {s : State} (hk : Keeps ρ s) : KeepsR ρ (execExtestTrain s) := by
  unfold execExtestTrain
  repeat' first
    | with_reducible assumption
    | with_reducible refine KeepsR.next ?_
    | fail_if_no_progress with_reducible refine Keeps.mkK ?_
    | with_reducible refine State.tapTest_keeps ?_

theorem execClamp_keeps {ρ : State} {s : State} (hk : Keeps ρ s) : KeepsR ρ (execClamp s) := by
  unfold execClamp
  repeat' first
    | with_reducible assumption
    | with_reducible refine KeepsR.next ?_
    | fail_if_no_progress with_reducible refine Keeps.mkK ?_
    | with_reducible refine State.tapTest_keeps ?_

theorem execHighz_keeps {ρ : State} {s : State} (hk : Keeps ρ s) : KeepsR ρ (execHighz s) := by
  unfold execHighz
  repeat' first
    | with_reducible assumption
    | with_reducible refine KeepsR.next ?_
    | fail_if_no_progress with_reducible refine Keeps.mkK ?_
    | with_reducible refine State.tapTest_keeps ?_

theorem execBypass_keeps {ρ : State} {code : Byte} {s : State} (hk : Keeps ρ s) : KeepsR ρ (execBypass code s) := by
  unfold execBypass
  repeat' first
    | with_reducible assumption
    | with_reducible refine KeepsR.next ?_
    | fail_if_no_progress with_reducible refine Keeps.mkK ?_
    | with_reducible refine State.tapLoad_keeps ?_

theorem State.stillFrame_keeps {ρ : State} {s : State} {g : Nat} (hk : Keeps ρ s) : Keeps ρ (State.stillFrame s g) := by
  unfold State.stillFrame
  repeat' first
    | with_reducible assumption
    | with_reducible refine KeepsR.next ?_
    | fail_if_no_progress with_reducible refine Keeps.mkK ?_
    | with_reducible refine State.modGroup_keeps ?_
    | with_reducible refine State.setFlag_keeps ?_
    | with_reducible refine State.count_keeps ?_
    | with_reducible refine State.raise2_keeps ?_
    | with_reducible refine Keeps.doAll ?_ (fun _ _ _ => ?_)
    | with_reducible refine Keeps.doIf ?_ (fun _ _ => ?_)

theorem State.ditherFrame_keeps {ρ : State} {s : State} {h : Nat} (hk : Keeps ρ s) : Keeps ρ (State.ditherFrame s h) := by
  unfold State.ditherFrame
  repeat' first
    | with_reducible assumption
    | with_reducible refine KeepsR.next ?_
    | fail_if_no_progress with_reducible refine Keeps.mkK ?_
    | with_reducible refine State.modHeadOf_keeps ?_

theorem State.crcLatch_keeps {ρ : State} {s : State} {g : Nat} (hk : Keeps ρ s) : Keeps ρ (State.crcLatch s g) := by
  unfold State.crcLatch
  repeat' first
    | with_reducible assumption
    | with_reducible refine KeepsR.next ?_
    | fail_if_no_progress with_reducible refine Keeps.mkK ?_
    | with_reducible refine State.modGroup_keeps ?_

theorem State.headOnce_keeps {ρ : State} {s : State} {h : Nat} (hk : Keeps ρ s) : Keeps ρ (State.headOnce s h) := by
  unfold State.headOnce
  repeat' first
    | with_reducible assumption
    | with_reducible refine KeepsR.next ?_
    | fail_if_no_progress with_reducible refine Keeps.mkK ?_
    | with_reducible refine State.clearOnce_keeps ?_
    | with_reducible refine Keeps.doAll ?_ (fun _ _ _ => ?_)

theorem State.headBudget_keeps {ρ : State} {s : State} {h : Nat} (hk : Keeps ρ s) : Keeps ρ (State.headBudget s h) := by
  unfold State.headBudget
  repeat' first
    | with_reducible assumption
    | with_reducible refine KeepsR.next ?_
    | fail_if_no_progress with_reducible refine Keeps.mkK ?_
    | with_reducible refine State.modHeadOf_keeps ?_
    | with_reducible refine State.count_keeps ?_
    | with_reducible refine State.raise_keeps ?_
    | with_reducible refine Keeps.doAll ?_ (fun _ _ _ => ?_)
    | with_reducible refine Keeps.doIf ?_ (fun _ _ => ?_)
    | with_reducible refine Keeps.foldl ?_ (fun _ _ _ => ?_)
    | with_reducible refine Keeps.foldlFst ?_ (fun _ _ _ => ?_)
    | with_reducible refine Keeps.foldlSnd ?_ (fun _ _ _ => ?_)
    | with_reducible refine KeepsR.host ?_ (fun _ _ => ?_)
    | (lift_lets; intro x; clear_value x)
    | with_reducible refine Keeps.ofSnd (by assumption) ?_
    | with_reducible refine Keeps.ofFst (by assumption) ?_
    | split
    | dsimp only

theorem State.headFrame_keeps {ρ : State} {s : State} {h : Nat} (hk : Keeps ρ s) : Keeps ρ (State.headFrame s h) := by
  unfold State.headFrame
  repeat' first
    | with_reducible assumption
    | with_reducible refine KeepsR.next ?_
    | fail_if_no_progress with_reducible refine Keeps.mkK ?_
    | with_reducible refine State.modPort_keeps ?_
    | with_reducible refine State.modBandOf_keeps ?_
    | with_reducible refine State.modHeadOf_keeps ?_
    | with_reducible refine State.ditherFrame_keeps ?_
    | with_reducible refine State.headOnce_keeps ?_
    | with_reducible refine State.headBudget_keeps ?_
    | with_reducible refine Keeps.doAll ?_ (fun _ _ _ => ?_)
    | with_reducible refine Keeps.doIf ?_ (fun _ _ => ?_)

theorem State.darkFrame_keeps {ρ : State} {s : State} {g : Nat} (hk : Keeps ρ s) : Keeps ρ (State.darkFrame s g) := by
  unfold State.darkFrame
  repeat' first
    | with_reducible assumption
    | with_reducible refine KeepsR.next ?_
    | fail_if_no_progress with_reducible refine Keeps.mkK ?_
    | with_reducible refine State.modHeadOf_keeps ?_
    | with_reducible refine Keeps.doAll ?_ (fun _ _ _ => ?_)

theorem State.pictureFrame_keeps {ρ : State} {s : State} {g : Nat} (hk : Keeps ρ s) : Keeps ρ (State.pictureFrame s g) := by
  unfold State.pictureFrame
  repeat' first
    | with_reducible assumption
    | with_reducible refine KeepsR.next ?_
    | fail_if_no_progress with_reducible refine Keeps.mkK ?_
    | with_reducible refine State.countWrap_keeps ?_
    | with_reducible refine State.clearOnce_keeps ?_
    | with_reducible refine State.fqBoundary_keeps ?_
    | with_reducible refine State.frameSheaves_keeps ?_
    | with_reducible refine State.stillFrame_keeps ?_
    | with_reducible refine State.crcLatch_keeps ?_
    | with_reducible refine State.headFrame_keeps ?_
    | with_reducible refine State.darkFrame_keeps ?_
    | with_reducible refine Keeps.doAll ?_ (fun _ _ _ => ?_)

theorem State.lightFrame_keeps {ρ : State} {s : State} {g : Nat} (hk : Keeps ρ s) : Keeps ρ (State.lightFrame s g) := by
  unfold State.lightFrame
  repeat' first
    | with_reducible assumption
    | with_reducible refine KeepsR.next ?_
    | fail_if_no_progress with_reducible refine Keeps.mkK ?_
    | with_reducible refine State.modGroup_keeps ?_
    | with_reducible refine State.supplySync_keeps ?_
    | with_reducible refine State.bankFrame_keeps ?_
    | with_reducible refine State.updateFrame_keeps ?_
    | with_reducible refine State.zoneFrame_keeps ?_
    | with_reducible refine State.ccFrame_keeps ?_
    | with_reducible refine Keeps.doAll ?_ (fun _ _ _ => ?_)

theorem State.monFrame_keeps {ρ : State} {s : State} {g : Nat} (hk : Keeps ρ s) : Keeps ρ (State.monFrame s g) := by
  unfold State.monFrame
  repeat' first
    | with_reducible assumption
    | with_reducible refine KeepsR.next ?_
    | fail_if_no_progress with_reducible refine Keeps.mkK ?_
    | with_reducible refine Keeps.doAll ?_ (fun _ _ _ => ?_)
    | with_reducible refine Keeps.doIf ?_ (fun _ _ => ?_)
    | with_reducible refine Keeps.foldl ?_ (fun _ _ _ => ?_)
    | with_reducible refine Keeps.foldlFst ?_ (fun _ _ _ => ?_)
    | with_reducible refine Keeps.foldlSnd ?_ (fun _ _ _ => ?_)
    | with_reducible refine KeepsR.host ?_ (fun _ _ => ?_)
    | (lift_lets; intro x; clear_value x)
    | with_reducible refine Keeps.ofSnd (by assumption) ?_
    | with_reducible refine Keeps.ofFst (by assumption) ?_
    | split

theorem execFrameBoundary_keeps {ρ : State} {g : Fin 4} {s : State} (hk : Keeps ρ s) : KeepsR ρ (execFrameBoundary g s) := by
  unfold execFrameBoundary
  repeat' first
    | with_reducible assumption
    | with_reducible refine KeepsR.next ?_
    | fail_if_no_progress with_reducible refine Keeps.mkK ?_
    | with_reducible refine State.pace_keeps ?_
    | with_reducible refine State.lineFrame_keeps ?_
    | with_reducible refine State.clearsDone_keeps ?_
    | with_reducible refine State.fwFrame_keeps ?_
    | with_reducible refine State.pictureFrame_keeps ?_
    | with_reducible refine State.lightFrame_keeps ?_
    | with_reducible refine State.monFrame_keeps ?_
    | with_reducible refine Keeps.doAll ?_ (fun _ _ _ => ?_)
    | with_reducible refine Keeps.doIf ?_ (fun _ _ => ?_)
    | with_reducible refine Keeps.foldl ?_ (fun _ _ _ => ?_)
    | with_reducible refine Keeps.foldlFst ?_ (fun _ _ _ => ?_)
    | with_reducible refine Keeps.foldlSnd ?_ (fun _ _ _ => ?_)
    | with_reducible refine KeepsR.host ?_ (fun _ _ => ?_)
    | (lift_lets; intro x; refine Keeps.cut (r := ρ) (x := x) ?_ (fun hx => ?_); (on_goal 1 => dsimp only [x]); (on_goal 2 => clear_value x))
    | with_reducible refine Keeps.ofSnd (by assumption) ?_
    | with_reducible refine Keeps.ofFst (by assumption) ?_
    | split

end Sys2Proof.Machine
end

