-- ==== Sys2Proof/Laws/Only.lean ====
section
/-!
SUPPORT. The frames of Safety.lean composed: what only some words, or only some event sources, can differ in, through one
update after the other; and the field and counter updates as frames.
-/

namespace Sys2Proof.Machine

variable {s t u : State} {ks js is ls : List Nat} {f g : Field} {v n i a b k j : Nat}

/-! ## Writes of one table entry twice -/

theorem tabErase_insert {α : Type} {v : α} {t : Tab α} : tabErase k (tabInsert k v t) = tabErase k t := by
  induction t with
  | nil => simp [tabInsert, tabErase]
  | cons e t ih =>
    obtain ⟨j, w⟩ := e
    by_cases h : k < j
    · simp [tabInsert, tabErase, h]
    · by_cases hj : j = k
      · simp [tabInsert, tabErase, hj, ih]
      · simp [tabInsert, tabErase, h, hj, ih]

theorem tabErase_erase {α : Type} {t : Tab α} : tabErase k (tabErase k t) = tabErase k t := by
  induction t with
  | nil => rfl
  | cons e t ih =>
    obtain ⟨j, w⟩ := e
    by_cases hj : j = k
    · simp [tabErase, hj, ih]
    · simp [tabErase, hj, ih]

/-- The later of two writes of one number stands. -/
theorem tabSet_tabSet {α : Type} [DecidableEq α] {d : Nat → α} {t : Tab α} {v w : α} :
    tabSet d (tabSet d t k v) k w = tabSet d t k w := by
  have h : tabErase k (tabSet d t k v) = tabErase k t := by
    unfold tabSet
    split
    · exact tabErase_erase
    · rw [tabErase_insert, tabErase_erase]
  rw [tabSet, h, ← tabSet]

theorem State.setWord_setWord {v w : Word} : (s.setWord k v).setWord k w = s.setWord k w := by
  simp only [State.setWord, tabSet_tabSet]

/-! ## Words -/

theorem OnlyWords.refl : OnlyWords ks s s := fun _ _ => rfl

theorem OnlyWords.trans (h : OnlyWords ks s t) (h' : OnlyWords ks t u) : OnlyWords ks s u :=
  fun k hk => (h' k hk).trans (h k hk)

theorem OnlyWords.mono (h : OnlyWords ks s t) (hs : ∀ k ∈ ks, k ∈ js) : OnlyWords js s t :=
  fun k hk => h k (fun hm => hk (hs k hm))

theorem OnlyWords.of_word (h : ∀ k, t.word k = s.word k) : OnlyWords ks s t := fun k _ => h k

theorem OnlyWords.setWord {w : Word} (h : k ∈ ks) : OnlyWords ks s (s.setWord k w) :=
  fun _ hj => State.word_setWord_other (fun he => hj (he ▸ h))

theorem OnlyWords.setFld (h : f.key ∈ ks) : OnlyWords ks s (s.setFld f v) := OnlyWords.setWord h

theorem OnlyWords.count (h : f.key ∈ ks) : OnlyWords ks s (s.count f n) := OnlyWords.setFld h

theorem OnlyWords.raise2 : OnlyWords ks s (s.raise2 i a b) := fun _ _ => State.word_raise2

theorem OnlyWords.fld (h : OnlyWords ks s t) (hf : f.key ∉ ks) : t.fld f = s.fld f := State.fld_congr (h _ hf)

/-! ## Event sources -/

theorem OnlyEvents.of_ev (h : t.ev = s.ev) : OnlyEvents is s t := by
  refine ⟨fun i _ _ => ⟨?_, ?_⟩, by rw [h], by rw [h]⟩
  · simp only [State.latched, h]
  · simp only [State.evData, h]

theorem OnlyEvents.refl : OnlyEvents is s s := OnlyEvents.of_ev rfl

theorem OnlyEvents.trans (h : OnlyEvents is s t) (h' : OnlyEvents is t u) : OnlyEvents is s u :=
  ⟨fun i hi hl => ⟨((h'.1 i hi hl).1).trans (h.1 i hi hl).1, ((h'.1 i hi hl).2).trans (h.1 i hi hl).2⟩,
    h'.2.1.trans h.2.1, h'.2.2.trans h.2.2⟩

theorem OnlyEvents.mono (h : OnlyEvents is s t) (hs : ∀ i ∈ is, i ∈ ls) : OnlyEvents ls s t :=
  ⟨fun i hi hl => h.1 i (fun hm => hi (hs i hm)) hl, h.2⟩

/-! ## Counters -/

theorem Counted.count (h : f.lo + f.width ≤ 32) : Counted f n s (s.count f n) := State.fld_count_same h

theorem Counted.of_fld (h : Counted f n s t) (hf : u.fld f = t.fld f) : Counted f n s u := hf.trans h

end Sys2Proof.Machine
end

