-- ==== Sys2Proof/Laws/Start.lean ====
section
/-!
SUPPORT. What the parts of a start (R347 to R353) leave of the start's own record.
-/

namespace Sys2Proof.Machine

theorem State.startHeads_boot (s : State) : s.startHeads.boot = s.boot := by
  unfold State.startHeads
  split
  · generalize s.waitingHeads = l
    suffices h : ∀ p : State × List Nat, ((l.foldl (fun (p : State × List Nat) e =>
      (if canTake p.2 e.2.resources then p.1.modHead e.1 (fun c => { c with state := MB_RUNNING }) else p.1,
       p.2 ++ e.2.resources)) p).1).boot = p.1.boot from h _
    induction l with
    | nil => intro p; rfl
    | cons e l ih =>
      intro p
      rw [List.foldl_cons, ih]
      dsimp only
      split <;> rfl
  · rfl

theorem State.mapOut_boot (s : State) (c : Nat) : (s.mapOut c).boot = s.boot := by
  unfold State.mapOut
  split
  · split <;> rfl
  · rfl

theorem State.applyBootSettings_boot (s : State) : s.applyBootSettings.boot = s.boot := by
  unfold State.applyBootSettings
  extract_lets l t
  split
  · refine (State.doAll_keep State.boot (fun u e => ?_)).trans rfl
    unfold State.bootPair
    split
    · split
      · rfl
      · rfl
    · rfl
  · rfl

theorem State.trained_boot (s : State) : s.trained.boot = { s.boot with granaryOk := true } := by
  unfold State.trained
  extract_lets t t2
  have : t2.boot = s.boot := by
    show t.boot = s.boot
    exact State.doAll_keep State.boot (fun u c => State.mapOut_boot _ _)
  show ({ t2.boot with granaryOk := true } : Boot) = _
  rw [this]

theorem State.trainFailed_boot (s : State) (env : StartEnv) : (s.trainFailed env).boot = s.boot :=
  State.doAll_keep State.boot (fun _ _ => rfl)

theorem State.enterFallow_boot (s : State) (r : Nat) (env : StartEnv) : ∃ g, (s.enterFallow r env).boot =
    { s.boot with phase := FALLOW, reason := r, loaderStep := 3, granaryOk := g } ∧ (r = FR_CELLAR → g = s.boot.granaryOk) := by
  unfold State.enterFallow
  extract_lets src t t2
  split
  · exact ⟨s.boot.granaryOk, State.startHeads_boot _, fun _ => rfl⟩
  next h =>
    have h2 : t2.boot = t.boot := State.applyBootSettings_boot t
    split
    · exact ⟨true, by rw [State.startHeads_boot, State.trained_boot, h2], fun h' => absurd (Or.inr h') h⟩
    · exact ⟨s.boot.granaryOk, by rw [State.startHeads_boot, State.trainFailed_boot, h2], fun _ => rfl⟩

end Sys2Proof.Machine
end

