-- ==== Sys2Proof/WellFormed.lean ====
section
/-!
DEFINITION. Which commands the outside world can send: the operands that the interfaces and the converters can bring. A
command that is not well formed has a meaning too, but stands for nothing that happens.
-/

namespace Sys2Proof

/-- Sizes, alignments and lengths of a command's operands: host accesses of 1, 2, 4 or 8 bytes within the state map (R292),
VIDEO_LINE payloads of whole blocks (R39, R51), STATUS packets of at most 12 payload blocks between their two framing
characters (R42, R306), columns of 17 lanes, those not in use with any bits (R50), raster and array positions (R73), one reading of a triad (R208), line requests of the Granary with their 64
bytes (R242), words of 40 symbols (R244), one MR4 field a chip select (R255), accesses inside BAR2 (R293), SPI data of 4
bytes a word (R296), frames of the driver bus of at most 69 bytes (R172), and the boundary register (R393). -/
def Instr.wf : Instr → Bool
  | .stateWordWrite _ size off _ => [1, 2, 4, 8].contains size && decide (off < 0x4000000)
  | .capsReceive _ l => decide (l.length ≤ 226)
  | .statusPacket _ l => decide (l.length ≤ 226)
  | .amColumn _ l => decide (l.length = 17)
  | .receiveBadHeader _ _ l => decide (l.length = 17)
  | .videoLine _ _ payload _ _ => decide (payload.length % 16 = 0)
  | .pixelDue _ x y _ => decide (x < 8192) && decide (y < 16384)
  | .colourPipelinePixel _ x y _ _ _ => decide (x < 8192) && decide (y < 16384)
  | .cellRowComplete _ m => decide (m < 160)
  | .threshPixel _ x y => decide (x < 8192) && decide (y < 16384)
  | .measureSlotEnd _ _ l => decide (l.map (·.triad)).Nodup
  | .calRun _ l => decide (l.map (·.unit)).Nodup
  | .telem _ f _ => decide (f.length ≤ 69)
  | .ack _ f => decide (f.length ≤ 69)
  | .ident _ f _ => decide (f.length ≤ 69)
  | .zoneFaults _ f _ => decide (f.length ≤ 69)
  | .fwQuery _ f => decide (f.length ≤ 69)
  | .fwCheck _ f => decide (f.length ≤ 69)
  | .granaryRequest _ a w _ d => decide (a.toNat % 64 = 0) && decide (d.length = if w then 64 else 0)
  | .readDecode _ a l => decide (a.toNat % 64 = 0) && decide (l.length = 40)
  | .migrationLineCopy _ l => decide (l.length = 40)
  | .alertN _ _ a _ => decide (a.toNat % 64 = 0)
  | .mr4Poll _ op _ => decide (op.length = 4)
  | .bar2Read _ off n => decide (off.toNat + n ≤ 2 ^ 30)
  | .bar2Write _ off d => decide (off.toNat + d.length ≤ 2 ^ 30)
  | .spiWrite _ n d _ _ => decide (d.length = 4 * n.toNat)
  | .spiQuadWrite _ n d _ _ => decide (d.length = 4 * n.toNat)
  | .spiUnknownOpcode op => !([0x0B, 0xEB, 0x02, 0x38, 0x05, 0x9F].contains op.toNat)
  | .sensorSample _ raw _ => decide (-32768 ≤ raw) && decide (raw < 65536)
  | .gleanerStep t g => decide (0 < t.val) && decide (g.kind ≤ 3)
  | .extest l => decide (l.length = 2804)
  | .samplePreload l => decide (l.length = 2804)
  | .bypass code => decide (6 < code.toNat)
  | .dcsReadResponse _ l => decide (l.length ≤ 255)
  | .por | .rstN | .resetRelease .. | .watchdogExpiry | .startStable | .devResetDelayExpiry | .pciePerstRelease
  | .d3hotEntry | .functionLevelReset | .hotReset | .linkDown | .replicaMeasurement .. | .avsbusTransactionFail
  | .avsRetry .. | .clearCounts .. | .blockEnable .. | .headEnable .. | .headDisable .. | .ingestEnable ..
  | .retrain .. | .rasterEnable .. | .monitorEnable .. | .laneBlockLock .. | .laneLossOfLock ..
  | .trainingTimeout .. | .tallyLockAcquired .. | .tallyLoss .. | .cmdStatusTimeout ..
  | .loadTimingTimeout .. | .eqReq .. | .eqDone .. | .deskewDone .. | .laneLock .. | .laneHealth ..
  | .laneMapSwitch .. | .bandOk .. | .bandErr .. | .bandStale .. | .lineErr .. | .fault .. | .bandTallyTimeout ..
  | .packetBoundary .. | .resetColumn .. | .sweepStart .. | .lineStartColumn .. | .frameBoundary .. | .fetchStart ..
  | .bandTagCheck .. | .lineBoundary .. | .lastActiveLineEnd .. | .crcLearn .. | .fqSubmit .. | .fqSlotWrite ..
  | .fqSlotRegister .. | .fqSlotUnregister .. | .fqRetiredPop .. | .bandCopyReady .. | .decisionInstant ..
  | .slotStart .. | .edgeInstant .. | .diagnosisSample .. | .ccLearn .. | .triadClearSuspect .. | .crossingMiss ..
  | .ilkNFall .. | .lenArm .. | .lenForceOff .. | .loopSample .. | .loopEvaluation .. | .outputInstant ..
  | .loopClearFault .. | .pgTargetWrite .. | .injectorStart .. | .injectorStop .. | .injectionEnd .. | .captureArm ..
  | .captureAbort .. | .captureFillEnd | .latchAll .. | .telemPoll .. | .pmbusTransactionFail ..
  | .dbResponseTimeout .. | .driverVersionTimeout .. | .stringClearFault .. | .bankRearm .. | .fadeIn ..
  | .fadeOut .. | .standby .. | .breathe .. | .zoneStep .. | .zoneSwap .. | .zoneClearFault .. | .monitorRefresh
  | .dsiTeEdge .. | .teTimeout | .subchannelCommandIssue .. | .idleDrain .. | .refreshTick .. | .zqCalibration
  | .rhWindowEnd .. | .spiRead .. | .spiQuadRead .. | .readStatus | .readId
  | .mailboxDoorbell .. | .mailboxAck .. | .mailboxAbort .. | .mbStatusRead .. | .mailboxCommandComplete ..
  | .devPing .. | .devInfo .. | .devReset .. | .devFence .. | .devStateWrite .. | .headCmd .. | .seqLoad ..
  | .tsLoadTable .. | .lmLoadTable .. | .monDcs .. | .lightFade .. | .lightClearFault .. | .lightRearm ..
  | .znClearFault .. | .ceMove .. | .ceCaptureRead .. | .memDma .. | .memFill .. | .memSpare .. | .memSelfRefresh ..
  | .memErrlog .. | .calRead .. | .fwStage .. | .fwApply .. | .fwConfirm .. | .fwRollback ..
  | .fwFlashErase .. | .fwFlashWrite .. | .setSave .. | .setExport .. | .setImport .. | .idRead .. | .idAttest ..
  | .idCert .. | .glRun .. | .glResults .. | .testEvent .. | .evLatchWrite .. | .evEnableWrite ..
  | .msixVectorUnmask .. | .shAllocRead .. | .shValueWrite .. | .sheafCommit .. | .sheafValidate .. | .sheafAbort ..
  | .sheafRelease .. | .sheafApply .. | .sheafCompletion .. | .sfAcceptance .. | .handoverTimeout
  | .sensorAutoRestore .. | .sensorClearSuspect .. | .offsetRecord .. | .trackedDwellExpiry .. | .budgetUpdate
  | .throttleHoldEnd | .nvWindowOpen | .edgeTrack .. | .edgeTrackSwitch .. | .gleanerResume .. | .tapReset | .idcode
  | .extestPulse | .extestTrain | .clamp | .highz | .configurationSpaceWrite .. | .pcieLinkUp ..
  | .dcsResponseTimeout | .moveTimeout .. => true

end Sys2Proof
end

