-- ==== Sys2Proof/Tests/Slice0.lean ====
section
/-!
SUPPORT. Tests: the checks of WellFormed refuse; values that the spec works out come out of the model; and for every
statement with hypotheses a concrete state and operands that meet them.
-/

namespace Sys2Proof.Tests

-- The tests are checked one after the other: side by side they take too much memory.
set_option Elab.async false

open Sys2Proof.Machine

/-! ## States -/

/-- The state that a command answers. -/
def after : Result → State
  | .next t => t
  | _ => State.reset

/-- Fields written one after the other. -/
def sets (s : State) (l : List (Field × Nat)) : State := l.foldl (fun t e => t.setFld e.1 e.2) s

/-- A PN9440 in phase RUNNING with its PCIe link up. -/
def live : State :=
  { State.reset with
    boot := { Boot.reset with
      phase := RUNNING, granaryOk := true, cellarOk := true, porLow := false, rstLow := false, highZ := false }
    fuses := { Fuses.reset with pn9440 := true }
    pcie := { Pcie.reset with
      perstLow := false, training := true, gen := 3, width := 4, memDecode := true, busMaster := true
      msixEnable := true, masked := 0 } }

/-- The same with 1 GiB of Granary. -/
def memory : State := sets live [(GR_CAPACITY_capacity_gib, 1), (GR_CTRL_in_sr, 0)]

/-- Head 0 in group 0, plane mode, enabled, ACTIVE, two bands, an array of 8 by 8. -/
def shown : State :=
  sets memory [(HD_TOPOLOGY_head0_group, 0), (HD_RVH_CTRL_enable 0, 1), (HD_RVH_STATUS_state 0, ACTIVE),
    (HD_RASTER0_enable 0, 1), (SQ_CTRL_bands 0, 2), (HD_RASTER1_h_active 0, 8), (HD_RASTER3_v_active 0, 8),
    (CP_HEAD_CTRL_comp_mask 0, 1)]

/-- A slot of head 0's list in bank 0. -/
def withSlot (s : State) (k n : Nat) : State :=
  (s.setWord (slotKey 0 0 k) (BitVec.ofNat 32 n)).setWord (slotKey 0 0 k + 1) (BitVec.ofNat 32 (n / 2 ^ 32))

/-- A slot word (R119). -/
def slotWord (op w duration prim : Nat) : Nat := op + w * 2 ^ 10 + duration * 2 ^ 14 + prim * 2 ^ 36

/-- Head 0 with one LIGHT slot that string 9 of bank 1 lights on output 33. -/
def lit : State :=
  sets (withSlot shown 0 (slotWord opLight 1 5000 0)) [(LS_BANK0_enable 1, 1), (LS_BANK0_head 1, 0),
    (LS_STRING0_enable 9, 1), (LS_STRING0_bank 9, 1), (LS_STRING0_tout 9, 33), (LS_LEVEL_eff_mask 1 0, 1)]

/-- A command that runs as the head of mailbox 2. -/
def command (code : Nat) (args : List Nat) : MbCmd :=
  { id := 1, code := code, nArgs := args.length, kind := 0, target := 0, band := 0, tag := 5
    args := args.map (BitVec.ofNat 32), spi := false, state := MB_RUNNING, result := 0, outcome := none, progress := 0
    partials := 0, newPartial := true, sheaf := none, orphan := false, begun := false, done := 0, since := 0 }

/-- Mailbox 2 holds `l`. -/
def held (s : State) (l : List MbCmd) : State := s.setMbox 2 { Mailbox.reset with cmds := l }

/-- The CRC-8 of a tally message. -/
def tallyCrc (type : Nat) (arg : BitVec 48) : Byte := BitVec.ofNat 8 (crcTally (BitVec.ofNat 8 type :: natLe 6 arg.toNat))

/-- A response frame of a driver (R173). -/
def driverSays (a op : Nat) (payload : List Byte) : List Byte :=
  let body : List Byte := BitVec.ofNat 8 a :: BitVec.ofNat 8 (op + 128) :: BitVec.ofNat 8 payload.length :: payload
  0x4B#8 :: body ++ [BitVec.ofNat 8 (crcDriver body)]

/-- What a taken plain write needs, as one Bool. -/
def takesB (s : State) (i : Iface) (idx : Nat) (v : Word) : Bool :=
  s.hostUp i && s.boot.phase == RUNNING && (locate idx).any (fun e =>
    !s.absent e.1.blk e.2 && !s.windowBusy e.1.blk (unitOf e.2) && s.plainCode e.1 e.2 idx v == 0)

theorem takes_of {s : State} {i : Iface} {idx : Nat} {v : Word} (h : takesB s i idx v = true) : Takes s i idx v := by
  simp only [takesB, Bool.and_eq_true, beq_iff_eq, Option.any_eq_true, Bool.not_eq_true'] at h
  obtain ⟨⟨h1, h2⟩, ⟨r, ns⟩, h3, ⟨h4, h5⟩, h6⟩ := h
  exact ⟨h1, h2, r, ns, h3, h4, h5, h6⟩

/-! ## Ill-formed commands -/

theorem test_wf_refuses :
    Instr.wf (.stateWordWrite .pcie 3 0 0) = false ∧ Instr.wf (.stateWordWrite .pcie 4 0x4000000 0) = false ∧
    (∀ l ∈ [List.replicate 227 (0 : BitVec 9)], Instr.wf (.statusPacket 0 l) = false ∧ Instr.wf (.capsReceive 0 l) = false) ∧
    Instr.wf (.amColumn 0 []) = false ∧ Instr.wf (.receiveBadHeader 0 0 []) = false ∧
    Instr.wf (.videoLine 0 0 [1] 0 true) = false ∧ Instr.wf (.pixelDue 0 8192 0 0) = false ∧ Instr.wf (.pixelDue 0 0 16384 0) = false ∧
    Instr.wf (.colourPipelinePixel 0 8192 0 0 0 0) = false ∧ Instr.wf (.colourPipelinePixel 0 0 16384 0 0 0) = false ∧
    Instr.wf (.cellRowComplete 0 160) = false ∧ Instr.wf (.threshPixel 0 8192 0) = false ∧ Instr.wf (.threshPixel 0 0 16384) = false ∧
    (∀ f ∈ [List.replicate 70 (0 : Byte)], Instr.wf (.telem 0 f 0) = false ∧ Instr.wf (.ack 0 f) = false ∧
      Instr.wf (.ident 0 f 0) = false ∧ Instr.wf (.zoneFaults 0 f 0) = false ∧ Instr.wf (.fwQuery 0 f) = false ∧
      Instr.wf (.fwCheck 0 f) = false) := by
  decide +kernel

theorem test_wf_refuses_more :
    (∀ r ∈ [(⟨1, []⟩ : TriadReading)], Instr.wf (.measureSlotEnd 0 0 [r, r]) = false) ∧
    Instr.wf (.granaryRequest 0 1 false 0 []) = false ∧ Instr.wf (.granaryRequest 0 64 true 0 []) = false ∧
    Instr.wf (.readDecode 0 1 (List.replicate 40 0)) = false ∧ Instr.wf (.readDecode 0 0 []) = false ∧
    Instr.wf (.migrationLineCopy 0 []) = false ∧ (∀ x ∈ [(⟨1, [], []⟩ : CalMeasure)], Instr.wf (.calRun 0 [x, x]) = false) ∧
    Instr.wf (.alertN 0 0 1 false) = false ∧ Instr.wf (.mr4Poll 0 [] 0) = false ∧ Instr.wf (.bar2Read .pcie 1 (2 ^ 30)) = false ∧
    Instr.wf (.bar2Write .pcie (-1) [0, 0]) = false ∧ Instr.wf (.spiWrite 0 1 [] 0 false) = false ∧ Instr.wf (.spiQuadWrite 0 1 [] 0 false) = false ∧
    Instr.wf (.spiUnknownOpcode 0x0B) = false ∧ Instr.wf (.sensorSample 0 65536 false) = false ∧
    Instr.wf (.sensorSample 0 (-32769) false) = false ∧ Instr.wf (.gleanerStep 0 ⟨0, 0, 0, 0, false, []⟩) = false ∧
    Instr.wf (.gleanerStep 1 ⟨0, 4, 0, 0, false, []⟩) = false ∧ Instr.wf (.extest []) = false ∧ Instr.wf (.samplePreload []) = false ∧
    Instr.wf (.bypass 6) = false ∧ Instr.wf (.dcsReadResponse 0 (List.replicate 256 0)) = false := by
  decide +kernel

/-! ## Values that the spec works out -/

/-- "123456789" in ASCII. -/
def digits : List Byte := [0x31, 0x32, 0x33, 0x34, 0x35, 0x36, 0x37, 0x38, 0x39]

/-- The check values of R42, R173, R39 and R296. -/
theorem test_crc_check_values :
    crcTally digits = 0xF4 ∧ crcDriver digits = 0xDF ∧ crc32 digits = 0xCBF43926 ∧ crcSpi digits = 0x29B1 := by
  decide +kernel

/-- The example under R174: LATCH_ALL with tag 0x2C. -/
theorem test_latch_all_frame : busFrame 0x7F 0x04 [0x2C] = [0x5A, 0x7F, 0x04, 0x01, 0x2C, 0x77] := by decide +kernel

/-- The example under R242: address 0x01_023E_0400 with 8 channels, 4 KiB interleave and hashing. -/
theorem test_granary_map :
    (sets live [(GR_CTRL_channels, 3), (GR_CTRL_il, 12), (GR_CTRL_hash, 1)]).placeOf 0x01023E0400 =
      { ch := 4, sub := 0, s := [3, 7, 8, 9, 10, 11, 15, 22].foldl (fun n b => n + 2 ^ b) 0 } := by
  decide +kernel

/-- Head 0 of the example under R107: 8192 by 4320, 8 bands, 12 planes, 3 of them in the loft. -/
def planes12 : State :=
  sets live [(HD_TOPOLOGY_head0_group, 0), (HD_RASTER1_h_active 0, 8192), (HD_RASTER3_v_active 0, 4320), (SQ_CTRL_bands 0, 8),
    (CP_HEAD_CTRL_comp_mask 0, 1), (TS_COMP_n_planes 0 0, 12), (TS_LOFT_MASK4_loft_lo 0, 0xE00), (TS_STORE6_store_lo 0, 0), (TS_STORE7_store_hi 0, 1)]

theorem test_plane_row_address : planes12.rowAddr 0 3 1 5 17 = 0x01023E0400 ∧ planes12.chunk 0 = 552960 := by decide +kernel

/-- The slot words under R133's example. -/
theorem test_slot_words :
    decodeSlot 0x668004B1 = ⟨opLight, 11, 1, 104960, 0, false, false, false, 0⟩ ∧
    decodeSlot 0x15401001 = ⟨opLight, 0, 4, 21760, 0, false, false, false, 0⟩ ∧
    decodeSlot 0x8006400002 = ⟨opDark, 0, 0, 6400, 0, false, true, false, 0⟩ ∧
    decodeSlot 0x4E200005 = ⟨opMeasure, 0, 0, 80000, 0, false, false, false, 0⟩ ∧
    decodeSlot 0x4006 = ⟨opSync, 0, 0, 1, 0, false, false, false, 0⟩ := by
  decide +kernel

/-- The identity words of the example under R377, with its fuses. -/
theorem test_identity_words :
    ({ live with fuses := { pn9440 := true, marginClass := 1, gradeE := false, lot := [0x4B, 0x34, 0x54, 0x38, 0x32, 0x51, 0x41], wafer := 7
                            dieX := 0xFD, dieY := 0x0C, testProg := 0x0213 } } : State).identity =
      [0x1B1F9440, 0x3854344B, 0x07415132, 0x02130CFD] := by
  decide +kernel

/-- DEV_STATUS of the example under R355: fallow mode, FR_IMAGE_CRC, three attempts, RETRY, the Granary trained. -/
theorem test_dev_status :
    ({ live with boot := { live.boot with
        phase := FALLOW, reason := FR_IMAGE_CRC, shadow := 3, lastReset := CAUSE_RETRY, loaderStep := 3 } } : State).devStatus = 0x00033323 := by
  decide +kernel

/-- The die throttle of the example under R329: 99 degrees with a knee of 95 and 100 per mille a degree. -/
theorem test_budget_target :
    ((sets live [(TH_GLOBAL0_knee_c, 95), (TH_GLOBAL0_slope_pm, 100), (TH_GLOBAL0_floor_pm, 100)]).setInt TH_GLOBAL4_die_tracked (99 * 8)).budgetTarget = 600 := by
  decide +kernel

/-! ## Commands, by one step each -/

/-- The taps, the unity field and the codes of the split under R93's example, here for cells (1, 1) and (2, 1) of `m`. -/
def splitLit (m : State) (boost : Nat) : State :=
  let taps := [0x8000, 0x6000, 0x4000, 0x2000, 0x1000, 0x0800].zipIdx.flatMap (fun e => [(CP_HEAD_KERNEL_th 0 e.2, e.1), (CP_HEAD_KERNEL_tv 0 e.2, e.1)])
  let s := sets m (taps ++ [(CP_HEAD_PEAK_zone_peak 0, 0x200000), (CP_HEAD_SPLIT_boost 0, boost), (CP_HEAD_ZONE_floor 0, 0)])
  s.setHeadOf 0 { Head.reset with need := [(cellKey 1 1, 524288), (cellKey 2 1, 104858)], splitFresh := true }

/-! ## Witnesses: states and operands that meet the hypotheses of each statement, clause by clause -/

theorem witness_StepKeepsCanonicalForms : Canonical State.reset ∧ step State.reset = .next { State.reset with tick := 1 } :=
  ⟨⟨by decide, by decide, by decide, by decide⟩, rfl⟩

theorem witness_ResetIsCanonicalAndIdleStepsTick : State.reset.pending = [] := by decide

theorem witness_ResetCausesReturnTheBlocks :
    live.boot.porLow = false ∧ State.reset.boot.porLow = true ∧ live.boot.phase = RUNNING ∧
    ({ live with boot := { live.boot with resetPending := true } } : State).boot.resetPending = true ∧ live.boot.stable = false := by
  decide +kernel

/-- Step 0 of a start. -/
def atStart (forced : Bool) (shadow : Nat) : State :=
  { live with boot := { Boot.reset with phase := LOADER, forceFallow := forced, shadow := shadow } }

def plainEnv : StartEnv :=
  { spiHeld := false, dramFail := 0, edgeFail := 0, cellarWriteFails := false, firmwareRuns := true, startMs := 100, nvOpen := true }

theorem witness_FallowDecisionOfAStart :
    (∀ s ∈ [atStart true 0, atStart false 3, { atStart false 0 with cellar := [] }],
      s.boot.phase = LOADER ∧ s.boot.loaderStep = 0 ∧ s.boot.wdogFailed = false) ∧
    ((atStart true 0).step2Fail plainEnv = none ∧ (atStart true 0).boot.forceFallow = true) ∧
    ((atStart false 3).step2Fail plainEnv = none ∧ 3 ≤ (atStart false 3).dropUncommitted.attempts) ∧
    ({ atStart false 0 with cellar := [] } : State).step2Fail plainEnv = some 0 := by
  decide +kernel

/-- A start whose flash holds an image that verifies. The signature check is Config's, so that an image is given. -/
theorem witness_FallowDecisionOfAStart_runs (f : Tab Byte)
    (h : imgVerify ({ atStart false 2 with flash := f } : State).flashImage = none) :
    ∃ s : State, (s.boot.phase = LOADER ∧ s.boot.loaderStep = 0 ∧ s.boot.wdogFailed = false) ∧
      (s.step2Fail plainEnv = none ∧ s.boot.forceFallow = false ∧ plainEnv.spiHeld = false ∧ s.dropUncommitted.attempts < 3) ∧
      imgVerify s.flashImage = none ∧ plainEnv.dramFail = 0 ∧ plainEnv.firmwareRuns = true := by
  have h2 : ({ atStart false 2 with flash := f } : State).step2Fail plainEnv = (atStart false 2).step2Fail plainEnv := rfl
  have h3 : ({ atStart false 2 with flash := f } : State).dropUncommitted.attempts = (atStart false 2).dropUncommitted.attempts := rfl
  exact ⟨{ atStart false 2 with flash := f }, ⟨rfl, rfl, rfl⟩,
    ⟨h2.trans (by decide +kernel), rfl, rfl, h3 ▸ (by decide +kernel : (atStart false 2).dropUncommitted.attempts < 3)⟩, h, rfl, rfl⟩

/-- MSI-X vector 3 masked with a message pending, its set not empty. -/
def vector : State :=
  { (live.raise AVS_BUS_ERR 0) with
    ev := { (live.raise AVS_BUS_ERR 0).ev with enable := BitVec.allOnes 256, route := [(AVS_BUS_ERR, 0x83)] }
    pcie := { live.pcie with pending := 8, masked := 8 } }

/-- The same unmasked, in D3hot. -/
def asleep : State := { vector with pcie := { vector.pcie with masked := 0, d3hot := true } }

theorem witness_StableStartPerstAndLink :
    (live.boot.phase = RUNNING ∧ live.boot.stable = false ∧ State.reset.boot.phase ≠ RUNNING) ∧
    (live.pcie.training = true ∧ live.pcie.perstLow = false ∧ live.boot.phase ≠ FALLOW ∧ State.reset.pcie.training = false) ∧
    (live.pcie.gen ≠ 0 ∧ live.pcie.pending = 0 ∧ State.reset.pcie.gen = 0) ∧
    (asleep.pcie.gen ≠ 0 ∧ asleep.pcie.pending.getLsbD 3 = true ∧ asleep.setNonEmpty 3 = true ∧
      (true && true && true && !(asleep.pcie.d3hot && !true) && !asleep.pcie.masked.getLsbD 3) = true) ∧
    (live.hostUp .pcie = true ∧ live.pcie.pending.getLsbD 31 = false) ∧
    (vector.hostUp .pcie = true ∧ vector.pcie.pending.getLsbD 3 = true ∧ (vector.pcie.msixEnable && vector.pcie.busMaster) = true ∧
      vector.setNonEmpty 3 = true) ∧
    (let v := { vector with ev := { vector.ev with enable := 0 } }
     v.hostUp .pcie = true ∧ v.pcie.pending.getLsbD 3 = true ∧ v.setNonEmpty 3 = false) ∧
    (let v := { vector with pcie := { vector.pcie with msixEnable := false } }
     v.hostUp .pcie = true ∧ v.setNonEmpty 3 = true ∧ (v.pcie.msixEnable && v.pcie.busMaster) = false) := by
  decide +kernel

/-- Mailbox 0 holds a command over PCIe that waits; handle 2 is OPEN over PCIe and handle 3 over SPI. -/
def linked : State :=
  ((live.setMbox 0 { Mailbox.reset with cmds := [{ command 0x101 [] with state := MB_QUEUED }] }).setSheaf 2
    { Sheaf.reset with state := SH_OPEN }).setSheaf 3 { Sheaf.reset with state := SH_OPEN, spi := true }

theorem witness_LinkResetsTouchTheHostSideOnly :
    (live.pcie.pending = 0 ∧ live.pcie.training = true ∧ live.pcie.perstLow = false ∧ live.boot.phase ≠ FALLOW ∧ live.pcie.gen ≠ 0 ∧
      live.hostUp .pcie = true) ∧
    linked.pcie.gen ≠ 0 ∧ linked.pcie.d3hot = false ∧ ((linked.mbox 0).cmds.map (·.spi)) = [false] ∧
    ((linked.sheaf 2).state = SH_OPEN ∧ (linked.sheaf 2).spi = false) ∧ (linked.sheaf 3).spi = true := by
  decide +kernel

/-- The governor on, with a time since the last raise and a run of low measurements. -/
def governed (vcore since low : Nat) : State :=
  { sets live [(TH_AVS_CTRL_enable, 1), (TH_AVS_CTRL_target_ps, 1200), (TH_AVS_STATUS_vcore_mv, vcore)] with
    gov := { sinceRaise := since, lowRun := low, retry := false } }

theorem witness_GovernorFollowsTheReplica :
    (∀ s ∈ [governed 700 4 0, governed 900 4 0, governed 700 0 999], s.boot.phase = RUNNING ∧ s.fld TH_AVS_CTRL_enable = 1 ∧
      s.gov.retry = false ∧ s.fld TH_AVS_LIMITS_vmin_mv ≤ s.fld TH_AVS_LIMITS_vmax_mv) ∧
    (∀ s ∈ [governed 700 4 0, governed 900 4 0], s.fld TH_AVS_CTRL_target_ps + 50 < 1251 ∧ 4 ≤ s.gov.sinceRaise) ∧
    ((governed 900 4 0).fld TH_AVS_LIMITS_vmax_mv < (governed 900 4 0).fld TH_AVS_STATUS_vcore_mv + (governed 900 4 0).fld TH_AVS_CTRL_step_mv ∧
      (governed 900 4 0).fld TH_AVS_LIMITS_vmax_mv ≠ 0) ∧
    (1099 + 100 < (governed 700 0 999).fld TH_AVS_CTRL_target_ps ∧ 999 ≤ (governed 700 0 999).gov.lowRun) ∧
    State.reset.boot.phase ≠ RUNNING ∧ ({ live with gov := { live.gov with retry := true } } : State).gov.retry = true ∧
    live.gov.retry = false := by
  decide +kernel

/-- Whether the plain write of the word of `f` with `f` at ones is taken over SPI. -/
def takesOnes (s : State) (f : Field) : Bool := takesB s .spi f.key (withOnes f (s.word f.key))

/-- Head 3 in group 3 with a list of one SYNC slot and bank 6, and the duration of injector 3 set. -/
def settable : State :=
  sets (memory.setWord (slotKey 3 0 0) 0x4006)
    [(HD_TOPOLOGY_head3_group, 3), (SQ_CTRL_bands 3, 1), (LS_BANK0_enable 6, 1), (LS_BANK0_head 6, 3), (⟨CE_INJ0 3 + 2, 0, 32⟩, 1)]

theorem witness_SettingWritesAreTaken :
    (takesB settable .spi (HD_RASTER0 0) (0 ||| namedMask (HD_RASTER0 0) "clear_counts") &&
      takesB settable .spi (TH_SENSOR0 35) (settable.word (TH_SENSOR0 35) ||| namedMask (TH_SENSOR0 35) "enable") &&
      takesB settable .spi (HD_RVH_CTRL 3) (settable.word (HD_RVH_CTRL 3) &&& ~~~1#32) && takesB settable .spi (HD_CRC_LEARN 3) 0xFFFF &&
      takesB settable .spi (CE_PG1 7) 0x7FFFFFFF) = true ∧
    [1, 2, 3, 4].all (takesB settable .spi (LS_BANK9 7)) = true ∧
    [HD_RVH_CTRL_enable 3, LM_LEN_CTRL_arm 3, LM_LEN_CTRL_force_off 3, HD_RASTER0_enable 3, CC_GROUP0_learn 3,
      CC_TRIAD0_clear_suspect 3, CE_INJ0_start 3, CE_INJ0_stop 3, HD_INGEST_CTRL_enable 1, HD_INGEST_CTRL_retrain 1,
      HD_RVH_CTRL_retrain (5 - 2), HD_MON0_enable, CE_CAP0_arm, CE_CAP0_abort, CE_LOOP00_clear_fault 63, LS_STRING5_clear_fault 63,
      LS_BANK0_rearm 7, ZN_CTX1_clear_fault 40959, TH_SENSOR0_clear_suspect 35].all (takesOnes settable) = true := by
  decide +kernel

/-- What an index locates meets `p`: the word's row and its unit numbers. -/
def located (idx : Nat) (p : WordRow → List Nat → Bool) : Bool := (locate idx).any (fun e => p e.1 e.2)

/-- A PN9420. -/
def small : State := { live with fuses := { Fuses.reset with pn9440 := false } }

/-- Head 0 with a swap that is not complete. -/
def swapping : State := live.modHeadOf 0 (fun x => { x with swapPending := true })

theorem witness_StateWordWriteByItsOffset :
    takesB live .spi TH_AVS_CTRL 0x00054B00 = true ∧
    ((small.hostUp .spi = true ∧ small.boot.phase = RUNNING ∧ located (HD_RVH_CTRL 3) (fun r ns => small.absent r.blk ns) = true) ∧
      swapping.hostUp .spi = true ∧ swapping.boot.phase = RUNNING ∧ located (SQ_SLOT 0 0) (fun r ns =>
        !swapping.absent r.blk ns && swapping.windowBusy r.blk (unitOf ns)) = true) ∧
    (live.hostUp .spi = true ∧ live.boot.phase = RUNNING ∧ locate 0xFFFFFF = none ∧ 0xFFFFFF < 0x1000000) ∧
    ((3 : Nat) ≠ 4 ∧ 0x1000002 % 4 ≠ 0) ∧ State.reset.hostUp .spi = false := by
  decide +kernel

theorem witness_RefusedWriteLeavesTheWords :
    (live.hostUp .spi = true ∧ live.boot.phase = RUNNING ∧ E_ZERO ≠ 0 ∧ located TH_AVS_CTRL (fun r ns =>
      !live.absent r.blk ns && !live.windowBusy r.blk (unitOf ns) && live.plainCode r ns TH_AVS_CTRL 0x4B00 == E_ZERO) = true) ∧
    (∀ p ∈ [FALLOW, FW_START], ({ live with boot := { live.boot with phase := p } } : State).hostUp .spi = true) ∧
    FW_START ≠ FALLOW ∧ FW_START ≠ RUNNING := by
  decide +kernel

theorem witness_EntriesWriteTheirBits :
    located TH_AVS_CTRL (fun r ns => !live.absent r.blk ns && r.name != "CE_PG1" && live.storeKey TH_AVS_CTRL == TH_AVS_CTRL &&
      maskWord (live.word TH_AVS_CTRL) (0xFFFFFFFF &&& accMask r [.rw, .so] &&& ~~~fixedBits r TH_AVS_CTRL) (live.word TH_AVS_CTRL) ==
        live.word TH_AVS_CTRL &&
      live.word TH_AVS_CTRL &&& (0xFFFFFFFF &&& live.word TH_AVS_CTRL &&& accMask r [.w1c]) == 0) = true ∧
    located (HD_RVH_CTRL 3) (fun r ns => ({ live with fuses := { Fuses.reset with pn9440 := false } } : State).absent r.blk ns) = true ∧
    Memory.wf memDefault live.mem = true ∧ Memory.wf loftDefault live.loft = true ∧ Memory.wf flashDefault live.flash = true ∧
    tabWf resetWord live.regs = true := by
  decide +kernel

/-- A head's port in a state. -/
def headIn (h st : Nat) : State := live.setFld (HD_RVH_STATUS_state h) st

/-- An ingest port 1 in a state, with parity. -/
def ingestIn (st : Nat) (inUse : Bool) : State :=
  (sets live [(HD_INGEST_STATUS_state 1, st), (HD_INGEST_CTRL_parity_en 1, 1), (HD_INGEST_STATUS_rebuilt_lane 1, 4)]).setFlag
    (HD_INGEST_STATUS_parity_in_use 1) inUse

/-- A column that lanes with reset descramblers read as payloads `f`. -/
def columnOf (hd : BitVec 4) (f : Nat → BitVec 128) : List (BitVec 132) := (List.range 17).map (fun i => (scramble 0 (f i)).1 ++ hd)

/-- The characters of a STATUS packet over the tally lane: its fields, with opcode, ctag and result, and its payload. -/
def statusChars (fields : Nat) (payload : List Byte) : List (BitVec 9) :=
  let hd := packetHeader 0x32 (payload.length / 16) 1 fields
  let body := natLe 16 hd.toNat ++ payload ++ natLe 16 (packetTrailer hd payload).toNat
  charK27_7 :: body.map (fun b => b.setWidth 9) ++ [charK29_7]

/-- Head 0 in CAPS, taking a STATUS packet with payload `pl`. -/
theorem witness_TrainingMovesOn_caps :
    let pl := List.replicate 16 (0xFF : Byte)
    let s := headIn 0 CAPS_STATE
    s.headState 0 = CAPS_STATE ∧ s.statusOf 0 (statusChars 1 pl) = some (packetHeader 0x32 1 1 1, pl) ∧
    (packetHeader 0x32 1 1 1).extractLsb' 48 16 = 1#16 ∧ pl.length = 16 ∧ s.allLocked 2 = false ∧
    s.capsFail 0 (BitVec.ofNat 128 (leNat pl)) = false ∧ s.sweepFail 0 (bits (BitVec.ofNat 128 (leNat pl)).toNat 64 16) = false := by
  decide +kernel

/-- Ingest port 1 in DESKEW, with AM columns of marker counts that follow each other. -/
theorem witness_TrainingMovesOn_markers :
    let s := ingestIn DESKEW false
    let second := s.modPort 1 (fun q => { q with goodAms := 1, markers := 6 })
    let am := columnOf ctrlHeader (fun i => amBlock i 7)
    (s.fld (portState 1) = DESKEW ∧ s.headerErrors 1 am = [] ∧ s.alignedAm 1 am = some 7 ∧ (s.port 1).goodAms = 0) ∧
    (second.fld (portState 1) = DESKEW ∧ second.headerErrors 1 am = [] ∧ second.alignedAm 1 am = some 7 ∧
      1 ≤ (second.port 1).goodAms ∧ (7 : BitVec 16) = (second.port 1).markers + 1) ∧
    s.headerErrors 1 (columnOf dataHeader (fun _ => 0)) = [] ∧ s.alignedAm 1 (columnOf dataHeader (fun _ => 0)) = none := by
  decide +kernel

theorem witness_TrainingMovesOn :
    (∀ st ∈ [BLOCK_LOCK, DESKEW], (headIn 3 st).fld (portState 5) = st ∧ st ≠ DISABLED) ∧
    (headIn 3 TALLY_LOCK).headState 3 = TALLY_LOCK ∧ (headIn 3 EQ).headState 3 = EQ ∧ (headIn 3 DESKEW).headState 3 = DESKEW ∧
    (∀ n ∈ [41 + 3 * 64, 63 + 3 * 64], crcTally (BitVec.ofNat 8 6 :: natLe 6 n) = (tallyCrc 6 (BitVec.ofNat 48 n)).toNat ∧
      (bits n 0 6 < 42 ∨ bits n 0 6 = 63)) ∧
    crcTally (BitVec.ofNat 8 7 :: natLe 6 5) = (tallyCrc 7 5).toNat ∧ crcTally (BitVec.ofNat 8 8 :: natLe 6 5) = (tallyCrc 8 5).toNat ∧
    (headIn 3 EQ).headState 3 ≠ DISABLED ∧ (headIn 3 DESKEW).headState 3 ≠ DISABLED ∧
    (∀ p ∈ [(0 : Fin 6), 5], (live.setFld (portState p) BLOCK_LOCK).fld (portState p) = BLOCK_LOCK ∧
      (live.setFld (portState p) BLOCK_LOCK).fld (portAttempts p) + 1 < (live.setFld (portState p) BLOCK_LOCK).fld (portMaxAttempts p) ∧
      (sets live [(portState p, BLOCK_LOCK), (portMaxAttempts p, 1)]).fld (portMaxAttempts p) ≤
        (sets live [(portState p, BLOCK_LOCK), (portMaxAttempts p, 1)]).fld (portAttempts p) + 1) ∧
    (headIn 3 ACTIVE).portUp (3 + 2) = true := by
  decide +kernel

/-- A lane of port `p` that has had `n` valid headers in a row, and 15 others among the last 64. -/
def laneWith (s : State) (p lane n : Nat) : State :=
  s.modPort p (fun q => { q with rx := [(lane, { run := n, invalid := 0x7FFF, scr := 0 })] })

/-- A block whose header is not valid, and one whose header is. -/
def badBlock : BitVec 132 := 0
def goodBlock : BitVec 132 := 3

theorem witness_LanesLockAndFail :
    (let s := laneWith ((headIn 0 BLOCK_LOCK).modPort 2 (fun q => { q with locks := 0x3FFFFFFFFFE })) 2 0 63
     s.fld (portState 2) = BLOCK_LOCK ∧ (((s.receive 2 0 [goodBlock]).port 2).lane 0).locks = true ∧
      (((s.receive 2 0 []).port 2).lane 0).locks = false ∧ (((s.receive 2 0 [goodBlock]).port 2).lane 0).loses = false ∧
      (s.setLock 2 0 true).allLocked 2 = true ∧ (s.port 2).stored = none ∧
      (((s.receive 2 0 [badBlock]).port 2).lane 0).loses = true) ∧
    (let s := laneWith ((ingestIn BLOCK_LOCK false).modPort 1 (fun q => { q with locks := 0x1FFFE })) 1 0 63
     s.fld (portState 1) = BLOCK_LOCK ∧ (((s.receive 1 0 [goodBlock]).port 1).lane 0).locks = true ∧
      s.flag (HD_INGEST_STATUS_parity_in_use 1) = false ∧ (s.setLock 1 0 true).allLocked 1 = true) ∧
    (∀ st ∈ [ACTIVE, DESKEW], let s := laneWith (ingestIn st false) 1 5 0
     s.fld (portState 1) = st ∧ s.laneInUse 1 5 = true ∧ s.flag (HD_INGEST_CTRL_parity_en 1) = true ∧
      (((s.receive 1 5 [badBlock]).port 1).lane 5).loses = true ∧ s.flag (HD_INGEST_STATUS_parity_in_use 1) = false) ∧
    ((ingestIn ACTIVE true).flag (HD_INGEST_STATUS_parity_in_use 1) = true ∧
      (ingestIn ACTIVE true).fld (HD_INGEST_STATUS_rebuilt_lane 1) ≠ (5 : Fin 42)) ∧
    (crcTally (BitVec.ofNat 8 4 :: natLe 6 7) = (tallyCrc 4 7).toNat ∧ (headIn 0 BLOCK_LOCK).portUp (0 + 2) = false ∧
      (headIn 0 BLOCK_LOCK).headState 0 ≠ DISABLED) := by
  decide +kernel

/-- Head 0 ACTIVE with spare lane 40 free and a threshold of 10. -/
def spareable : State :=
  sets (headIn 0 ACTIVE) [(HD_RVH_CTRL_spare_auto 0, 1), (HD_RVH_CTRL_health_thresh 0, 10), (HD_RVH_STATUS_spare0_for 0, 63)]

/-- Lane 7 of head 0 copied to lane 40, with every lane locked and a map ready. -/
def sparing : State :=
  (headIn 0 SPARING).setPort 2 { Port.reset with sparing := some (7, 40), mapAt := some 3, locks := 0x3FFFFFFFFFF }

theorem witness_LanesLockAndFail_spares :
    (spareable.headState 0 = ACTIVE ∧ spareable.flag (HD_RVH_CTRL_spare_auto 0) = true ∧ bits (7 + 20 * 64) 0 6 < 40 ∧
      spareable.laneInUse 2 (bits (7 + 20 * 64) 0 6) = true ∧ spareable.fld (HD_RVH_CTRL_health_thresh 0) ≤ bits (7 + 20 * 64) 6 16 ∧
      spareable.fld (HD_RVH_STATUS_spare0_for 0) = 63 ∧
      crcTally (BitVec.ofNat 8 5 :: natLe 6 (7 + 20 * 64)) = (tallyCrc 5 (BitVec.ofNat 48 (7 + 20 * 64))).toNat) ∧
    ((sparing.port 2).sparing = some (7, 40) ∧ (sparing.port 2).mapAt = some 3 ∧ sparing.headState 0 = SPARING ∧
      (sparing.port 2).locks = 0x3FFFFFFFFFF#42) := by
  decide +kernel

theorem witness_CapsDecideTheHead :
    (let s := headIn 0 CAPS_STATE
     s.headState 0 = CAPS_STATE ∧ CAPS_STATE ≠ DISABLED ∧
      (∀ pl ∈ [List.replicate 16 (0xFF : Byte), List.replicate 16 0],
        s.statusOf 0 (statusChars 1 pl) = some (packetHeader 0x32 1 1 1, pl) ∧ pl.length = 16) ∧
      (s.capsFail 0 (BitVec.ofNat 128 (leNat (List.replicate 16 0xFF))) ||
        s.sweepFail 0 (bits (leNat (List.replicate 16 0xFF)) 64 16)) = false ∧
      (s.capsFail 0 (BitVec.ofNat 128 (leNat (List.replicate 16 0))) || s.sweepFail 0 (bits (leNat (List.replicate 16 0)) 64 16)) = true) ∧
    ((packetHeader 0x32 1 1 1).extractLsb' 48 16 = 1#16 ∧ (headIn 0 EQ).headState 0 ≠ CAPS_STATE ∧ statusBlocks [charK27_7] = none) ∧
    (crcTally (BitVec.ofNat 8 6 :: natLe 6 (41 + 3 * 64)) = (tallyCrc 6 (BitVec.ofNat 48 (41 + 3 * 64))).toNat ∧
      (headIn 0 EQ).headState 0 = EQ ∧ bits (41 + 3 * 64) 0 6 < 42) := by
  decide +kernel

/-- A VIDEO header for stream 1, line 2 of frame 77, with its check. -/
def videoHead : BitVec 128 :=
  BitVec.ofNat 128 (0x11 + 3 * 2 ^ 16 + 9 * 2 ^ 32 + 2 ^ 48 + 2 * 2 ^ 56 + 77 * 2 ^ 72 + 14106 * 2 ^ 112)

theorem witness_BadPacketsAreCounted :
    (∀ e ∈ tallyOf 0 5 1, crcTally (BitVec.ofNat 8 e.1 :: natLe 6 5) ≠ 1) ∧ live.headState 0 = DISABLED ∧
    ((headIn 0 ACTIVE).headState 0 ≠ DISABLED ∧ statusBlocks [charK27_7] = none ∧
      (statusBlocks (charK27_7 :: List.replicate 32 1 ++ [charK29_7])).any (fun e => !headerGood e.1) = true) ∧
    (let s := ingestIn ACTIVE false
     let fails := columnOf dataHeader (fun _ => 5)
     s.fld (HD_INGEST_STATUS_state 1) = ACTIVE ∧ s.headerErrors 1 fails = [] ∧ s.controlColumn 1 fails = false ∧
      s.laneData 1 fails 16 = 5 ∧ headerGood 5 = false ∧ (s.port 1).hunting = false ∧
      s.controlColumn 1 (columnOf ctrlHeader (fun _ => 5)) = true ∧ s.headerErrors 1 (columnOf ctrlHeader (fun _ => 5)) = [] ∧
      s.headerErrors 1 ((columnOf dataHeader (fun _ => 5)).set 16 0) = [16] ∧ s.flag (HD_INGEST_CTRL_parity_en 1) = true ∧
      s.flag (HD_INGEST_STATUS_parity_in_use 1) = false) ∧
    (let s := (ingestIn ACTIVE false).modPort 1 (fun q => { q with hunting := true })
     let c := columnOf dataHeader (fun _ => videoHead)
     s.fld (HD_INGEST_STATUS_state 1) = ACTIVE ∧ s.headerErrors 1 c = [] ∧ s.controlColumn 1 c = false ∧ s.laneData 1 c 0 = videoHead ∧
      videoHead ≠ 0 ∧ ((s.receiveColumn 1 c).port 1).accepts videoHead = true ∧ (s.port 1).hunting = true) := by
  decide +kernel

/-- Head 0 awaits the answer with ctag 1 for a purpose. -/
def awaits (what op : Nat) : State := (headIn 0 ACTIVE).setPort 2 { Port.reset with awaited := [(1, what, op, 0)] }

theorem witness_CmdAnswersEndTheirExchange :
    (awaits forMode 2).headState 0 ≠ DISABLED ∧
    (awaits forMode 2).awaitedOf 0 1 = some (1, forMode, 2, 0) ∧ (awaits forTiming 6).awaitedOf 0 1 = some (1, forTiming, 6, 0) ∧
    (∀ s ∈ [awaits forMode 2, awaits forTiming 6], ∀ r ∈ [0, 1], s.statusOf 0 (statusChars (2 + 2 ^ 16 + r * 2 ^ 32) []) =
      some (packetHeader 0x32 0 1 (2 + 2 ^ 16 + r * 2 ^ 32), []) ∧
      (packetHeader 0x32 0 1 (2 + 2 ^ 16 + r * 2 ^ 32)).extractLsb' 64 16 = 1#16 ∧
      ((packetHeader 0x32 0 1 (2 + 2 ^ 16 + r * 2 ^ 32)).extractLsb' 80 16).toNat = r) ∧
    ((awaits forTiming 6).port 2).awaited = [(1, forTiming, 6, 0)] ∧
    (awaits (forMailbox 7) 7).awaitedOf 0 1 = some (1, forMailbox 7, 7, 0) ∧
    (awaits (forMailbox 7) 7).statusOf 0 (statusChars (7 + 2 ^ 16) (List.replicate 16 9)) =
      some (packetHeader 0x32 1 1 (7 + 2 ^ 16), List.replicate 16 9) ∧
    crcTally (BitVec.ofNat 8 10 :: natLe 6 5) = (tallyCrc 10 5).toNat := by
  decide +kernel

def load5 : Load :=
  { tag := 5, plane := 2, copy := 0, nextRow := 3, lastRow := 2, resend := [], resends := 0, first := false, deadline := 9, acked := false }

/-- Band 31 of head 1 under load, answered last with tag 6. -/
def loaded (l : Load) : State :=
  ((headIn 1 ACTIVE).setFld (HD_RVH_CTRL_max_resend 1) 2).setBandOf (1 * 32 + 31) { Band.reset with load := some l, lastTag := 6, staleDone := false }

theorem witness_BandAnswersResendOrCount :
    (∀ ty ∈ [1, 2, 3, 9, 10], ∀ a ∈ [31 + 5 * 32 + 2 ^ 13 + 2 * 2 ^ 26, 31 + 6 * 32],
      crcTally (BitVec.ofNat 8 ty :: natLe 6 (BitVec.ofNat 48 a).toNat) = (tallyCrc ty (BitVec.ofNat 48 a)).toNat) ∧
    (loaded load5).headState 1 ≠ DISABLED ∧ (loaded load5).loadOf 1 31 5 = some load5 ∧
    load5.resends < (loaded load5).fld (HD_RVH_CTRL_max_resend 1) ∧
    bits (31 + 5 * 32 + 2 ^ 13 + 2 * 2 ^ 26) 13 13 ≤ bits (31 + 5 * 32 + 2 ^ 13 + 2 * 2 ^ 26) 26 13 ∧
    (loaded { load5 with resends := 2 }).loadOf 1 31 5 = some { load5 with resends := 2 } ∧
    (loaded { load5 with resends := 2 }).fld (HD_RVH_CTRL_max_resend 1) ≤ 2 ∧
    (((loaded load5).bandOf 63).lastTag = bits (31 + 6 * 32) 5 8 ∧ ((loaded load5).bandOf 63).staleDone = false) ∧
    (∀ l ∈ [{ load5 with lastRow := 9000, nextRow := 9001 }], ((loaded l).bandOf 63).load = some l ∧ l.acked = false ∧
      l.lastRow < l.nextRow ∧ l.resend = [] ∧ l.resends < (loaded l).fld (HD_RVH_CTRL_max_resend 1) ∧
      (loaded l).bandFirst 1 31 ≤ l.lastRow) ∧
    ((loaded load5).loadOf 1 (bits (31 + 6 * 32) 0 5) (bits (31 + 6 * 32) 5 8) = none ∧
      (let s := (loaded load5).modBandOf 63 (fun x => { x with staleDone := true })
       s.headState 1 ≠ DISABLED ∧ (s.bandOf 63).staleDone = true) ∧
      (((loaded load5).bandOf 0).load = none ∧ (∀ l ∈ [{ load5 with nextRow := 2 }, { load5 with acked := true }, { load5 with resend := [(1, 1)] },
        { load5 with resends := 2 }], ((loaded l).bandOf 63).load = some l ∧ (l.acked = true ∨ l.nextRow ≤ l.lastRow ∨ l.resend ≠ [] ∨
          (loaded l).fld (HD_RVH_CTRL_max_resend 1) ≤ l.resends)))) := by
  decide +kernel

def slotA : FqSlot := { FqSlot.reset with valid := true, base := 0x10000, stride := 64 }

/-- Flip queue 15 of layer 3 of group 3: slots 2 and 3 valid, 3 current. -/
def queue : FlipQueue := { FlipQueue.reset with slots := [(2, slotA), (3, slotA)], current := some 3 }

def flips (q : FlipQueue) : State := memory.setFqueue 15 q

theorem witness_FlipQueuesTakeAndRetire :
    (flips queue).hostUp .spi = true ∧ (flips queue).fqueue 15 = queue ∧ (flips queue).ingestFed 3 3 = false ∧
    ((queue.slot 2).valid = true ∧ queue.inUse 2 = false ∧ queue.waiting.length < 4) ∧
    (queue.slot 7).valid = false ∧ ((queue.slot 3).valid = true ∧ queue.inUse 3 = true) ∧
    4 ≤ ({ queue with waiting := [0, 1, 4, 5] } : FlipQueue).waiting.length ∧
    ({ queue with waiting := [0, 1, 4, 5] } : FlipQueue).inUse 2 = false ∧ queue.fifo = [] ∧
    ((flips { queue with fifo := [⟨3, true, false⟩], retiring := [⟨4, false, false⟩] }).fqueue 15).fifo = ⟨3, true, false⟩ :: [] ∧
    ((flips { queue with fifo := [⟨3, true, false⟩], retiring := [⟨4, false, false⟩] }).fqueue 15).retiring = ⟨4, false, false⟩ :: [] := by
  decide +kernel

theorem witness_FlipSlotWrites :
    (flips queue).hostUp .spi = true ∧ queue.inUse (2 : Fin 8) = false ∧ queue.inUse (3 : Fin 8) = true ∧
    (∀ q ∈ [{ queue with waiting := [7] }], q.inUse 7 = true ∧ (7 : Fin 8).val ∈ q.waiting) ∧
    (∀ q ∈ [{ queue with held := some 6 }], q.inUse 6 = true ∧ 6 ∉ q.waiting ∧ q.held = some (6 : Fin 8).val) ∧
    (3 ∉ queue.waiting ∧ queue.held ≠ some 3 ∧ queue.current = some (3 : Fin 8).val) := by
  decide +kernel

/-- Layer 3 of group 3 alone is enabled, flip-fed, and shows slot 3, whose tag matches or not. -/
def tagged (matching line : Bool) : State :=
  (sets memory [(HD_LAYER_CTRL_enable 3 3, 1), (HD_RASTER0_enable 3, 1), (HD_TOPOLOGY_head3_group, 3),
    (HD_TOPOLOGY_head3_mode, if line then 1 else 0), (SQ_CTRL_bands 3, 4)]).setFqueue 15
    { queue with slots := [(3, { slotA with gen := if matching then 0 else 1 })] }

theorem witness_TagMismatchRetiresTheSlot :
    (∀ s ∈ [tagged true false, tagged false false, tagged false true], (∀ j : Fin 4, s.layerOn 3 j = true ↔ j = 3) ∧
      s.ingestFed 3 3 = false ∧ (s.fqueue 15).showing = some 3 ∧ (s.fqueue 15).fifo.length < 8 ∧ (s.fqueue 15).fallback = false ∧
      (s.group 3).fetching = false ∧ s.flag (HD_STILL_STATUS_in_still 3) = false ∧ s.rasterOn 3 = true ∧ (s.fqueue 15).held = none) ∧
    (tagged true false).tagGood 15 3 = true ∧ (tagged false false).tagGood 15 3 = false ∧ (tagged false true).tagGood 15 3 = false ∧
    (tagged false false).groupLine 3 = false ∧ (tagged false true).groupLine 3 = true ∧
    (sets (tagged true false) [(HD_RASTER0_enable 3, 0)]).rasterOn 3 = false := by
  decide +kernel

/-- Stream 1 of ingest port 1 feeds layer 3 of group 2, with frame 77 open and some lines received. -/
def streamed (lines : List (Nat × Nat)) : State :=
  { sets memory [(HD_INGEST_STATUS_state 1, ACTIVE), (HD_LAYER_CTRL_enable 2 3, 1), (HD_LAYER_CTRL_source 2 3, 1),
      (HD_LAYER_CTRL_ingest_port 2 3, 1), (HD_LAYER_CTRL_ingest_stream 2 3, 1), (HD_LAYER_CTRL_format 2 3, 3), (HD_LAYER_SIZE_width 2 3, 4), (HD_LAYER_SIZE_height 2 3, 3)] with
    rings := [(11, [{ number := 0, buf := 1, line0 := true, closed := false, shown := false, reading := false, gone := false }])]
    streams := [(5, { Stream.reset with frame := some 77, luma := lines })] }

/-- The bytes of one line of that layer. -/
def linePixels : List Byte := List.replicate ((streamed []).lineBytes 11) 7

/-- Its header for line 2 of frame 77, and one of a type that no ingest port uses. -/
def lineHead : BitVec 128 := packetHeader 0x11 (linePixels.length / 16) 9 (1 + 2 * 2 ^ 8 + 77 * 2 ^ 24)
def strangeHead : BitVec 128 := packetHeader 0x31 0 9 0

theorem witness_VideoLineIsTakenOrDiscarded :
    live.fld (HD_INGEST_STATUS_state 1) ≠ ACTIVE ∧
    ((ingestIn ACTIVE false).fld (HD_INGEST_STATUS_state 1) = ACTIVE ∧ ((ingestIn ACTIVE false).port 1).accepts lineHead = true ∧
      ((ingestIn ACTIVE false).port 1).accepts strangeHead = true ∧ strangeHead ≠ 0 ∧ bits strangeHead.toNat 0 8 ≠ 0x11 ∧
      (ingestIn ACTIVE false).boundLayers 1 (bits lineHead.toNat 48 2) = []) ∧
    (bits lineHead.toNat 0 8 = 0x11 ∧ bitOf lineHead.toNat 50 = false ∧ bitOf lineHead.toNat 51 = false ∧
      packetWhole lineHead linePixels (packetTrailer lineHead linePixels) = true ∧ packetWhole lineHead linePixels 0 = false) ∧
    (∀ s ∈ [streamed [(0, 1), (1, 1)], streamed [(0, 1), (1, 1), (2, 1)]], s.fld (HD_INGEST_STATUS_state 1) = ACTIVE ∧
      (s.port 1).accepts lineHead = true ∧ s.boundLayers 1 (bits lineHead.toNat 48 2) = [11] ∧ (s.ring 11).length = 1 ∧
      (s.stream 5).frame = some (bits lineHead.toNat 72 16) ∧ bits lineHead.toNat 72 16 ∉ (s.stream 5).closed ∧
      (s.stream 5).dropping = false ∧ s.directPath 2 = false ∧ bits lineHead.toNat 56 16 < s.layerHeight 2 3) ∧
    (∀ s ∈ [{ streamed [] with streams := [(5, { Stream.reset with closed := [76, 77] })] }],
      s.boundLayers 1 (bits lineHead.toNat 48 2) = [11] ∧ bits lineHead.toNat 72 16 ∈ (s.stream 5).closed) ∧
    received ((streamed [(0, 1), (1, 1)]).stream 5).luma ≤ bits lineHead.toNat 56 16 ∧
    bits lineHead.toNat 56 16 < received ((streamed [(0, 1), (1, 1), (2, 1)]).stream 5).luma ∧
    linePixels.length = (streamed []).lineBytes 11 := by
  decide +kernel

/-- Layer 2 of group 1 alone is enabled: 4 by 4 pixels from slot 3's buffer, opaque, over the whole raster. -/
def layered : State :=
  ((sets memory [(HD_LAYER_CTRL_enable 1 2, 1), (HD_LAYER_SIZE_width 1 2, 4), (HD_LAYER_SIZE_height 1 2, 4)]).setFqueue 6
    { queue with slots := [(3, { slotA with base := 0x1000 })] }).setGroup 1 { Group.reset with lastPixel := [(2, some (1, 2, 3, 4))] }

/-- A request of a line. -/
def read64 (r a : Nat) (write : Bool) : Req :=
  { id := 1, r := r, addr := a, urgent := false, write := write, data := if write then List.replicate 64 7 else [], tick := 0, after := [] }

/-- CRC rectangle 15 alone is enabled in group 0. -/
def checked (learn : BitVec 16) (expect : Word) : State :=
  shown.setGroup 0 { Group.reset with crcRects := [(2 * 15, 0), (2 * 15 + 1, 0x00020002), (32 + 15, expect)], crcSum := [(15, 5)], learn := learn }

theorem witness_PixelsAreComposedAndChecked :
    (live.setFlag (HD_STILL_STATUS_in_still 3) true).flag (HD_STILL_STATUS_in_still 3) = true ∧
    (live.flag (HD_STILL_STATUS_in_still 3) = false ∧ ∀ j : Fin 4, live.layerOn 3 j = false) ∧
    (layered.flag (HD_STILL_STATUS_in_still 1) = false ∧ (∀ j : Fin 4, layered.layerOn 1 j = true ↔ j = 2) ∧
      layered.layerPlace 1 2 3 3 = some (3, 3) ∧ (layered.layerSource 1 2).isSome = true ∧ layered.fld (HD_LAYER_CTRL_alpha_mode 1 2) = 0 ∧
      (layered.layerSource 1 2).any (fun c => (layered.layerPixel 1 2 c 3 3).isSome) = true ∧
      (4#4).getLsbD 2 = true ∧ (11#4).getLsbD 2 = false ∧ tabGet (fun _ => none) (layered.group 1).lastPixel 2 = some (1, 2, 3, 4)) ∧
    (∀ s ∈ [checked 0x8000 0, checked 0 0, checked 0 (5 ^^^ 0xFFFFFFFF)], s.flag (HD_STILL_STATUS_in_still 0) = false ∧
      s.monStarved = false ∧ ∀ j : Fin 16, s.rectOn 0 j = true ↔ j = 15) ∧
    (∀ s ∈ [(sets shown [(HD_MON0_enable, 1), (HD_MON0_group, 0)]).setSub 9 { SubCh.reset with entry := [read64 34 0x100 true] }],
      s.monStarved = true ∧ s.flag HD_MON0_enable = true ∧ s.fld HD_MON0_group = 0 ∧ s.flag (HD_STILL_STATUS_in_still 0) = false ∧
      ∀ j : Fin 16, s.rectOn 0 j = false) ∧
    ((checked 0x8000 0).group 0).learn.getLsbD 15 = true ∧
    (((checked 0 0).group 0).learn.getLsbD 15 = false ∧ tabGet crcInit ((checked 0 0).group 0).crcSum 15 ^^^ 0xFFFFFFFF#32 ≠
      tabGet (fun _ => 0) ((checked 0 0).group 0).crcRects (32 + 15)) ∧
    tabGet crcInit ((checked 0 0).group 0).crcSum 15 ^^^ 0xFFFFFFFF#32 =
      tabGet (fun _ => 0) ((checked 0 (5 ^^^ 0xFFFFFFFF)).group 0).crcRects (32 + 15) := by
  decide +kernel

/-- Head 0 under variable blanking paced by ingest-fed layer 1, at line 80 of at most some lines. -/
def paced (most : Nat) : State :=
  (sets shown [(HD_RASTER0_timing_mode 0, 1), (HD_RASTER0_vrr_layer 0, 1), (HD_LAYER_CTRL_enable 0 1, 1),
    (HD_LAYER_CTRL_source 0 1, 1), (HD_RASTER6_max_lines 0, most)]).setGroup 0 { Group.reset with line := 80 }

theorem witness_BoundariesPaceTheFrame :
    shown.vrr 0 = false ∧
    (∀ s ∈ [paced 97, paced 98], s.vrr 0 = true ∧ s.rasterOn 0 = true ∧ (s.group 0).fetching = false ∧
      s.flag (HD_STILL_STATUS_in_still 0) = false ∧ s.vBlank 0 ≤ (s.group 0).line + 9 ∧ s.pacedReady 0 = false ∧
      (∀ j : Fin 4, s.layerOn 0 j = true ↔ j.val = s.fld (HD_RASTER0_vrr_layer 0)) ∧
      s.ingestFed 0 (s.fld (HD_RASTER0_vrr_layer 0)) = true) ∧
    ((paced 98).group 0).line + 9 + (paced 98).vActive 0 < (paced 98).fld (HD_RASTER6_max_lines 0) ∧
    (paced 97).fld (HD_RASTER6_max_lines 0) ≤ ((paced 97).group 0).line + 9 + (paced 97).vActive 0 ∧
    live.rasterOn 3 = false ∧
    (shown.rasterOn 0 = true ∧ shown.pendingSheaves = [] ∧ shown.banksOfGroup 0 = [] ∧ (∀ z : Fin 4, shown.matrixOn z = false) ∧
      shown.flag (CC_GROUP0_enable 0) = false ∧ shown.fw = Firmware.reset ∧ (∀ m : Fin 8, shown.cmdHead m = none) ∧
      (∀ l : Fin 4, shown.layerOn 0 l = false ∧ shown.fqueue (4 * (0 : Fin 4) + l) = FlipQueue.reset) ∧ ∀ h ∈ shown.headsOf 0, shown.lineMode h = false) := by
  decide +kernel

/-- Head 0's bands 0 and 1 under load. -/
def sending (l : Load) : State :=
  (shown.setBandOf 1 { Band.reset with load := some l }).setBandOf 0 { Band.reset with load := some { l with deadline := l.deadline + 2 } }

/-- The lines of head 0 in line mode, drawing frame after frame. -/
def drawing (l : Line) : State :=
  ((sets shown [(HD_TOPOLOGY_head0_mode, 1), (LM_CTRL_beams 0, 2), (LM_SCAN_flyback_sweeps 0, 3), (LM_STATUS_locked 0, 1)]).setLine 0
    { l with drawing := true }).setPort 2 { Port.reset with modeOk := true, timingOk := true, darkUntilFrame := false }

theorem witness_PacketsGoByPrecedence :
    live.portUp 2 = false ∧
    (∀ ty ∈ [1, 2], ∀ a ∈ [31 + 5 * 32 + 2 ^ 13 + 2 * 2 ^ 26],
      crcTally (BitVec.ofNat 8 ty :: natLe 6 (BitVec.ofNat 48 a).toNat) = (tallyCrc ty (BitVec.ofNat 48 a)).toNat ∧
      (loaded load5).headState 1 ≠ DISABLED ∧ (loaded load5).loadOf 1 (bits a 0 5) (bits a 5 8) = some load5 ∧
      load5.resends < (loaded load5).fld (HD_RVH_CTRL_max_resend 1) ∧ bits a 13 13 ≤ bits a 26 13) ∧
    (∀ l ∈ [{ load5 with lastRow := 9000, nextRow := 9001 }], ((loaded l).bandOf (1 * 32 + 31)).load = some l ∧ l.acked = false ∧
      l.lastRow < l.nextRow ∧ l.resend = [] ∧ l.resends < (loaded l).fld (HD_RVH_CTRL_max_resend 1) ∧
      (loaded l).bandFirst 1 31 ≤ l.lastRow) ∧
    (∀ q ∈ [[.lineCodes 0 1 5 true [7]], []], let s := drawing { Line.reset with queue := q }
     s.portUp 2 = true ∧ s.lineMode 0 = true ∧ (s.line 0).queue = q ∧ s.draws 0 = true) ∧
    (shown.portUp 2 = true ∧ shown.lineMode 0 = false ∧ ∀ i < shown.nBands 0, shown.candidate 0 i = none) ∧
    (∀ l ∈ [{ load5 with nextRow := 1 }, { load5 with nextRow := 1, resend := [(1, 2)] }], 1 < (sending l).nBands 0 ∧
      ((sending l).candidate 0 1).any (fun c => ((sending l).candidate 0 0).all (fun d => before3 c d)) = true ∧
      ((sending l).bandOf 1).tails = [] ∧ ((sending l).bandOf 1).load = some l ∧ (sending l).rowPoisoned 0 1 l l.row.1 = false ∧
      ((sending l).bandOf 1).dark = false) ∧
    (∀ l ∈ [{ load5 with nextRow := 4, lastRow := 5 }], ({ sending l with poisoned := [2176] } : State).rowPoisoned 0 1 l l.row.1 = true ∧
      (({ sending l with poisoned := [2176] } : State).candidate 0 1).isSome = true) := by
  decide +kernel

/-- The lit head at slot 0 of band 1, with a load. -/
def resetting (l : Load) : State := lit.setBandOf 1 { Band.reset with load := some l, frameNo := some 1 }

theorem witness_ResetColumnActsOnItsBand :
    (∀ a ∈ [31 + 6 * 32], crcTally (BitVec.ofNat 8 3 :: natLe 6 (BitVec.ofNat 48 a).toNat) = (tallyCrc 3 (BitVec.ofNat 48 a)).toNat ∧
      (loaded load5).headState 1 ≠ DISABLED ∧ bits a 0 5 = (31 : Fin 32).val ∧
      ((loaded load5).bandOf 63).lastTag = bits a 5 8 ∧ ((loaded load5).bandOf 63).staleDone = false) ∧
    (∀ a ∈ [true, false], ∀ s ∈ [resetting { load5 with acked := a }, sets (resetting { load5 with acked := a }) [(SQ_CTRL_phase_global 0, 1)]],
      s.threshes 0 = true ∧ 1 < s.nBands 0 ∧ (s.bandOf 1).frameNo = some 1 ∧
      (s.playSlots 0 1)[(s.bandOf 1).slot]?.any (·.loads) = true ∧ s.portUp 2 = true ∧
      (s.bandOf 1).load = some { load5 with acked := a }) ∧
    (resetting load5).globalPhase 0 = false ∧ (sets (resetting load5) [(SQ_CTRL_phase_global 0, 1)]).globalPhase 0 = true ∧
    ((withSlot (resetting load5) 0 (slotWord opMeasure 0 5000 0)).playSlots 0 1)[0]?.any (fun k => !k.loads) = true := by
  decide +kernel

theorem witness_DecisionTakesTheReadyCopy :
    live.threshes 0 = false ∧ shown.nBands 0 ≤ (31 : Fin 32).val ∧
    (shown.threshes 0 = true ∧ (1 : Fin 32).val < shown.nBands 0 ∧ (1 : Fin 32) ≠ 0 ∧ (shown.bandOf 1).ready = false) ∧
    ((shown.setBandOf 1 { Band.reset with ready := true }).bandOf 1).ready = true := by
  decide +kernel

/-- Band 0 of the lit head at its one slot. -/
def slotting : State := lit.setBandOf 0 { Band.reset with frameNo := some 1, start := 1000, offsetFine := 3 }

theorem witness_LightSlotsPlaceTheirEdges :
    (slotting.threshes 0 = true ∧ 0 < slotting.nBands 0 ∧ (slotting.bandOf 0).frameNo = some 1 ∧ (slotting.bandOf 0).slot = 0 ∧
      (slotting.playSlots 0 0) = [decodeSlot (slotWord opLight 1 5000 0)] ∧
      (decodeSlot (slotWord opLight 1 5000 0)).op = opLight ∧ (decodeSlot (slotWord opLight 1 5000 0)).hold = false ∧
      slotting.matrixOf 0 = none ∧ (slotting.headOf 0).shiftWaiting = false ∧
      slotting.slotStrings 0 (decodeSlot (slotWord opLight 1 5000 0)) = [9]) ∧
    earliest 135 slotting.edges = none ∧ earliest 127 [⟨127, 50, true⟩, ⟨127, 40, false⟩] = some ⟨127, 40, false⟩ ∧
    earliest 128 [⟨127, 50, true⟩, ⟨128, 3, true⟩] = some ⟨128, 3, true⟩ := by
  decide +kernel

/-- Head 0 in line mode, locked, with two beams. -/
def lined (l : Line) : State :=
  (sets shown [(HD_TOPOLOGY_head0_mode, 1), (LM_CTRL_beams 0, 2), (LM_SCAN_flyback_sweeps 0, 3), (LM_STATUS_locked 0, 1)]).setLine 0 l

theorem witness_SweepsAndCrossings :
    live.scans 0 = false ∧ (∀ l ∈ [{ Line.reset with crossings := 1 }, { Line.reset with crossings := 2, misses := 2 },
      { Line.reset with crossings := 2, misses := 3 }], (lined l).scans 0 = true) ∧
    (lined Line.reset).flag (LM_STATUS_locked 0) = true ∧ (lined Line.reset).flag (CE_PG6_settled ((lined Line.reset).fld (LM_CTRL_slow_pg 0))) = false ∧
    (∀ l ∈ [{ Line.reset with sweep := 3, flybackWait := true }], l.sweep = (lined l).fld (LM_SCAN_flyback_sweeps 0) ∧ l.drawing = false ∧
      l.sweep < (lined l).fld (LM_SCAN_flyback_sweeps 0) + (lined l).activeSweeps 0 ∧ 0 < (lined l).fld (LM_CTRL_beams 0) ∧
      (lined l).directPath ((lined l).groupOf 0) = false) ∧
    (let s := sets (lined Line.reset) [(CE_PG6_settled ((lined Line.reset).fld (LM_CTRL_slow_pg 0)), 1)]
     s.flag (CE_PG6_settled (s.fld (LM_CTRL_slow_pg 0)))) = true ∧
    Line.reset.starts = [] ∧
    (drawing { Line.reset with starts := [(4, true, 9, 8)] }).draws 0 = true ∧
    (lined { Line.reset with starts := [(4, true, 9, 8)] }).draws 0 = false ∧
    (crcTally (BitVec.ofNat 8 9 :: natLe 6 5) = (tallyCrc 9 5).toNat ∧ shown.headState 0 ≠ DISABLED) := by
  decide +kernel

/-- A group that is not on the direct line path has no late line. -/
theorem witness_SweepsAndCrossings_late (s : State) (g y : Nat) (h : s.directPath g = false) : s.lineLate g y = false := by
  simp [State.lineLate, h]

/-- Head 1 armed; enable 3 is head 1's and enable 2 is head 0's. -/
def armed : State :=
  { sets live [(LM_STATUS_armed 1, 1), (⟨LM_LEN_MAP 0, 4 * 3, 3⟩, 1), (⟨LM_LEN_MAP 0, 4 * 2, 3⟩, 0)] with ilkHigh := true, len := 0x0C }

theorem witness_InterlockDropsTheEnables :
    (1 < armed.nHeads ∧ armed.flag (LM_STATUS_armed 1) = true ∧ armed.fld ⟨LM_LEN_MAP 0, 4 * 3, 3⟩ = 1 ∧ armed.len.getLsbD 3 = true) ∧
    (0 < armed.nHeads ∧ armed.flag (LM_STATUS_armed 0) = false ∧ armed.fld ⟨LM_LEN_MAP 0, 4 * 2, 3⟩ = 0 ∧ armed.len.getLsbD 2 = true) := by
  decide +kernel

theorem witness_ColourPipelineMakesTheIndex :
    live.pipeOn 3 = false ∧
    (shown.pipeOn 0 = true ∧ shown.comps 0 = [0] ∧ shown.flag (CP_HEAD_CTRL_split_en 0) = false ∧ shown.lineMode 0 = false ∧
      (shown.headsOf (shown.groupOf 0)).head? = some (0 : Fin 4).val) ∧
    (let s := sets shown [(CP_CTRL_lut_bypass 0, 1), (CP_CTRL_matrix_bypass 0, 1), (CP_HEAD_CTRL_unif_en 0, 0), (CP_HEAD_CTRL_dither_mode 0, 0)]
     s.pipeOn 0 = true ∧ s.flag (CP_CTRL_lut_bypass 0) = true ∧ s.flag (CP_CTRL_matrix_bypass 0) = true ∧
      s.flag (CP_HEAD_CTRL_unif_en 0) = false ∧ s.fld (CP_HEAD_CTRL_dither_mode 0) = 0) ∧
    (let s := (List.range 9).foldl (fun u i => u.setFld (CP_MATRIX_m 0 i) 0x3FFFFF) (sets shown [(CP_CTRL_lut_bypass 0, 1), (CP_CTRL_matrix_bypass 0, 0)])
     s.pipeOn 0 = true ∧ (0x3FFFFF < s.matrixRaw 0 0 (fun j => s.linearise 0 j 65535) ∨ s.matrixRaw 0 0 (fun j => s.linearise 0 j 65535) < 0)) := by
  decide +kernel

/-- A zone matrix of 8 by 4 cells on head 0, with one driver of 8 channels a band from address 10 of port 3. -/
def zoned : State :=
  sets (withSlot (withSlot shown 0 (slotWord opLight 1 5000 0)) 1 (slotWord opLight 1 3000 0))
    [(ZN_MAT0_enable 1, 1), (ZN_MAT0_head 1, 0), (ZN_MAT0_mux 1, 1), (ZN_MAT1_cols 1, 8), (ZN_MAT1_rows 1, 4), (ZN_MAT2_ctx_base 1, 100),
     (ZN_MAT4_first_port 1, 3), (ZN_MAT4_n_ports 1, 1), (ZN_MAT4_addr_base 1, 10), (ZN_MAT4_chans 1, 8), (DB_PORT0_enable 3, 1),
     (DB_PORT0_retries 3, 3), (CP_HEAD_CTRL_split_en 0, 1)]

theorem witness_CellRowSetsTheLevels :
    shown.matrixOf 0 = none ∧
    (zoned.matrixOf 0 = some 1 ∧ zoned.pipeOn 0 = true ∧ zoned.flag (CP_HEAD_CTRL_split_en 0) = true ∧ 3 < zoned.zy 1 ∧
      zoned.fld (ZN_MAT2_ctx_base 1) + zoned.zx 1 * zoned.zy 1 ≤ 40960) := by
  decide +kernel

/-- Band 1 of head 0 being written, or failed. -/
def threshing (failed : Bool) : State := shown.setBandOf 1 { Band.reset with writing := true, failed := failed }

theorem witness_ThreshedBandsBecomeReady :
    (∀ f ∈ [true, false], (threshing f).threshes 0 = true ∧ (threshing f).pipeOn 0 = true ∧ 6 + 1 < (threshing f).hActive ((threshing f).groupOf 0) ∧
      7 < (threshing f).vActive ((threshing f).groupOf 0) ∧ (threshing f).comps 0 = [0] ∧ (threshing f).bandOfRow 0 7 = 1 ∧
      ((threshing f).bandOf 1).failed = f ∧ ((threshing f).bandOf 1).writing = true ∧ (1 : Fin 32).val < (threshing f).nBands 0) ∧
    live.threshes 3 = false ∧ shown.nBands 0 ≤ (31 : Fin 32).val := by
  decide +kernel

/-- Band 1 of that head plays at some slot, with levels of tag 7. -/
def stepping (slot steps : Nat) : State := zoned.setBandOf 1 { Band.reset with slot := slot, steps := steps, levelTag := 7, frameNo := some 1 }

theorem witness_ZoneStepsCarryTheWindow :
    live.matrixOn 3 = false ∧
    (zoned.matrixOn 1 = true ∧ (1 : Fin 32).val < zoned.nBands (zoned.fld (ZN_MAT0_head 1)) ∧ zoned.bandDrvs 1 1 = [1] ∧
      (zoned.zoneDriver 1 1).1 = 3 ∧ zoned.dbOn 3 = true) ∧
    (zoned.selfScan 1 = false ∧ (1 : Fin 16).val < zoned.mux 1) ∧
    ((stepping 0 0).stepSlot 0 1 1).any (fun e => e.1.op == opLight && e.2) = true ∧
    ((stepping 1 0).stepSlot 0 1 1).any (fun e => e.1.op == opLight && !e.2) = true ∧
    (sets zoned [(ZN_MAT6_in_self_scan 1, 1)]).selfScan 1 = true := by
  decide +kernel

/-- Driver bus 2 with an exchange with driver 5 in flight, of an operation, tried before. -/
def flying (op tries : Nat) : State :=
  (sets live [(DB_PORT0_enable 2, 1), (DB_PORT0_retries 2, 3)]).setDbPort 2
    { DbPort.reset with inFlight := some (5, busFrame 5 op []), tries := tries }

/-- The same with a driver quiet after an activation. -/
def quietDriver (op version : Nat) : State := { flying op 0 with fw := { Firmware.reset with awaitVersion := [(drvKey 2 5, version)] } }

theorem witness_ExchangesAreTriedAgain :
    (live.dbPort 2).inFlight = none ∧
    (∀ t ∈ [2, 3], ((flying 5 t).dbPort 2).inFlight = some (5, busFrame 5 5 []) ∧ (flying 5 t).quiet 2 5 = false) ∧
    ((flying 5 2).dbPort 2).tries < (flying 5 2).fld (DB_PORT0_retries 2) ∧ (flying 5 3).fld (DB_PORT0_retries 2) ≤ ((flying 5 3).dbPort 2).tries ∧
    ((flying 5 3).dbPort 2).queue = [] ∧ (flying 5 3).driverStrings 2 5 = [] ∧ (flying 5 3).zoneAt 2 5 = none ∧
    (flying 5 3).pendingSheaves = [] ∧ (flying 5 3).fw = Firmware.reset ∧ parseResponse [1] = none ∧ live.quiet 2 127 = false ∧
    (∀ s ∈ [(quietDriver 0x30 9).setDbPort 2 DbPort.reset], s.quiet 2 5 = true ∧ s.fw.applying = none ∧ (s.dbPort 2).queue = [] ∧
      (s.dbPort 2).inFlight = none ∧ s.driverStrings 2 5 = [] ∧ s.zoneAt 2 5 = none ∧ s.pendingSheaves = []) := by
  decide +kernel

theorem witness_ResponsesEndTheExchange :
    (∀ op ∈ [0x01, 0x02, 0x30, 0x33], ((flying op 1).dbPort 2).inFlight = some (5, busFrame 5 op []) ∧ ((flying op 1).dbPort 2).queue = [] ∧
      frameOp (busFrame 5 op []) = op ∧ (flying op 1).quiet 2 5 = false ∧ ((flying op 1).dbPort 2).tries < (flying op 1).fld (DB_PORT0_retries 2)) ∧
    (parseResponse (driverSays 5 0x02 [0]) = some (5, 0x02, [0]) ∧ byteAt [0] 0 = 0 ∧ parseResponse (driverSays 5 0x02 [3]) = some (5, 0x02, [3])) ∧
    (parseResponse (driverSays 5 0x01 [0x34, 0x12, 2, 16, 1, 9]) = some (5, 0x01, [0x34, 0x12, 2, 16, 1, 9]) ∧
      (flying 0x01 1).zoneAt 2 5 = none ∧ (flying 0x01 1).dbOn 2 = true) ∧
    (parseResponse (driverSays 5 0x30 [1, 2, 3, 4]) = some (5, 0x30, [1, 2, 3, 4]) ∧
      ((flying 0x30 1).bodyFor (flying 0x30 1).fw.drv (drvKey 2 5)).isNone = true ∧ halfAt [1, 2, 3, 4] 0 = 0x201) := by
  decide +kernel

theorem witness_ResponsesEndTheExchange_versions :
    ((quietDriver 0x30 0x201).fw.awaitVersion = [(drvKey 2 5, 0x201)] ∧ (quietDriver 0x30 0x201).dbOn 2 = true ∧
      (quietDriver 0x30 0x201).fw.applying = none ∧ halfAt [9, 2, 3, 4] 0 ≠ 0x201 ∧
      parseResponse (driverSays 5 0x30 [9, 2, 3, 4]) = some (5, 0x30, [9, 2, 3, 4])) ∧
    (parseResponse (driverSays 5 0x33 [0]) = some (5, 0x33, [0]) ∧ parseResponse (driverSays 5 0x33 [1]) = some (5, 0x33, [1]) ∧
      byteAt [1] 0 ≠ 0) := by
  decide +kernel

/-- String 63 on channel 1 of driver 5, bank 1. -/
def driven (s : State) : State :=
  sets s [(LS_STRING0_enable 63, 1), (LS_STRING0_port 63, 2), (LS_STRING0_addr 63, 5), (LS_STRING0_chan 63, 1), (LS_STRING0_bank 63, 1),
    (LS_BANK0_enable 1, 1), (DB_PORT0_telem_us 2, 100), (HD_TOPOLOGY_head0_group, 0)]

/-- The zone driver of `zoned` asked for its faults. -/
def zoneAsked : State :=
  (sets zoned [(ZN_CTX0_fault ((zoned.drvZones 1 1).headD 0), ZONE_UNVERIFIED)]).setDbPort 3
    { DbPort.reset with inFlight := some (11, busFrame 11 0x24 []), tries := 1 }

theorem witness_ReportsFillTheWords :
    (((driven (flying 5 1)).dbPort 2).inFlight = some (5, busFrame 5 5 []) ∧ frameOp (busFrame 5 5 []) = 0x05 ∧
      parseResponse (driverSays 5 5 [1, 77, 0, 0, 0, 0x22, 0x11, 0x30]) = some (5, 0x05, [1, 77, 0, 0, 0, 0x22, 0x11, 0x30]) ∧
      (driven (flying 5 1)).driverStrings 2 5 = [63] ∧ ((driven (flying 5 1)).driver (drvKey 2 5)).comms = false ∧
      ((driven (flying 5 1)).driver (drvKey 2 5)).latchedTag = none ∧ 2 + 3 * (driven (flying 5 1)).fld (LS_STRING0_chan 63) + 2 < 8 ∧
      byteAt [1, 77, 0, 0, 0, 0x22, 0x11, 0x30] (2 + 3 * (driven (flying 5 1)).fld (LS_STRING0_chan 63) + 2) % 16 = 0 ∧
      (driven (flying 5 1)).flag (LS_BANK12_at_vbus_max ((driven (flying 5 1)).fld (LS_STRING0_bank 63))) = false) ∧
    ((zoneAsked.dbPort 3).inFlight = some (11, busFrame 11 0x24 []) ∧ frameOp (busFrame 11 0x24 []) = 0x24 ∧
      parseResponse (driverSays 11 0x24 [0, 4, 60, 0]) = some (11, 0x24, [0, 4, 60, 0]) ∧ zoneAsked.zoneAt 3 11 = some (1, 1) ∧
      (zoneAsked.drvZones 1 1 ≠ [] ∧ ∀ c ∈ zoneAsked.drvZones 1 1, c < 40960) ∧
      zoneAsked.fld (ZN_MAT2_ctx_base 1) + zoneAsked.zx 1 * zoneAsked.zy 1 ≤ 40960 ∧
      zoneAsked.fld (ZN_CTX0_fault ((zoned.drvZones 1 1).headD 0)) = ZONE_UNVERIFIED) ∧
    live.dbOn 7 = false ∧
    (∀ s ∈ [(driven (flying 5 1)).setDbPort 2 DbPort.reset], s.dbOn 2 = true ∧ s.fld (DB_PORT0_telem_us 2) ≠ 0 ∧
      s.portStringDrivers 2 = [5] ∧ (∀ m : Fin 4, s.matrixOn m = false) ∧ s.quiet 2 5 = false ∧ (s.dbPort 2).inFlight = none ∧
      (s.dbPort 2).queue = []) := by
  decide +kernel

/-- Group 0 waits to latch tag 5, with codes sent to driver 5, and maybe a frame of the tag still to be sent. -/
def latching (late : Bool) : State :=
  (((driven (flying 5 1)).setDbPort 2 { DbPort.reset with queue := if late then [(5, busFrame 5 3 [5, 0])] else [] }).setGroup 0
    { Group.reset with latchPending := some 5 }).setDriver (drvKey 2 5) { Driver.reset with shadow := [(1, 6)], codes := [(1, 0x1234)] }

theorem witness_LatchMakesTheCodesActive :
    (live.group 3).latchPending = none ∧
    (∀ b ∈ [true, false], ((latching b).group 0).latchPending = some 5 ∧
      (((latching b).latchView 0).groupDrivers 0 ++ (latching b).groupDrivers 0).dedup = [(2, 5)] ∧ (latching b).fwPorts 0 5 = []) ∧
    (latching true).tagPending 2 5 [0x02, 0x03, 0x34, 0x35] = true ∧ (latching false).tagPending 2 5 [0x02, 0x03, 0x34, 0x35] = false ∧
    tabGet (fun _ => 0) ((latching false).driver (drvKey 2 5)).shadow ((latching false).fld (LS_STRING0_chan 63)) = 5 + 1 ∧
    (∀ s ∈ [(latching false).setDriver (drvKey 2 5) { Driver.reset with shadow := [(1, 4)] }],
      tabGet (fun _ => 0) (s.driver (drvKey 2 5)).shadow (s.fld (LS_STRING0_chan 63)) ≠ 5 + 1 ∧ (s.driver (drvKey 2 5)).comms = false) ∧ ((latching false).driver (drvKey 2 5)).comms = false ∧
    (latching false).dbOn 2 = true ∧ 63 ∈ (latching false).driverStrings 2 5 := by
  decide +kernel

/-- String 63 of bank 1 on output 33, with a run of open samples. -/
def sampled (run : Nat) : State :=
  (sets live [(LS_BANK0_enable 1, 1), (LS_BANK0_confirm 1, 3), (LS_BANK0_policy 1, 1), (LS_BANK1_open_code 1, 3000),
    (LS_BANK1_short_code 1, 500), (LS_STRING0_enable 63, 1), (LS_STRING0_bank 63, 1), (LS_STRING0_tout 63, 33), (LS_STRING2_state 63, STR_OK),
    (LS_STRING4_code_active 63, 100)]).setStr 63 { Str.reset with openRun := run }

theorem witness_SamplesDiagnoseTheString :
    live.samples 0 = false ∧
    (∀ r ∈ [0, 1, 2], (sampled r).samples 63 = true ∧ (sampled r).measuring 2 63 = false ∧
      ((sampled r).str 63).openRun = r) ∧
    ((sampled 0).fld (LS_BANK1_short_code 1) < 501 ∧ 2999 < (sampled 0).fld (LS_BANK1_open_code 1)) ∧
    (sampled 1).fld (LS_BANK1_open_code 1) ≤ (3000#12).toNat ∧ (sampled 1).fld (LS_BANK1_short_code 1) < (3000#12).toNat ∧
    ((sampled 1).str 63).openRun + 1 < (sampled 1).fld (LS_BANK0_confirm 1) ∧
    ((sampled 2).fld (LS_BANK0_confirm 1) ≤ ((sampled 2).str 63).openRun + 1 ∧
      (sampled 2).flag (LS_BANK0_policy 1) = true) ∧
    live.bankOn 7 = false ∧ (sampled 0).bankOn 1 = true := by
  decide +kernel

theorem witness_WriteOnlyBitsAct :
    (sets live [(LS_STRING2_state 63, STR_OPEN)]).strFaulted 63 = true ∧ (1 ≤ 4 ∧ 4 ≤ 4 ∧ 4 < 5) ∧
    ((sets zoned [(ZN_CTX0_fault 100, ZONE_OPEN)]).zoneFaulted 100 = true ∧ (zoned.zoneMatrix 100).isSome = true) ∧
    (sets live [(CE_LOOP30_state 63, LOOP_FAULT)]).loopState 63 = LOOP_FAULT ∧ live.loopState 63 ≠ LOOP_FAULT ∧
    (sets live [(CE_INJ0_running 3, 1)]).flag (CE_INJ0_running 3) = true ∧ live.flag (CE_INJ0_running 3) = false ∧
    ({ sets (lined Line.reset) [(LM_AMP_MIN_amp_min 0, 0)] with ilkHigh := true } : State).lenConditions 0 = 0 ∧
    (live.lenConditions 3 ≠ 0 ∧ live.flag (LM_STATUS_armed 3) = false) ∧ live.headState 3 = DISABLED ∧
    (∀ p ∈ [(0 : Fin 6), 5], (live.setFld (portState p) ACTIVE).fld (portState p) ≠ DISABLED) := by
  decide +kernel

/-- Loop 63 on, with one sample waiting. -/
def looped : State :=
  (sets live [(CE_LOOP00_enable 63, 1), (CE_LOOP00_overrun_max 63, 3), (CE_LOOP30_state 63, LOOP_RUN)]).setLoop 63
    { Loop.reset with first := false, newSet := false, taken := 4, samples := [⟨3, 100, 0x7FFFFFFF, none, 17, -4, 9, false, false, none⟩] }

/-- Loop 5 of the same lane has a sample waiting whose data instant comes first. -/
def crowded : State :=
  (sets looped [(CE_LOOP00_enable 5, 1), (CE_LOOP30_state 5, LOOP_RUN)]).setLoop 5
    { Loop.reset with taken := 4, samples := [⟨3, 50, 0, none, 0, 0, 0, false, false, none⟩] }

theorem witness_LoopComputesItsDifferenceEquation :
    live.loopOn 0 = false ∧
    (crowded.loopOn 63 = true ∧ (crowded.loop 63).waiting = some ⟨3, 100, 0x7FFFFFFF, none, 17, -4, 9, false, false, none⟩ ∧
      crowded.laneBusy 63 ⟨3, 100, 0x7FFFFFFF, none, 17, -4, 9, false, false, none⟩ = true ∧
      looped.laneBusy 63 ⟨3, 100, 0x7FFFFFFF, none, 17, -4, 9, false, false, none⟩ = false) ∧
    (looped.loopOn 63 = true ∧ looped.gensOf 63 = [] ∧ (∀ k : Fin 4, looped.flag (CE_INJ0_running k) = false) ∧
      looped.fld (CE_LOOP04_in_kind 63) ≠ 3) ∧
    ((looped.loop 63).waiting = some ⟨3, 100, 0x7FFFFFFF, none, 17, -4, 9, false, false, none⟩ ∧ looped.loopState 63 = LOOP_RUN ∧
      looped.loopStale 63 = false ∧ looped.lwOf 63 = none ∧ looped.flag (CE_LOOP00_cross_en 63) = false ∧ looped.ramp 63 100 = none ∧
      looped.flag (CE_LOOP00_sp_src 63) = false ∧ looped.flag (CE_LOOP00_fb_sel 63) = false ∧ looped.fld (CE_LOOP00_n_sets 63) ≤ 1 ∧
      looped.fld (CE_LOOP30_set 63) = 0 ∧ (looped.loop 63).newSet = false ∧ (looped.loop 63).first = false ∧ (looped.loop 63).limStep = false ∧
      looped.fld (CE_LOOP0F_fe_limit 63) = 0) := by
  decide +kernel

theorem witness_OutputsInjectionCaptureAndMoves :
    (∀ d ∈ [true, false],
      let s := looped.setLoop 63 { looped.loop 63 with samples := [⟨3, 100, 4, none, 0, 0, 0, d, false, some 2147483647⟩] }
      s.loopOn 63 = true ∧ (s.loop 63).samples.find? (fun p => !p.out) = some ⟨3, 100, 4, none, 0, 0, 0, d, false, some 2147483647⟩ ∧
        s.loopState 63 = LOOP_RUN ∧ s.lwOf 63 = none ∧ s.fld CE_CAP4_state = CAP_IDLE ∧
        (s.loop 63).overrunRun + 1 < s.fld (CE_LOOP00_overrun_max 63)) ∧
    live.flag (CE_INJ0_running 3) = false ∧
    (let s := (sets live [(CE_INJ0_running 3, 1), (CE_INJ2_duration 3, 10)]).setInj 3 { Inj.reset with n := 10 }
     s.fld (CE_INJ2_duration 3) ≤ (s.inj 3).n ∧ s.flag (CE_INJ0_running 3) = true) ∧
    live.fld CE_CAP4_state ≠ CAP_RUNNING ∧
    (let s : State := { sets live [(CE_CAP4_state, CAP_RUNNING), (CE_CAP1_length, 20), (CE_CAP1_pre, 5)] with cap := { Capture.reset with after := 15 } }
     s.fld CE_CAP4_state = CAP_RUNNING ∧ s.fld CE_CAP1_length - s.fld CE_CAP1_pre ≤ s.cap.after) ∧
    live.cmdHead 7 = none ∧
    (∀ t ∈ [0, 50], ∀ c ∈ [{ command 0x401 [3, 0, 0, t] with begun := true }], (held live [c]).cmdHead 2 = some c ∧ c.state = MB_RUNNING ∧
      c.outcome = none ∧ ((c.arg 3 = 0) ↔ t = 0)) := by
  decide +kernel

/-- Triad 2 looks at bands of head 0, whose band 3 has just played a MEASURE slot of a weight. -/
def measured (w : Nat) : State :=
  (((withSlot (sets live [(CC_TRIAD0_enable 2, 1), (CC_TRIAD0_head 2, 0), (CC_TRIAD0_band 2, 3), (HD_TOPOLOGY_head0_group, 0),
      (CC_GROUP0_enable 0, 1), (CC_GROUP0_meas_frames 0, 4), (CC_GROUP0_skip_us 0, 5), (LS_BANK0_enable 1, 1), (LS_BANK0_head 1, 0), (LS_BANK0_prim 1, 1),
      (LS_BANK12_scale 1, 0x6000), (LS_BANK12_fade_state 1, FADE_ON), (HD_RVH_CTRL_enable 0, 1), (HD_RVH_STATUS_state 0, ACTIVE)]) 0
    (slotWord opMeasure w 5000 1)).setBandOf 3 { Band.reset with slot := 1, frameNo := some 1 }).setCcGroup 0
    { CcGroup.reset with item := some (1, w), named := some (1, w) }).setBank 1 { Bank.reset with x := 1 }

/-- A sample in the window of a slot of 5000 ticks, and one that is clipped. -/
def sampleIn : TriadSample := ⟨4000, 100, 200, 300⟩
def sampleFull : TriadSample := ⟨4200, 100, 65535, 300⟩

theorem witness_MeasureSlotsTakeReadings :
    0 < ((lit.setBandOf 1 { Band.reset with slot := 1 }).bandOf 1).slot ∧
    ((lit.setBandOf 1 { Band.reset with slot := 1 }).playSlots 0 1)[0]?.any (fun k => k.op != opMeasure) = true ∧
    (∀ w ∈ [0, 3], 0 < ((measured w).bandOf 3).slot ∧ ((measured w).playSlots 0 3)[0]?.any (fun k => k.op == opMeasure && k.w == w && k.prim == 1) = true ∧
      (∀ z : Fin 4, (measured w).matrixOn z = false) ∧ (measured w).triadServes 2 0 3 = true) ∧
    ((measured 0).namedItem 0 = some (1, 0) ∧ (measured 0).fld (LS_BANK0_head 1) = 0 ∧ (measured 0).fld (LS_BANK0_prim 1) = 1 ∧
      (∀ c : Fin 3, (measured 0).measuring 5 (3 * 2 + c) = false) ∧ (measured 0).flag (CC_TRIADA_suspect 2) = false ∧
      ((measured 0).fld (LS_BANK12_scale 1) : Rat) / 32768 * (measured 0).fade 1 ≠ 0 ∧ ((measured 0).bank 1).hasWhite = false ∧
      ((measured 0).ccGroup 0).frameN = 0 ∧ ((measured 0).ccGroup 0).frameSum = (0, 0, 0) ∧ ((measured 0).ccGroup 0).taken = false ∧
      ((measured 0).ccGroup 0).good + 1 < (measured 0).fld (CC_GROUP0_meas_frames 0) ∧ (measured 0).zoneLit 0 = false ∧
      ((measured 0).ccGroup 0).item = some (1, 0)) ∧
    ([sampleIn].filter (inWindow ((measured 0).fld (CC_GROUP0_skip_us 0)) 5000) = [sampleIn] ∧
      [(⟨4201, 0, 0, 0⟩ : TriadSample)].filter (inWindow ((measured 0).fld (CC_GROUP0_skip_us 0)) 5000) = [] ∧
      (List.range 3).any (clippedAt [sampleIn, sampleFull]) = true ∧ (List.range 3).any (clippedAt [sampleIn]) = false) ∧
    ((zoned.setFlag (ZN_MAT6_in_self_scan 1) true).matrixOf 0).any (zoned.setFlag (ZN_MAT6_in_self_scan 1) true).selfScan = true := by
  decide +kernel

/-- One channel pair with channel 1 in RUN, two ranks, and a spare enabled or not. -/
def granary (l : List (Field × Nat)) : State :=
  sets memory ([(GR_CTRL_channels, 1), (GR_CHAN1_state 1, CH_RUN), (GR_CHAN0_ranks 1, 2), (GR_CHAN1_rank_map 1, 0b11100100)] ++ l)

theorem witness_GranaryRequestsEnterTheirQueue :
    memory.capacity ≤ 0x40000000 / 64 * 64 ∧
    (0x3FFFFFFF / 64 * 64 < memory.capacity ∧ memory.flag GR_CTRL_in_sr = false ∧ (30 ≤ (36 : Fin 37).val ∧ (36 : Fin 37).val ≠ 32) ∧
      (memory.sub (2 * (memory.placeOf 0x3FFFFFC0).ch + (memory.placeOf 0x3FFFFFC0).sub)).entry = []) ∧
    (memory.sub 0).room (read64 36 0 true) = true ∧ (memory.sub 0).room (read64 36 0 false) = true ∧
    ({ memory.sub 0 with writes := List.replicate 200 (read64 30 0 true) } : SubCh).room (read64 36 0 true) = false ∧
    (memory.sub 0).writes = [] ∧
    ((15 : Fin 37).val < 16 ∧ (0 : Fin 9).val < (sets memory [(HD_LAYER_CTRL_watermark 3 3, 1)]).fld (HD_LAYER_CTRL_watermark 3 3)) := by
  decide +kernel

theorem witness_SchedulerTakesTheFirstRule :
    (live.chState 7 ≠ CH_RUN ∧ live.chState 7 ≠ CH_MIGRATING) ∧ (granary []).chState 1 = CH_RUN ∧
    4 < (granary [(GR_CHAN1_owed 1, 5)]).fld (GR_CHAN1_owed 1) ∧
    (((granary [(GR_CHAN1_owed 1, 5)]).setChan 1 { (granary []).chan 1 with zqDue := true }).chan 1).zqDue = true ∧
    (∀ n ∈ [1, 4], 0 < (granary [(GR_CHAN1_owed 1, n)]).fld (GR_CHAN1_owed 1) ∧ (granary [(GR_CHAN1_owed 1, n)]).fld (GR_CHAN1_owed 1) ≤ 4 ∧
      ((granary [(GR_CHAN1_owed 1, n)]).chan 1).refreshNow = 0 ∧ ((granary [(GR_CHAN1_owed 1, n)]).sub 2).hasA = false ∧
      ((granary [(GR_CHAN1_owed 1, n)]).sub 3).hasA = false) ∧
    0 < (((granary []).setChan 1 { (granary []).chan 1 with refreshNow := 1 }).chan 1).refreshNow ∧
    ((granary []).fld (GR_CHAN1_owed 1) = 0 ∧ ((granary []).chan 1).refreshNow = 0 ∧ ((granary []).sub 3).writes = [] ∧
      ((granary []).sub 3).reads = [] ∧ ((granary []).sub 3).entry = [] ∧ ((granary []).sub 3).drain = 0 ∧ (read64 0 0x100 false).write = false ∧
      (read64 0 0x100 false).after = [] ∧ ((granary []).chan 1).halvings = [] ∧ (granary [(GR_RH_rh_en, 0)]).flag GR_RH_rh_en = false) ∧
    (let s := (sets live [(GR_SCHED_idle_drain, 1)]).setSub 3 { SubCh.reset with writes := [read64 30 0 true] }
     s.fld GR_SCHED_idle_drain ≠ 0 ∧ (s.sub 3).reads = [] ∧ (s.sub 3).writes ≠ [] ∧ (s.sub 3).drain = 0) ∧ (sets live [(GR_SCHED_idle_drain, 0)]).fld GR_SCHED_idle_drain = 0 := by
  decide +kernel

theorem witness_RefreshIsOwedOrDue :
    (live.chState 7 ≠ CH_RUN ∧ live.chState 7 ≠ CH_MIGRATING) ∧ (granary []).chState 1 = CH_RUN ∧
    (granary [(GR_CHAN1_owed 1, 3)]).fld (GR_CHAN1_owed 1) < 4 ∧ 4 ≤ (granary [(GR_CHAN1_owed 1, 4)]).fld (GR_CHAN1_owed 1) ∧
    (([0, 4] : List (BitVec 3)).take ((granary []).fld (GR_CHAN0_ranks 1))).any (fun o => decide (4 ≤ o.toNat)) = true ∧
    (([0, 3, 7] : List (BitVec 3)).take ((granary []).fld (GR_CHAN0_ranks 1))).any (fun o => decide (4 ≤ o.toNat)) = false ∧
    (granary []).flag (GR_CHAN1_trefi_half 1) = false ∧ 4 < 2 * (granary [(GR_CHAN1_owed 1, 3)]).fld (GR_CHAN1_owed 1) ∧
    (((granary []).setSub 2 { SubCh.reset with reads := [read64 0 0x100 false] }).sub 2).hasA = true ∧ ((granary []).sub 2).hasA = false ∧
      ((granary []).sub 3).hasA = false ∧ (1 ∈ (granary []).channels ∧ 1 < (granary []).fld (GR_CHAN0_ranks 1)) := by
  decide +kernel

/-- Channel 1 migrates rank 1 from a line on. -/
def migrating (ptr : Nat) : State :=
  granary [(GR_CHAN1_state 1, CH_MIGRATING), (GR_CHAN0_spare_cs 1, 3), (GR_CHAN2_mig_rank 1, 1), (GR_CHAN2_ptr 1, ptr), (GR_CHAN0_spare_en 1, 1), (GR_CAPACITY_capacity_gib, 64)]

theorem witness_LinesAreDecodedAndCopied :
    decodeLine (List.replicate 40 0) = .data (List.replicate 64 0) 0 ∧ (syndromes (List.replicate 40 0)).all (· == 0) = true ∧
    decodeLine (List.range 40) = .uncorrectable ∧ decodeLine (List.replicate 32 0 ++ poisonPattern) = .poisoned ∧ (granary []).spareFree ((granary []).placeOf 0x1000).ch = false ∧
    (granary []).spareFree 1 = false ∧ (granary []).chState 1 ≠ CH_MIGRATING ∧
    (∀ n ∈ [0, 1000, 2 ^ 27 - 1], (migrating n).addrOf ((migrating n).rankPlace 1 1 n) + 64 ≤ (migrating n).capacity) ∧
    (∀ n ∈ [0, 1000], (migrating n).chState 1 = CH_MIGRATING ∧ (migrating n).fld (GR_CHAN2_ptr 1) + 1 < (migrating n).rankLines ∧
      ((migrating n).sub (2 * 1 + ((migrating n).rankPlace 1 1 n).sub)).writes = []) ∧
    (let s := migrating 1000
     let p := s.rankPlace 1 1 1000
     (s.setSub (2 + p.sub) { (s.sub (2 + p.sub)) with writes := [read64 30 (s.addrOf p) true] }).sub (2 + p.sub) |>.writes.any
      (fun w => w.addr == s.addrOf p)) = true ∧
    (migrating (2 ^ 27 - 1)).fld (GR_CHAN2_ptr 1) + 1 = (migrating (2 ^ 27 - 1)).rankLines := by
  decide +kernel

/-- Whether a command of the catalogue, its arguments given, runs as the head of mailbox 2 with its work not begun. -/
def runs (s : State) (code : Nat) (args : List Nat) : Bool :=
  let c := command code args
  let t := held s [c]
  t.cmdHead 2 == some c && c.state == MB_RUNNING && c.outcome == none && !c.begun && t.serving && c.refusal (t.boot.phase == FALLOW) == 0

theorem runs_of {s : State} {code : Nat} {args : List Nat} (h : runs s code args = true) :
    Runs (held s [command code args]) 2 code (command code args) := by
  simp only [runs, Bool.and_eq_true, beq_iff_eq, Bool.not_eq_true'] at h
  exact ⟨h.1.1.1.1.1, h.1.1.1.1.2, rfl, h.1.1.1.2, h.1.1.2, h.1.2, h.2⟩

theorem witness_ReadingCommandsAnswer :
    (runs live 0x0101 [] && runs live 0x0102 [] && runs live 0x0505 [8] && runs live 0x0505 [7] && runs live 0x0902 [0] && runs live 0x0902 [8] &&
      runs live 0x0902 [1] && runs live 0x0902 [7] && runs live 0x0801 [] && runs live 0x0602 [2, 3] && runs live 0x0602 [7, 9999]) = true ∧
    (live.boot.cellarOk = true ∧ (live.record 0x100).map (·.payload) = some live.identity) ∧
    ({ live with boot := { live.boot with cellarOk := false } } : State).boot.cellarOk = false ∧
    (live.calHas 2 3 = true ∧ live.record (calRecord 2 + 3) = none) ∧ live.calHas 7 9999 = false ∧
    (((sets live [(TH_GLOBAL3_nv_window, 1)]).ownWrite (calRecord 2 + 3) [1, 2]).record (calRecord 2 + 3)).isSome = true := by
  decide +kernel

/-- The device in fallow mode. -/
def fallow : State := { live with boot := { live.boot with phase := FALLOW } }

theorem witness_CommandsActOnTheirUnits :
    (runs live 0x0103 [0] && runs live 0x0103 [0x9440] && runs fallow 0x0103 [0x9440] && runs live 0x0104 [] && runs live 0x0105 [1, 5, 6, 7] &&
      runs live 0x0301 [8, 4] && runs live 0x0301 [8, 5] && runs live 0x0201 [3, 0x30007, 1, 1, 2, 3, 4] && runs live 0x0201 [2, 7, 0] &&
      runs live 0x0302 [2, 2] && runs live 0x0303 [3] && runs live 0x0304 [40959, 2] && runs live 0x0304 [100, 5] && runs live 0x0401 [8, 0, 0, 0] &&
      runs live 0x0401 [7, 0, 0, 0] && runs live 0x0903 [AVS_BUS_ERR] && runs live 0x0903 [255]) = true ∧
    (live.sheaf 14 = Sheaf.reset ∧ live.entriesHeld [14, 15] + 1 ≤ 256) ∧
    (let s := (live.setSheaf 14 { Sheaf.reset with state := SH_PENDING }).setSheaf 15 { Sheaf.reset with state := SH_PENDING }
     (s.sheaf 14).state ≠ SH_FREE ∧ (s.sheaf 15).state ≠ SH_FREE) ∧
    (maskBits 8 8 = [3] ∧ (sets live [(LS_BANK0_head 3, 1), (HD_TOPOLOGY_head1_group, 0)]).bankGroup 3 = 0) ∧
    (({ live with fuses := { live.fuses with pn9440 := false } } : State).nHeads ≤ 3 ∧ 3 < live.nHeads ∧ live.headState 2 = DISABLED ∧
      (headIn 3 ACTIVE).headState 3 = ACTIVE ∧ (headIn 3 ACTIVE).portUp (3 + 2) = true ∧ (headIn 3 EQ).portUp (3 + 2) = false) ∧
    ((maskStrings 2 2).filter (sets live [(LS_STRING2_state 33, 2)]).strFaulted = [33] ∧ (maskStrings 2 2).filter live.strFaulted = []) ∧
    (let s := sets live [(LS_BANK12_tripped 1, 1), (LS_STRING0_enable 3, 1), (LS_STRING0_bank 3, 1), (LS_STRING2_state 3, 2)]
     s.tripped 1 = true ∧ (s.members 1).any s.strFaulted = true) ∧
    ((sets live [(LS_BANK12_tripped 1, 1)]).tripped 1 = true ∧ ((sets live [(LS_BANK12_tripped 1, 1)]).members 1).any live.strFaulted = false) ∧
    ((sets zoned [(ZN_CTX0_fault 104, ZONE_OPEN)]).zoneFaulted 104 = true ∧ (zoned.zoneMatrix 104).isSome = true ∧ live.zoneFaulted 104 = false) ∧
    (live.genOn 7 = false ∧ (sets live [(CE_PG0_enable 7, 1)]).genOn 7 = true ∧ (sets live [(CE_PG0_enable 7, 1)]).flag (CE_PG6_owned 7) = false) ∧
    (isSource AVS_BUS_ERR = true ∧ isSource 255 = false) := by
  decide +kernel

/-- Memory with an image of 8-byte entries at 4096. -/
def image (l : List Nat) : State := memory.setBytes 4096 (l.flatMap (natLe 8))

theorem witness_LoadsFillTheBankNotInUse :
    (∀ code ∈ [0x0202, 0x0203], (runs memory code [3, 4096, 0] && runs memory code [3, 100, 0] && runs memory code [3, 0x3FFFF000, 0]) = true) ∧
    ((command 0x0202 [3, 4096, 0]).addr 1 = some 4096 ∧ (command 0x0202 [3, 100, 0]).addr 1 = some 100 ∧ 100 % 4096 ≠ 0 ∧
      (command 0x0202 [3, 0x3FFFF000, 0]).addr 1 = some 0x3FFFF000 ∧ memory.capacity < 0x3FFFF000 + 32768 ∧ 3 < memory.nHeads) ∧
    (4096 + 262144 ≤ memory.capacity ∧ ({ memory with poisoned := [64 + 511] } : State).rangePoisoned 4096 32768 = true ∧
      memory.rangePoisoned 4096 262144 = false) ∧
    ((seqCheck (fun i => leNat (memory.bytes (4096 + 8 * i) 8)) 4096 0 slotCtx0).1 = E_BAD_ARG ∧
      seqCheck (fun i => leNat ((image [0x4006]).bytes (4096 + 8 * i) 8)) 4096 0 slotCtx0 = (0, 0) ∧ (memory.headOf 3).swapPending = false) ∧
    (2 ^ 24 ≤ (image [2 ^ 24]).memWord (4096 + 4 * 0) ∧ memory.sheafOn (TS_CTRL_table_bank 3) = false) ∧
    (runs memory 0x0204 [3, 4096, 0, 0] && runs memory 0x0204 [3, 4096, 0, 8193] && runs memory 0x0204 [3, 4096, 0, 8192] &&
      runs memory 0x0204 [3, 4096, 0, 1] && runs memory 0x0204 [3, 4096, 0, 2]) = true ∧
    (tableFail (fun i => leNat ((image [5 + 2 ^ 32, 9]).bytes (4096 + 8 * i) 8)) 2 = none ∧
      tableFail (fun i => leNat ((image [2 ^ 63]).bytes (4096 + 8 * i) 8)) 1 = some 0 ∧ memory.sheafOn (LM_CTRL_table_bank 3) = false ∧
      (memory.line 3).timingSwap = false ∧ (memory.line 3).skipFrame = false) := by
  decide +kernel

/-- In a memory that lists nothing every word reads as 0, so every code is below 2^24. -/
theorem witness_LoadsFillTheBankNotInUse_codes : ∀ i < 65536, memory.memWord (4096 + 4 * i) < 2 ^ 24 := by
  have hm : memory.mem = [] := by decide +kernel
  intro i _
  simp only [State.memWord, State.bytes, State.byte, hm, tabGet, memDefault, ite_self]
  decide

theorem witness_MemoryCommandsMoveBytes :
    memory.flag GR_CTRL_in_sr = false ∧
    (runs memory 0x0501 [0, 0, 0, 100, 0, 5] && runs memory 0x0501 [0, 0, 0, 100, 0, 0] && runs memory 0x0501 [1, 7, 1, 100, 0, 60] &&
      runs memory 0x0501 [0, 0, 0, 0x3FFFFFFC, 0, 5] && runs memory 0x0501 [0, 0, 0, 0, 256, 5] && runs memory 0x0502 [101, 0, 5, 0x04030201] &&
      runs memory 0x0502 [101, 0, 0, 1] && runs memory 0x0402 [64, 0] && runs memory 0x0402 [65, 0] && runs memory 0x0503 [0, 0, 0] &&
      runs memory 0x0503 [0, 0, 1] && runs memory 0x0503 [8, 0, 0] && runs memory 0x0504 []) = true ∧
    (∀ c ∈ [command 0x0501 [0, 0, 0, 100, 0, 200], { command 0x0501 [0, 0, 0, 100, 0, 200] with begun := true, done := 28 }],
      (held memory [c]).cmdHead 2 = some c ∧ c.done < c.arg 5) ∧
    (28 < 200 ∧ 100 + 0 + 28 = (100 + 0 + 28) / 64 * 64 ∧ 200 ≤ 28 + 172) ∧
    ((command 0x0501 [0, 0, 0, 100, 0, 5]).spi = false ∧ ({ command 0x0501 [] with spi := true } : MbCmd).spi = true ∧
      (command 0x0501 [0, 0, 0, 0, 256, 5]).addr 3 = none ∧ (command 0x0501 [0, 0, 0, 0x3FFFFFFC, 0, 5]).addr 3 = some 0x3FFFFFFC ∧
      memory.capacity < 0x3FFFFFFC + 5 ∧ bitOf 1 0 = true ∧ bitOf 0 0 = false) ∧
    ({ memory with poisoned := [2] } : State).firstPoison 100 60 = some 128 ∧
    (memory.capacity < 0x40000001 ∧ ({ memory with cap := { memory.cap with buf := [[1, 2, 3, -4]] } } : State).captureBytes.length = 16) := by
  decide +kernel

/-- No line of that memory is poisoned. -/
theorem witness_MemoryCommandsMoveBytes_clean : ∀ l, memory.isPoisoned l = false := by
  have hm : memory.poisoned = [] := by decide +kernel
  intro l
  simp [State.isPoisoned, hm]

/-- Channel 0 with a spare rank, free. -/
def spared : State := sets memory [(GR_CHAN0_ranks 0, 2), (GR_CHAN0_spare_en 0, 1), (GR_CHAN1_state 0, CH_RUN)]

theorem witness_MemoryCommandsMoveBytes_spare :
    (0 ∈ spared.channels ∧ 8 ∉ spared.channels ∧ 0 < spared.dataRanks 0 ∧ spared.chState 0 ≠ CH_MIGRATING ∧ spared.spareFree 0 = true) ∧
    ((sets spared [(GR_CHAN0_spare_en 0, 0)]).spareFree 0 = false ∧ 0 < (sets spared [(GR_CHAN0_spare_en 0, 0)]).dataRanks 0) ∧
    ((sets spared [(GR_CHAN1_state 0, CH_MIGRATING)]).chState 0 = CH_MIGRATING) ∧
    ((spared.ownWrite (rankRecord 0) [1, 0, 1]).rankRecorded 0 0 = true ∧ spared.rankRecorded 0 0 = false) ∧
    (memory.memoryUsers = false ∧ shown.memoryUsers = true) := by
  decide +kernel

/-- A directory entry of R356: type, level, version, body offset; the body is one byte. -/
def entryBytes (type version offset : Nat) : List Byte :=
  natLe 1 type ++ natLe 1 1 ++ natLe 2 version ++ natLe 4 0 ++ natLe 4 offset ++ natLe 4 1 ++ List.replicate 48 0

/-- An image of GL, CE, SQ and SF, as R356 lays it out, with a crc, its digests and signatures 0. -/
def anImage (crc : Nat) : List Byte :=
  natLe 4 0x57464E50 ++ natLe 2 1 ++ natLe 2 4 ++ natLe 4 832 ++ natLe 4 576 ++ natLe 4 7 ++ List.replicate 44 0 ++
    entryBytes 0 1 320 ++ entryBytes 1 1 384 ++ entryBytes 3 1 448 ++ entryBytes 4 1 512 ++ List.replicate 256 9 ++ natLe 4 crc ++
    List.replicate 252 0

/-- That image is well formed. -/
theorem witness_image : imgFormat (anImage 5) = true ∧ imgBytes (anImage 5) = 832 ∧ (anImage 5).length = 832 := by
  decide +kernel

/-- With the right crc, its verification rests on the signatures and digests alone, which Config leaves open. -/
theorem witness_image_good (h0 : imgCrcOk (anImage 5) = true) (h1 : imgUmnath (anImage 5) = true) (h2 : imgCounter (anImage 5) = true)
    (h3 : imgBodies (anImage 5) = true) : imgVerify (anImage 5) = none := by
  simp [imgVerify, witness_image.1, h0, h1, h2, h3]

theorem witness_image_bad : imgBytes ([0, 0, 0, 0, 0, 0, 0, 0, 20, 0, 0, 0] ++ List.replicate 8 0) = 20 ∧
    imgVerify ([0, 0, 0, 0, 0, 0, 0, 0, 20, 0, 0, 0] ++ List.replicate 8 0) = some .format := by
  decide +kernel

/-- Firmware of SQ for head 0 and of SF is staged, with components pending and applied. -/
def staged (pending applied : List Nat) : State :=
  let s := sets memory (pending.map (fun k => (pendingBit k, 1)) ++ applied.map (fun k => (appliedBit k, 1)))
  { s with fw := { s.fw with
      run := [(3, { Comp.reset with version := 7 }), (7, { Comp.reset with version := 9, level := s.fw.settingsLevel })]
      staged := [(3, { Comp.reset with version := 8 }), (7, { Comp.reset with version := 4, level := s.fw.settingsLevel })]
      idle := [(3, { Comp.reset with version := 5 })] } }

/-- The same with the write window open and a length staged. -/
def confirmable : State :=
  let s := sets (staged [] [3]) [(TH_GLOBAL3_nv_window, 1)]
  { s with fw := { s.fw with stagedBytes := 5, attic := some (0x4000, 2) } }

theorem witness_FirmwareIsStagedAndSwitched :
    (runs memory 0x0701 [0, 0, 0] && runs memory 0x0701 [0, 0, 832] && runs (staged [3] []) 0x0702 [3, 0] && runs (staged [3] []) 0x0702 [5, 0] &&
      runs (staged [] []) 0x0702 [3, 0] && runs (staged [3, 7] []) 0x0702 [4, 0] && runs (staged [7] []) 0x0702 [4, 0] &&
      runs (sets (staged [3] []) [(HD_RVH_CTRL_enable 0, 1)]) 0x0702 [3, 0] && runs (staged [3] []) 0x0703 [] && runs (staged [] [3]) 0x0703 [] &&
      runs confirmable 0x0703 [] && runs (staged [] []) 0x0704 [] && runs (staged [] [3]) 0x0704 [] && runs memory 0x0705 [1, 4096] &&
      runs memory 0x0705 [0, 4096] && runs confirmable 0x0705 [4096, 8192] && runs memory 0x0706 [5, 3, 0x04030201] &&
      runs confirmable 0x0706 [5, 3, 0x04030201]) = true ∧
    ((command 0x0701 [0, 0, 832]).addr 0 = some 0 ∧ (sets memory [(FW_STAGE0_stage_lo, 0)]).stageBase = 0 ∧ memory.capacity = 2 ^ 30 ∧
      memory.rangePoisoned 0 832 = false) ∧
    ((staged [3] []).applyComp (command 0x0702 [3, 0]) = some 3 ∧ (staged [3] []).flag (pendingBit 3) = true ∧
      (staged [] []).flag (pendingBit 3) = false ∧ (∀ j ∈ updateOrder.take 3, (staged [3] []).flag (pendingBit j) = false) ∧
      (staged [3] []).headOn (3 - 3) = false ∧ (sets (staged [3] []) [(HD_RVH_CTRL_enable 0, 1)]).headOn (3 - 3) = true) ∧
    ((staged [3, 7] []).applyComp (command 0x0702 [4, 0]) = some 7 ∧ (∃ j ∈ updateOrder.take 7, (staged [3, 7] []).flag (pendingBit j) = true) ∧
      (∀ j ∈ updateOrder.take 7, (staged [7] []).flag (pendingBit j) = false) ∧
      ((staged [7] []).stagedComp 7).digest = (State.comp (staged [7] []).fw.staged 7).digest) ∧
    ((staged [3] []).pendingMask ≠ 0 ∧ (staged [] []).appliedMask = 0 ∧ (staged [] [3]).pendingMask = 0 ∧ (staged [] [3]).appliedMask ≠ 0 ∧
      (staged [] [3]).nvOpen = false ∧ confirmable.nvOpen = true ∧ confirmable.pendingMask = 0 ∧ confirmable.appliedMask ≠ 0) ∧
    ((∀ j < 8, (staged [] [3]).flag (appliedBit j) = true ↔ j = 3) ∧ (staged [] [3]).fw.attic = none) ∧ memory.fw.handover = none := by
  decide +kernel

theorem witness_FirmwareIsStagedAndSwitched_handover :
    ∀ s ∈ [{ staged [7] [] with fw := { (staged [7] []).fw with handover := some 2 } }], ∀ c ∈ [command 0x0702 [4, 0]],
      (held s [c]).fw.handover = some (2 : Fin 8).val ∧ (held s [c]).cmdHead 2 = some c ∧ c.state = MB_RUNNING ∧
      (held s [c]).fw.rolling = [] ∧ ((held s [c]).stagedComp 7).level = (held s [c]).fw.settingsLevel := by
  decide +kernel

/-- Memory with a changed setting, and the write window open or not. -/
def changed (nv : Nat) : State := sets memory [(TH_GLOBAL3_nv_window, nv), (TH_AVS_CTRL_step_mv, 7)]

theorem witness_FirmwareIsStagedAndSwitched_confirm :
    (∀ c ∈ [command 0x0703 [], { command 0x0703 [] with begun := true, done := 0 }], ∀ nv ∈ [0, 1],
      let s := sets confirmable [(TH_GLOBAL3_nv_window, nv)]
      (held s [c]).cmdHead 2 = some c ∧ c.state = MB_RUNNING ∧ c.outcome = none ∧ s.serving = true ∧
        c.refusal (s.boot.phase == FALLOW) = 0 ∧ c.done < (s.fw.stagedBytes + 4095) / 4096 ∧ s.flag GR_CTRL_in_sr = false ∧
        s.nvOpen = (nv == 1)) ∧
    (∀ s ∈ [{ confirmable with fw := { confirmable.fw with stagedBytes := 8193 } }], 1 + 1 < (s.fw.stagedBytes + 4095) / 4096 ∧
      (s.fw.stagedBytes + 4095) / 4096 ≤ 1 + 2) := by
  decide +kernel

theorem witness_SettingsReportsAndCalibration :
    (runs (changed 1) 0x0707 [] && runs (changed 0) 0x0707 [] && runs (changed 1) 0x0708 [100, 0] && runs (changed 1) 0x0709 [100, 0, 28, 0] &&
      runs memory 0x0803 [100, 0] && runs memory 0x0802 [1, 2, 3, 4, 5, 6, 7, 8, 100, 0] && runs (changed 1) 0x0601 [2, 8, 0] &&
      runs (changed 1) 0x0601 [7, 8, 0] && runs (changed 1) 0x0601 [2, 0, 0] && runs (changed 0) 0x0601 [2, 8, 0]) = true ∧
    ((changed 0).nvOpen = false ∧ (changed 1).nvOpen = true ∧ ((changed 1).fw.area = 0x1000 ∨ (changed 1).fw.area = 0x4000) ∧
      (changed 1).committed + 1 < 2 ^ 32) ∧
    ((command 0x0708 [100, 0]).addr 0 = some 100 ∧ (settingsFile 0 (changed 1).settings).length = 28 ∧ 100 + 28 ≤ (changed 1).capacity ∧
      (changed 1).flag GR_CTRL_in_sr = false ∧ (command 0x0802 [1, 2, 3, 4, 5, 6, 7, 8, 100, 0]).addr 8 = some 100) ∧
    (readSettingsFile (List.replicate 28 0) = none ∧
      readSettingsFile (settingsFile 1 [(TH_AVS_CTRL, 0x00074B00)]) = some (1, [(TH_AVS_CTRL, 0x00074B00)]) ∧
      readSettingsFile (settingsFile 2 [(TH_AVS_CTRL, 0x00074B00)]) = some (2, [(TH_AVS_CTRL, 0x00074B00)]) ∧
      (changed 1).fw.settingsLevel + 1 < 2 ∧ 1 ≤ (changed 1).fw.settingsLevel + 1) ∧
    (maskStrings 8 0 = [3] ∧ (changed 1).calHas 2 3 = true ∧ (maskStrings 8 0).filter (fun i => !(changed 1).calReady 2 i) = []) ∧
    attemptGood 2 3 { unit := 3, first := [100, 32768], second := [103, 32770] } = true ∧
    attemptGood 2 3 { unit := 3, first := [100, 32768], second := [10300, 32770] } = false ∧
    (changed 1).badSlots = [] ∧
    (∀ e ∈ [(⟨3, 0, none, 0⟩ : CalEnd), ⟨3, 1, none, 7⟩, ⟨3, 2, none, 7⟩], ∀ c ∈ [{ command 0x0601 [2, 8, 0] with begun := true }],
      let s := (changed 1).setCalRun 2 [e]
      s.calRunOf 2 = [e] ∧ (held s [c]).cmdHead 2 = some c ∧ s.serving = true ∧ c.refusal (s.boot.phase == FALLOW) = 0 ∧ e.values = none ∧
        s.nvOpen = true) ∧
    (changed 1).cellar.all (fun e => decide (e.1 / 2 < 0x110 ∨ 0x200 ≤ e.1 / 2)) = true := by
  decide +kernel

theorem witness_WindowsReachTheGranary :
    State.reset.hostUp .spi = false ∧ memory.hostUp .pcie = true ∧ memory.hostUp .spi = true ∧
    ({ memory with boot := { memory.boot with granaryOk := false } } : State).boot.granaryOk = false ∧
    (memory.boot.granaryOk = true ∧ memory.flag GR_CTRL_in_sr = false ∧ memory.bar2Addr (2 ^ 30 - 3) + 3 ≤ memory.capacity) ∧
    crcSpi (natBe 4 0x80000100 ++ natBe 1 3 ++ List.replicate 12 7) ≠ (0#16).toNat ∧
    (3 % 4 ≠ 0 ∧ 8 % 4 = 0 ∧ 8 < 2 ^ 27 ∧ (0#8 = 0) ∧ 64 < (65#8).toNat) ∧
    (12 = 4 * 3 ∧ takesB memory .spi TH_AVS_CTRL 0x00054B00 = true ∧
      (BitVec.ofNat 32 (0x1000000 + 4 * TH_AVS_CTRL)).toNat = 0x1000000 + 4 * TH_AVS_CTRL) ∧
    (0x80000100 % 4 = 0 ∧ 2 ^ 31 ≤ 0x80000100 ∧ 0x80000100 < 2 ^ 31 + 2 ^ 30 ∧ memory.bar2Addr (0x80000100 % 2 ^ 30) + 4 * 64 ≤ memory.capacity) ∧
    0x0A ∉ [0x0B, 0xEB, 0x02, 0x38, 0x05, 0x9F] := by
  decide +kernel

/-- A command in a state. -/
def inState (code st : Nat) : MbCmd := { command code [] with state := st }

theorem witness_MailboxesServeTheirHeads :
    (live.hostUp .spi = true ∧ (1 : Word).getLsbD 0 = true ∧ (2 : Word).getLsbD 0 = false) ∧
    (4 ≤ ((held live [inState 1 1, inState 1 1, inState 1 1, inState 1 1]).mbox 2).cmds.length ∧
      ((held live [inState 1 1, inState 1 1, inState 1 1]).mbox 2).cmds.length < 4) ∧
    ((live.mbox 7).cmds = [] ∧ live.serving = true ∧ State.reset.serving = false ∧ (command 0x0101 []).resources = []) ∧
    ((held live [command 0x0101 []]).cmdHead 2 = some (command 0x0101 []) ∧ MB_RUNNING ≠ MB_DONE_ST ∧ MB_RUNNING ≠ MB_FAILED) ∧
    ((held live [inState 0x0101 MB_DONE_ST]).mbox 2).cmds = [inState 0x0101 MB_DONE_ST] ∧
    ((held live [inState 0x0101 MB_FAILED, inState 0x0102 MB_QUEUED]).mbox 2).cmds = inState 0x0101 MB_FAILED :: inState 0x0102 MB_QUEUED :: [] ∧
    ((inState 0x0101 MB_RUNNING).abortable = false ∧ (inState 0x0501 MB_RUNNING).abortable = true ∧ 0x0501 ∉ [0x0201, 0x0401, 0x0601, 0x0701, 0x0901]) ∧
    (live.fw.applying = none ∧ live.dbIdle = true) ∧
    (MB_QUEUED ≠ MB_RUNNING ∧ (command 0x0101 []).outcome = none ∧ (command 0x0101 []).refusal false = 0) ∧
    (∀ c ∈ [{ command 0x0101 [] with outcome := some (S_PARTIAL, [7, 8]) }], c.state = MB_RUNNING ∧ c.orphan = false ∧ c.outcome = some (S_PARTIAL, [7, 8])) ∧
    ((command 0x0101 [1]).needs ≠ some (command 0x0101 [1]).nArgs ∧ (command 0x0702 [3, 0]).needs = some (command 0x0702 [3, 0]).nArgs ∧
      fallow.boot.phase = FALLOW ∧ (cmdRow 0x0702).any (·.fallow) = false ∧ fallow.serving = true ∧ fallow.fw.applying = none ∧
      fallow.dbIdle = true) := by
  decide +kernel

/-- Handle 13 in a state, with an entry that sets the step of the governor, or with none. -/
def sheafIn (st kind : Nat) (l : List Entry) : State :=
  live.setSheaf 13 { Sheaf.reset with state := st, kind := kind, index := TH_AVS_CTRL, mask := 0xFF0000, entries := l }

def stepEntry (v : Word) : Entry := { index := TH_AVS_CTRL, mask := 0xFF0000, value := v }

theorem witness_SheavesGoThroughTheirStates :
    (live.hostUp .spi = true ∧ live.freeHandles = List.range 14) ∧
    ({ live with sheaves := (List.range 14).map (fun n => (n, { Sheaf.reset with state := SH_DONE })) } : State).freeHandles = [] ∧
    (live.sheaf 13).state ≠ SH_OPEN ∧
    (((sheafIn SH_OPEN 0 []).sheaf 13).state = SH_OPEN ∧ ((sheafIn SH_OPEN 0 []).sheaf 13).broken = false ∧ (locate TH_AVS_CTRL).isSome = true ∧
      (sheafIn SH_OPEN 0 []).entriesHeld hostHandles < 1792 ∧ (locate 0xFFFFFF).isSome = false) ∧
    1792 ≤ (sheafIn SH_OPEN 0 (List.replicate 1792 (stepEntry 0))).entriesHeld hostHandles ∧
    (live.sheaf 13).state = SH_FREE ∧ ((sheafIn SH_APPLIED 0 []).sheaf 13).state = SH_APPLIED ∧
    (((sheafIn SH_PENDING 0 []).sheaf 13).state = SH_PENDING ∧
      ¬∃ k ∈ (sheafIn SH_PENDING 0 []).pendingSheaves, ((sheafIn SH_PENDING 0 []).sheaf k).admission = true ∧ 0 < ((sheafIn SH_PENDING 0 []).sheaf k).order) ∧
    (let s := (sheafIn SH_PENDING 0 []).setSheaf 12 { Sheaf.reset with state := SH_PENDING, admission := true, order := 9 }
     ∃ k ∈ s.pendingSheaves, (s.sheaf k).admission = true ∧ (s.sheaf 13).order < (s.sheaf k).order) ∧
    ((sheafIn SH_PENDING 0 []).sheaf 13).staged / 256 ≠ 1 ∧ ((sheafIn SH_DONE 0 []).sheaf 13).state = SH_DONE := by
  decide +kernel

theorem witness_SheavesGoThroughTheirStates_rest :
    (∀ s ∈ [sheafIn SH_VALIDATING 0 [stepEntry 0], sheafIn SH_VALIDATING 0 [stepEntry 0x70000], sheafIn SH_VALIDATING 0 [], sheafIn SH_VALIDATING 3 []],
      (s.sheaf 13).state = SH_VALIDATING ∧ s.boot.phase = RUNNING ∧ s.fw.handover = none ∧ s.waitsOver (s.sheaf 13) = true ∧ (s.sheaf 13).broken = false) ∧
    (sheafIn SH_VALIDATING 0 [stepEntry 0]).validateCode ((sheafIn SH_VALIDATING 0 [stepEntry 0]).sheaf 13) = (E_ZERO, 0) ∧
    ((sheafIn SH_VALIDATING 0 [stepEntry 0x70000]).validateCode ((sheafIn SH_VALIDATING 0 [stepEntry 0x70000]).sheaf 13)).1 = 0 ∧
    (sheafIn SH_VALIDATING 3 []).rasterOn 0 = false ∧
    (live.mayApply 13 = false ∧ (sheafIn SH_PENDING 0 []).mayApply 13 = true ∧ (sheafIn SH_PENDING 0 [stepEntry 0x70000]).mayApply 13 = true ∧
      ((sheafIn SH_PENDING 0 []).sheaf 13).after = []) ∧
    ((sheafIn SH_APPLIED 0 []).readersDone ((sheafIn SH_APPLIED 0 []).sheaf 13) = true ∧
      (sheafIn SH_APPLIED 0 []).fenceDone ((sheafIn SH_APPLIED 0 []).sheaf 13) = true) := by
  decide +kernel

/-- Sensor 35 on, with its tests' runs and some fields. -/
def warm (x : Sensor) (l : List (Field × Nat)) : State := (sets live ((TH_SENSOR0_enable 35, 1) :: l)).setSensor 35 x

theorem witness_TemperatureSetsTheBudget :
    (sets live [(TH_SENSOR0_enable 35, 0)]).sensorOn 35 = false ∧
    (∀ e ∈ [(warm Sensor.reset [], false), (warm { Sensor.reset with converted := true, rangeRun := 2 } [(TH_SENSOR2_trusted 35, 1)], true)],
      e.1.sensorOn 35 = true ∧ e.1.measuring 6 35 = false ∧ ((e.1.sensor 35).converted = false ∨ e.1.flag (TH_SENSOR2_trusted 35) = true)) ∧
    (let s := warm Sensor.reset []
     let new := clampI (s.converted 35 300) (-2048) 2047
     ((s.sensor 35).runs (samplePeriod 35) (s.tempReading 35) new (decide (s.converted 35 300 < -360) || decide (1200 < s.converted 35 300))
      (twiceMedian (s.neighbours 35))).fails false (s.neighbours 35).isEmpty = 0) ∧
    (let s := warm { Sensor.reset with converted := true, rangeRun := 2 } [(TH_SENSOR2_trusted 35, 1)]
     let new := clampI (s.converted 35 300) (-2048) 2047
     ((s.sensor 35).runs (samplePeriod 35) (s.tempReading 35) new true (twiceMedian (s.neighbours 35))).fails false (s.neighbours 35).isEmpty ≠ 0) ∧
    (let s := warm { Sensor.reset with converted := true, passMs := 60001 } [(TH_SENSOR0_auto_restore 35, 1), (TH_SENSOR2_cause 35, 2), (TH_SENSOR2_trusted 35, 0)]
     s.flag (TH_SENSOR0_auto_restore 35) = true ∧ 60000 < (s.sensor 35).passMs ∧ s.suspect 35 = true ∧ s.measuring 6 35 = false) ∧
    (let s := (warm { Sensor.reset with converted := true } [(TH_SENSOR0_enable 34, 1), (TH_SENSOR0_nb0 35, 34), (TH_SENSOR0_nb1 35, 63),
       (TH_SENSOR0_nb2 35, 63), (TH_SENSOR0_nb3 35, 63), (TH_SENSOR2_trusted 35, 1), (TH_SENSOR2_trusted 34, 1)]).setSensor 34 { Sensor.reset with converted := true }
     (s.neighbours 35).max? = some 0 ∧ s.trusted 35 = true ∧ s.measuring 6 35 = false) ∧
    live.thermal.below = false ∧ ({ live with thermal := { live.thermal with below := true } } : State).thermal.below = true ∧
    (∀ s ∈ [{ sets live [(TH_GLOBAL3_nv_window, 1)] with deferred := [(7, [5])], badSlots := [slotKeyOf 7 0] }],
      s.writeFails 7 = true ∧ s.writeFails 8 = false ∧ s.nvOpen = true) ∧
    live.nvOpen = false ∧ (sets live [(TH_GLOBAL3_nv_window, 1)]).nvOpen = true := by
  decide +kernel

theorem witness_TemperatureSetsTheBudget_rules :
    (let s := (sets live [(TH_GLOBAL3_budget_pm, 1000), (TH_GLOBAL0_slope_pm, 50), (TH_GLOBAL0_knee_c, 80), (TH_GLOBAL0_floor_pm, 100)]).setInt TH_GLOBAL4_die_tracked 700
     s.budgetTarget * 1000 < s.fld TH_GLOBAL3_budget_pm * 1000 + s.thermal.fraction ∧ s.fld TH_GLOBAL3_budget_pm = 1000 ∧ s.budgetTarget < 1000) ∧
    (let s := sets live [(TH_GLOBAL3_budget_pm, 500)]
     s.fld TH_GLOBAL3_budget_pm * 1000 + s.thermal.fraction < s.budgetTarget * 1000 ∧ s.flag TH_GLOBAL3_hold = false) ∧
    (sets live [(TH_GLOBAL3_budget_pm, 500), (TH_GLOBAL3_hold, 1)]).flag TH_GLOBAL3_hold = true ∧
    ((live.setBank 7 { Bank.reset with member2 := 0 }).bank 7).member2 < live.derate 7 ∧ live.derate 7 ≤ (live.bank 7).member2 ∧
    (let s := ((sets live [(LS_BANK6_xts_mask 7, 0x8000)]).setSensor 15 { Sensor.reset with converted := true }).setBank 7 { Bank.reset with below := true }
     (s.bank 7).below = true ∧ (s.bankTemp 7).isSome = true) := by
  decide +kernel

/-- The monitor on, in command or video mode, waiting for an edge or not, with a read under way or not. -/
def monitored (cmdMode : Nat) (waiting : Bool) (dcs : Option Nat) : State :=
  let s := sets live [(HD_MON0_enable, 1), (HD_MON0_cmd_mode, cmdMode), (HD_MON0_te_timeout, 5), (HD_MON6_frames_sent, 65535)]
  { s with mon := { s.mon with waiting := waiting, dcs := dcs, since := 2 } }

theorem witness_MonitorAndEventsFollowTheirWrites :
    live.flag HD_MON0_enable = false ∧
    (∀ m ∈ [0, 1], (monitored m false none).flag HD_MON0_enable = true ∧ (monitored m false none).mon.waiting = false ∧
      ((monitored m false none).flag HD_MON0_cmd_mode = true ↔ m = 1) ∧ (monitored m false none).monDue = true ∧
      (monitored m false none).mon.sendEnd ≤ (monitored m false none).tick) ∧
    (sets live [(HD_MON0_enable, 1)]).monDue = false ∧ ({ live with mon := { live.mon with sendEnd := 5 } } : State).tick < 5 ∧
    ((monitored 1 true none).mon.waiting = true ∧ (monitored 1 true none).flag HD_MON0_te_falling = false ∧
      (monitored 1 true none).fld HD_MON0_te_timeout ≠ 0) ∧
    (runs (monitored 0 false none) 0x0205 [0x10106, 1] && runs (monitored 0 false none) 0x0205 [0x105, 1] && runs live 0x0205 [0x105, 1]) = true ∧
    (bitOf 0x10106 16 = true ∧ bitOf 0x105 16 = false) ∧ live.mon.dcs = none ∧ (monitored 0 false (some 7)).mon.dcs = some (7 : Fin 8).val ∧
    State.reset.hostUp .pcie = false ∧ live.hostUp .spi = true := by
  decide +kernel

/-- Two measurements of edge generator 3 that agree. -/
def goodEdge : CalMeasure := { unit := 3, first := [8192, 8192, 8192, 8192], second := [8193, 8192, 8192, 8192] }

/-- Task 7 runs a pass, in the background or for a GL.RUN in mailbox 2. -/
def gleaning (demand : Bool) : State :=
  if demand then
    after (exec (.glRun 2) (held live [command 0x901 [7, 0]]))
  else sets live [(GL_TASK0_state 7, 1)]

theorem witness_EdgesGleanerAndTap :
    (live.boot.phase = RUNNING ∧ (sets live [(CL_AUTO_edge_track, 1)]).flag CL_AUTO_edge_track = true ∧ live.calHas 1 3 = true ∧
      live.fld (CL_INST_state 1 3) ≠ 2 ∧ (sets live [(CL_INST_state 1 3, 2)]).fld (CL_INST_state 1 3) = 2 ∧
      attemptGood 1 3 goodEdge = true ∧ attemptGood 1 3 { goodEdge with second := [9999, 1, 1, 1] } = false) ∧
    ((sets live [(CL_AUTO_edge_track, 0)]).flag CL_AUTO_edge_track = false ∧ tabGet (fun _ => []) live.calPend (calKey 1 3) = []) ∧
    (let s : State := { live with calPend := [(calKey 1 3, [1, 2, 3, 4])] }
     tabGet (fun _ => []) s.calPend (calKey 1 3) ≠ [] ∧ ¬∃ e ∈ s.edges, e.out ∈ edgeOuts 3 ∧ s.tick * 32 ≤ e.fine + 64 ∧ e.fine ≤ s.tick * 32 + 64) ∧
    (runs live 0x0901 [0, 0] && runs live 0x0901 [1, 0] && runs live 0x0901 [7, 0] && runs live 0x0901 [3, 0xFFFFFFFF] &&
      runs live 0x0901 [4, 0xC0] && runs live 0x0901 [4, 0x3F]) = true ∧
    (({ live with fuses := { live.fuses with pn9440 := false } } : State).nHeads = 2 ∧ 2 ^ (4 + 2) ≤ 0xC0 % 256 ∧ 0x3F % 256 < 2 ^ (4 + 2) ∧
      live.flag GR_CTRL_in_sr = false ∧ (granary []).memoryHeld = false) ∧
    (live.passSteps 7 0 ≠ 0 ∧ ({ live with boot := { live.boot with granaryOk := false } } : State).boot.granaryOk = false) ∧
    (live.glRuns 7 0 = false ∧ GleanerStep.kind ⟨0, 0, 0, 0, true, []⟩ ≤ 1) ∧
    ((gleaning true).demandOf 7 = some (2 : Fin 8).val ∧ (gleaning true).glRuns 7 0 = true ∧ ((gleaning true).cmdHead 2).isSome = true) ∧
    ((gleaning false).glRuns 7 0 = true ∧ (gleaning false).demandOf 7 = none ∧ (gleaning false).glAbandoned 7 ⟨0, 0, 0, 0, true, []⟩ = false ∧
      (gleaning true).glAbandoned 7 ⟨0, 0, 0, 0, true, []⟩ = false ∧ (gleaning true).glKind 7 ⟨0, 0, 0, 0, true, []⟩ = 0) ∧
    ((gleaning false).glKind 7 ⟨0, 2, 0, 0, false, []⟩ = 2 ∧ (gleaning false).glAbandoned 7 ⟨0, 2, 0, 0, false, []⟩ = false) ∧
    (let s := sets shown [(TS_LOFT_WIN_win_size 0, 4), (GL_TASK0_state LOFT_MARCH, 1)]
     s.glRuns LOFT_MARCH 3 = true ∧ s.glAbandoned LOFT_MARCH ⟨3, 0, 0, 0, false, []⟩ = true) ∧
    (State.reset.boot.phase = LOADER ∧ fallow.boot.phase = FALLOW ∧ ¬(live.boot.phase = LOADER ∨ live.boot.phase = FALLOW)) := by
  decide +kernel

/-- CELL_ROW_COMPLETE: the codes of the example under R93, 2378 and 476 at boost 1.0, 3566 and 714 at 1.5. -/
theorem test_split_codes :
    (splitLit zoned 0x4000).unity 0 * 2 ^ 20 = 903168 ∧
    [(0x4000, 2378, 476), (0x6000, 3566, 714)].all (fun e =>
      let s := splitLit zoned e.1
      let t := after (exec (.cellRowComplete 0 1) s)
      t.fld (ZN_CTX0_level (s.zoneCtx 1 1 1)) == e.2.1 && t.fld (ZN_CTX0_level (s.zoneCtx 1 2 1)) == e.2.2) = true := by
  decide +kernel

/-- COLOUR_PIPELINE_PIXEL with both bypasses and dither off (R86, R88, R96): 0xABCD · 65535 / 65536 rounds to 0xABCC at 16 bits; at 8 bits
the rounding of 0xFFFF is 0xFF, replicated. -/
theorem test_colour_pixel :
    let s := sets shown [(CP_CTRL_lut_bypass 0, 1), (CP_CTRL_matrix_bypass 0, 1), (CP_HEAD_CTRL_unif_en 0, 0), (CP_HEAD_CTRL_dither_mode 0, 0)]
    tabGet (fun _ => 0) ((after (exec (.colourPipelinePixel 0 3 2 0xABCD 1 2) (sets s [(CP_HEAD_CTRL_dither_bits 0, 16)]))).headOf 0).index (pixKey 0 3 2) = 0xABCC ∧
    tabGet (fun _ => 0) ((after (exec (.colourPipelinePixel 0 3 2 0xFFFF 1 2) (sets s [(CP_HEAD_CTRL_dither_bits 0, 8)]))).headOf 0).index (pixKey 0 3 2) = 0xFFFF := by
  decide +kernel

/-- Bank 0 of the example under R188: 16 members, the level table, and a third open sample of member 3 to come. -/
def tabled : State :=
  (sets live ([(LS_BANK0_enable 0, 1), (LS_BANK0_confirm 0, 3), (LS_BANK0_policy 0, 1), (LS_BANK1_open_code 0, 3000), (LS_BANK1_short_code 0, 500), (LS_LEVEL_mask 0 0, 0xFFFF),
      (LS_LEVEL_mask 0 1, 0x00FF), (LS_LEVEL_mask 0 2, 0x000F), (LS_LEVEL_mask 0 3, 0x0001)] ++
    (List.range 16).flatMap (fun n => [(LS_STRING0_enable n, 1), (LS_STRING0_bank n, 0), (LS_STRING0_tout n, 10 + n), (LS_STRING2_state n, STR_OK)]))).setStr 3
    { Str.reset with openRun := 2 }

/-- DIAGNOSIS_SAMPLE: the eff_masks of that example once rebuilt, and EV_DATA of an open string (the example under R316). -/
theorem test_open_string :
    let t := after (exec (.diagnosisSample 3 3500) tabled)
    (List.range 4).map (fun w => (t.rebuildEff 0 (fun _ => true) (fun _ => false)).fld (LS_LEVEL_eff_mask 0 w)) = [0xFFF7, 0x01F7, 0x0017, 0x0001] ∧
    t.evData LS_STRING_FAULT = 0x00020003 ∧ t.fld (LS_STRING2_state 3) = STR_OPEN := by
  decide +kernel

/-- BAND_TAG_CHECK: a mismatch found after band 2 of 8 counts 6 bands (the example under R72). -/
theorem test_buffer_mismatch :
    let t := after (exec (.bandTagCheck 3 2) (sets (tagged false false) [(SQ_CTRL_bands 3, 8)]))
    t.fld (HD_LAYER_CNT6_buf_gen_mismatch 3 3) = 6 ∧ (t.fqueue 15).fifo = [⟨3, true, true⟩] := by
  decide +kernel

/-- ZONE_STEP's weight in the example under R201: M = 4, a winnow of 300 ns, 25,600 ticks of light. -/
theorem test_zone_weight :
    (sets zoned [(ZN_MAT0_mux 1, 2), (ZN_MAT3_winnow_ticks 1, 240), (ZN_MAT0_supply_bank 1, 1), (LS_STRING0_enable 9, 1), (LS_STRING0_bank 9, 1),
      (LS_LEVEL_eff_mask 1 0, 1)]).stepWeight 1 (decodeSlot 0x1B800491) 1 (32 * 25600) = 0x083B := by
  decide +kernel

/-- POR, RST_N and TAP: the phase, the cause, and the identification code of R394. -/
theorem test_resets_and_idcode :
    (after (exec .por live)).boot.phase = LOADER ∧ (after (exec .rstN live)).boot.lastReset = CAUSE_RST_N ∧
    (after (exec .idcode live)).jtag.tdo = 0x19440FFD ∧ (after (exec (.resetRelease plainEnv) (atStart false 3))).boot.phase = FALLOW := by
  decide +kernel

/-- REPLICA_MEASUREMENT 51 ps above the target raises the supply by a step. -/
theorem test_supply_rises :
    let s := governed 700 4 0
    (after (exec (.replicaMeasurement 1251) s)).fld TH_AVS_STATUS_vcore_mv = 700 + s.fld TH_AVS_CTRL_step_mv ∧
    (after (exec (.replicaMeasurement 1250) s)).fld TH_AVS_STATUS_vcore_mv = 700 := by
  decide +kernel

/-- TALLY_LOSS and EQ_DONE on a head port; a tally message with a bad CRC is counted. -/
theorem test_link :
    (after (exec (.tallyLoss 3) (headIn 3 ACTIVE))).headState 3 = TALLY_LOCK ∧
    (after (exec (.eqDone 3 5 (tallyCrc 7 5)) (headIn 3 EQ))).headState 3 = DESKEW ∧
    (after (exec (.eqDone 3 5 (tallyCrc 7 5 + 1)) (headIn 3 EQ))).fld (HD_RVH_ERRS3_tally_errs 3) = 1 := by
  decide +kernel

/-- A plain write over SPI, as the bytes of R296 and as a word; a step of 0 is refused with E_ZERO. -/
theorem test_plain_writes :
    let addr : Word := BitVec.ofNat 32 (0x1000000 + 4 * TH_AVS_CTRL)
    let crc := BitVec.ofNat 16 (crcSpi (natBe 4 addr.toNat ++ natBe 1 1 ++ wordBytes 0x00054B00))
    (after (exec (.spiWrite addr 1 (wordBytes 0x00054B00) crc false) live)).fld TH_AVS_CTRL_step_mv = 5 ∧
    (after (exec (.stateWordWrite .pcie 4 (0x1000000 + 4 * TH_AVS_CTRL) 0x00074B00) live)).fld TH_AVS_CTRL_step_mv = 7 ∧
    (after (exec (.stateWordWrite .pcie 4 (0x1000000 + 4 * TH_AVS_CTRL) 0x00004B00) live)).hi.werrCode = E_ZERO := by
  decide +kernel

/-- A sheaf from its allocation to its application. -/
theorem test_sheaf :
    let s := after (exec (.shAllocRead .spi) live)
    let t := after (exec (.sheafApply 13) (sheafIn SH_PENDING 0 [stepEntry 0x70000]))
    (s.sheaf 0).state = SH_OPEN ∧ s.hi.response = [0, 0, 0, 0x80] ∧ t.fld TH_AVS_CTRL_step_mv = 7 ∧ (t.sheaf 13).state = SH_DONE ∧
    ((after (exec (.sheafValidate 13) (sheafIn SH_VALIDATING 0 [stepEntry 0]))).sheaf 13).result = E_ZERO := by
  decide +kernel

/-- The Granary through BAR2 and through a line request, at the top of its capacity. -/
theorem test_granary_bytes :
    let s := after (exec (.bar2Write .pcie (BitVec.ofNat 30 (2 ^ 30 - 2)) [1, 2]) memory)
    s.byte (2 ^ 30 - 2) = 1 ∧ s.byte (2 ^ 30 - 1) = 2 ∧ (after (exec (.bar2Read .pcie (BitVec.ofNat 30 (2 ^ 30 - 2)) 2) s)).hi.response = [1, 2] ∧
    (after (exec (.granaryRequest 36 0x3FFFFFC0 true 0 (List.replicate 64 9)) memory)).byte 0x3FFFFFFF = 9 ∧
    (after (exec (.memFill 2 5) (held memory [command 0x502 [101, 0, 5, 0x04030201]]))).bytes 101 5 = [2, 3, 4, 1, 2] := by
  decide +kernel

/-- A loop's evaluation with its coefficients 0: the output is held at out_min, or the bias. -/
theorem test_loop :
    (after (exec (.loopEvaluation 63) looped)).sfld (CE_LOOP31_y 63) = sat32 (rawValue (looped.fld (CE_LOOP04_in_kind 63)) 0x7FFFFFFF * looped.sfld (CE_LOOP04_in_gain 63)) ∧
    ((after (exec (.loopSample 63 5) looped)).loop 63).taken = 5 := by
  decide +kernel

/-- DRIVER_ACK, LATCH_ALL and TELEM on driver bus 2. -/
theorem test_driver_bus :
    ((after (exec (.ack 2 (driverSays 5 0x02 [0])) (flying 0x02 1))).dbPort 2).inFlight = none ∧
    (after (exec (.latchAll 0) (latching false))).fld (LS_STRING4_code_active 63) = 0x1234 ∧
    (after (exec (.telem 2 (driverSays 5 5 [1, 77, 0, 0, 0, 0x22, 0x11, 0x30]) 3) (driven (flying 5 1)))).fld (LS_STRING3_headroom_mv 63) = 0x1122 := by
  decide +kernel

/-- MEASURE_SLOT_END counts a reading; SENSOR_SAMPLE is excluded out of range; ILK_N_FALL takes the enables of armed heads. -/
theorem test_readings_and_interlock :
    ((after (exec (.sensorSample 35 0 true) (warm { Sensor.reset with converted := true, rangeRun := 2 } [(TH_SENSOR2_trusted 35, 1)]))).flag TH_GLOBAL3_hold) = true ∧
    (after (exec (.ilkNFall none) armed)).len = 0x04 ∧ (after (exec (.ilkNFall (some 80)) armed)).fld (LM_STATUS_armed 1) = 0 := by
  decide +kernel

/-- Edges: the earliest goes first, and an output stays low while its head shows no light. -/
theorem test_edges :
    let s : State := { live with edges := [⟨33, 50, true⟩, ⟨33, 40, false⟩], tout := BitVec.ofNat 128 (2 ^ 33 + 1) }
    (after (exec (.edgeInstant 33) s)).tout = 1 ∧ (after (exec (.edgeInstant 33) s)).edges = [⟨33, 50, true⟩] := by
  decide +kernel

/-- Commands of the catalogue: FW.FLASH_ERASE refuses a length that is no multiple of 4096, ID.READ answers, GL.RUN begins, TEST.EVENT raises. -/
theorem test_catalogue :
    ((after (exec (.idRead 2) (held live [command 0x801 []]))).cmdHead 2).map (·.outcome) = some (some (S_OK, live.identity)) ∧
    ((after (exec (.fwFlashErase 2) (held live [command 0x705 [0, 4095]]))).cmdHead 2).map (·.outcome) = some (some (E_BAD_ARG, [])) ∧
    (after (exec (.testEvent 2) (held live [command 0x903 [AVS_BUS_ERR]]))).latched AVS_BUS_ERR = true ∧
    (gleaning true).fld (GL_TASK0_state 7) = 2 ∧
    (after (exec (.devPing 2) (held live [command 0x102 []]))) = held live [command 0x102 []] := by
  decide +kernel

/-- A transfer of two steps (R305), and a write of a record whose slot keeps reading back wrong (R340). -/
theorem test_stepwise :
    let s := after (exec (.memFill 2 30) (held memory [command 0x502 [101, 0, 40, 7]]))
    (s.cmdHead 2).map (fun c => (c.done, c.outcome)) = some (27, none) ∧
    ((after (exec (.memFill 2 30) s)).cmdHead 2).map (·.outcome) = some (some (S_OK, [40])) ∧
    ({ live with badSlots := [slotKeyOf 3 (live.writeTarget 3).2] }).writeFails 3 = true ∧ live.writeFails 3 = false := by
  decide +kernel

/-- A read over SPI ended before its marker is carried out and sends nothing; READ_STATUS then reports it. -/
theorem test_spi_early :
    (after (exec (.spiRead 0x1000000 1 true) live)).hi.response = [] ∧ (after (exec (.spiRead 0x1000000 1 false) live)).hi.response.length = 9 ∧
    (after (exec (.spiRead 0x1000000 1 true) { live with hi := { live.hi with spiStatus := E_RANGE } })).hi.spiStatus = S_OK := by
  decide +kernel

/-- A step takes the front command; the rest of the queue stays. -/
theorem test_step :
    step { live with pending := [.por, .idcode] } = exec .por { live with pending := [.idcode] } ∧ step live = .next { live with tick := 1 } ∧
      Sys2Proof.decodeTableWord 32 5 = none :=
  ⟨rfl, rfl, rfl⟩

end Sys2Proof.Tests
end

section
/-!
PROOFS. The speed-margin governor (R19, R20, R22): the updates its commands are made of and what each leaves alone; the
measurement, the raise and the lowering as parts of their own; the failed transaction and its retry.
-/

namespace Sys2Proof.Machine

variable {s t u : State} {c : Bool} {f : Field} {g : Governor} {i a vec mv ps : Nat} {o : Out}

/-! ## Reads after the plain updates -/

@[simp] theorem State.fld_setGov : ({ s with gov := g } : State).fld f = s.fld f := rfl
@[simp] theorem State.flag_setGov : ({ s with gov := g } : State).flag f = s.flag f := rfl
@[simp] theorem State.latched_setGov : ({ s with gov := g } : State).latched i = s.latched i := rfl
@[simp] theorem State.out_setGov : ({ s with gov := g } : State).out = s.out := rfl
@[simp] theorem State.fld_emit : (s.emit o).fld f = s.fld f := rfl

theorem State.fld_doIf {h : State → State} (hf : ∀ v, (h v).fld f = v.fld f) : (s.doIf c h).fld f = s.fld f :=
  State.doIf_keep (·.fld f) hf

@[simp] theorem State.fld_doIf_raise : (s.doIf c (·.raise i a)).fld f = s.fld f :=
  State.fld_doIf fun _ => State.fld_raise

theorem State.fld_doIf_setFld_other {e : Field} {n : Nat} (hf : f.lo + f.width ≤ 32)
    (h : f.key ≠ e.key ∨ f.lo + f.width ≤ e.lo ∨ e.lo + e.width ≤ f.lo) : (s.doIf c (·.setFld e n)).fld f = s.fld f :=
  State.fld_doIf fun _ => State.fld_setFld_other hf h

@[simp] theorem State.doIf_setFld_gov {n : Nat} : (s.doIf c (·.setFld f n)).gov = s.gov := State.doIf_keep State.gov fun _ => rfl

@[simp] theorem State.doIf_setFld_out {n : Nat} : (s.doIf c (·.setFld f n)).out = s.out := State.doIf_keep State.out fun _ => rfl

theorem State.fld_setFlag_other {e : Field} (hf : f.lo + f.width ≤ 32)
    (h : f.key ≠ e.key ∨ f.lo + f.width ≤ e.lo ∨ e.lo + e.width ≤ f.lo) : (s.setFlag e c).fld f = s.fld f :=
  State.fld_setFld_other hf h

/-- A one-bit field reads as it was written. -/
theorem State.flag_setFlag_same (hw : f.width = 1) (hf : f.lo < 32) : (s.setFlag f c).flag f = c := by
  unfold State.flag State.setFlag
  rw [State.fld_setFld_same (by omega), hw]
  cases c <;> rfl

/-! ## Raises and what has left the device -/

theorem State.mem_out_message (h : o ∈ s.out) : o ∈ (s.message vec).out := by
  unfold State.message
  split
  · exact List.mem_cons_of_mem _ h
  · exact h

/-- What has left the device stays sent through a raise. -/
theorem State.mem_out_raise (h : o ∈ s.out) : o ∈ (s.raise i a).out := by
  unfold State.raise State.raise2 State.raiseData
  dsimp only
  split
  · exact h
  · split
    · exact State.mem_out_message h
    · exact h

theorem State.mem_out_doIf_raise (h : o ∈ s.out) : o ∈ (s.doIf c (·.raise i a)).out := by
  cases c with
  | true => exact State.mem_out_raise h
  | false => exact h

/-- A raise depends, for the latch and the data word it writes, on the latches before it alone. -/
theorem Raised.of_ev {b : Nat} (h : Raised i a b t u) (hev : t.ev = s.ev) : Raised i a b s u := by
  unfold Raised State.latched at h ⊢
  rwa [← hev]

/-! ## What the governor reaches -/

/-- What the governor's commands leave alone: every word but TH_AVS_STATUS, every source but `i`, and every part of the machine
but its words, the governor's own record and what a raise reaches. -/
structure GovernorFrame (i : Nat) (s t : State) : Prop where
  words : OnlyWords [TH_AVS_STATUS] s t
  events : OnlyEvents [i] s t
  rest : t = { s with regs := t.regs, gov := t.gov, out := t.out, ev := t.ev, pcie := t.pcie }

theorem GovernorFrame.refl : GovernorFrame i s s := ⟨.refl, .refl, rfl⟩

theorem GovernorFrame.trans (h : GovernorFrame i s t) (h' : GovernorFrame i t u) : GovernorFrame i s u :=
  ⟨h.words.trans h'.words, h.events.trans h'.events, h'.rest.trans
    (congrArg (fun v : State => { v with regs := u.regs, gov := u.gov, out := u.out, ev := u.ev, pcie := u.pcie }) h.rest)⟩

theorem GovernorFrame.setFld {n : Nat} (h : f.key = TH_AVS_STATUS) : GovernorFrame i s (s.setFld f n) :=
  ⟨.setFld (by simp [h]), .of_ev rfl, rfl⟩

theorem GovernorFrame.emit : GovernorFrame i s (s.emit o) := ⟨.of_word fun _ => rfl, .of_ev rfl, rfl⟩

theorem GovernorFrame.setGov : GovernorFrame i s { s with gov := g } := ⟨.of_word fun _ => rfl, .of_ev rfl, rfl⟩

theorem GovernorFrame.raise : GovernorFrame i s (s.raise i a) := by
  obtain ⟨e, l, p, h⟩ : ∃ e l p, s.raise i a = { s with ev := e, out := l, pcie := p } := ⟨_, _, _, State.raise_parts⟩
  exact ⟨.of_word fun _ => State.word_raise, State.raise_only, by rw [h]⟩

theorem GovernorFrame.doIf {h : State → State} (hf : ∀ v, GovernorFrame i v (h v)) : GovernorFrame i s (s.doIf c h) := by
  cases c with
  | true => exact hf s
  | false => exact .refl

/-- TH_AVS_CTRL and TH_AVS_LIMITS read as before. -/
theorem GovernorFrame.fld (h : GovernorFrame i s t) (hf : f.key ≠ TH_AVS_STATUS) : t.fld f = s.fld f :=
  h.words.fld (by simpa using hf)

/-! ## A request, a raise and a lowering (R19) -/

theorem State.avsRequest_frame : GovernorFrame i s (s.avsRequest mv) := (GovernorFrame.setFld rfl).trans .emit

theorem State.avsRequest_vcore (h : mv < 1024) : (s.avsRequest mv).fld TH_AVS_STATUS_vcore_mv = mv :=
  (State.fld_setFld_same (by decide)).trans (Nat.mod_eq_of_lt h)

theorem State.avsRequest_out : (s.avsRequest mv).out = Out.avs mv :: s.out := rfl

/-- The request that a raise makes: a step up, within the limits. -/
def State.avsUp (s : State) : Nat :=
  max (s.fld TH_AVS_LIMITS_vmin_mv) (min (s.fld TH_AVS_STATUS_vcore_mv + s.fld TH_AVS_CTRL_step_mv) (s.fld TH_AVS_LIMITS_vmax_mv))

/-- The request that a lowering makes: a step down, within the limits. -/
def State.avsDown (s : State) : Nat :=
  min (s.fld TH_AVS_LIMITS_vmax_mv) (max (s.fld TH_AVS_STATUS_vcore_mv - s.fld TH_AVS_CTRL_step_mv) (s.fld TH_AVS_LIMITS_vmin_mv))

/-- Whether a raise is cut at the upper limit. -/
def State.avsClamped (s : State) : Bool :=
  decide (s.fld TH_AVS_LIMITS_vmax_mv < s.fld TH_AVS_STATUS_vcore_mv + s.fld TH_AVS_CTRL_step_mv)

theorem State.avsUp_lt (h : s.fld TH_AVS_LIMITS_vmin_mv ≤ s.fld TH_AVS_LIMITS_vmax_mv) : s.avsUp < 1024 := by
  have hmax : s.fld TH_AVS_LIMITS_vmax_mv < 1024 := State.fld_lt
  unfold State.avsUp
  omega

theorem State.avsDown_lt : s.avsDown < 1024 := by
  have hmax : s.fld TH_AVS_LIMITS_vmax_mv < 1024 := State.fld_lt
  unfold State.avsDown
  omega

/-- A raise is a request, both limits noted, AVS_LIMIT where it is cut, and both times started afresh. -/
theorem State.avsRaise_eq : ∃ g, s.avsRaise =
    { ((((s.avsRequest s.avsUp).setFld TH_AVS_STATUS_at_vmin 0).setFlag TH_AVS_STATUS_at_vmax s.avsClamped).doIf s.avsClamped
        (·.raise AVS_LIMIT (s.fld TH_AVS_LIMITS_vmax_mv))) with gov := g } := ⟨_, rfl⟩

/-- A lowering is a request, the lower limit noted, and the time of low measurements started afresh. -/
theorem State.avsLower_eq : ∃ b g, s.avsLower =
    { ((s.avsRequest s.avsDown).setFlag TH_AVS_STATUS_at_vmin b) with gov := g } := ⟨_, _, rfl⟩

theorem State.avsRaise_frame : GovernorFrame AVS_LIMIT s s.avsRaise := by
  obtain ⟨g, h⟩ := State.avsRaise_eq (s := s)
  rw [h]
  exact ((((State.avsRequest_frame).trans (.setFld rfl)).trans (.setFld rfl)).trans (.doIf fun _ => .raise)).trans .setGov

theorem State.avsLower_frame : GovernorFrame i s s.avsLower := by
  obtain ⟨b, g, h⟩ := State.avsLower_eq (s := s)
  rw [h]
  exact ((State.avsRequest_frame).trans (.setFld rfl)).trans .setGov

theorem State.avsRaise_vcore (h : s.fld TH_AVS_LIMITS_vmin_mv ≤ s.fld TH_AVS_LIMITS_vmax_mv) :
    s.avsRaise.fld TH_AVS_STATUS_vcore_mv = s.avsUp := by
  obtain ⟨g, hr⟩ := State.avsRaise_eq (s := s)
  rw [hr, State.fld_setGov, State.fld_doIf_raise, State.fld_setFlag_other (by decide) (by decide),
    State.fld_setFld_other (by decide) (by decide), State.avsRequest_vcore (State.avsUp_lt h)]

theorem State.avsLower_vcore : s.avsLower.fld TH_AVS_STATUS_vcore_mv = s.avsDown := by
  obtain ⟨b, g, hl⟩ := State.avsLower_eq (s := s)
  rw [hl, State.fld_setGov, State.fld_setFlag_other (by decide) (by decide), State.avsRequest_vcore State.avsDown_lt]

/-- stage_ps stays through a request. -/
theorem State.avsRequest_stage : (s.avsRequest mv).fld TH_AVS_STATUS_stage_ps = s.fld TH_AVS_STATUS_stage_ps :=
  State.fld_setFld_other (by decide) (by decide)

theorem State.avsRaise_stage : s.avsRaise.fld TH_AVS_STATUS_stage_ps = s.fld TH_AVS_STATUS_stage_ps := by
  obtain ⟨g, hr⟩ := State.avsRaise_eq (s := s)
  rw [hr, State.fld_setGov, State.fld_doIf_raise, State.fld_setFlag_other (by decide) (by decide),
    State.fld_setFld_other (by decide) (by decide), State.avsRequest_stage]

theorem State.avsLower_stage : s.avsLower.fld TH_AVS_STATUS_stage_ps = s.fld TH_AVS_STATUS_stage_ps := by
  obtain ⟨b, g, hl⟩ := State.avsLower_eq (s := s)
  rw [hl, State.fld_setGov, State.fld_setFlag_other (by decide) (by decide), State.avsRequest_stage]

theorem State.avsRaise_atVmax : s.avsRaise.flag TH_AVS_STATUS_at_vmax = s.avsClamped := by
  obtain ⟨g, hr⟩ := State.avsRaise_eq (s := s)
  rw [hr, State.flag_setGov, State.flag, State.fld_doIf_raise]
  exact State.flag_setFlag_same rfl (by decide)

/-- The request of a raise is sent, with or without a message of AVS_LIMIT after it. -/
theorem State.avsRaise_sends : Out.avs s.avsUp ∈ s.avsRaise.out := by
  obtain ⟨g, hr⟩ := State.avsRaise_eq (s := s)
  rw [hr, State.out_setGov]
  exact State.mem_out_doIf_raise (by rw [State.setFlag_out, State.setFld_out, State.avsRequest_out]; exact List.mem_cons_self)

theorem State.avsLower_out : s.avsLower.out = Out.avs s.avsDown :: s.out := rfl

/-- A raise that is cut latches AVS_LIMIT. -/
theorem State.avsRaise_latched (h : s.avsClamped = true) : s.avsRaise.latched AVS_LIMIT = true := by
  obtain ⟨g, hr⟩ := State.avsRaise_eq (s := s)
  rw [hr, h, State.latched_setGov, State.doIf_true]
  exact (State.raise_raised (by decide)).1

/-! ## A measurement of the replica (R19, R20) -/

/-- A measurement before the governor answers it: stage_ps filled, the limits that no longer hold cleared, both times moved on. -/
def State.avsMeasured (s : State) (ps : Nat) : State :=
  let t := s.setFld TH_AVS_STATUS_stage_ps (min ps 2047)
  let t := t.doIf (decide (ps ≤ s.fld TH_AVS_CTRL_target_ps)) (·.setFld TH_AVS_STATUS_at_vmax 0)
  let t := t.doIf (decide (s.fld TH_AVS_CTRL_target_ps ≤ ps + 100)) (·.setFld TH_AVS_STATUS_at_vmin 0)
  { t with gov := { t.gov with sinceRaise := t.gov.sinceRaise + 1
                               lowRun := if ps + 100 < s.fld TH_AVS_CTRL_target_ps then t.gov.lowRun + 1 else 0 } }

/-- Whether the governor holds its request: before RUNNING, with enable = 0, or in the retry of a failed transaction (R22). -/
def State.avsHeld (s : State) : Bool := !s.running || s.fld TH_AVS_CTRL_enable == 0 || s.gov.retry

/-- A measurement, and then the request held, raised, lowered or left. -/
theorem execReplicaMeasurement_eq : execReplicaMeasurement ps s =
    if s.avsHeld then .next (s.avsMeasured ps)
    else if s.fld TH_AVS_CTRL_target_ps + 50 < ps ∧ 5 ≤ (s.avsMeasured ps).gov.sinceRaise then .next (s.avsMeasured ps).avsRaise
    else if 1000 ≤ (s.avsMeasured ps).gov.lowRun then .next (s.avsMeasured ps).avsLower
    else .next (s.avsMeasured ps) := rfl

/-- What a measurement can do: the governor leaves its request, raises it or lowers it. -/
theorem execReplicaMeasurement_cases : ∃ t, execReplicaMeasurement ps s = .next t ∧
    (t = s.avsMeasured ps ∨ t = (s.avsMeasured ps).avsRaise ∨ t = (s.avsMeasured ps).avsLower) := by
  rw [execReplicaMeasurement_eq]
  split
  · exact ⟨_, rfl, .inl rfl⟩
  split
  · exact ⟨_, rfl, .inr (.inl rfl)⟩
  split
  · exact ⟨_, rfl, .inr (.inr rfl)⟩
  · exact ⟨_, rfl, .inl rfl⟩

theorem State.avsMeasured_frame : GovernorFrame i s (s.avsMeasured ps) :=
  (((GovernorFrame.setFld rfl).trans (.doIf fun _ => .setFld rfl)).trans (.doIf fun _ => .setFld rfl)).trans .setGov

theorem State.avsMeasured_gov : (s.avsMeasured ps).gov =
    { s.gov with
      sinceRaise := s.gov.sinceRaise + 1
      lowRun := if ps + 100 < s.fld TH_AVS_CTRL_target_ps then s.gov.lowRun + 1 else 0 } := by
  simp [State.avsMeasured]

theorem State.avsMeasured_out : (s.avsMeasured ps).out = s.out := by
  simp [State.avsMeasured]

theorem State.avsMeasured_vcore : (s.avsMeasured ps).fld TH_AVS_STATUS_vcore_mv = s.fld TH_AVS_STATUS_vcore_mv := by
  rw [State.avsMeasured, State.fld_setGov, State.fld_doIf_setFld_other (by decide) (by decide),
    State.fld_doIf_setFld_other (by decide) (by decide), State.fld_setFld_other (by decide) (by decide)]

/-- A stage time that fits the field is the one that stage_ps holds. -/
theorem State.avsMeasured_stage (h : ps < 2048) : (s.avsMeasured ps).fld TH_AVS_STATUS_stage_ps = ps := by
  rw [State.avsMeasured, State.fld_setGov, State.fld_doIf_setFld_other (by decide) (by decide),
    State.fld_doIf_setFld_other (by decide) (by decide), State.fld_setFld_same (by decide)]
  have hw : TH_AVS_STATUS_stage_ps.width = 11 := rfl
  rw [hw]
  omega

/-- The step, the limits and the request that a raise or a lowering starts from are those before the measurement. -/
theorem State.avsMeasured_up : (s.avsMeasured ps).avsUp = s.avsUp := by
  have hf : GovernorFrame AVS_LIMIT s (s.avsMeasured ps) := State.avsMeasured_frame
  simp (disch := decide) only [State.avsUp, hf.fld, State.avsMeasured_vcore]

theorem State.avsMeasured_down : (s.avsMeasured ps).avsDown = s.avsDown := by
  have hf : GovernorFrame AVS_LIMIT s (s.avsMeasured ps) := State.avsMeasured_frame
  simp (disch := decide) only [State.avsDown, hf.fld, State.avsMeasured_vcore]

theorem State.avsMeasured_clamped : (s.avsMeasured ps).avsClamped = s.avsClamped := by
  have hf : GovernorFrame AVS_LIMIT s (s.avsMeasured ps) := State.avsMeasured_frame
  simp (disch := decide) only [State.avsClamped, hf.fld, State.avsMeasured_vcore]

theorem State.avsMeasured_limits (h : s.fld TH_AVS_LIMITS_vmin_mv ≤ s.fld TH_AVS_LIMITS_vmax_mv) :
    (s.avsMeasured ps).fld TH_AVS_LIMITS_vmin_mv ≤ (s.avsMeasured ps).fld TH_AVS_LIMITS_vmax_mv := by
  have hf : GovernorFrame AVS_LIMIT s (s.avsMeasured ps) := State.avsMeasured_frame
  rwa [hf.fld (by decide), hf.fld (by decide)]

theorem State.avsHeld_iff :
    s.avsHeld = true ↔ s.boot.phase ≠ RUNNING ∨ s.fld TH_AVS_CTRL_enable = 0 ∨ s.gov.retry = true := by
  simp [State.avsHeld, State.running, or_assoc]

/-- A measurement fills stage_ps and reaches nothing but the governor's word, its record and AVS_LIMIT. -/
theorem execReplicaMeasurement_frame (h : ps < 2048) : ∃ t, execReplicaMeasurement ps s = .next t ∧
    t.fld TH_AVS_STATUS_stage_ps = ps ∧ GovernorFrame AVS_LIMIT s t := by
  have hm := State.avsMeasured_stage (s := s) h
  obtain ⟨t, ht, rfl | rfl | rfl⟩ := execReplicaMeasurement_cases (s := s) (ps := ps)
  · exact ⟨_, ht, hm, State.avsMeasured_frame⟩
  · exact ⟨_, ht, State.avsRaise_stage.trans hm, State.avsMeasured_frame.trans State.avsRaise_frame⟩
  · exact ⟨_, ht, State.avsLower_stage.trans hm, State.avsMeasured_frame.trans State.avsLower_frame⟩

theorem execReplicaMeasurement_held (h : s.avsHeld = true) : execReplicaMeasurement ps s = .next (s.avsMeasured ps) := by
  rw [execReplicaMeasurement_eq, if_pos h]

/-- The governor raises at the fifth measurement after the last raise, 50 us later, or at any later one. -/
theorem execReplicaMeasurement_raises (h : ¬ s.avsHeld = true) (hs : s.fld TH_AVS_CTRL_target_ps + 50 < ps)
    (ht : 4 ≤ s.gov.sinceRaise) : execReplicaMeasurement ps s = .next (s.avsMeasured ps).avsRaise := by
  have hg : 5 ≤ (s.avsMeasured ps).gov.sinceRaise := by rw [State.avsMeasured_gov]; dsimp only; omega
  rw [execReplicaMeasurement_eq, if_neg h, if_pos ⟨hs, hg⟩]

/-- The governor lowers at the thousandth low measurement without a break, after 10 ms. -/
theorem execReplicaMeasurement_lowers (h : ¬ s.avsHeld = true) (hs : ps + 100 < s.fld TH_AVS_CTRL_target_ps)
    (ht : 999 ≤ s.gov.lowRun) : execReplicaMeasurement ps s = .next (s.avsMeasured ps).avsLower := by
  have hg : 1000 ≤ (s.avsMeasured ps).gov.lowRun := by rw [State.avsMeasured_gov]; dsimp only; rw [if_pos hs]; omega
  rw [execReplicaMeasurement_eq, if_neg h, if_neg (by omega), if_pos hg]

/-! ## A failed transaction and its retry (R22) -/

/-- The part that a failed transaction and a failed retry share: bus_error set and AVS_BUS_ERR raised. -/
def State.avsFailed (s : State) : State := (s.setFld TH_AVS_STATUS_bus_error 1).raise AVS_BUS_ERR 0

theorem State.avsFailed_frame : GovernorFrame AVS_BUS_ERR s s.avsFailed := (GovernorFrame.setFld rfl).trans .raise

theorem State.avsFailed_busError : s.avsFailed.fld TH_AVS_STATUS_bus_error = 1 :=
  State.fld_raise.trans (State.fld_setFld_same (by decide))

theorem State.avsFailed_vcore : s.avsFailed.fld TH_AVS_STATUS_vcore_mv = s.fld TH_AVS_STATUS_vcore_mv :=
  State.fld_raise.trans (State.fld_setFld_other (by decide) (by decide))

theorem State.avsFailed_raised : Raised AVS_BUS_ERR 0 0 s s.avsFailed :=
  (State.raise_raised (by decide)).of_ev rfl

theorem State.avsFailed_gov : s.avsFailed.gov = s.gov := by
  unfold State.avsFailed
  rw [State.raise_parts]
  rfl

theorem execAvsbusTransactionFail_eq : execAvsbusTransactionFail s =
    .next { s.avsFailed with gov := { s.avsFailed.gov with retry := true } } := rfl

theorem execAvsRetry_idle (h : s.gov.retry = false) (ok : Bool) : execAvsRetry ok s = .next s := by
  rw [execAvsRetry, h]; rfl

theorem execAvsRetry_succeeds (h : s.gov.retry = true) : execAvsRetry true s =
    .next { s with out := .avs (s.fld TH_AVS_STATUS_vcore_mv) :: s.out, gov := { s.gov with retry := false } } := by
  rw [execAvsRetry, h]; rfl

/-- A retry that fails has sent the same request and is reported as the first failure was. -/
theorem execAvsRetry_fails (h : s.gov.retry = true) : execAvsRetry false s =
    .next (s.emit (.avs (s.fld TH_AVS_STATUS_vcore_mv))).avsFailed := by
  rw [execAvsRetry, h]; rfl

end Sys2Proof.Machine

open Sys2Proof Sys2Proof.Machine

/-- Settles O9: each row of R19 and R22 by what the governor's answer to it is made of. -/
theorem governorFollowsTheReplica : Obligations.GovernorFollowsTheReplica := by
  refine ⟨fun s ps hps => ⟨?fills, ?holds, fun hrun hen hretry hlim => ⟨?raises, ?lowers⟩⟩,
    fun s => ⟨?fails, ?succeeds, ?failsAgain, ?idle⟩⟩
  case fills =>
    obtain ⟨t, ht, hstage, hframe⟩ := execReplicaMeasurement_frame (s := s) hps
    exact ⟨t, ht, hstage, hframe.words, hframe.events, hframe.rest⟩
  case holds =>
    intro h
    exact ⟨_, execReplicaMeasurement_held (State.avsHeld_iff.mpr h), State.avsMeasured_vcore, State.avsMeasured_out⟩
  case raises =>
    intro hps ht
    have hfree : ¬ s.avsHeld = true := by simp [State.avsHeld_iff, hrun, hen, hretry]
    have hv : (s.avsMeasured ps).avsRaise.fld TH_AVS_STATUS_vcore_mv = s.avsUp :=
      (State.avsRaise_vcore (State.avsMeasured_limits hlim)).trans State.avsMeasured_up
    refine ⟨_, execReplicaMeasurement_raises hfree hps ht, hv, ?_, State.avsRaise_atVmax.trans State.avsMeasured_clamped, fun h => ?_⟩
    · rw [hv, ← State.avsMeasured_up (ps := ps)]
      exact State.avsRaise_sends
    · exact State.avsRaise_latched (State.avsMeasured_clamped.trans (decide_eq_true h))
  case lowers =>
    intro hps ht
    have hfree : ¬ s.avsHeld = true := by simp [State.avsHeld_iff, hrun, hen, hretry]
    have hv : (s.avsMeasured ps).avsLower.fld TH_AVS_STATUS_vcore_mv = s.avsDown :=
      State.avsLower_vcore.trans State.avsMeasured_down
    refine ⟨_, execReplicaMeasurement_lowers hfree hps ht, hv, ?_⟩
    rw [hv, State.avsLower_out, State.avsMeasured_down, State.avsMeasured_out]
  case fails =>
    have hframe : GovernorFrame AVS_BUS_ERR s { s.avsFailed with gov := { s.avsFailed.gov with retry := true } } :=
      State.avsFailed_frame.trans .setGov
    exact ⟨_, execAvsbusTransactionFail_eq, State.avsFailed_busError, State.avsFailed_raised, hframe.events, rfl,
      State.avsFailed_vcore, hframe.words, hframe.rest⟩
  case succeeds => exact execAvsRetry_succeeds
  case failsAgain =>
    intro h
    exact ⟨_, execAvsRetry_fails h, State.mem_out_raise List.mem_cons_self, by rw [State.avsFailed_gov]; exact h,
      State.avsFailed_busError, State.avsFailed_raised.of_ev rfl, State.avsFailed_vcore⟩
  case idle => exact fun h => execAvsRetry_idle h
end

section
/-!
PROOFS. Flip queues (R65, R67): the result of a submission by the first condition that applies, the word that a read of
HD_FQ_RETIRED answers with, and a change of one queue that raises a source.
-/

namespace Sys2Proof.Machine

variable {s t : State} {i a b q n : Nat} {v : Word} {x : FlipQueue} {r : Retired} {f u : List Retired} {l : List Byte}

/-- A host access that reaches the device does its work. -/
theorem State.host_up {j : Iface} {g : State → State} (h : s.hostUp j = true) : s.host j g = .next (g s) := if_pos h

/-! ## A change of one queue that raises a source -/

/-- From `s` to `t` queue `q` has become `x` and source `i` is raised with `a` and `b`; no other source, and no part of the
machine but the queues and what a raise reaches, differs. -/
structure FlipRaised (i a b q : Nat) (x : FlipQueue) (s t : State) : Prop where
  queue : t.fqueue q = x
  raised : Raised i a b s t
  events : OnlyEvents [i] s t
  rest : t = { s with fq := t.fq, ev := t.ev, out := t.out, pcie := t.pcie }

theorem FlipRaised.setFqueue_raise2 (h : isSource i = true) : FlipRaised i a b q x s ((s.setFqueue q x).raise2 i a b) where
  queue := by
    rw [State.raise2_parts]
    exact State.fqueue_setFqueue_same
  raised := (State.raise2_raised h).of_ev rfl
  events := (OnlyEvents.of_ev rfl).trans State.raise2_only
  rest := by
    rw [State.raise2_parts]
    rfl

/-- The answer to a read changes the response alone. -/
theorem FlipRaised.respond_rest (h : FlipRaised i a b q x s t) : t.respond l =
    { s with fq := t.fq, ev := t.ev, out := t.out, pcie := t.pcie, hi := (t.respond l).hi } :=
  congrArg (fun w : State => { w with hi := (t.respond l).hi }) h.rest

/-! ## A submission (R65) -/

/-- The result of a submission of slot `n`: the first condition of R65 that applies. -/
def State.fqCode (s : State) (q n : Nat) : Nat :=
  if !((s.fqueue q).slot n).valid ∨ s.ingestFed (q / 4) (q % 4) then E_STATE
  else if (s.fqueue q).inUse n then E_CONFLICT
  else if 4 ≤ (s.fqueue q).waiting.length then S_BUSY
  else S_OK

/-- A submission appends its slot where the result is S_OK, and raises FLIP_REFUSED elsewhere. -/
theorem State.fqSubmit_eq : s.fqSubmit q v =
    if s.fqCode q (getBits v 0 3) = S_OK then
      s.setFqueue q { s.fqueue q with waiting := (s.fqueue q).waiting ++ [getBits v 0 3], lastResult := S_OK }
    else (s.setFqueue q { s.fqueue q with lastResult := s.fqCode q (getBits v 0 3) }).raise2
      FLIP_REFUSED q (s.fqCode q (getBits v 0 3)) := rfl

theorem State.fqCode_state (h : ((s.fqueue q).slot n).valid = false ∨ s.ingestFed (q / 4) (q % 4) = true) :
    s.fqCode q n = E_STATE :=
  if_pos (h.imp_left fun hv => by rw [hv]; rfl)

/-- A registered slot of a flip-fed layer is refused for its use first, and for the depth of the queue second. -/
theorem State.fqCode_registered (hv : ((s.fqueue q).slot n).valid = true) (hf : s.ingestFed (q / 4) (q % 4) = false) :
    s.fqCode q n =
      if (s.fqueue q).inUse n then E_CONFLICT else if 4 ≤ (s.fqueue q).waiting.length then S_BUSY else S_OK :=
  if_neg (by simp [hv, hf])

theorem State.fqSubmit_accepts (h : s.fqCode q (getBits v 0 3) = S_OK) : s.fqSubmit q v =
    s.setFqueue q { s.fqueue q with waiting := (s.fqueue q).waiting ++ [getBits v 0 3], lastResult := S_OK } := by
  rw [State.fqSubmit_eq, if_pos h]

theorem State.fqSubmit_refuses {code : Nat} (h : s.fqCode q (getBits v 0 3) = code) (hc : code ≠ S_OK) :
    FlipRaised FLIP_REFUSED q code q { s.fqueue q with lastResult := code } s (s.fqSubmit q v) := by
  subst h
  rw [State.fqSubmit_eq, if_neg hc]
  exact .setFqueue_raise2 (by decide)

/-! ## A read of HD_FQ_RETIRED (R67) -/

/-- The word that a retirement is read as (R63), with its valid bit set. -/
def Retired.word (r : Retired) : Word :=
  BitVec.ofNat 32 (r.slot % 8) ||| (if r.mismatch then 8 else 0) ||| (if r.unshown then 16 else 0) ||| 0x80000000

/-- The fields of a retirement do not overlap, so that their sum is their union. -/
theorem Retired.word_eq_sum (h : r.slot < 8) :
    BitVec.ofNat 32 (r.slot + r.mismatch.toNat * 8 + r.unshown.toNat * 16 + 2 ^ 31) = r.word := by
  have hall : ∀ n < 8, ∀ m u : Bool, BitVec.ofNat 32 (n + m.toNat * 8 + u.toNat * 16 + 2 ^ 31) =
      (Retired.mk n m u).word := by decide
  exact hall r.slot h r.mismatch r.unshown

/-- A retirement that finds room enters the FIFO. -/
theorem State.retire_room (h : (s.fqueue q).fifo.length < 8) : s.retire q r =
    (s.setFqueue q { s.fqueue q with fifo := (s.fqueue q).fifo ++ [r] }).raise2 BUFFER_RETIRED q r.slot := if_pos h

theorem State.setFqueue_setFqueue {y : FlipQueue} : (s.setFqueue q x).setFqueue q y = s.setFqueue q y := by
  simp only [State.setFqueue, tabSet_tabSet]

theorem State.fqPop_empty (h : (s.fqueue q).fifo = []) : s.fqPop q = (0, s) := by
  simp only [State.fqPop, h]

theorem State.fqPop_last (hf : (s.fqueue q).fifo = r :: f) (hr : r.slot < 8) (hn : (s.fqueue q).retiring = []) :
    s.fqPop q = (r.word, s.setFqueue q { s.fqueue q with fifo := f }) := by
  simp only [State.fqPop, hf, hn, Retired.word_eq_sum hr]

/-- A read that makes room: the oldest retirement that waits enters behind those in the FIFO. -/
theorem State.fqPop_admits {m : Retired} (hf : (s.fqueue q).fifo = r :: f) (hr : r.slot < 8)
    (hn : (s.fqueue q).retiring = m :: u) (hl : f.length < 8) :
    s.fqPop q = (r.word, (s.setFqueue q { s.fqueue q with fifo := f ++ [m], retiring := u }).raise2 BUFFER_RETIRED q m.slot) := by
  have hroom : ((s.setFqueue q { s.fqueue q with fifo := f, retiring := u }).fqueue q).fifo.length < 8 := by
    rw [State.fqueue_setFqueue_same]; exact hl
  simp only [State.fqPop, hf, hn, Retired.word_eq_sum hr, State.retire_room hroom, State.fqueue_setFqueue_same,
    State.setFqueue_setFqueue]

/-! ## The two commands -/

theorem exec_fqSubmit_up {j : Iface} {k : Fin 16} (h : s.hostUp j = true) :
    exec (.fqSubmit j k v) s = .next (s.fqSubmit k v) := by
  change execFqSubmit j k v s = _
  rw [execFqSubmit, State.host_up h]

theorem exec_fqRetiredPop_up {j : Iface} {k : Fin 16} (h : s.hostUp j = true) (hp : s.fqPop k = (v, t)) :
    exec (.fqRetiredPop j k) s = .next (t.respond (wordBytes v)) := by
  change execFqRetiredPop j k s = _
  rw [execFqRetiredPop, State.host_up h, hp]

end Sys2Proof.Machine

open Sys2Proof Sys2Proof.Machine

/-- Settles O20: a submission by the conditions of R65 in their order, a read by what the FIFO holds and what waits behind it. -/
theorem flipQueuesTakeAndRetire : Obligations.FlipQueuesTakeAndRetire := by
  refine ⟨fun s i q v hup => ⟨?accepted, ?refused⟩, fun s i q r n f u hup => ⟨?empty, fun hf hr => ⟨?last, ?admits⟩⟩⟩
  case accepted =>
    intro hv hfed huse hlen
    have hcode : s.fqCode q (getBits v 0 3) = S_OK := by
      rw [State.fqCode_registered hv hfed, huse, if_neg Bool.false_ne_true, if_neg (by omega)]
    rw [exec_fqSubmit_up hup, State.fqSubmit_accepts hcode]
  case refused =>
    intro code h
    obtain ⟨hcode, hrefused⟩ : s.fqCode q (getBits v 0 3) = code ∧ code ≠ S_OK := by
      obtain ⟨hstate, rfl⟩ | ⟨hv, hfed, huse, rfl⟩ | ⟨hv, hfed, huse, hlen, rfl⟩ := h
      · exact ⟨State.fqCode_state hstate, by decide⟩
      · exact ⟨by rw [State.fqCode_registered hv hfed, if_pos huse], by decide⟩
      · exact ⟨by rw [State.fqCode_registered hv hfed, huse, if_neg Bool.false_ne_true, if_pos hlen], by decide⟩
    have ht := State.fqSubmit_refuses hcode hrefused
    exact ⟨_, exec_fqSubmit_up hup, ht.queue, ht.raised, ht.events, ht.rest⟩
  case empty =>
    intro hf
    have hzero : wordBytes 0 = [0, 0, 0, 0] := by decide
    rw [exec_fqRetiredPop_up hup (State.fqPop_empty hf), hzero]
  case last =>
    exact fun hn => exec_fqRetiredPop_up hup (State.fqPop_last hf hr hn)
  case admits =>
    intro hn hl
    have ht : FlipRaised BUFFER_RETIRED q n.slot q { s.fqueue q with fifo := f ++ [n], retiring := u } s _ :=
      .setFqueue_raise2 (by decide)
    exact ⟨_, exec_fqRetiredPop_up hup (State.fqPop_admits hf hr hn hl), ht.queue, rfl, ht.raised, ht.events, ht.respond_rest⟩
end

section
/-!
PROOFS. Mailboxes (R301 to R305): what the start of waiting heads does to a mailbox, a command that becomes head, the end of a
head's work and the words it writes, and the two writes of MB_CTRL.
-/

namespace Sys2Proof.Machine

variable {s t : State} {b : Mailbox} {c d : MbCmd} {l : List MbCmd} {g : MbCmd → MbCmd} {e : Nat × MbCmd} {p : State × List Nat}
  {i a w k m n code : Nat} {v : Word} {results : List Word} {reply : Tab Word} {spi : Bool}

/-! ## One mailbox and its head -/

/-- A change of the head is a change of the first command, where there is one. -/
theorem State.modHead_eq : s.modHead m g = s.setMbox m { s.mbox m with cmds := (s.mbox m).cmds.modifyHead g } := by
  unfold State.modHead State.modMbox
  dsimp only
  split
  next h => rw [h, List.modifyHead_cons]
  next h => rw [h, List.modifyHead_nil, ← h]

theorem State.mbox_modHead_same : (s.modHead m g).mbox m = { s.mbox m with cmds := (s.mbox m).cmds.modifyHead g } := by
  rw [State.modHead_eq, State.mbox_setMbox_same]

theorem State.mbox_modHead_other (h : n ≠ m) : (s.modHead m g).mbox n = s.mbox n := State.mbox_modMbox_other h

theorem State.cmdHead_cons (h : (s.mbox m).cmds = c :: l) : s.cmdHead m = some c := by
  rw [State.cmdHead, h]; rfl

theorem State.cmdHead_nil (h : (s.mbox m).cmds = []) : s.cmdHead m = none := by
  rw [State.cmdHead, h]; rfl

/-! ## Waiting heads start (R302, R307) -/

/-- A mailbox whose head, if it has one, runs. -/
def Mailbox.started (b : Mailbox) : Mailbox := { b with cmds := b.cmds.modifyHead (fun c => { c with state := MB_RUNNING }) }

theorem Mailbox.started_started : b.started.started = b.started := by
  unfold Mailbox.started
  cases b.cmds <;> rfl

/-- One waiting head starts where what it needs is free beside what is taken; in either case it keeps its place for it. -/
def startOne (p : State × List Nat) (e : Nat × MbCmd) : State × List Nat :=
  (if canTake p.2 e.2.resources then p.1.modHead e.1 (fun c => { c with state := MB_RUNNING }) else p.1, p.2 ++ e.2.resources)

theorem State.startHeads_serving (h : s.serving = true) : s.startHeads = (s.waitingHeads.foldl startOne (s, s.taken)).1 := if_pos h

theorem State.startHeads_idle (h : s.serving = false) : s.startHeads = s := if_neg (by simp [h])

theorem mbox_startOne :
    (startOne p e).1.mbox n = if n = e.1 ∧ canTake p.2 e.2.resources then (p.1.mbox n).started else p.1.mbox n := by
  by_cases ht : canTake p.2 e.2.resources = true
  · by_cases hn : n = e.1
    · subst hn
      simp only [startOne, ht, if_true, State.mbox_modHead_same, and_self, Mailbox.started]
    · simp only [startOne, ht, if_true, State.mbox_modHead_other hn, hn, false_and, if_false]
  · simp only [startOne, ht, Bool.false_eq_true, and_false, if_false]

/-- The start of the heads of a list reaches the mailboxes alone. -/
theorem foldl_startOne_rest {L : List (Nat × MbCmd)} :
    (L.foldl startOne p).1 = { p.1 with mb := (L.foldl startOne p).1.mb } := by
  induction L generalizing p with
  | nil => rfl
  | cons e L ih =>
    have hone : (startOne p e).1 = { p.1 with mb := (startOne p e).1.mb } := by
      unfold startOne
      dsimp only
      split <;> rfl
    exact ih.trans (congrArg (fun u : State => { u with mb := ((e :: L).foldl startOne p).1.mb }) hone)

/-- A mailbox is left as it is, or it is in the list and its head runs. -/
theorem foldl_startOne_mbox {L : List (Nat × MbCmd)} : (L.foldl startOne p).1.mbox n = p.1.mbox n ∨
    n ∈ L.map (·.1) ∧ (L.foldl startOne p).1.mbox n = (p.1.mbox n).started := by
  induction L generalizing p with
  | nil => exact .inl rfl
  | cons e L ih =>
    rw [List.foldl_cons]
    have hone := mbox_startOne (p := p) (e := e) (n := n)
    split at hone
    next h =>
      have hmem : n ∈ (e :: L).map (·.1) := by simp [h.1]
      obtain hkeep | ⟨_, hstart⟩ := ih (p := startOne p e)
      · exact .inr ⟨hmem, hkeep.trans hone⟩
      · exact .inr ⟨hmem, by rw [hstart, hone, Mailbox.started_started]⟩
    next =>
      refine ih.imp (·.trans hone) fun ⟨hmem, hstart⟩ => ⟨?_, by rw [hstart, hone]⟩
      exact List.mem_cons_of_mem _ hmem

/-- A head of the list that needs no resource runs after it. -/
theorem foldl_startOne_starts {L : List (Nat × MbCmd)} (h : e ∈ L) (hr : e.2.resources = []) :
    (L.foldl startOne p).1.mbox e.1 = (p.1.mbox e.1).started := by
  induction L generalizing p with
  | nil => cases h
  | cons f L ih =>
    rw [List.foldl_cons]
    obtain rfl | h := List.mem_cons.mp h
    · have hone : (startOne p e).1.mbox e.1 = (p.1.mbox e.1).started := by
        rw [mbox_startOne, hr]; exact if_pos ⟨rfl, rfl⟩
      obtain hkeep | ⟨_, hstart⟩ := foldl_startOne_mbox (L := L) (p := startOne p e) (n := e.1)
      · exact hkeep.trans hone
      · rw [hstart, hone, Mailbox.started_started]
    · rw [ih h, mbox_startOne]
      split
      · exact Mailbox.started_started
      · rfl

theorem State.mem_waitingHeads : (n, c) ∈ s.waitingHeads ↔ n < 8 ∧ s.cmdHead n = some c ∧ c.state = MB_QUEUED := by
  simp only [State.waitingHeads, List.mem_insertionSort, List.mem_filterMap, List.mem_range, Option.bind_eq_some_iff,
    Option.ite_none_right_eq_some, Option.some.injEq, Prod.mk.injEq]
  constructor
  · rintro ⟨_, hn, _, hhead, hq, rfl, rfl⟩
    exact ⟨hn, hhead, hq⟩
  · rintro ⟨hn, hhead, hq⟩
    exact ⟨n, hn, c, hhead, hq, rfl, rfl⟩

theorem State.startHeads_rest : s.startHeads = { s with mb := s.startHeads.mb } := by
  cases h : s.serving with
  | true => rw [State.startHeads_serving h]; exact foldl_startOne_rest
  | false => rw [State.startHeads_idle h]

/-- A mailbox is left as it is, or its head waits and then runs. -/
theorem State.mbox_startHeads : s.startHeads.mbox n = s.mbox n ∨
    ∃ c, s.cmdHead n = some c ∧ c.state = MB_QUEUED ∧ s.startHeads.mbox n = (s.mbox n).started := by
  cases h : s.serving with
  | false => exact .inl (by rw [State.startHeads_idle h])
  | true =>
    rw [State.startHeads_serving h]
    refine foldl_startOne_mbox.imp_right fun ⟨hmem, hstart⟩ => ?_
    obtain ⟨⟨_, c⟩, hwait, rfl⟩ := List.mem_map.mp hmem
    obtain ⟨_, hhead, hq⟩ := State.mem_waitingHeads.mp hwait
    exact ⟨c, hhead, hq, hstart⟩

theorem State.mbox_startHeads_nil (h : (s.mbox n).cmds = []) : s.startHeads.mbox n = s.mbox n := by
  obtain hkeep | ⟨c, hhead, _⟩ := State.mbox_startHeads (s := s) (n := n)
  · exact hkeep
  · rw [State.cmdHead_nil h] at hhead; cases hhead

theorem State.mbox_startHeads_other (h : s.cmdHead n = some c) (hc : c.state ≠ MB_QUEUED) : s.startHeads.mbox n = s.mbox n := by
  obtain hkeep | ⟨_, hhead, hq, _⟩ := State.mbox_startHeads (s := s) (n := n)
  · exact hkeep
  · obtain rfl := Option.some.inj (h.symm.trans hhead)
    exact absurd hq hc

theorem State.mbox_startHeads_free (hn : n < 8) (hs : s.serving = true) (h : s.cmdHead n = some c) (hc : c.state = MB_QUEUED)
    (hr : c.resources = []) : s.startHeads.mbox n = (s.mbox n).started := by
  rw [State.startHeads_serving hs]
  exact foldl_startOne_starts (State.mem_waitingHeads.mpr ⟨hn, h, hc⟩) hr

/-! ## A command becomes head (R302, R303) -/

/-- The command in front of a mailbox takes its number as head, and the reply is cleared; it has not started yet. -/
def State.fronted (s : State) (m : Nat) : State :=
  { s.modHead m (fun c => { c with since := s.serial }) with serial := s.serial + 1 }.modMbox m (fun b => { b with reply := [] })

theorem State.newHead_eq : s.newHead m = (s.fronted m).startHeads := rfl

theorem State.mbox_fronted : (s.fronted m).mbox m =
    { s.mbox m with cmds := (s.mbox m).cmds.modifyHead (fun c => { c with since := s.serial }), reply := [] } := by
  rw [State.fronted, State.mbox_modMbox_same]
  change { (s.modHead m (fun c => { c with since := s.serial })).mbox m with reply := [] } = _
  rw [State.mbox_modHead_same]

theorem State.newHead_serial : (s.newHead m).serial = s.serial + 1 := by
  rw [State.newHead_eq, State.startHeads_rest]
  rfl

theorem State.newHead_rest : s.newHead m = { s with mb := (s.newHead m).mb, serial := (s.newHead m).serial } := by
  rw [State.newHead_serial]
  exact State.startHeads_rest

theorem State.mbox_newHead_nil (h : (s.mbox m).cmds = []) : (s.newHead m).mbox m = { s.mbox m with cmds := [], reply := [] } := by
  have hf : (s.fronted m).mbox m = { s.mbox m with cmds := [], reply := [] } := by
    rw [State.mbox_fronted, h, List.modifyHead_nil]
  rw [State.newHead_eq, State.mbox_startHeads_nil (by rw [hf]), hf]

/-- The new head is the command in front, numbered, and either as it was or running; while nothing is served it is as it was, and
where it needs no resource and heads are served it runs. -/
theorem State.mbox_newHead_cons (h : (s.mbox m).cmds = c :: l) : ∃ st,
    (s.newHead m).mbox m = { s.mbox m with cmds := { c with since := s.serial, state := st } :: l, reply := [] } ∧
    (s.serving = false → st = c.state) ∧
    (m < 8 → s.serving = true → c.state = MB_QUEUED → c.resources = [] → st = MB_RUNNING) := by
  have hf : (s.fronted m).mbox m = { s.mbox m with cmds := { c with since := s.serial } :: l, reply := [] } := by
    rw [State.mbox_fronted, h, List.modifyHead_cons]
  have hstarted : ((s.fronted m).mbox m).started =
      { s.mbox m with cmds := { c with since := s.serial, state := MB_RUNNING } :: l, reply := [] } := by rw [hf]; rfl
  have hhead : (s.fronted m).cmdHead m = some { c with since := s.serial } := State.cmdHead_cons (by rw [hf])
  rw [State.newHead_eq]
  by_cases hstarts : (s.fronted m).startHeads.mbox m = ((s.fronted m).mbox m).started ∧ s.serving = true
  · obtain ⟨hstart, hserving⟩ := hstarts
    exact ⟨MB_RUNNING, hstart.trans hstarted, by simp [hserving], fun _ _ _ _ => rfl⟩
  · have hkeep : (s.fronted m).startHeads.mbox m = (s.fronted m).mbox m := by
      cases hserving : s.serving with
      | false => exact congrArg (·.mbox m) (State.startHeads_idle (s := s.fronted m) hserving)
      | true =>
        obtain hkeep | ⟨_, _, _, hstart⟩ := State.mbox_startHeads (s := s.fronted m) (n := m)
        · exact hkeep
        · exact absurd ⟨hstart, hserving⟩ hstarts
    refine ⟨c.state, hkeep.trans hf, fun _ => rfl, fun hm hserving hq hr => ?_⟩
    exact absurd ⟨State.mbox_startHeads_free hm hserving hhead hq hr, hserving⟩ hstarts

theorem State.popHead_rest : s.popHead m = { s with mb := (s.popHead m).mb, serial := (s.popHead m).serial } :=
  State.newHead_rest

theorem State.mbox_popHead_last (h : (s.mbox m).cmds = [c]) : (s.popHead m).mbox m = { s.mbox m with cmds := [], reply := [] } := by
  have hpop : (s.modMbox m (fun b => { b with cmds := b.cmds.drop 1 })).mbox m = { s.mbox m with cmds := [] } := by
    rw [State.mbox_modMbox_same, h]; rfl
  rw [State.popHead, State.mbox_newHead_nil (by rw [hpop]), hpop]

theorem State.mbox_popHead_next (h : (s.mbox m).cmds = c :: d :: l) : ∃ st,
    (s.popHead m).mbox m = { s.mbox m with cmds := { d with since := s.serial, state := st } :: l, reply := [] } := by
  have hpop : (s.modMbox m (fun b => { b with cmds := b.cmds.drop 1 })).mbox m = { s.mbox m with cmds := d :: l } := by
    rw [State.mbox_modMbox_same, h]; rfl
  obtain ⟨st, hst, _⟩ := State.mbox_newHead_cons (s := s.modMbox m (fun b => { b with cmds := b.cmds.drop 1 })) (by rw [hpop])
  exact ⟨st, by rw [State.popHead, hst, hpop]; rfl⟩

/-! ## A change of mailboxes that raises a source -/

/-- From `s` to `t` mailbox `m` has become `b` and source `i` is raised with `a` and `k`; no other source, and no part of the
machine but the mailboxes and what a raise reaches, differs. -/
structure MailboxRaised (i a k m : Nat) (b : Mailbox) (s t : State) : Prop where
  mbox : t.mbox m = b
  raised : Raised i a k s t
  events : OnlyEvents [i] s t
  rest : t = { s with mb := t.mb, ev := t.ev, out := t.out, pcie := t.pcie }

theorem MailboxRaised.raise2 (h : isSource i = true) (hb : t.mbox m = b) (ht : ∃ x, t = { s with mb := x }) :
    MailboxRaised i a k m b s (t.raise2 i a k) := by
  obtain ⟨x, rfl⟩ := ht
  exact {
    mbox := by rw [State.raise2_parts]; exact hb
    raised := (State.raise2_raised h).of_ev rfl
    events := (OnlyEvents.of_ev rfl).trans State.raise2_only
    rest := by rw [State.raise2_parts] }

/-! ## A doorbell (R301) -/

/-- The command that the request region of a mailbox spells. -/
def State.requested (s : State) (m : Nat) (spi : Bool) : MbCmd :=
  let w := fun i : Nat => tabGet (fun _ => (0 : Word)) (s.mbox m).request i
  { id := s.serial, code := getBits (w 0) 0 16, nArgs := getBits (w 0) 16 8, kind := getBits (w 1) 0 3, target := getBits (w 1) 4 6,
    band := getBits (w 1) 10 5, tag := getBits (w 1) 16 16
    args := (List.range (min (getBits (w 0) 16 8) 62)).map (fun i => w (2 + i))
    spi := spi, state := MB_QUEUED, result := 0, outcome := none, progress := 0, partials := 0, newPartial := false, sheaf := none
    orphan := false, begun := false, done := 0, since := 0 }

/-- The mailbox with its request queued; where it was empty the request is not head yet. -/
def State.queued (s : State) (m : Nat) (spi : Bool) : State :=
  { s.setMbox m { s.mbox m with cmds := (s.mbox m).cmds ++ [s.requested m spi], lastSubmit := S_QUEUED } with serial := s.serial + 1 }

theorem State.mbox_queued :
    (s.queued m spi).mbox m = { s.mbox m with cmds := (s.mbox m).cmds ++ [s.requested m spi], lastSubmit := S_QUEUED } :=
  State.mbox_setMbox_same

theorem State.submit_full (h : 4 ≤ (s.mbox m).cmds.length) : s.submit m spi =
    (s.setMbox m { s.mbox m with lastSubmit := S_BUSY, busy := min 65535 ((s.mbox m).busy + 1) }).raise2 MB_BUSY m 0 := if_pos h

theorem State.submit_room (h : (s.mbox m).cmds.length < 4) :
    s.submit m spi = if (s.mbox m).cmds.isEmpty then (s.queued m spi).newHead m else s.queued m spi := if_neg (by omega)

theorem State.submit_busy (h : 4 ≤ (s.mbox m).cmds.length) :
    MailboxRaised MB_BUSY m 0 m { s.mbox m with lastSubmit := S_BUSY, busy := min 65535 ((s.mbox m).busy + 1) } s (s.submit m spi) := by
  rw [State.submit_full h]
  exact .raise2 (by decide) State.mbox_setMbox_same ⟨_, rfl⟩

theorem State.submit_rest (h : (s.mbox m).cmds.length < 4) :
    s.submit m spi = { s with mb := (s.submit m spi).mb, serial := (s.submit m spi).serial } := by
  rw [State.submit_room h]
  split
  · exact State.newHead_rest (s := s.queued m spi)
  · rfl

/-- The request is the last command of the mailbox; it waits, but for one that finds the mailbox empty, is served and needs no
resource. -/
theorem State.mbox_submit (hm : m < 8) (h : (s.mbox m).cmds.length < 4) : ∃ st n,
    ((s.submit m spi).mbox m).cmds = (s.mbox m).cmds ++ [{ s.requested m spi with since := n, state := st }] ∧
    ((s.submit m spi).mbox m).lastSubmit = S_QUEUED ∧
    ((s.mbox m).cmds ≠ [] ∨ s.serving = false → st = MB_QUEUED) ∧
    ((s.mbox m).cmds = [] → s.serving = true → (s.requested m spi).resources = [] → st = MB_RUNNING) := by
  rw [State.submit_room h]
  cases hb : (s.mbox m).cmds with
  | nil =>
    have hq : ((s.queued m spi).mbox m).cmds = [s.requested m spi] := by rw [State.mbox_queued, hb]; rfl
    obtain ⟨st, hst, hidle, hfree⟩ := State.mbox_newHead_cons hq
    rw [List.isEmpty_nil, if_pos rfl, hst, State.mbox_queued]
    exact ⟨st, _, rfl, rfl, fun h => hidle (h.resolve_left (· rfl)), fun _ hs => hfree hm hs rfl⟩
  | cons c l =>
    rw [List.isEmpty_cons, if_neg Bool.false_ne_true, State.mbox_queued, hb]
    exact ⟨MB_QUEUED, 0, rfl, rfl, fun _ => rfl, fun h => absurd h (List.cons_ne_nil c l)⟩

/-! ## The end of a head's work (R302) -/

/-- A reply with the results of a command and n_results. -/
def replyWith (results : List Word) (reply : Tab Word) : Tab Word :=
  tabSet (fun _ => (0 : Word))
    (results.zipIdx.foldl (fun (t : Tab Word) e => tabSet (fun _ => 0) t (66 + e.2) e.1) reply) 65 (BitVec.ofNat 32 results.length)

theorem replyWith_count : tabGet (fun _ => 0) (replyWith results reply) 65 = BitVec.ofNat 32 results.length := tabGet_set_same

theorem replyWith_result (h : k < results.length) : tabGet (fun _ => 0) (replyWith results reply) (66 + k) = results.getD k 0 := by
  rw [replyWith, tabGet_set_other (by omega)]
  induction results using List.reverseRecOn with
  | nil => exact absurd h (Nat.not_lt_zero k)
  | append_singleton rs r ih =>
    rw [List.zipIdx_append, List.foldl_append, Nat.zero_add, List.zipIdx_singleton, List.foldl_cons, List.foldl_nil]
    rw [List.length_append, List.length_singleton] at h
    obtain rfl | hk : k = rs.length ∨ k < rs.length := by omega
    · rw [tabGet_set_same, List.getD_append_right _ _ _ _ (Nat.le_refl _), Nat.sub_self]
      rfl
    · rw [tabGet_set_other (by omega), ih hk, List.getD_append _ _ _ _ hk]

/-- The state that a command ends in with a code (R302). -/
def endState (code : Nat) : Nat := if code = S_OK ∨ code = S_PARTIAL then MB_DONE_ST else MB_FAILED

theorem endState_ne_queued : endState code ≠ MB_QUEUED := by
  unfold endState
  split <;> decide

/-- The mailbox after the end of its head `c` with a code and results. -/
def Mailbox.ended (b : Mailbox) (code : Nat) (results : List Word) (c : MbCmd) (l : List MbCmd) : Mailbox :=
  { b with
    cmds := { c with state := endState code, result := code } :: l
    reply := replyWith results b.reply
    completed := (b.completed + 1) % 65536 }

/-- The end of a head's work before MB_DONE is raised. -/
def State.endHead (s : State) (m code : Nat) (results : List Word) : State :=
  ((s.modMbox m (fun b => { b with reply := replyWith results (s.mbox m).reply, completed := (b.completed + 1) % 65536 })).modHead m
    (fun c => { c with state := endState code, result := code })).startHeads

theorem State.finishHead_eq (h : c.orphan = false) :
    s.finishHead m c code results = (s.endHead m code results).raise2 (MB_DONE m) c.tag code := if_neg (by simp [h])

theorem State.endHead_rest : s.endHead m code results = { s with mb := (s.endHead m code results).mb } := State.startHeads_rest

theorem State.mbox_endHead (h : (s.mbox m).cmds = c :: l) :
    (s.endHead m code results).mbox m = (s.mbox m).ended code results c l := by
  unfold State.endHead
  generalize ht : State.modHead _ _ _ = t
  have hend : t.mbox m = (s.mbox m).ended code results c l := by
    rw [← ht, State.mbox_modHead_same, State.mbox_modMbox_same, h]
    rfl
  rw [State.mbox_startHeads_other (State.cmdHead_cons (by rw [hend]; rfl)) endState_ne_queued, hend]

theorem isSource_mbDone (m : Fin 8) : isSource (MB_DONE m) = true := by
  revert m
  decide

/-- The end of the work of a head whose reply is not discarded. -/
theorem State.finishHead_ends {m : Fin 8} (h : (s.mbox m).cmds = c :: l) (ho : c.orphan = false) :
    MailboxRaised (MB_DONE m) c.tag code m ((s.mbox m).ended code results c l) s (s.finishHead m c code results) := by
  rw [State.finishHead_eq ho]
  exact .raise2 (isSource_mbDone m) (State.mbox_endHead h) ⟨_, State.endHead_rest⟩

theorem State.mbWord_reply (h : 64 < w) : s.mbWord m w = tabGet (fun _ => 0) (s.mbox m).reply w := by
  unfold State.mbWord
  dsimp only
  rw [if_neg (by omega), if_neg (by omega)]

theorem State.mbWord_ended_count (h : t.mbox m = b.ended code results c l) : t.mbWord m 65 = BitVec.ofNat 32 results.length := by
  rw [State.mbWord_reply (by decide), h]
  exact replyWith_count

theorem State.mbWord_ended_result (h : t.mbox m = b.ended code results c l) (hk : k < results.length) :
    t.mbWord m (66 + k) = results.getD k 0 := by
  rw [State.mbWord_reply (by omega), h]
  exact replyWith_result hk

/-! ## Writes of MB_CTRL (R303, R305) -/

theorem State.mbCtrl_ended (h : s.cmdHead m = some c) (hc : c.state = MB_DONE_ST ∨ c.state = MB_FAILED) :
    s.mbCtrl m v = if v.getLsbD 0 then s.popHead m else s := by
  simp only [State.mbCtrl, State.ackHead, h, if_pos hc]

theorem State.mbCtrl_unended (h : s.cmdHead m = some c) (hc : ¬(c.state = MB_DONE_ST ∨ c.state = MB_FAILED)) :
    s.mbCtrl m v = if v.getLsbD 1 then s.abortHead m else s := by
  simp only [State.mbCtrl, h, if_neg hc]

theorem State.abortHead_refused (h : s.cmdHead m = some c) (ha : c.abortable = false) : s.abortHead m = s := by
  simp only [State.abortHead, h, ha, Bool.not_false, if_true]

/-- An abort of a running command whose work has no part outside its mailbox leaves the machine as it is, and the work done is the
result of a transfer. -/
theorem State.stopWork_eq (h : c.code ∉ [0x0201, 0x0401, 0x0601, 0x0701, 0x0901]) :
    s.stopWork m c = (s, if c.code = 0x0501 ∨ c.code = 0x0502 then BitVec.ofNat 32 c.done else 0) := by
  unfold State.stopWork
  split <;> simp_all

theorem State.abortHead_running (h : s.cmdHead m = some c) (ha : c.abortable = true) (hr : c.state = MB_RUNNING)
    (ho : c.outcome = none) (hc : c.code ∉ [0x0201, 0x0401, 0x0601, 0x0701, 0x0901]) : s.abortHead m =
      s.finishHead m c E_STATE [if c.code = 0x0501 ∨ c.code = 0x0502 then BitVec.ofNat 32 c.done else 0] := by
  have hpass : c.code ≠ 0x0901 := fun h9 => hc (by simp [h9])
  have hwait : MB_RUNNING ≠ MB_QUEUED := by decide
  simp only [State.abortHead, h, ha, hr, ho, hpass, hwait, State.stopWork_eq hc, Bool.not_true, Bool.false_eq_true, and_self,
    false_and, if_true, if_false]

/-! ## The commands -/

theorem exec_mailboxDoorbell_up {j : Iface} {m : Fin 8} (h : s.hostUp j = true) :
    exec (.mailboxDoorbell j m v) s = .next (if v.getLsbD 0 then s.submit m (j == .spi) else s) := by
  change execMailboxDoorbell j m v s = _
  rw [execMailboxDoorbell, State.host_up h]

theorem exec_mailboxAck_up {j : Iface} {m : Fin 8} (h : s.hostUp j = true) :
    exec (.mailboxAck j m v) s = .next (s.mbCtrl m (v ||| 1)) := by
  change execMailboxAck j m v s = _
  rw [execMailboxAck, State.host_up h]

theorem exec_mailboxAbort_up {j : Iface} {m : Fin 8} (h : s.hostUp j = true) :
    exec (.mailboxAbort j m v) s = .next (s.mbCtrl m (v ||| 2)) := by
  change execMailboxAbort j m v s = _
  rw [execMailboxAbort, State.host_up h]

theorem exec_mbStatusRead_up {j : Iface} {m : Fin 8} (h : s.hostUp j = true) :
    exec (.mbStatusRead j m) s = .next ((s.readStatus m).respond (wordBytes (s.mbStatus m))) := by
  change execMbStatusRead j m s = _
  rw [execMbStatusRead, State.host_up h]

theorem getLsbD_or_ack : (v ||| 1).getLsbD 0 = true ∧ (v ||| 1).getLsbD 1 = v.getLsbD 1 := by simp
theorem getLsbD_or_abort : (v ||| 2).getLsbD 0 = v.getLsbD 0 ∧ (v ||| 2).getLsbD 1 = true := by simp

/-- An acknowledgement takes away a head that has ended. -/
theorem exec_mailboxAck_ended {j : Iface} {m : Fin 8} (h : s.hostUp j = true) (hb : (s.mbox m).cmds = c :: l)
    (hc : c.state = MB_DONE_ST ∨ c.state = MB_FAILED) : exec (.mailboxAck j m v) s = .next (s.popHead m) := by
  rw [exec_mailboxAck_up h, State.mbCtrl_ended (State.cmdHead_cons hb) hc, if_pos getLsbD_or_ack.1]

theorem exec_mailboxAbort_running {j : Iface} {m : Fin 8} (h : s.hostUp j = true) (hb : (s.mbox m).cmds = c :: l)
    (hc : c.state = MB_RUNNING) : exec (.mailboxAbort j m v) s = .next (s.abortHead m) := by
  have hrun : ¬(c.state = MB_DONE_ST ∨ c.state = MB_FAILED) := by rw [hc]; decide
  rw [exec_mailboxAbort_up h, State.mbCtrl_unended (State.cmdHead_cons hb) hrun, if_pos getLsbD_or_abort.2]

/-- With no driver work and no switch under way, firmware has nothing to settle. -/
theorem State.fwSettle_idle (hi : s.dbIdle = true) (ha : s.fw.applying = none) : s.fwSettle = s := by
  simp only [State.dbIdle, Bool.and_eq_true, List.isEmpty_iff] at hi
  obtain ⟨⟨⟨hl, hc⟩, hv⟩, hr⟩ := hi
  simp [State.fwSettle, State.fwPrune, hl, hc, hv, hr, ha]

/-- How the head of a mailbox ends: with what its work ended with, or with the code of R306 that it fails. -/
def MbCmd.ending (c : MbCmd) (fallow : Bool) : Option (Nat × List Word) :=
  match c.outcome with
  | some o => some o
  | none => if c.refusal fallow = 0 then none else some (c.refusal fallow, [])

theorem exec_mailboxCommandComplete_held {m : Fin 8} (h : s.serving = false) : exec (.mailboxCommandComplete m) s = .next s := by
  change execMailboxCommandComplete m s = _
  rw [execMailboxCommandComplete, h]; rfl

section
variable {m : Fin 8} (hs : s.serving = true) (ha : s.fw.applying = none) (hi : s.dbIdle = true)
include hs ha hi

theorem exec_mailboxCommandComplete_nil (h : (s.mbox m).cmds = []) : exec (.mailboxCommandComplete m) s = .next s := by
  change execMailboxCommandComplete m s = _
  simp [execMailboxCommandComplete, hs, State.fwSettle_idle hi ha, State.cmdHead_nil h]

theorem exec_mailboxCommandComplete_cons (h : (s.mbox m).cmds = c :: l) : exec (.mailboxCommandComplete m) s =
    if c.state ≠ MB_RUNNING then .next s
    else .next ((c.ending (s.boot.phase == FALLOW)).elim s (fun o => s.finishHead m c o.1 o.2)) := by
  change execMailboxCommandComplete m s = _
  simp only [execMailboxCommandComplete, hs, State.fwSettle_idle hi ha, State.cmdHead_cons h, MbCmd.ending]
  cases c.outcome with
  | some o => rfl
  | none =>
    by_cases he : c.refusal (s.boot.phase == FALLOW) = 0
    · simp only [he, if_true, Option.elim_none, Bool.not_true, Bool.false_eq_true, if_false]
    · simp only [he, if_false, Option.elim_some, Bool.not_true, Bool.false_eq_true]

end

theorem MbCmd.refusal_args (h : c.needs ≠ some c.nArgs) {f : Bool} : c.refusal f = E_BAD_ARG := if_pos h

theorem MbCmd.refusal_fallow (h : c.needs = some c.nArgs) (hf : (cmdRow c.code).any (·.fallow) = false) :
    c.refusal true = E_FALLOW := by
  simp [MbCmd.refusal, h, hf]

end Sys2Proof.Machine

open Sys2Proof Sys2Proof.Machine

/-- Settles O50: a doorbell by the room in its mailbox, the writes of MB_CTRL and the read of MB_STATUS by the head, and the end of the
head's work by what it ends with. -/
theorem mailboxesServeTheirHeads : Obligations.MailboxesServeTheirHeads := by
  refine fun s i m v c d l => ⟨fun hup => ⟨?noSubmit, ?busy, ?queues, ?noAck, ?ackLast, ?ackNext, ?noAbort, ?notAbortable, ?aborts,
    ?readIdle, ?readHead⟩, exec_mailboxCommandComplete_held,
    fun hs ha hi => ⟨exec_mailboxCommandComplete_nil hs ha hi, ?goesOn, ?completes⟩⟩
  case noSubmit =>
    intro hv
    rw [exec_mailboxDoorbell_up hup, hv]; rfl
  case busy =>
    intro hv hfull
    have ht := State.submit_busy (spi := i == .spi) hfull
    exact ⟨_, by rw [exec_mailboxDoorbell_up hup, if_pos hv], ht.mbox, ht.raised, ht.events, ht.rest⟩
  case queues =>
    intro hv hroom
    obtain ⟨st, n, hcmds, hlast, hwaits, hruns⟩ := State.mbox_submit (spi := i == .spi) m.isLt hroom
    exact ⟨_, _, by rw [exec_mailboxDoorbell_up hup, if_pos hv], hcmds, hlast, rfl, rfl, rfl, rfl, rfl, hwaits, hruns,
      State.submit_rest hroom⟩
  case noAck =>
    intro hhead hdone hfailed hv
    rw [exec_mailboxAck_up hup, State.mbCtrl_unended hhead (not_or.mpr ⟨hdone, hfailed⟩), getLsbD_or_ack.2, hv]; rfl
  case ackLast =>
    exact fun hb hc => ⟨_, exec_mailboxAck_ended hup hb hc, State.mbox_popHead_last hb, State.popHead_rest⟩
  case ackNext =>
    intro hb hc
    obtain ⟨st, hnext⟩ := State.mbox_popHead_next hb
    exact ⟨_, { d with since := s.serial, state := st }, exec_mailboxAck_ended hup hb hc, by rw [hnext], rfl, rfl, rfl,
      by rw [hnext], State.popHead_rest⟩
  case noAbort =>
    intro hhead hc hv
    rw [exec_mailboxAbort_up hup, State.mbCtrl_ended hhead hc, getLsbD_or_abort.1, hv]; rfl
  case notAbortable =>
    intro hb hrun hno
    rw [exec_mailboxAbort_running hup hb hrun, State.abortHead_refused (State.cmdHead_cons hb) hno]
  case aborts =>
    intro hb hrun hyes hcode hout horphan
    have habort := State.abortHead_running (State.cmdHead_cons hb) hyes hrun hout hcode
    have ht := State.finishHead_ends (code := E_STATE)
      (results := [if c.code = 0x0501 ∨ c.code = 0x0502 then BitVec.ofNat 32 c.done else 0]) hb horphan
    refine ⟨_, _, by rw [exec_mailboxAbort_running hup hb hrun, habort], by rw [ht.mbox]; rfl, rfl, rfl, by rw [ht.mbox]; rfl,
      fun hmem => ?_, ht.raised, ht.events, ht.rest⟩
    exact (State.mbWord_ended_result ht.mbox (k := 0) Nat.one_pos).trans (if_pos hmem)
  case readIdle =>
    intro hb
    have hzero : wordBytes (s.mbStatus m) = [0, 0, 0, 0] := by
      rw [State.mbStatus, State.cmdHead_nil hb]
      decide
    refine ⟨_, exec_mbStatusRead_up hup, hzero, ?_, rfl⟩
    exact State.mbox_modHead_same.trans (by rw [hb, List.modifyHead_nil, ← hb])
  case readHead =>
    intro hb
    refine ⟨_, exec_mbStatusRead_up hup, ?_, ?_, rfl⟩
    · change wordBytes (s.mbStatus m) = _
      rw [State.mbStatus, State.cmdHead_cons hb]
    · exact State.mbox_modHead_same.trans (by rw [hb, List.modifyHead_cons])
  case goesOn =>
    intro hb hgoes
    rw [exec_mailboxCommandComplete_cons hs ha hi hb]
    obtain hstate | ⟨hout, hpasses⟩ := hgoes
    · rw [if_pos hstate]
    · simp only [MbCmd.ending, hout, hpasses, if_true, Option.elim_none, ite_self]
  case completes =>
    intro code results hb hrun horphan hends
    have hending : c.ending (s.boot.phase == FALLOW) = some (code, results) := by
      obtain hout | ⟨hout, rfl, ⟨hargs, rfl⟩ | ⟨hargs, hphase, hrow, rfl⟩⟩ := hends
      · rw [MbCmd.ending, hout]
      · rw [MbCmd.ending, hout]
        dsimp only
        rw [MbCmd.refusal_args hargs, if_neg (by decide)]
      · rw [MbCmd.ending, hout, hphase, beq_self_eq_true]
        dsimp only
        rw [MbCmd.refusal_fallow hargs hrow, if_neg (by decide)]
    have ht := State.finishHead_ends (code := code) (results := results) hb horphan
    refine ⟨_, _, ?_, by rw [ht.mbox]; rfl, rfl, rfl, by rw [ht.mbox]; rfl, State.mbWord_ended_count ht.mbox,
      fun k hk => State.mbWord_ended_result ht.mbox hk, ht.raised, ht.events, ht.rest⟩
    rw [exec_mailboxCommandComplete_cons hs ha hi hb, if_neg (not_not_intro hrun), hending]
    rfl
end
